-- ==== Sys2Proof/Word.lean ====
section
/-!
DEFINITION. The plain words of the machine: a byte, a 32-bit register word, and the byte strings that move
between the host and the device. Everything that a reading of the spec could get wrong (byte order, field
extraction) stands in Sys2Proof/Machine/, not here.
-/
namespace Sys2Proof

/-- One byte. -/
abbrev Byte := BitVec 8

/-- One 32-bit register word, or one general register of a post. -/
abbrev Word := BitVec 32

/-- A string of bytes in ascending address order. -/
abbrev Bytes := List Byte

/-- Division rounding up; 0 when the divisor is 0. -/
def ceilDiv (a b : Nat) : Nat := (a + b - 1) / b

end Sys2Proof
end

