-- ==== Sys2Proof/Syntax.lean ====
section
/-!
DEFINITION. The commands of the block: one constructor per row of spec/opcode_table.json, in the table's order,
with the operands that command carries. The table gives its rows no fields and no bits; the operands are what the
rule named by the row needs from outside: which unit, slice, queue, post or context acts, the value written, the
bytes that arrive, or what a sensor measured.
-/
namespace Sys2Proof

/-- What an outbound host read brings back (22_host_link R458): the bytes, or an error at the link. -/
inductive ReadResult where
  | data (bytes : Bytes)
  | error
deriving DecidableEq, Repr

/-- Which outbound host read a completion, a timeout or a translation answers: the source of a context's command, the
entries of a queue, a descriptor or piece of a firmware channel, the block of an LMS_REQ, or the zero-length read
behind a slice's last host write (12_shuttle R274). -/
inductive ReadDest where
  | ctx (n : Nat)
  | fetch (slice queue : Nat)
  | channel (f : Nat)
  | lms
  | flush (slice : Nat)
deriving DecidableEq, Repr

/-- What a detected condition concerns, where it does more than raise its source: a key slot (06_keys R158), the
two-party guard or the thimble controller (18_tamper R397). -/
inductive FireCause where
  | other
  | slot (n : Nat)
  | guard
  | thimble
deriving DecidableEq, Repr

/-- What an engine request asks of a hash engine or a purlin where the spec gives its function and cost (10_seam_signatures
R226, R231): compressions of a plain hash, an LMS/HSS signature to verify, an ECDSA P-256 signature to make or verify,
an RSA public operation. The layout of the request block that carries it belongs to frame firmware (14_miade_isa R330). -/
inductive RingAsk where
  | plain
  | hash (compressions : Nat)
  | hssVerify (pub : Bytes) (sig : Bytes) (msg : Bytes)
  | ecdsaSign (scalar : Bytes) (digest : Bytes)
  | ecdsaVerify (point : Bytes) (digest : Bytes) (sig : Bytes)
  | rsaPublic (modulus : Bytes) (exponent : Bytes) (input : Bytes)
deriving DecidableEq, Repr

/-- What a submission meets on its ring: the operation asked, and whether another sender leaves room for it. -/
structure RingUse where
  ask : RingAsk
  room : Bool
deriving DecidableEq, Repr

/-- The commands. -/
inductive Instr where
  /-- `TICK_START` (R27): A new tick's working span begins: engines, posts and shuttle channels run the stitches planned for it, and slotted posts start at their dispatch entry. -/
  | tickStart
  /-- `KERF` (R29): The kerf at the end of each tick runs the scheduler's eight ordered steps: fault responses, releases, aborts, commits, admission, planning, test selection and reseeding. -/
  | kerf (temp : Int) (vddCore : Nat)
  /-- `GOVERNOR_STEP_UP` (R51): The up-step dwell of 2^GOV_UPDWELL.N ticks expires without heat or droop and the governor moves up one step. -/
  | governorStepUp
  /-- `GOV_TEMP_UPDATE` (R55): Every 2^10 ticks the junction temperature is sampled into GOV_TEMP. -/
  | govTempUpdate (deg : Byte)
  /-- `ROTATING_TEST` (R47): On each tick with TIK_COUNT mod 4,096 = 4,095 one needle runs its known-answer test and its stitches move to cover slots. -/
  | rotatingTest (pass : Bool)
  /-- `FENCE_SUITE_START` (R48): The fence drain ends at tick k + D and the full known-answer suite begins on every engine. -/
  | fenceSuiteStart
  /-- `FENCE_END` (R48): At tick k + L the fence ends, the SELFTEST is released and admission resumes. -/
  | fenceEnd (ndlFail : Nat) (lduFail : Nat) (purFail : Nat) (hshFail : Nat)
  /-- `SQ_TAIL_DOORBELL` (R66): A write to a submission tail doorbell is checked for range and, if accepted, starts fetching entries. -/
  | sqTailDoorbell (slice : Nat) (queue : Nat) (width : Nat) (v : Word)
  /-- `CQ_HEAD_DOORBELL` (R66): A write to a completion head doorbell is checked for range and frees completion queue room. -/
  | cqHeadDoorbell (slice : Nat) (queue : Nat) (width : Nat) (v : Word)
  /-- `ENTRY_FETCH` (R67): Fetched command entries arrive on the secure die, fixing their arrival tick, or the fetch fails and stops the queue. -/
  | entryFetch (slice : Nat) (queue : Nat) (r : ReadResult)
  /-- `QUEUE_ENABLE` (R62): A write of HQ_QCTRL.EN = 1 checks the queue configuration and enables it in the next kerf. -/
  | queueEnable (slice : Nat) (queue : Nat)
  /-- `QUEUE_DISABLE` (R63): A write of HQ_QCTRL.EN = 0 takes the queue to DISABLING and, once its commands complete, DISABLED. -/
  | queueDisable (slice : Nat) (queue : Nat)
  /-- `COMPLETION_WRITE` (R34): The host queue block writes a completion entry in its link slot once egress and completion queue room allow. -/
  | completionWrite (slice : Nat) (linkOk : Bool)
  /-- `INTERRUPT_DUE` (R79): A queue's MSI-X interrupt falls due by count or by the expiry of its moderation time and is sent. -/
  | interruptDue (slice : Nat) (queue : Nat)
  /-- `CIPHER` (R99): Encrypts or decrypts host data in CBC, CTR, GCM or XTS on the needles. -/
  | cipher (ctx : Nat)
  /-- `CIPHER_TRANSLATE` (R100): Decrypts under key A and re-encrypts under key B without the plaintext leaving the device. -/
  | cipherTranslate (ctx : Nat)
  /-- `MAC_GEN` (R101): Computes an AES-CMAC under key A and returns it inline. -/
  | macGen (ctx : Nat)
  /-- `MAC_VERIFY` (R101): Verifies an appended AES-CMAC under key A. -/
  | macVerify (ctx : Nat)
  /-- `HASH` (R102): Computes a SHA-2 or SHA-3 digest of the source on a hash engine. -/
  | hash (ctx : Nat)
  /-- `PIN_TRANSLATE` (R171): Translates a batch of PIN blocks between formats and keys. -/
  | pinTranslate (ctx : Nat)
  /-- `PIN_VERIFY` (R174): Checks a PIN block against a reference PIN check value. -/
  | pinVerify (ctx : Nat)
  /-- `DUKPT_DERIVE` (R177): Derives AES DUKPT working keys per item and wraps them or re-encrypts a PIN under them. -/
  | dukptDerive (ctx : Nat)
  /-- `TOKENIZE` (R211): Turns card numbers into derived FF1 tokens or vaulted random tokens. -/
  | tokenize (ctx : Nat)
  /-- `DETOKENIZE` (R220): Turns tokens back into card numbers by FF1 or by vault lookup. -/
  | detokenize (ctx : Nat)
  /-- `VAULT_PUT` (R108): Stores or replaces a generic record under a 32-byte record key. -/
  | vaultPut (ctx : Nat)
  /-- `VAULT_GET` (R108): Reads a generic record's value by its record key. -/
  | vaultGet (ctx : Nat)
  /-- `VAULT_DELETE` (R108): Deletes a generic record by its record key. -/
  | vaultDelete (ctx : Nat)
  /-- `CRED_ISSUE` (R223): Issues a locker credential with a fresh pickup code and a seam-signed credential body. -/
  | credIssue (ctx : Nat)
  /-- `CRED_REDEEM` (R224): Checks a presented pickup code against a credential and counts or kills it. -/
  | credRedeem (ctx : Nat)
  /-- `CRED_KILL` (R224): Permanently kills a credential. -/
  | credKill (ctx : Nat)
  /-- `SIGN_SEAM` (R240): Produces a seam signature over the source with a slice pair, consuming an LMS index. -/
  | signSeam (ctx : Nat)
  /-- `VERIFY_SEAM` (R247): Verifies both halves of a seam signature. -/
  | verifySeam (ctx : Nat)
  /-- `KEM_ENCAPS` (R110): ML-KEM encapsulation to a given key, storing the shared secret in a new slot. -/
  | kemEncaps (ctx : Nat)
  /-- `KEM_DECAPS` (R110): ML-KEM decapsulation under key A, storing the shared secret in a new slot. -/
  | kemDecaps (ctx : Nat)
  /-- `ECDH` (R110): ECDH with a peer point, storing the shared secret in a new slot. -/
  | ecdh (ctx : Nat)
  /-- `KEY_GENERATE` (R111): Generates a new key of a given type and attributes. -/
  | keyGenerate (ctx : Nat)
  /-- `KEY_IMPORT` (R112): Unwraps and places an imported key in new slots. -/
  | keyImport (ctx : Nat)
  /-- `KEY_EXPORT` (R161): Wraps key A under key B for export. -/
  | keyExport (ctx : Nat)
  /-- `KEY_DERIVE` (R159): Derives a new key from key A by a derivation function. -/
  | keyDerive (ctx : Nat)
  /-- `KEY_KILL` (R157): Kills a key, retires its descendants and writes its tombstone. -/
  | keyKill (ctx : Nat)
  /-- `RANDOM` (R263): Returns random bytes from the group's child DRBG. -/
  | random (ctx : Nat)
  /-- `ATTEST` (R251): Builds and seam-signs a device or slice attestation report. -/
  | attest (ctx : Nat)
  /-- `INFILL_CALL` (R116): Runs an entry of the slice's enrolled infill firmware. -/
  | infillCall (ctx : Nat) (a0 : Word) (a1 : Word) (a2 : Word) (a3 : Word) (a4 : Word) (a5 : Word) (out : Bytes)
  /-- `SELFTEST` (R114): Runs known-answer tests on the group's needles, or on slice 0 raises a fence. -/
  | selftest (ctx : Nat) (failed : Option Nat)
  /-- `ABORT` (R46): Aborts a named command of the same slice. -/
  | abort (slice : Nat) (queue : Nat) (cmdId : Nat)
  /-- `SLICE_CREATE` (R295): Creates a slice from a configuration record and places its layout. -/
  | sliceCreate (ctx : Nat)
  /-- `SLICE_RESIZE` (R295): Changes a slice's configuration record and layout. -/
  | sliceResize (ctx : Nat)
  /-- `SLICE_QUIESCE` (R299): Stops admission for a slice under DRAIN or SQUASH until no command holds a context. -/
  | sliceQuiesce (ctx : Nat)
  /-- `SLICE_RESUME` (R299): SLICE_QUIESCE with RESUME returns a quiesced slice's queues to ENABLED. -/
  | sliceResume (ctx : Nat)
  /-- `SLICE_RESET` (R298): Resets a slice, withdrawing and replacing its layout and zeroising its keys. -/
  | sliceReset (ctx : Nat)
  /-- `SLICE_DESTROY` (R298): Destroys a slice and returns its capacity. -/
  | sliceDestroy (ctx : Nat)
  /-- `SLICE_EXPORT` (R306): Seals a quiesced migratable slice into a package for a destination's offer. -/
  | sliceExport (ctx : Nat)
  /-- `SLICE_IMPORT_OFFER` (R305): SLICE_IMPORT with PHASE = OFFER writes a one-time migration offer for a slice number. -/
  | sliceImportOffer (ctx : Nat)
  /-- `SLICE_IMPORT` (R307): SLICE_IMPORT with PHASE = IMPORT checks a package and places the migrated slice. -/
  | sliceImport (ctx : Nat)
  /-- `DIRTY_LOG_START` (R302): Opens a dirty-page log over a window with two bitmaps. -/
  | dirtyLogStart (ctx : Nat)
  /-- `DIRTY_LOG_FLIP` (R304): Switches the active bitmap of a dirty-page log and retires the old one. -/
  | dirtyLogFlip (ctx : Nat)
  /-- `DIRTY_LOG_STOP` (R304): Retires the active bitmap and ends a dirty-page log. -/
  | dirtyLogStop (ctx : Nat)
  /-- `SLICE_CHANGE_COMPLETE` (R298): A reset, destruction or export completes in the first kerf in which its commands, host writes, contexts and keys are done. -/
  | sliceChangeComplete (slice : Nat)
  /-- `FLR_TIMEOUT` (R300): A host write still unacknowledged 100 ms after an FLR is abandoned. -/
  | flrTimeout (slice : Nat)
  /-- `VAULT_RELOAD` (R203): Loads one part of a journal image into a chain's vault with record checks. -/
  | vaultReload (ctx : Nat)
  /-- `VAULT_ANCHOR` (R206): Requests an anchor and optionally starts a rebase of a slice. -/
  | vaultAnchor (ctx : Nat)
  /-- `ANCHOR_CAPTURE` (R200): An anchor is captured in the kerf of every tick with TIK_COUNT mod 2^20 = 2^20 − 1, or on another cause. -/
  | anchorCapture
  /-- `ANCHOR_PROGRAMMED` (R199): A captured anchor's programming into the vault anchor log completes. -/
  | anchorProgrammed
  /-- `JOURNAL_RECORD_WRITE` (R198): A placed journal record is written to its ring once ring room allows, or waits in the holding area. -/
  | journalRecordWrite (chain : Nat)
  /-- `VLT_JHEAD_WRITE` (R195): The host advances a journal ring's head, freeing ring room. -/
  | vltJheadWrite (v : Word)
  /-- `REKEY_SWEEP_START` (R191): The panel count of a vault key generation reaches 2^35 and a new generation and the re-key sweep begin. -/
  | rekeySweepStart
  /-- `REKEY_SWEEP_END` (R191): The sweep passes the last page and the old generation is zeroised. -/
  | rekeySweepEnd
  /-- `REENCRYPTION` (R186): A page or node queued at a minor counter of 2^23 is re-encrypted under a new major counter in upkeep slots. -/
  | reencryption
  /-- `REBASE_START` (R201): A rebase places REBASE_START with the next epoch and starts the rebase walk. -/
  | rebaseStart (slice : Nat)
  /-- `BASE_END` (R201): The rebase walk passes the last panel and places BASE_END. -/
  | baseEnd (slice : Nat)
  /-- `TOMBSTONE_COMMIT` (R154): The key store commits a tombstone itself within 16 ticks when its KEY_KILL ended before its commit slot. -/
  | tombstoneCommit
  /-- `DDR_TRAINING_DONE` (R208): Channel training completes and the vault becomes ready. -/
  | ddrTrainingDone (populated : Nat) (trained : Nat) (rate : Nat) (dimm : Nat) (ranks : Nat)
  /-- `DDR_ERROR` (R207): A correctable or uncorrectable DDR error is detected on a channel. -/
  | ddrError (ch : Nat) (sub_ : Nat) (ue : Bool) (chain : Option Nat) (panel : Nat) (ctx : Option Nat)
  /-- `DDR_THERMAL` (R207): DIMM temperature requires twice the refresh rate. -/
  | ddrThermal (deg : Byte) (hot : Bool)
  /-- `BUDGET_RESERVATION` (R131): Consumption enters a key's second reserved chunk and a reservation record is written. -/
  | budgetReservation (slot : Nat)
  /-- `KST_RESERVE` (R131): A reservation not written within 256 ticks raises KST_RESERVE. -/
  | kstReserve (slot : Nat)
  /-- `STORED_RECORD_WRITE` (R164): A new stored key's record and first reservation are written after its creating command is released. -/
  | storedRecordWrite (slot : Nat)
  /-- `KEY_SLOT_ZEROISE` (R157): A RETIRED or KILLED slot becomes EMPTY once the last command that named it is released. -/
  | keySlotZeroise (slot : Nat)
  /-- `IV_RESERVATION` (R129): The IV counter passes 2^39 in its low bits and the next persisted reservation is written. -/
  | ivReservation
  /-- `LMS_GENERATE` (R237): LMS_REQ with OP = GENERATE creates a seam pair for a slice. -/
  | lmsGenerate (set : Nat) (slice : Nat)
  /-- `LMS_LOAD_PUBLIC` (R237): LMS_REQ with OP = LOAD_PUBLIC creates a public-key reference from a host block. -/
  | lmsLoadPublic (slice : Nat)
  /-- `LMS_DESTROY` (R237): LMS_REQ with OP = DESTROY removes a reference or retires a pair. -/
  | lmsDestroy
  /-- `GENERATE_DONE` (R237): Tree building for a GENERATE finishes and the pair, reference and records are written. -/
  | generateDone (linkOk : Bool)
  /-- `BOTTOM_TREE_BUILT` (R244): The upkeep allotment finishes building a pair's next bottom tree. -/
  | bottomTreeBuilt (pair : Nat)
  /-- `RESERVE_CAPTURE` (R241): A block's RESERVE record is captured once its tree is built and the previous block is half used. -/
  | reserveCapture (pair : Nat)
  /-- `RESERVE_PROGRAMMED` (R241): A RESERVE record's programming completes, making the block's indices available, or fails. -/
  | reserveProgrammed (pair : Nat) (ok : Bool)
  /-- `CACHE_REBUILT` (R246): A pair's tree cache is rebuilt after boot and the pair becomes ready. -/
  | cacheRebuilt (pair : Nat) (bad : Nat)
  /-- `HEALTH_TEST_WINDOW` (R257): An entropy health test window ends and its result is judged. -/
  | healthTestWindow (kind : Nat) (m : List (Nat × Nat))
  /-- `RNG_FIRST_SEEDING` (R259): At tick 1,552 after start-up the root DRBG is instantiated and first seeded. -/
  | rngFirstSeeding (katOk : Bool)
  /-- `ROOT_RESEED` (R260): In each tick with TIK_COUNT mod 2^10 = 2^10 − 1 the root DRBG is reseeded. -/
  | rootReseed
  /-- `RNG_DATA_READ` (R264): A read of RNG_DATA removes a word, returns zero, or is held until a word arrives. -/
  | rngDataRead (init : Nat)
  /-- `RNG_DATA_TIMEOUT` (R264): A held RNG_DATA read still waiting after 1,024 fabric cycles returns zero. -/
  | rngDataTimeout
  /-- `RNG_RAW_READ` (R267): A read of RNG_RAW waits for 32 new samples of the tapped cell. -/
  | rngRawRead (init : Nat) (bits : Word)
  /-- `ADD` (R315): rd := rs1 + rs2. -/
  | add (post : Nat) (rd : Nat) (rs1 : Nat) (rs2 : Nat)
  /-- `SUB` (R315): rd := rs1 − rs2. -/
  | sub (post : Nat) (rd : Nat) (rs1 : Nat) (rs2 : Nat)
  /-- `AND` (R315): rd := rs1 and rs2. -/
  | and (post : Nat) (rd : Nat) (rs1 : Nat) (rs2 : Nat)
  /-- `OR` (R315): rd := rs1 or rs2. -/
  | or (post : Nat) (rd : Nat) (rs1 : Nat) (rs2 : Nat)
  /-- `XOR` (R315): rd := rs1 xor rs2. -/
  | xor (post : Nat) (rd : Nat) (rs1 : Nat) (rs2 : Nat)
  /-- `SLL` (R315): Shift left by rs2[4:0]. -/
  | sll (post : Nat) (rd : Nat) (rs1 : Nat) (rs2 : Nat)
  /-- `SRL` (R315): Logical shift right by rs2[4:0]. -/
  | srl (post : Nat) (rd : Nat) (rs1 : Nat) (rs2 : Nat)
  /-- `SRA` (R315): Arithmetic shift right by rs2[4:0]. -/
  | sra (post : Nat) (rd : Nat) (rs1 : Nat) (rs2 : Nat)
  /-- `SLT` (R315): Signed set-less-than. -/
  | slt (post : Nat) (rd : Nat) (rs1 : Nat) (rs2 : Nat)
  /-- `SLTU` (R315): Unsigned set-less-than. -/
  | sltu (post : Nat) (rd : Nat) (rs1 : Nat) (rs2 : Nat)
  /-- `ADDC` (R326): Add with carry through cf. -/
  | addc (post : Nat) (rd : Nat) (rs1 : Nat) (rs2 : Nat) (start : Bool)
  /-- `SUBB` (R326): Subtract with borrow through cf. -/
  | subb (post : Nat) (rd : Nat) (rs1 : Nat) (rs2 : Nat) (start : Bool)
  /-- `SLLI` (R315): Shift left by sh. -/
  | slli (post : Nat) (rd : Nat) (rs1 : Nat) (sh : Nat)
  /-- `SRLI` (R315): Logical shift right by sh. -/
  | srli (post : Nat) (rd : Nat) (rs1 : Nat) (sh : Nat)
  /-- `SRAI` (R315): Arithmetic shift right by sh. -/
  | srai (post : Nat) (rd : Nat) (rs1 : Nat) (sh : Nat)
  /-- `SELZ` (R315): rd := rs1 if rs2 = 0, else rd unchanged. -/
  | selz (post : Nat) (rd : Nat) (rs1 : Nat) (rs2 : Nat)
  /-- `MUL` (R324): Low 32 bits of the product. -/
  | mul (post : Nat) (rd : Nat) (rs1 : Nat) (rs2 : Nat)
  /-- `MULHU` (R324): High 32 bits of the unsigned product. -/
  | mulhu (post : Nat) (rd : Nat) (rs1 : Nat) (rs2 : Nat)
  /-- `MULH` (R324): High 32 bits of the signed product. -/
  | mulh (post : Nat) (rd : Nat) (rs1 : Nat) (rs2 : Nat)
  /-- `MAC` (R324): acc := acc + rs1 × rs2. -/
  | mac (post : Nat) (rs1 : Nat) (rs2 : Nat)
  /-- `ACCSH` (R315): rd := acc[31:0]; acc shifted down 32 bits. -/
  | accsh (post : Nat) (rd : Nat)
  /-- `ACCRD` (R315): rd := a word of acc. -/
  | accrd (post : Nat) (rd : Nat) (k : Nat)
  /-- `ACCZ` (R315): acc := 0. -/
  | accz (post : Nat)
  /-- `ACCWR` (R315): Writes a word of acc. -/
  | accwr (post : Nat) (rs1 : Nat) (k : Nat)
  /-- `JR` (R320): Jump to rs1 with a delay slot. -/
  | jr (post : Nat) (rs1 : Nat)
  /-- `CALLR` (R322): Jump to rs1 and push the return address. -/
  | callr (post : Nat) (rs1 : Nat)
  /-- `RET` (R322): Pop the return stack and jump. -/
  | ret (post : Nat)
  /-- `RSPUSH` (R322): Push rs1 onto the return stack. -/
  | rspush (post : Nat) (rs1 : Nat)
  /-- `RSPOP` (R322): Pop the return stack into rd. -/
  | rspop (post : Nat) (rd : Nat)
  /-- `RSDEPTH` (R315): rd := return stack depth. -/
  | rsdepth (post : Nat) (rd : Nat)
  /-- `ADDI` (R314): rd := rs1 + sext(imm16). -/
  | addi (post : Nat) (rd : Nat) (rs1 : Nat) (imm : Nat)
  /-- `SLTI` (R314): Signed set-less-than immediate. -/
  | slti (post : Nat) (rd : Nat) (rs1 : Nat) (imm : Nat)
  /-- `SLTIU` (R314): Unsigned set-less-than immediate. -/
  | sltiu (post : Nat) (rd : Nat) (rs1 : Nat) (imm : Nat)
  /-- `ANDI` (R314): AND with zext(imm16). -/
  | andi (post : Nat) (rd : Nat) (rs1 : Nat) (imm : Nat)
  /-- `ORI` (R314): OR with zext(imm16). -/
  | ori (post : Nat) (rd : Nat) (rs1 : Nat) (imm : Nat)
  /-- `XORI` (R314): XOR with zext(imm16). -/
  | xori (post : Nat) (rd : Nat) (rs1 : Nat) (imm : Nat)
  /-- `LUI` (R314): rd := imm16 × 2^16. -/
  | lui (post : Nat) (rd : Nat) (imm : Nat)
  /-- `LB` (R318): Load a sign-extended byte under a tenon. -/
  | lb (post : Nat) (rd : Nat) (rs1 : Nat) (tn : Nat) (off : Int)
  /-- `LH` (R318): Load a sign-extended halfword under a tenon. -/
  | lh (post : Nat) (rd : Nat) (rs1 : Nat) (tn : Nat) (off : Int)
  /-- `LW` (R318): Load a word under a tenon. -/
  | lw (post : Nat) (rd : Nat) (rs1 : Nat) (tn : Nat) (off : Int)
  /-- `LBU` (R318): Load a zero-extended byte under a tenon. -/
  | lbu (post : Nat) (rd : Nat) (rs1 : Nat) (tn : Nat) (off : Int)
  /-- `LHU` (R318): Load a zero-extended halfword under a tenon. -/
  | lhu (post : Nat) (rd : Nat) (rs1 : Nat) (tn : Nat) (off : Int)
  /-- `TLD` (R336): Load 16 bytes into a tenon register, keeping the tag where allowed. -/
  | tld (post : Nat) (td : Nat) (rs1 : Nat) (tn : Nat) (off : Int)
  /-- `SB` (R318): Store a byte under a tenon. -/
  | sb (post : Nat) (rs2 : Nat) (rs1 : Nat) (tn : Nat) (off : Int)
  /-- `SH` (R318): Store a halfword under a tenon. -/
  | sh (post : Nat) (rs2 : Nat) (rs1 : Nat) (tn : Nat) (off : Int)
  /-- `SW` (R318): Store a word under a tenon. -/
  | sw (post : Nat) (rs2 : Nat) (rs1 : Nat) (tn : Nat) (off : Int)
  /-- `TST` (R336): Store a tenon register, setting the granule tag where allowed. -/
  | tst (post : Nat) (ts : Nat) (rs1 : Nat) (tn : Nat) (off : Int)
  /-- `DMAC` (R325): Dual-fetch multiply-accumulate from both halves of the own bent store. -/
  | dmac (post : Nat) (tn : Nat) (ra : Nat) (rb : Nat) (sa : Bool) (sb : Bool)
  /-- `BEQ` (R320): Branch if equal, with a delay slot. -/
  | beq (post : Nat) (rs1 : Nat) (rs2 : Nat) (off : Int)
  /-- `BNE` (R320): Branch if not equal. -/
  | bne (post : Nat) (rs1 : Nat) (rs2 : Nat) (off : Int)
  /-- `BLT` (R320): Branch if signed less than. -/
  | blt (post : Nat) (rs1 : Nat) (rs2 : Nat) (off : Int)
  /-- `BGE` (R320): Branch if signed greater or equal. -/
  | bge (post : Nat) (rs1 : Nat) (rs2 : Nat) (off : Int)
  /-- `BLTU` (R320): Branch if unsigned less than. -/
  | bltu (post : Nat) (rs1 : Nat) (rs2 : Nat) (off : Int)
  /-- `BGEU` (R320): Branch if unsigned greater or equal. -/
  | bgeu (post : Nat) (rs1 : Nat) (rs2 : Nat) (off : Int)
  /-- `J` (R320): Jump with a delay slot. -/
  | j (post : Nat) (off : Int)
  /-- `CALL` (R322): Jump and push the return address. -/
  | call (post : Nat) (off : Int)
  /-- `TMOV` (R335): Copy a tenon register. -/
  | tmov (post : Nat) (td : Nat) (ts : Nat)
  /-- `TNULL` (R335): Set a tenon register to null. -/
  | tnull (post : Nat) (td : Nat)
  /-- `TBOUND` (R335): Narrow a tenon's bounds. -/
  | tbound (post : Nat) (td : Nat) (ts : Nat) (rs : Nat)
  /-- `TPERM` (R335): Clear permissions of a tenon. -/
  | tperm (post : Nat) (td : Nat) (ts : Nat) (rs : Nat)
  /-- `TSEAL` (R335): Seal a tenon with a sealer's object type. -/
  | tseal (post : Nat) (td : Nat) (ts : Nat) (rs : Nat)
  /-- `TUNSEAL` (R335): Unseal a tenon with a sealer. -/
  | tunseal (post : Nat) (td : Nat) (ts : Nat) (rs : Nat)
  /-- `TCALL` (R337): Invoke a sealed code and data pair. -/
  | tcall (post : Nat) (td : Nat) (ts : Nat)
  /-- `TGET` (R335): Read a field of a tenon into a general register. -/
  | tget (post : Nat) (ts : Nat) (rs : Nat) (sel : Nat)
  /-- `TTAG` (R335): Read whether a tenon is tagged. -/
  | ttag (post : Nat) (ts : Nat) (rs : Nat)
  /-- `TRAP` (R316): Trap with a software code. -/
  | trap (post : Nat) (imm : Nat)
  /-- `ERET` (R345): Sealed return from an exception. -/
  | eret (post : Nat) (tn : Nat)
  /-- `FEAT` (R327): Read a feature word. -/
  | feat (post : Nat) (rd : Nat) (imm : Nat)
  /-- `TICK` (R331): Read TIK_COUNT[31:0] of the current tick. -/
  | tick (post : Nat) (rd : Nat)
  /-- `CYC` (R331): Read the post cycle within the tick. -/
  | cyc (post : Nat) (rd : Nat)
  /-- `YIELD` (R328): End the stitch program or link. -/
  | yield (post : Nat)
  /-- `FENCE` (R317): Wait until every earlier store of the post is accepted. -/
  | fence (post : Nat)
  /-- `RQSUB` (R330): Submit an engine request on a ring and return a ticket. -/
  | rqsub (post : Nat) (rd : Nat) (rs1 : Nat) (ring : Nat) (mem : Nat) (tn : Nat) (size : Nat) (handles : List Word) (room : RingUse)
  /-- `RQWAIT` (R330): Wait for or poll the reply to an engine request ticket. -/
  | rqwait (post : Nat) (rd : Nat) (rs1 : Nat) (reply : Word)
  /-- `ENGINE_REQUEST_REPLY` (R330): A hash or purlin ring request's reply arrives in a later link. -/
  | engineRequestReply (post : Nat) (ticket : Nat) (status : Word)
  /-- `INTERRUPT` (R344): An enabled pending interrupt line is taken on a management post between instructions. -/
  | interrupt (post : Nat)
  /-- `SHT_CH_NEXT_WRITE` (R279): A write of SHT_CH_NEXT starts an idle or stopped firmware channel. -/
  | shtChNextWrite (f : Nat) (v : Word)
  /-- `SHT_CH_STOP` (R279): A write of SHT_CH_CTRL.STOP stops a running channel after its read pieces are written. -/
  | shtChStop (f : Nat)
  /-- `DESCRIPTOR_FETCH` (R277): A channel fetches and checks a descriptor. -/
  | descriptorFetch (f : Nat)
  /-- `SHUTTLE_PIECE` (R282): A read or write piece of a descriptor completes or fails at a gate, the link or the flash. -/
  | shuttlePiece (f : Nat) (wr : Bool) (r : ReadResult)
  /-- `READBACK` (R281): A privileged channel's read-back after its last write completes. -/
  | readback (f : Nat) (r : ReadResult) (same : Bool)
  /-- `DESCRIPTOR_WRITE_BACK` (R278): A completed descriptor is written back with DONE and its status, and the chain continues or stops. -/
  | descriptorWriteBack (f : Nat)
  /-- `HOST_READ_COMPLETION` (R458): Data or an error returns from the link for an outbound host read. -/
  | hostReadCompletion (dest : ReadDest) (r : ReadResult)
  /-- `BASTING_APPLY` (R362): A posted write in a basting buffer is checked and applied or dropped with an imprecise notice. -/
  | bastingApply (init : Nat) (gate : Nat)
  /-- `GTE_COMMIT_WRITE` (R359): A write of GTE_COMMIT.GO stages the shadow tables for checking in the next kerf. -/
  | gteCommitWrite (v : Word)
  /-- `GTE_DISCARD_WRITE` (R366): A write of GTE_DISCARD copies the live tables into the shadow. -/
  | gteDiscardWrite (v : Word)
  /-- `PREVIOUS_TABLES_RELEASE` (R360): One tick after a commit the gates release the previous epoch's tables. -/
  | previousTablesRelease
  /-- `HOST_REQUEST` (R454): An inbound host access to PF BAR0 is held through any kerf and checked at gate 11. -/
  | hostRequest (slice : Nat) (wr : Bool) (addr : Nat) (width : Nat) (v : Word)
  /-- `FAULT_SOURCE_FIRE` (R367): A fault source fires and is captured, with its response applied in the next kerf step 1. -/
  | faultSourceFire (src : Nat) (acc : Nat) (init : Nat) (addr : Nat) (detail : Nat) (cycle : Nat) (imprecise : Bool) (slice : Option Nat) (ctx : Option Nat) (cause : FireCause)
  /-- `SAFE_STATE_ENTRY` (R378): The cycle after a SAFE response fires, the device stops, zeroises and writes ST_SAFE_STATE completions. -/
  | safeStateEntry
  /-- `FCL_SELF` (R379): A vote disagreement or invalid state in the fault collector enters the safe state at once. -/
  | fclSelf (agree : Bool)
  /-- `FCL_PEND_CLEAR` (R377): A write of 1 to a pending bit clears the source in the next kerf, or is ignored while its condition holds. -/
  | fclPendClear (n : Nat) (v : Word)
  /-- `FCL_REARM` (R372): A write to FCL_REARM invalidates FCL_FIRST and clears OVF. -/
  | fclRearm (v : Word)
  /-- `FCL_COLD` (R377): A write of 0x0000_C01D to FCL_COLD resets as CRST_N does. -/
  | fclCold (v : Word)
  /-- `GW_WRITE` (R489): A direct write to a GW field stages a one-entry guarded change. -/
  | gwWrite (init : Nat) (key : Nat) (v : Word)
  /-- `REGISTER_WRITE` (R486): A write to a register without a row of its own takes effect by its access code when accepted. -/
  | registerWrite (init : Nat) (key : Nat) (v : Word)
  /-- `RC_READ` (R486): A read of an RC field returns and clears it. -/
  | rcRead (init : Nat) (key : Nat)
  /-- `LO_READ` (R490): A read of a _LO register latches bits [63:32] for the reading initiator. -/
  | loRead (init : Nat) (key : Nat)
  /-- `RECHECK` (R485): A write of PG_CTRL.RECHECK recomputes PG_CHECK in the next kerf. -/
  | recheck (init : Nat) (page : Nat)
  /-- `THIMBLE_LOOP_CHECK` (R385): A detector checks an armed loop once in every 32 thimble cycles. -/
  | thimbleLoopCheck (cycles : Nat) (loop : Nat) (detB : Bool) (same : Bool) (ohm : Nat)
  /-- `DISAGREEMENT_WINDOW_END` (R385): 64 thimble cycles after a first alarm the log entry is completed and a disagreement recorded. -/
  | disagreementWindowEnd (cycles : Nat) (loop : Nat)
  /-- `SWITCH_SAMPLE` (R387): A switch input is sampled every 32 thimble cycles and alarms at its second consecutive alarm sample. -/
  | switchSample (cycles : Nat) (sw : Nat) (closed : Bool)
  /-- `XTAL_FAIL` (R383): The 32.768 kHz crystal stops for 64 RC cycles and thimble time counts on the RC oscillator. -/
  | xtalFail
  /-- `THIMBLE_POWER_ON` (R384): VBAT falls below 2.0 V or is first applied without main power and the thimble state resets. -/
  | thimblePowerOn
  /-- `ARM_DONE` (R386): The thimble domain calibrates the loops and acknowledges a committed THM_ARM change. -/
  | armDone (cycles : Nat) (runs : List (List Nat)) (mism : Nat)
  /-- `VBAT_MEASURE` (R391): Every 2^20 ticks VBAT is measured and BATT_LOW set or cleared. -/
  | vbatMeasure (mv : Nat)
  /-- `MON_VDD` (R392): A main rail leaves its window and MON_VDD fires. -/
  | monVdd (rail : Nat) (mv : Nat) (det : Nat)
  /-- `MON_CLK` (R392): The fabric clock leaves its window or its PLL unlocks. -/
  | monClk (mhz : Nat) (unlocked : Bool) (det : Nat)
  /-- `MON_TEMP` (R392): Junction temperature leaves −55 to 125 °C. -/
  | monTemp (diode : Byte) (ring : Byte)
  /-- `MON_GLITCH` (R392): A fast VDD_CORE excursion is caught. -/
  | monGlitch (mv : Nat) (det : Nat)
  /-- `MONITORS_ARMED` (R393): Every rail has stayed in window for 2^10 ticks after reset release and the monitors arm. -/
  | monitorsArmed
  /-- `MAIN_POWER_LOSS` (R410): Main power is removed; volatile state is lost and flash operations are cut off. -/
  | mainPowerLoss
  /-- `PERST_N` (R462): PERST_N is asserted, holding the secure die in reset. -/
  | perstN
  /-- `CRST_N` (R462): CRST_N is asserted, holding the secure die in reset. -/
  | crstN
  /-- `RESET_RELEASE` (R441): Reset inputs are high and all rails in window, and the full start-up sequence begins. -/
  | resetRelease (postFail : Nat)
  /-- `RUN_START` (R443): In the first kerf in which all readiness conditions hold, TIK_STAT.RUN is set. -/
  | runStart
  /-- `BOOT_STALLED` (R443): Readiness has not been met by tick 2^19 and LCY_STAT.STALLED is set. -/
  | bootStalled
  /-- `HOT_RESET` (R462): A hot reset or link down resets configuration space and the slices' functions. -/
  | hotReset (linkDown : Bool)
  /-- `PF_FLR` (R462): A physical function FLR squashes slice 0's work and clears VF Enable. -/
  | pfFlr
  /-- `VF_FLR` (R300): A virtual function FLR acts as a SQUASH SLICE_RESET of its slice. -/
  | vfFlr (slice : Nat)
  /-- `VF_ENABLE_CLEAR` (R287): Clearing VF Enable or lowering NumVFs resets the slices as SQUASH and leaves them DORMANT. -/
  | vfEnableClear (numVfs : Nat)
  /-- `VF_ENABLE_SET` (R287): Enabling a virtual function makes its DORMANT slice ACTIVE in the next kerf. -/
  | vfEnableSet (numVfs : Nat)
  /-- `D3HOT` (R462): A function enters D3hot or loses Bus Master Enable and issues no requests. -/
  | d3hot (slice : Nat)
  /-- `LINK_TRAINING` (R456): The PCIe link trains or retrains and data link slots are recomputed. -/
  | linkTraining (speed : Nat) (width : Nat) (flit : Bool)
  /-- `RETRAIN` (R456): A write of HLK_CTRL.RETRAIN retrains the link under its caps. -/
  | retrain (v : Word)
  /-- `ATS_INVALIDATION` (R457): An ATS invalidation completes once every access under the old translation has completed. -/
  | atsInvalidation (slice : Nat)
  /-- `INBOUND_POISONED_WRITE` (R458): An inbound poisoned write is dropped and logged as advisory. -/
  | inboundPoisonedWrite
  /-- `IDE_INTEGRITY_FAILURE` (R459): An IDE integrity check fails, the stream becomes Insecure and HLK_IDE fires. -/
  | ideIntegrityFailure (stream : Nat)
  /-- `GET_VERSION` (R460): SPDM GET_VERSION request. -/
  | getVersion (req : Bytes)
  /-- `GET_CAPABILITIES` (R460): SPDM GET_CAPABILITIES request. -/
  | getCapabilities (req : Bytes)
  /-- `NEGOTIATE_ALGORITHMS` (R460): SPDM NEGOTIATE_ALGORITHMS request. -/
  | negotiateAlgorithms (req : Bytes)
  /-- `GET_DIGESTS` (R460): SPDM GET_DIGESTS request. -/
  | getDigests (req : Bytes)
  /-- `GET_CERTIFICATE` (R460): SPDM GET_CERTIFICATE request. -/
  | getCertificate (req : Bytes)
  /-- `SPDM_CHALLENGE` (R460): SPDM CHALLENGE request, signed with the identity key. -/
  | spdmChallenge (req : Bytes)
  /-- `GET_MEASUREMENTS` (R460): SPDM GET_MEASUREMENTS request. -/
  | getMeasurements (req : Bytes)
  /-- `KEY_EXCHANGE` (R460): SPDM KEY_EXCHANGE request opening a session. -/
  | keyExchange (req : Bytes)
  /-- `FINISH` (R460): SPDM FINISH request. -/
  | finish (session : Nat) (req : Bytes)
  /-- `HEARTBEAT` (R460): SPDM HEARTBEAT request. -/
  | heartbeat (session : Nat) (req : Bytes)
  /-- `KEY_UPDATE` (R460): SPDM KEY_UPDATE request. -/
  | keyUpdate (session : Nat) (req : Bytes)
  /-- `END_SESSION` (R460): SPDM END_SESSION request. -/
  | endSession (session : Nat) (req : Bytes)
  /-- `VENDOR_DEFINED_REQUEST` (R459): SPDM vendor request carrying IDE_KM key programming. -/
  | vendorDefinedRequest (session : Nat) (req : Bytes)
  /-- `STATUS` (R463): SMBus Block Read of device status. -/
  | status
  /-- `TEMP` (R463): SMBus Block Read of temperatures. -/
  | temp
  /-- `LIFECYCLE` (R463): SMBus Block Read of the lifecycle state. -/
  | lifecycle
  /-- `FAULT` (R463): SMBus Block Read of the fault summary. -/
  | fault
  /-- `REVISION` (R463): SMBus Block Read of PG_ID. -/
  | revision
  /-- `ALERT_RESPONSE` (R463): A read of the Alert Response Address releases SMB_ALERT_N. -/
  | alertResponse
  /-- `SMBUS_TIMEOUT` (R505): A clock held low over 25 ms resets the SMBus target interface. -/
  | smbusTimeout
  /-- `PROGRAM_PAGE` (R403): FLS_CMD with OP = PROGRAM_PAGE programs a flash page. -/
  | programPage
  /-- `PROGRAM_UNIT` (R403): FLS_CMD with OP = PROGRAM_UNIT programs one 32-byte unit. -/
  | programUnit
  /-- `ERASE` (R407): FLS_CMD with OP = ERASE erases a block under the erase journal. -/
  | erase
  /-- `SUSPEND` (R404): FLS_CMD with OP = SUSPEND suspends a class 4 erase. -/
  | suspend
  /-- `RESUME` (R404): FLS_CMD with OP = RESUME resumes a suspended erase. -/
  | resume
  /-- `ZERO_UNIT` (R402): FLS_CMD with OP = ZERO_UNIT programs a unit to all zeros. -/
  | zeroUnit
  /-- `FLASH_PROGRAM_DONE` (R403): A flash program ends and is verified. -/
  | flashProgramDone (bank : Nat) (ok : Bool)
  /-- `FLASH_ERASE_DONE` (R407): A block erase ends, is verified and its DONE record is written, or fails after three attempts. -/
  | flashEraseDone (bank : Nat) (ok : Bool)
  /-- `SILL_WRITE` (R412): A store to SIL_REGn is queued for persistence or dropped. -/
  | sillWrite (reg : Nat) (v : Word)
  /-- `SILL_BATCH_DONE` (R412): A batch of sill records is programmed and verified and the registers take their new values. -/
  | sillBatchDone
  /-- `CARD_INSERT` (R419): A card's detect input is stable for 10 ms and the slot activates it. -/
  | cardInsert (slot : Nat) (t0 : Bool)
  /-- `CARD_REMOVE` (R421): A card removal is detected and the slot deactivates it. -/
  | cardRemove (slot : Nat)
  /-- `GET_INFO` (R422): Card command returning kind, serial and block count. -/
  | getInfo (slot : Nat) (sw : Nat) (data : Bytes)
  /-- `CHALLENGE` (R422): Card command returning a CMAC under the officer key. -/
  | challenge (slot : Nat) (sw : Nat) (data : Bytes)
  /-- `READ_BLOCK` (R422): Card command returning a share block. -/
  | readBlock (slot : Nat) (sw : Nat) (data : Bytes)
  /-- `WRITE_BLOCK` (R420): Card command writing a share block with busy-hold. -/
  | writeBlock (slot : Nat) (sw : Nat)
  /-- `WRITE_KEY` (R420): Card command writing an officer key with busy-hold. -/
  | writeKey (slot : Nat) (sw : Nat)
  /-- `CARD_TIMEOUT` (R419): An answer-to-reset, work waiting time or busy-hold of 50 ms expires and the card is deactivated. -/
  | cardTimeout (slot : Nat) (busy : Bool)
  /-- `GUARD_STAGE` (R427): Stages a guarded change and returns its digest and number. -/
  | guardStage (ctx : Nat)
  /-- `LOGIN` (R424): GUARD_APPROVE with ACTION = LOGIN opens an officer session after PIN and card checks. -/
  | login (ctx : Nat)
  /-- `APPROVE` (R428): GUARD_APPROVE with ACTION = APPROVE approves the staged change with the slot's officer card. -/
  | approve (ctx : Nat)
  /-- `REMOTE_APPROVE` (R428): GUARD_APPROVE with REMOTE approves the change with a seam-signed approval message. -/
  | remoteApprove (ctx : Nat)
  /-- `LOGOUT` (R425): GUARD_APPROVE with ACTION = LOGOUT ends an officer session. -/
  | logout (ctx : Nat)
  /-- `GUARD_COMMIT` (R430): Commits the approved staged change in step 4 of the next kerf. -/
  | guardCommit (ctx : Nat)
  /-- `GUARD_DISCARD` (R430): GUARD_COMMIT with DISCARD withdraws the staged change. -/
  | guardDiscard (ctx : Nat)
  /-- `CHANGE_EXPIRY` (R426): A staged change reaches its expiry tick and is discarded. -/
  | changeExpiry
  /-- `SESSION_EXPIRY` (R425): A session passes 2^OFC_CTRL.TTL ticks without an approval and ends. -/
  | sessionExpiry
  /-- `DOMAIN_NEW` (R433): Ceremony drawing a new L2, writing its shares and provisioning the device. -/
  | domainNew
  /-- `DOMAIN_JOIN` (R433): Ceremony rebuilding L2 from share cards and provisioning the device. -/
  | domainJoin
  /-- `RESHARE` (R433): Ceremony writing a new share set of the installed L2. -/
  | reshare
  /-- `CEREMONY_TIMEOUT` (R433): A ceremony not ended within 2^TTL ticks of its commit fails with reason 16. -/
  | ceremonyTimeout
  /-- `FW_STAGE_FRAME` (R447): FW_STAGE with TARGET = 0 writes and checks a frame image in the inactive partition. -/
  | fwStageFrame (ctx : Nat) (flashOk : Bool)
  /-- `FW_STAGE_INFILL` (R449): FW_STAGE with TARGET = 1 enrols an infill package for a slice. -/
  | fwStageInfill (ctx : Nat) (flashOk : Bool)
  /-- `FW_ACTIVATE` (R447): Sets TRIAL so the staged frame image boots at the next reset. -/
  | fwActivate (ctx : Nat)
  /-- `FW_ACTIVATE_CONFIRM` (R447): FW_ACTIVATE with CONFIRM makes the running trial image ACTIVE and raises the floor. -/
  | fwActivateConfirm (ctx : Nat)
  /-- `LIFECYCLE_QUERY` (R447): LIFECYCLE with ACTION = QUERY returns the lifecycle state. -/
  | lifecycleQuery (ctx : Nat)
  /-- `LIFECYCLE_VENDOR` (R447): LIFECYCLE with ACTION = VENDOR enters DIAGNOSTIC under a verified vendor token. -/
  | lifecycleVendor (ctx : Nat)
  /-- `SELF_RESET` (R437): The device resets itself 2^10 ticks after entering TERMINATED or DIAGNOSTIC. -/
  | selfReset
  /-- `WEAR_SAMPLE` (R473): Every 2^24 ticks the wear block samples its indicators and predicts their lives. -/
  | wearSample (slow : Nat)
  /-- `WEAR_CHECKPOINT` (R475): Every 2^28 ticks, or on a write of WER_CTRL, a wear checkpoint is written to the event log. -/
  | wearCheckpoint (ok : Bool)
  /-- `MAIN_POWER_UP` (R382): Main power returns: VDD_IO enters its window, the thimble domain changes over from VBAT to VDD_IO, and the SMBus target starts answering while the secure die is still held in reset. -/
  | mainPowerUp
  /-- `COMPLETION_TIMEOUT` (R458): An outbound host read receives no completion within the completion timeout range, and fails as ST_HOST_ACCESS, queue cause 7 or HOST_READ. -/
  | completionTimeout (dest : ReadDest)
  /-- `ATS_TRANSLATION_COMPLETION` (R457): The answer to an outbound ATS translation request returns from the host, making a translation ready or failing as an outbound read failure. -/
  | atsTranslationCompletion (dest : ReadDest) (ok : Bool)
  /-- `RETURN_TO_D0` (R462): A function returns to D0 or regains Bus Master Enable, resetting nothing, and its stalled pieces and waiting completions may proceed. -/
  | returnToD0 (slice : Nat)
  /-- `MSIX_UNMASK` (R79): The host unmasks an MSI-X vector whose pending bit is set, and the held message is sent. -/
  | msixUnmask (slice : Nat) (vec : Nat)
  /-- `ILLEGAL` (R313): A post issues a word with an undefined major opcode or funct, or a nonzero reserved field, and traps with cause ILLEGAL. -/
  | illegal (post : Nat)
  /-- `RESET_SCAN_DONE` (R408): The flash controller's reset scan of the erase journal ends, marking indeterminate blocks and setting FLS_STAT.READY and FLS_INDET. -/
  | resetScanDone
  /-- `SILL_LOG_READ` (R411): The sill block finishes reading the sill log after reset, the registers take their persisted values and SIL_STAT.READY is set. -/
  | sillLogRead
  /-- `MON_DISAGREE` (R392): 2 µs after one detector of a monitored condition fires without its partner, the disagreement is recorded in MON_DISAGREE. -/
  | monDisagree (cond : Nat)
  /-- `REPETITION_COUNT_FAILURE` (R257): A cell's raw stream reaches 81 consecutive equal bits, failing the continuous repetition count test and causing a health failure. -/
  | repetitionCountFailure (cells : Nat)
deriving DecidableEq, Repr

end Sys2Proof
end

