-- ==== Sys2Proof/Decode.lean ====
section
/-!
DEFINITION. The commands as words. spec/opcode_table.json gives no row a word or a field, so no word spells a command:
the commands come to the block as accesses, entries and events, never as encoded instructions.
-/
namespace Sys2Proof

/-- The command that a word of `nbits` bits spells by the table's bits: none, since the table gives no row any bits. -/
def decodeTableWord (nbits w : Nat) : Option Instr :=
  let _ := nbits
  let _ := w
  none

end Sys2Proof
end

