-- ==== Sys2Proof/Config.lean ====
section
/-!
DEFINITION. What the spec leaves to the silicon, to chance or to a standard that the model does not open: opaque
constants, of which no proof can know a value. A statement about one holds for every value it could have.
-/
namespace Sys2Proof

/-- A free byte: the `n`-th value that the spec does not fix (a draw of the CTR_DRBG, of an entropy cell or of a
mask generator, an undefined result). State holds the next `n` (notes/assumptions/4.md). -/
opaque Config.freeByte : Nat → Byte

/-- A free 96-bit value, for a wide register the spec leaves undefined. -/
opaque Config.freeWide : Nat → BitVec 96

/-- A public-key primitive named by the spec through its standard (notes/assumptions/6.md): its name by number, its
inputs, and its result; which number is which primitive is said where it is used. -/
opaque Config.pk : Nat → List Bytes → Bytes

/-- Whether a public-key check of the standard passes, on the inputs given (notes/assumptions/6.md). -/
opaque Config.pkOk : Nat → List Bytes → Bool

/-- A key or secret that silicon holds from manufacture (L1, the PUF, Roskai's signing keys): by name by number. -/
opaque Config.deviceSecret : Nat → Bytes

/-- The boot ROM's bytes, which the spec does not print (01_frame R22). -/
opaque Config.romByte : Nat → Byte

/-- The page of the loft at which the source of the command in a context is staged; frame firmware chooses it
(04_command_reference R116, notes/assumptions/76.md). -/
opaque Config.stagePage : Nat → Nat

/-- The (72,64) Hsiao check of a 64-bit word, whose matrix the spec does not print (18_tamper R395). -/
opaque Config.hsiao : BitVec 64 → Byte

/-- The binding of an overlock code in transit under the power-up's key: by address, initiator, access type and beat. -/
opaque Config.bindTransit : Bytes → Nat → Nat → Nat → Nat → Byte

/-- The binding of an overlock code in store under the power-up's key: by the address alone. -/
opaque Config.bindStore : Bytes → Nat → Byte

/-- The silicon revision: B0, or else A1 (00_scope R10, 25_register_map R482). -/
opaque Config.siliconB0 : Bool

/-- The reply word that frame firmware's rings give for an outcome: 0 done, 1 failed, 2 `ENTROPY` (14_miade_isa R330,
11_entropy R265; the words belong to frame firmware: notes/assumptions/88.md). -/
opaque Config.ringStatus : Nat → Word

end Sys2Proof
end

