-- ==== Sys2Proof/Machine/Bytes.lean ====
section
/-!
DEFINITION. Byte strings: little-endian and big-endian numbers, slices of a string, XOR of strings, bit fields of
a number, CRC-32C (25_register_map R485). Every multi-byte field of the command and completion entries is
little-endian (03_queues R69); the cryptographic formats are big-endian where their standard is.
-/
namespace Sys2Proof.Machine
open Sys2Proof

/-- The value of `len` bits of `x` from bit `lo` upward. -/
def bitsAt (x lo len : Nat) : Nat := (x >>> lo) % 2 ^ len

/-- Bit `i` of `x`. -/
def bitAt (x i : Nat) : Bool := (x >>> i) % 2 == 1

/-- 1 for true, 0 for false. -/
def b2n (b : Bool) : Nat := if b then 1 else 0

/-- A little-endian byte string as a number. -/
def leNat : Bytes → Nat
  | [] => 0
  | b :: r => b.toNat + 256 * leNat r

/-- A big-endian byte string as a number. -/
def beNat (l : Bytes) : Nat := l.foldl (fun a b => a * 256 + b.toNat) 0

/-- `n` bytes of `x`, little-endian. -/
def leBytes : (n : Nat) → (x : Nat) → Bytes
  | 0, _ => []
  | n + 1, x => BitVec.ofNat 8 x :: leBytes n (x / 256)

/-- `n` bytes of `x`, big-endian. -/
def beBytes (n x : Nat) : Bytes := (leBytes n x).reverse

/-- `len` bytes of `l` from `off`; bytes past the end read as zero. -/
def sub (l : Bytes) (off len : Nat) : Bytes :=
  let t := (l.drop off).take len
  t ++ List.replicate (len - t.length) 0

/-- The little-endian number of `len` bytes at `off`. -/
def leAt (l : Bytes) (off len : Nat) : Nat := leNat (sub l off len)

/-- The byte at `off`, as a number. -/
def byteAt (l : Bytes) (off : Nat) : Nat := (l.getD off 0).toNat

/-- `n` zero bytes. -/
def zeros (n : Nat) : Bytes := List.replicate n 0

/-- XOR of two strings, as long as the shorter. -/
def xorB (a b : Bytes) : Bytes := List.zipWith (· ^^^ ·) a b

/-- All bytes zero. -/
def allZero (l : Bytes) : Bool := l.all (· == 0)

/-- Pads with zeros at the end to `n` bytes, or cuts to `n`. -/
def padTo (n : Nat) (l : Bytes) : Bytes := sub l 0 n

/-- Pieces of `n` bytes; the last may be shorter. `fuel` bounds the count of pieces. -/
def chunksFuel : (fuel : Nat) → (n : Nat) → Bytes → List Bytes
  | 0, _, _ => []
  | fuel + 1, n, l => if l.isEmpty || n == 0 then [] else l.take n :: chunksFuel fuel n (l.drop n)

/-- Pieces of `n` bytes; the last may be shorter. -/
def chunks (n : Nat) (l : Bytes) : List Bytes := chunksFuel l.length n l

/-- The bytes of a string of ASCII characters. -/
def ascii (t : String) : Bytes := t.toList.map (fun c => BitVec.ofNat 8 c.toNat)

/-- One byte of CRC-32C, Castagnoli polynomial, bit-reflected form. -/
def crc32cByte (c : Word) (b : Byte) : Word :=
  (List.range 8).foldl (fun a _ => if a.getLsbD 0 then (a >>> 1) ^^^ 0x82F63B78#32 else a >>> 1)
    (c ^^^ b.setWidth 32)

/-- CRC-32C with initial value `0xFFFF_FFFF` and final XOR (R485). -/
def crc32c (l : Bytes) : Word := (l.foldl crc32cByte 0xFFFFFFFF#32) ^^^ 0xFFFFFFFF#32

end Sys2Proof.Machine
end

