-- ==== Sys2Proof/Machine/Sha.lean ====
section
/-!
DEFINITION. SHA-256, SHA-384, SHA-512, SHA3-256, SHA3-384 and SHA3-512 (04_command_reference R102). The spec names
the algorithms by their standards; constants and rounds are the standards' (PRESUMED, notes/assumptions/5.md).
-/
namespace Sys2Proof.Machine
open Sys2Proof

def sha256K : List Nat :=
  [0x428a2f98, 0x71374491, 0xb5c0fbcf, 0xe9b5dba5, 0x3956c25b, 0x59f111f1, 0x923f82a4, 0xab1c5ed5] ++
  [0xd807aa98, 0x12835b01, 0x243185be, 0x550c7dc3, 0x72be5d74, 0x80deb1fe, 0x9bdc06a7, 0xc19bf174] ++
  [0xe49b69c1, 0xefbe4786, 0x0fc19dc6, 0x240ca1cc, 0x2de92c6f, 0x4a7484aa, 0x5cb0a9dc, 0x76f988da] ++
  [0x983e5152, 0xa831c66d, 0xb00327c8, 0xbf597fc7, 0xc6e00bf3, 0xd5a79147, 0x06ca6351, 0x14292967] ++
  [0x27b70a85, 0x2e1b2138, 0x4d2c6dfc, 0x53380d13, 0x650a7354, 0x766a0abb, 0x81c2c92e, 0x92722c85] ++
  [0xa2bfe8a1, 0xa81a664b, 0xc24b8b70, 0xc76c51a3, 0xd192e819, 0xd6990624, 0xf40e3585, 0x106aa070] ++
  [0x19a4c116, 0x1e376c08, 0x2748774c, 0x34b0bcb5, 0x391c0cb3, 0x4ed8aa4a, 0x5b9cca4f, 0x682e6ff3] ++
  [0x748f82ee, 0x78a5636f, 0x84c87814, 0x8cc70208, 0x90befffa, 0xa4506ceb, 0xbef9a3f7, 0xc67178f2]

def sha512K : List Nat :=
  [0x428a2f98d728ae22, 0x7137449123ef65cd, 0xb5c0fbcfec4d3b2f, 0xe9b5dba58189dbbc] ++
  [0x3956c25bf348b538, 0x59f111f1b605d019, 0x923f82a4af194f9b, 0xab1c5ed5da6d8118] ++
  [0xd807aa98a3030242, 0x12835b0145706fbe, 0x243185be4ee4b28c, 0x550c7dc3d5ffb4e2] ++
  [0x72be5d74f27b896f, 0x80deb1fe3b1696b1, 0x9bdc06a725c71235, 0xc19bf174cf692694] ++
  [0xe49b69c19ef14ad2, 0xefbe4786384f25e3, 0x0fc19dc68b8cd5b5, 0x240ca1cc77ac9c65] ++
  [0x2de92c6f592b0275, 0x4a7484aa6ea6e483, 0x5cb0a9dcbd41fbd4, 0x76f988da831153b5] ++
  [0x983e5152ee66dfab, 0xa831c66d2db43210, 0xb00327c898fb213f, 0xbf597fc7beef0ee4] ++
  [0xc6e00bf33da88fc2, 0xd5a79147930aa725, 0x06ca6351e003826f, 0x142929670a0e6e70] ++
  [0x27b70a8546d22ffc, 0x2e1b21385c26c926, 0x4d2c6dfc5ac42aed, 0x53380d139d95b3df] ++
  [0x650a73548baf63de, 0x766a0abb3c77b2a8, 0x81c2c92e47edaee6, 0x92722c851482353b] ++
  [0xa2bfe8a14cf10364, 0xa81a664bbc423001, 0xc24b8b70d0f89791, 0xc76c51a30654be30] ++
  [0xd192e819d6ef5218, 0xd69906245565a910, 0xf40e35855771202a, 0x106aa07032bbd1b8] ++
  [0x19a4c116b8d2d0c8, 0x1e376c085141ab53, 0x2748774cdf8eeb99, 0x34b0bcb5e19b48a8] ++
  [0x391c0cb3c5c95a63, 0x4ed8aa4ae3418acb, 0x5b9cca4f7763e373, 0x682e6ff3d6b2b8a3] ++
  [0x748f82ee5defb2fc, 0x78a5636f43172f60, 0x84c87814a1f0ab72, 0x8cc702081a6439ec] ++
  [0x90befffa23631e28, 0xa4506cebde82bde9, 0xbef9a3f7b2c67915, 0xc67178f2e372532b] ++
  [0xca273eceea26619c, 0xd186b8c721c0c207, 0xeada7dd6cde0eb1e, 0xf57d4f7fee6ed178] ++
  [0x06f067aa72176fba, 0x0a637dc5a2c898a6, 0x113f9804bef90dae, 0x1b710b35131c471b] ++
  [0x28db77f523047d84, 0x32caab7b40c72493, 0x3c9ebe0a15c9bebc, 0x431d67c49c100d4c] ++
  [0x4cc5d4becb3e42b6, 0x597f299cfc657e2a, 0x5fcb6fab3ad6faec, 0x6c44198c4a475817]

def sha256H : List Nat :=
  [0x6a09e667, 0xbb67ae85, 0x3c6ef372, 0xa54ff53a, 0x510e527f, 0x9b05688c, 0x1f83d9ab, 0x5be0cd19]

def sha512H : List Nat :=
  [0x6a09e667f3bcc908, 0xbb67ae8584caa73b, 0x3c6ef372fe94f82b, 0xa54ff53a5f1d36f1] ++
  [0x510e527fade682d1, 0x9b05688c2b3e6c1f, 0x1f83d9abfb41bd6b, 0x5be0cd19137e2179]

def sha384H : List Nat :=
  [0xcbbb9d5dc1059ed8, 0x629a292a367cd507, 0x9159015a3070dd17, 0x152fecd8f70e5939] ++
  [0x67332667ffc00b31, 0x8eb44a8768581511, 0xdb0c2e0d64f98fa7, 0x47b5481dbefa4fa4]

/-- What differs between the two SHA-2 word sizes: the word width in bits, the block bytes, the rotation counts of
the four sigma functions, and the round constants. -/
def sha2Rot (w x k : Nat) : Nat := (x >>> k) ||| ((x <<< (w - k)) % 2 ^ w)

/-- A sigma function: three rotations, or two and a shift. -/
def sha2Sig (w : Nat) (c : Nat × Nat × Nat) (shift : Bool) (x : Nat) : Nat :=
  sha2Rot w x c.1 ^^^ sha2Rot w x c.2.1 ^^^ (if shift then x >>> c.2.2 else sha2Rot w x c.2.2)

def sha2S0 (w : Nat) : Nat × Nat × Nat := if w == 32 then (2, 13, 22) else (28, 34, 39)
def sha2S1 (w : Nat) : Nat × Nat × Nat := if w == 32 then (6, 11, 25) else (14, 18, 41)
def sha2s0 (w : Nat) : Nat × Nat × Nat := if w == 32 then (7, 18, 3) else (1, 8, 7)
def sha2s1 (w : Nat) : Nat × Nat × Nat := if w == 32 then (17, 19, 10) else (19, 61, 6)

/-- The message schedule, newest word first. -/
def sha2Sched (w : Nat) : (todo : Nat) → List Nat → List Nat
  | 0, acc => acc
  | n + 1, acc =>
    let x := (sha2Sig w (sha2s1 w) true (acc.getD 1 0) + acc.getD 6 0 +
      sha2Sig w (sha2s0 w) true (acc.getD 14 0) + acc.getD 15 0) % 2 ^ w
    sha2Sched w n (x :: acc)

/-- One round on the eight working words. -/
def sha2Round (w : Nat) (v : List Nat) (kw : Nat) : List Nat :=
  let a := v.getD 0 0
  let b := v.getD 1 0
  let c := v.getD 2 0
  let d := v.getD 3 0
  let e := v.getD 4 0
  let f := v.getD 5 0
  let g := v.getD 6 0
  let h := v.getD 7 0
  let ch := (e &&& f) ^^^ ((2 ^ w - 1 - e) &&& g)
  let maj := (a &&& b) ^^^ (a &&& c) ^^^ (b &&& c)
  let t1 := h + sha2Sig w (sha2S1 w) false e + ch + kw
  let t2 := sha2Sig w (sha2S0 w) false a + maj
  [(t1 + t2) % 2 ^ w, a, b, c, (d + t1) % 2 ^ w, e, f, g]

/-- One compression. -/
def sha2Block (w : Nat) (ks : List Nat) (h : List Nat) (blk : Bytes) : List Nat :=
  let ws := (sha2Sched w (ks.length - 16) ((chunks (w / 8) blk).map beNat).reverse).reverse
  let v := (List.zipWith (· + ·) ks ws).foldl (sha2Round w) h
  List.zipWith (fun a b => (a + b) % 2 ^ w) h v

/-- SHA-2 over a padded message. -/
def sha2 (w : Nat) (ks h0 : List Nat) (outLen : Nat) (msg : Bytes) : Bytes :=
  let bs := w * 2
  let lenB := w / 4
  let pad := (2 * bs - (msg.length + 1 + lenB) % bs) % bs
  let m := msg ++ [0x80] ++ zeros pad ++ beBytes lenB (8 * msg.length)
  (((chunks bs m).foldl (sha2Block w ks) h0).flatMap (beBytes (w / 8))).take outLen

def sha256 (m : Bytes) : Bytes := sha2 32 sha256K sha256H 32 m
def sha384 (m : Bytes) : Bytes := sha2 64 sha512K sha384H 48 m
def sha512 (m : Bytes) : Bytes := sha2 64 sha512K sha512H 64 m

/-! ### SHA-3 -/

def rot64 (x k : Nat) : Nat := if k % 64 == 0 then x else ((x <<< (k % 64)) % 2 ^ 64) ||| (x >>> (64 - k % 64))

/-- The rotation of each lane, lane x + 5y, from the walk of the standard. -/
def keccakRot : List Nat :=
  let go := (List.range 24).foldl (fun (acc : (Nat × Nat) × List (Nat × Nat)) t =>
    let x := acc.1.1
    let y := acc.1.2
    ((y, (2 * x + 3 * y) % 5), (x + 5 * y, (t + 1) * (t + 2) / 2 % 64) :: acc.2)) ((1, 0), [])
  (List.range 25).map (fun i => ((go.2.find? (fun p => p.1 == i)).map (·.2)).getD 0)

/-- One step of the round-constant register. -/
def keccakLfsr (r : Nat) : Nat := let d := r * 2; if d ≥ 256 then (d ^^^ 0x171) % 256 else d

/-- The round constants. -/
def keccakRC : List Nat :=
  ((List.range 24).foldl (fun (acc : Nat × List Nat) _ =>
    let one := (List.range 7).foldl (fun (a : Nat × Nat) j =>
      (keccakLfsr a.1, if a.1 % 2 == 1 then a.2 ^^^ 2 ^ (2 ^ j - 1) else a.2)) (acc.1, 0)
    (one.1, acc.2 ++ [one.2])) (1, [])).2

def keccakRound (s : List Nat) (rc : Nat) : List Nat :=
  let a (x y : Nat) := s.getD (x % 5 + 5 * (y % 5)) 0
  let c := (List.range 5).map (fun x => a x 0 ^^^ a x 1 ^^^ a x 2 ^^^ a x 3 ^^^ a x 4)
  let d := (List.range 5).map (fun x => c.getD ((x + 4) % 5) 0 ^^^ rot64 (c.getD ((x + 1) % 5) 0) 1)
  let th := (List.range 25).map (fun i => s.getD i 0 ^^^ d.getD (i % 5) 0)
  let rh := List.zipWith rot64 th keccakRot
  -- pi: lane (y, 2x + 3y) takes lane (x, y)
  let b (x y : Nat) := rh.getD ((x + 3 * y) % 5 + 5 * (x % 5)) 0
  let ch := (List.range 25).map (fun i =>
    let x := i % 5
    let y := i / 5
    b x y ^^^ ((2 ^ 64 - 1 - b ((x + 1) % 5) y) &&& b ((x + 2) % 5) y))
  match ch with
  | [] => []
  | l :: r => (l ^^^ rc) :: r

def keccakF (s : List Nat) : List Nat := keccakRC.foldl keccakRound s

/-- The sponge's state after a message of a domain suffix. -/
def keccakAbsorb (rate : Nat) (suffix : Byte) (msg : Bytes) : List Nat :=
  let pad := rate - msg.length % rate
  let p : Bytes := if pad == 1 then [suffix ||| 0x80#8] else [suffix] ++ zeros (pad - 2) ++ [0x80]
  (chunks rate (msg ++ p)).foldl (fun s b =>
    keccakF (List.zipWith (· ^^^ ·) s ((chunks 8 (padTo 200 b)).map leNat))) (List.replicate 25 0)

/-- SHA-3 with the given rate and output length in bytes. -/
def sha3 (rate outLen : Nat) (msg : Bytes) : Bytes :=
  ((keccakAbsorb rate 0x06 msg).flatMap (leBytes 8)).take outLen

/-- Blocks squeezed from a state. -/
def keccakSqueeze (rate : Nat) : (blocks : Nat) → List Nat → Bytes
  | 0, _ => []
  | n + 1, st => (st.flatMap (leBytes 8)).take rate ++ keccakSqueeze rate n (keccakF st)

/-- SHAKE128 (rate 168) and SHAKE256 (rate 136) with an output of `outLen` bytes. -/
def shake (rate outLen : Nat) (msg : Bytes) : Bytes :=
  (keccakSqueeze rate ((outLen + rate - 1) / rate) (keccakAbsorb rate 0x1F msg)).take outLen

/-- The hash of `HASH` by its `ALG` code (R102). -/
def hashAlg (alg : Nat) (m : Bytes) : Bytes :=
  match alg with
  | 1 => sha256 m
  | 2 => sha384 m
  | 3 => sha512 m
  | 4 => sha3 136 32 m
  | 5 => sha3 104 48 m
  | 6 => sha3 72 64 m
  | _ => []

end Sys2Proof.Machine
end

