-- ==== Sys2Proof/Machine/Ec.lean ====
section
/-!
DEFINITION. The elliptic-curve and RSA primitives of the purlins (10_seam_signatures R226, R227), from the standards
that the spec names (PRESUMED: notes/assumptions/5.md): P-256 and P-384 with ECDSA, ECDH and point validation, and
RSAES-OAEP decryption with SHA-256 over a CRT private key.
-/
namespace Sys2Proof.Machine
open Sys2Proof

/-- `b ^ e mod m`, by squaring over `fuel` bits of `e`. -/
def powMod (m : Nat) : (fuel : Nat) → (b e : Nat) → Nat
  | 0, _, _ => 1 % m
  | fuel + 1, b, e =>
    if e == 0 then 1 % m
    else
      let h := powMod m fuel (b * b % m) (e / 2)
      if e % 2 == 1 then h * b % m else h

/-! ### Curves -/

/-- A short Weierstrass curve with a = p − 3: field prime, b, base point, order, bytes of a coordinate. -/
structure Curve where
  p : Nat
  b : Nat
  gx : Nat
  gy : Nat
  n : Nat
  len : Nat
deriving DecidableEq, Repr

def p256 : Curve :=
  ⟨0xFFFFFFFF00000001000000000000000000000000FFFFFFFFFFFFFFFFFFFFFFFF,
   0x5AC635D8AA3A93E7B3EBBD55769886BC651D06B0CC53B0F63BCE3C3E27D2604B,
   0x6B17D1F2E12C4247F8BCE6E563A440F277037D812DEB33A0F4A13945D898C296,
   0x4FE342E2FE1A7F9B8EE7EB4A7C0F9E162BCE33576B315ECECBB6406837BF51F5,
   0xFFFFFFFF00000000FFFFFFFFFFFFFFFFBCE6FAADA7179E84F3B9CAC2FC632551, 32⟩

def p384 : Curve :=
  ⟨0xFFFFFFFFFFFFFFFFFFFFFFFFFFFFFFFFFFFFFFFFFFFFFFFFFFFFFFFFFFFFFFFEFFFFFFFF0000000000000000FFFFFFFF,
   0xB3312FA7E23EE7E4988E056BE3F82D19181D9C6EFE8141120314088F5013875AC656398D8A2ED19D2A85C8EDD3EC2AEF,
   0xAA87CA22BE8B05378EB1C71EF320AD746E1D3B628BA79B9859F741E082542A385502F25DBF55296C3A545E3872760AB7,
   0x3617DE4A96262C6F5D9E98BF9292DC29F8F41DBD289A147CE9DA3113B5F0B8C00A60B1CE1D7E819D7A431D7C90EA0E5F,
   0xFFFFFFFFFFFFFFFFFFFFFFFFFFFFFFFFFFFFFFFFFFFFFFFFC7634D81F4372DDF581A0DB248B0A77AECEC196ACCC52973, 48⟩

/-- The curve of `SET` or of a type code's low bit: 1 is P-256, 2 is P-384. -/
def curveOf (set : Nat) : Curve := if set == 1 then p256 else p384

def fInv (c : Curve) (x : Nat) : Nat := powMod c.p 400 x (c.p - 2)

/-- Addition of points; `none` is the point at infinity. -/
def ecAdd (c : Curve) (x y : Option (Nat × Nat)) : Option (Nat × Nat) :=
  match x, y with
  | none, q => q
  | q, none => q
  | some (x1, y1), some (x2, y2) =>
    if x1 == x2 && (y1 + y2) % c.p == 0 then none
    else
      let l :=
        if x1 == x2 then (3 * x1 * x1 + (c.p - 3)) % c.p * fInv c (2 * y1 % c.p) % c.p
        else (y2 + c.p - y1) % c.p * fInv c ((x2 + c.p - x1) % c.p) % c.p
      let x3 := (l * l + (c.p - x1) + (c.p - x2)) % c.p
      some (x3, (l * ((x1 + c.p - x3) % c.p) + (c.p - y1)) % c.p)

/-- `k` times a point, over `fuel` bits of `k`. -/
def ecMulGo (c : Curve) : (fuel : Nat) → (k : Nat) → Option (Nat × Nat) → Option (Nat × Nat)
  | 0, _, _ => none
  | fuel + 1, k, q =>
    if k == 0 then none
    else
      let h := ecMulGo c fuel (k / 2) (ecAdd c q q)
      if k % 2 == 1 then ecAdd c h q else h

def ecMul (c : Curve) (k : Nat) (q : Option (Nat × Nat)) : Option (Nat × Nat) := ecMulGo c 400 k q

def ecBase (c : Curve) : Option (Nat × Nat) := some (c.gx, c.gy)

/-- Coordinates below the prime, on the curve (R227). -/
def ecOn (c : Curve) (x y : Nat) : Bool :=
  x < c.p && y < c.p && y * y % c.p == (x * x * x + (c.p - 3) * x + c.b) % c.p

/-- The uncompressed form of a point; zeros for the point at infinity. -/
def ecEncode (c : Curve) : Option (Nat × Nat) → Bytes
  | none => zeros (1 + 2 * c.len)
  | some (x, y) => 4 :: (beBytes c.len x ++ beBytes c.len y)

/-- A validated point from its uncompressed form. -/
def ecDecode (c : Curve) (b : Bytes) : Option (Nat × Nat) :=
  let x := beNat (sub b 1 c.len)
  let y := beNat (sub b (1 + c.len) c.len)
  if b.length == 1 + 2 * c.len && byteAt b 0 == 4 && ecOn c x y then some (x, y) else none

/-- A scalar in [1, n − 1] from random bytes. -/
def ecScalar (c : Curve) (b : Bytes) : Nat := 1 + beNat b % (c.n - 1)

def ecPublic (c : Curve) (scalar : Bytes) : Bytes := ecEncode c (ecMul c (beNat scalar) (ecBase c))

/-- ECDH: the x coordinate, or nothing for a point that fails validation. -/
def ecdhSecret (c : Curve) (scalar point : Bytes) : Option Bytes :=
  match ecDecode c point with
  | none => none
  | some q => match ecMul c (beNat scalar) (some q) with
    | none => none
    | some r => some (beBytes c.len r.1)

/-- ECDSA over a digest with a nonce: r and s, big-endian. -/
def ecdsaSign (c : Curve) (scalar nonce digest : Bytes) : Bytes :=
  let k := ecScalar c nonce
  let z := beNat (digest.take c.len)
  let r := match ecMul c k (ecBase c) with
    | none => 0
    | some q => q.1 % c.n
  let s := powMod c.n 400 k (c.n - 2) * ((z + r * beNat scalar) % c.n) % c.n
  beBytes c.len r ++ beBytes c.len s

/-- r and s lie in [1, n − 1] (R240, R249). -/
def ecdsaRange (c : Curve) (sig : Bytes) : Bool :=
  let r := beNat (sub sig 0 c.len)
  let s := beNat (sub sig c.len c.len)
  1 ≤ r && r < c.n && 1 ≤ s && s < c.n

def ecdsaVerify (c : Curve) (point digest sig : Bytes) : Bool :=
  let r := beNat (sub sig 0 c.len)
  let s := beNat (sub sig c.len c.len)
  let z := beNat (digest.take c.len)
  let w := powMod c.n 400 s (c.n - 2)
  match ecDecode c point with
  | none => false
  | some q =>
    ecdsaRange c sig &&
    (match ecAdd c (ecMul c (z * w % c.n) (ecBase c)) (ecMul c (r * w % c.n) (some q)) with
     | none => false
     | some x => x.1 % c.n == r)

/-! ### RSAES-OAEP (06_keys R162) -/

/-- MGF1 with SHA-256. -/
def mgf1 (seed : Bytes) (n : Nat) : Bytes :=
  ((List.range (ceilDiv n 32)).flatMap (fun i => sha256 (seed ++ beBytes 4 i))).take n

/-- The message after the separator byte 0x01 that follows zeros. -/
def oaepTail : Bytes → Option Bytes
  | [] => none
  | b :: r => if b == 0 then oaepTail r else if b == 1 then some r else none

/-- OAEP decoding with an empty label. -/
def oaepDecode (em : Bytes) : Option Bytes :=
  let ms := sub em 1 32
  let mdb := em.drop 33
  let seed := xorB ms (mgf1 mdb 32)
  let db := xorB mdb (mgf1 seed mdb.length)
  if byteAt em 0 == 0 && db.take 32 == sha256 [] then oaepTail (db.drop 32) else none

/-- The CRT private operation: p, q, dP, dQ and qInv, each half as long as the modulus. The recombined result is checked by
the public operation, with the exponent 65,537, before it is used (R227; the exponent: notes/assumptions/5.md). -/
def rsaDecrypt (material ct : Bytes) : Option Bytes :=
  let h := material.length / 5
  let part := fun i => beNat (sub material (h * i) h)
  let p := part 0
  let q := part 1
  let c := beNat ct
  if p * q ≤ c then none
  else
    let m1 := powMod p 4200 (c % p) (part 2)
    let m2 := powMod q 4200 (c % q) (part 3)
    let t := part 4 * ((m1 + p - m2 % p) % p) % p
    let m := m2 + t * q
    if powMod (p * q) 4200 m 65537 == c then oaepDecode (beBytes (2 * h) m) else none

end Sys2Proof.Machine
end

