-- ==== Sys2Proof/Machine/Hss.lean ====
section
/-!
DEFINITION. LMS/HSS signatures of the two seam sets (10_seam_signatures R232, R233, R245, R248, R249), as RFC 8554 and
SP 800-208 give them (PRESUMED: notes/assumptions/5.md): LMS_SHA256_M24 trees over LMOTS_SHA256_N24_W4 keys. How a
tree's I and SEED and an internal randomiser come from the tree seed is not printed: those are opaque (log entry 6).
-/
namespace Sys2Proof.Machine
open Sys2Proof

/-- SHA-256 cut to 24 bytes. -/
def sha24 (m : Bytes) : Bytes := (sha256 m).take 24

def lmotsType : Bytes := beBytes 4 7
/-- The LMS type code of a tree height. -/
def lmsType (h : Nat) : Bytes := beBytes 4 (if h == 20 then 0xD else 0xB)

/-- Tree heights of a set, top level first. -/
def hssHeights (set : Nat) : List Nat := if set == 1 then [20, 20, 10] else [20, 10]

/-! ### LM-OTS, N24 W4, 51 chains -/

/-- Steps `from` to `from + n` of chain `i`. -/
def otsChain (id : Bytes) (q i : Nat) : (n : Nat) → (start : Nat) → Bytes → Bytes
  | 0, _, x => x
  | n + 1, j, x => otsChain id q i n (j + 1) (sha24 (id ++ beBytes 4 q ++ beBytes 2 i ++ beBytes 1 j ++ x))

/-- The secret of chain `i` under a tree's SEED. -/
def otsSecret (id seed : Bytes) (q i : Nat) : Bytes := sha24 (id ++ beBytes 4 q ++ beBytes 2 i ++ [0xFF] ++ seed)

def otsPubOf (id : Bytes) (q : Nat) (ends : List Bytes) : Bytes :=
  sha24 (id ++ beBytes 4 q ++ beBytes 2 0x8080 ++ ends.flatten)

def otsPub (id seed : Bytes) (q : Nat) : Bytes :=
  otsPubOf id q ((List.range 51).map (fun i => otsChain id q i 15 0 (otsSecret id seed q i)))

/-- The digest Q of a message. -/
def otsDigest (id : Bytes) (q : Nat) (c msg : Bytes) : Bytes :=
  sha24 (id ++ beBytes 4 q ++ beBytes 2 0x8181 ++ c ++ msg)

/-- The 48 digits of Q and the three of its checksum. -/
def otsCoefs (dg : Bytes) : List Nat :=
  let ds := dg.flatMap (fun b => [b.toNat / 16, b.toNat % 16])
  let sum := ds.foldl (fun a d => a + (15 - d)) 0
  ds ++ [sum / 256 % 16, sum / 16 % 16, sum % 16]

/-- An LM-OTS signature, 1,252 bytes. -/
def otsSign (id seed : Bytes) (q : Nat) (c msg : Bytes) : Bytes :=
  let a := otsCoefs (otsDigest id q c msg)
  lmotsType ++ padTo 24 c ++
    (List.range 51).flatMap (fun i => otsChain id q i (a.getD i 0) 0 (otsSecret id seed q i))

/-- The candidate public key of a signature, and the chain steps it takes. -/
def otsCandidate (id : Bytes) (q : Nat) (sig msg : Bytes) : Bytes × Nat :=
  let a := otsCoefs (otsDigest id q (sub sig 4 24) msg)
  (otsPubOf id q ((List.range 51).map (fun i =>
      otsChain id q i (15 - a.getD i 0) (a.getD i 0) (sub sig (28 + 24 * i) 24))),
   a.foldl (fun n d => n + (15 - d)) 0)

/-! ### LMS trees -/

/-- Node `r` of a tree, `d` levels above its leaves. -/
def lmsNode (id seed : Bytes) (h : Nat) : (d : Nat) → (r : Nat) → Bytes
  | 0, r => sha24 (id ++ beBytes 4 r ++ beBytes 2 0x8282 ++ otsPub id seed (r - 2 ^ h))
  | d + 1, r =>
    sha24 (id ++ beBytes 4 r ++ beBytes 2 0x8383 ++ lmsNode id seed h d (2 * r) ++ lmsNode id seed h d (2 * r + 1))

/-- An LMS public key, 48 bytes. -/
def lmsPub (id seed : Bytes) (h : Nat) : Bytes := lmsType h ++ lmotsType ++ padTo 16 id ++ lmsNode id seed h h 1

/-- The authentication path of leaf `q`. -/
def lmsPath (id seed : Bytes) (h q : Nat) : Bytes :=
  (List.range h).flatMap (fun i => lmsNode id seed h i (((2 ^ h + q) / 2 ^ i) ^^^ 1))

def lmsSign (id seed : Bytes) (h q : Nat) (c msg : Bytes) : Bytes :=
  beBytes 4 q ++ otsSign id seed q c msg ++ lmsType h ++ lmsPath id seed h q

def lmsSigLen (h : Nat) : Nat := 1260 + 24 * h

/-- The root that a path gives. -/
def lmsRoot (id : Bytes) : (todo : Nat) → (r : Nat) → Bytes → Bytes → Bytes
  | 0, _, _, x => x
  | n + 1, r, path, x =>
    let p := sub path 0 24
    let m := beBytes 4 (r / 2) ++ beBytes 2 0x8383
    lmsRoot id n (r / 2) (path.drop 24) (sha24 (id ++ m ++ (if r % 2 == 1 then p ++ x else x ++ p)))

/-- One level verifies: type codes, the leaf number, the chain steps of R248, and the root (R249). -/
def lmsVerify (h : Nat) (pub sig msg : Bytes) : Bool :=
  let id := sub pub 8 16
  let q := beNat (sub sig 0 4)
  let k := otsCandidate id q (sub sig 4 1252) msg
  let leaf := sha24 (id ++ beBytes 4 (2 ^ h + q) ++ beBytes 2 0x8282 ++ k.1)
  sub pub 0 4 == lmsType h && sub pub 4 4 == lmotsType && sub sig 4 4 == lmotsType && sub sig 1256 4 == lmsType h &&
  q < 2 ^ h && k.2 ≤ 800 - 21 - 2 * h &&
  lmsRoot id h (2 ^ h + q) (sig.drop 1260) leaf == sub pub 24 24

/-! ### HSS -/

/-- I and SEED of the tree at a level whose ancestors' leaves are `pos` (R245). -/
def treeId (treeSeed : Bytes) (pos : List Nat) : Bytes := padTo 16 (Config.pk 24 (treeSeed :: pos.map (beBytes 4)))
def treeSeed (seed : Bytes) (pos : List Nat) : Bytes := padTo 24 (Config.pk 25 (seed :: pos.map (beBytes 4)))
/-- The randomiser of an internal signature. -/
def innerRandom (seed : Bytes) (pos : List Nat) (q : Nat) : Bytes :=
  padTo 24 (Config.pk 26 (seed :: (pos ++ [q]).map (beBytes 4)))

/-- The q values of a seam index, top level first (R232). -/
def seamQ (set idx : Nat) : List Nat :=
  if set == 1 then [idx / 2 ^ 30 % 2 ^ 20, idx / 2 ^ 10 % 2 ^ 20, idx % 2 ^ 10]
  else [idx / 2 ^ 10 % 2 ^ 20, idx % 2 ^ 10]

/-- The levels of an HSS signature: each upper level signs the public key below it. -/
def hssLevelsGo (seed : Bytes) (pos : List Nat) (c msg : Bytes) : List Nat → List Nat → Bytes
  | h :: h2 :: hs, q :: qs =>
    let id := treeId seed pos
    let sd := treeSeed seed pos
    let below := lmsPub (treeId seed (pos ++ [q])) (treeSeed seed (pos ++ [q])) h2
    lmsSign id sd h q (innerRandom seed pos q) below ++ below ++ hssLevelsGo seed (pos ++ [q]) c msg (h2 :: hs) qs
  | [h], q :: _ => lmsSign (treeId seed pos) (treeSeed seed pos) h q c msg
  | _, _ => []

/-- The HSS signature of a message under a tree seed at a seam index, with the bottom level's randomiser. -/
def hssSign (set : Nat) (seed : Bytes) (idx : Nat) (c msg : Bytes) : Bytes :=
  beBytes 4 ((hssHeights set).length - 1) ++ hssLevelsGo seed [] c msg (hssHeights set) (seamQ set idx)

/-- The HSS public key: L, then the top tree's key. -/
def hssPub (set : Nat) (seed : Bytes) : Bytes :=
  beBytes 4 (hssHeights set).length ++ lmsPub (treeId seed []) (treeSeed seed []) ((hssHeights set).headD 20)

/-- Verifies the levels of a signature from a public key down, and gathers their q values. -/
def hssVerifyGo (msg : Bytes) : List Nat → (pub sig : Bytes) → Bool × List Nat
  | h :: h2 :: hs, pub, sig =>
    let n := lmsSigLen h
    let below := sub sig n 48
    let r := hssVerifyGo msg (h2 :: hs) below (sig.drop (n + 48))
    (lmsVerify h pub (sub sig 0 n) below && r.1, beNat (sub sig 0 4) :: r.2)
  | [h], pub, sig => (lmsVerify h pub sig msg, [beNat (sub sig 0 4)])
  | [], _, _ => (true, [])

/-- An HSS signature verifies under a public key of the set; with its q values. -/
def hssVerify (set : Nat) (pub sig msg : Bytes) : Bool × List Nat :=
  let hs := hssHeights set
  let r := hssVerifyGo msg hs (sub pub 4 48) (sig.drop 4)
  (r.1 && sub pub 0 4 == beBytes 4 hs.length && sub sig 0 4 == beBytes 4 (hs.length - 1), r.2)

/-! ### LMS/HSS of every parameter set of R8 (R231) -/

/-- One level's parameters: hash length, tree height, Winternitz width, chains, checksum shift. -/
structure LmsKind where
  n : Nat
  h : Nat
  w : Nat
  p : Nat
  ls : Nat
deriving DecidableEq, Repr

/-- Chains and checksum shift of a hash length and a Winternitz width. -/
def otsShape (n w : Nat) : Nat × Nat :=
  match w with
  | 1 => if n == 32 then (265, 7) else (200, 8)
  | 2 => if n == 32 then (133, 6) else (101, 6)
  | 4 => if n == 32 then (67, 4) else (51, 4)
  | _ => if n == 32 then (34, 0) else (26, 0)

/-- The parameters that a public key's two type codes name: SHA-256 or SHA-256/192, height 5 to 25, w 1 to 8. -/
def lmsKind (pub : Bytes) : Option LmsKind :=
  let t := beNat (sub pub 0 4)
  let o := beNat (sub pub 4 4)
  let go := fun (n t0 o0 : Nat) =>
    if t0 ≤ t && t < t0 + 5 && o0 ≤ o && o < o0 + 4 then
      let w := 2 ^ (o - o0)
      some (LmsKind.mk n (5 * (t - t0 + 1)) w (otsShape n w).1 (otsShape n w).2)
    else none
  match go 32 5 1 with
  | some k => some k
  | none => go 24 10 5

def shaN (n : Nat) (m : Bytes) : Bytes := (sha256 m).take n

/-- The digits of `w` bits of a byte, from its top. -/
def byteDigits (w : Nat) (b : Byte) : List Nat :=
  (List.range (8 / w)).map (fun i => b.toNat / 2 ^ (8 - w * (i + 1)) % 2 ^ w)

/-- The digits of a digest and of its checksum. -/
def kindCoefs (k : LmsKind) (dg : Bytes) : List Nat :=
  let ds := dg.flatMap (byteDigits k.w)
  let sum := ds.foldl (fun a d => a + (2 ^ k.w - 1 - d)) 0 * 2 ^ k.ls
  (ds ++ (beBytes 2 sum).flatMap (byteDigits k.w)).take k.p

def kindChain (len : Nat) (id : Bytes) (q i : Nat) : (n : Nat) → (start : Nat) → Bytes → Bytes
  | 0, _, x => x
  | n + 1, j, x => kindChain len id q i n (j + 1) (shaN len (id ++ beBytes 4 q ++ beBytes 2 i ++ beBytes 1 j ++ x))

def kindRoot (len : Nat) (id : Bytes) : (todo : Nat) → (r : Nat) → Bytes → Bytes → Bytes
  | 0, _, _, x => x
  | n + 1, r, path, x =>
    let y := path.take len
    let m := id ++ beBytes 4 (r / 2) ++ beBytes 2 0x8383
    kindRoot len id n (r / 2) (path.drop len) (shaN len (m ++ (if r % 2 == 1 then y ++ x else x ++ y)))

/-- Bytes of one level's signature. -/
def kindSigLen (k : LmsKind) : Nat := 12 + k.n * (k.p + 1 + k.h)

/-- One level verifies under its public key (RFC 8554; PRESUMED: notes/assumptions/5.md). -/
def kindVerify (k : LmsKind) (pub sig msg : Bytes) : Bool :=
  let id := sub pub 8 16
  let q := beNat (sub sig 0 4)
  let a := kindCoefs k (shaN k.n (id ++ beBytes 4 q ++ beBytes 2 0x8181 ++ sub sig 8 k.n ++ msg))
  let ends := (List.range k.p).flatMap (fun i =>
    kindChain k.n id q i (2 ^ k.w - 1 - a.getD i 0) (a.getD i 0) (sub sig (8 + k.n + k.n * i) k.n))
  let kc := shaN k.n (id ++ beBytes 4 q ++ beBytes 2 0x8080 ++ ends)
  let leaf := shaN k.n (id ++ beBytes 4 (2 ^ k.h + q) ++ beBytes 2 0x8282 ++ kc)
  sig.length == kindSigLen k && sub sig 4 4 == sub pub 4 4 && sub sig (8 + k.n * (k.p + 1)) 4 == sub pub 0 4 &&
  q < 2 ^ k.h && kindRoot k.n id k.h (2 ^ k.h + q) (sig.drop (12 + k.n * (k.p + 1))) leaf == sub pub 24 k.n

/-- Compressions of one level, whatever its signature holds. -/
def kindCost (k : LmsKind) : Nat := k.p * (2 ^ k.w - 1) + ceilDiv (k.p * k.n + 31) 64 + 1 + 2 * k.h

/-- `levels` further public keys are signed on the way down: whether all verify, and the compressions of all levels. -/
def kindLevels (msg : Bytes) : (levels : Nat) → (pub sig : Bytes) → Bool × Nat
  | 0, pub, sig =>
    match lmsKind pub with
    | none => (false, 0)
    | some k => (kindVerify k pub sig msg, kindCost k)
  | n + 1, pub, sig =>
    match lmsKind pub with
    | none => (false, 0)
    | some k =>
      let rest := sig.drop (kindSigLen k)
      let below := rest.take (24 + (match lmsKind rest with | some b => b.n | none => 0))
      let r := kindLevels msg n below (rest.drop below.length)
      (kindVerify k pub (sig.take (kindSigLen k)) below && r.1, kindCost k + r.2)

/-- An HSS signature of any parameter set of R8, at most four levels: whether it verifies, and its compressions. -/
def hssAny (pub sig msg : Bytes) : Bool × Nat :=
  let l := beNat (sub pub 0 4)
  if 1 ≤ l && l ≤ 4 then
    let r := kindLevels msg (l - 1) (pub.drop 4) (sig.drop 4)
    (r.1 && beNat (sub sig 0 4) == l - 1, r.2)
  else (false, 0)

end Sys2Proof.Machine
end

