-- ==== Sys2Proof/Machine/Aes.lean ====
section
/-!
DEFINITION. The AES block cipher in both directions at 128, 192 and 256 bits. The spec names AES and its modes by
their standards (05_needles R125, 00_scope R8) and does not print them; the text here is the standard's (PRESUMED,
notes/assumptions/5.md).
-/
namespace Sys2Proof.Machine
open Sys2Proof

/-- Multiplication by x in the AES field. -/
def xtime (b : Byte) : Byte := (b <<< 1) ^^^ (if b.getLsbD 7 then 0x1b#8 else 0#8)

/-- Multiplication in the AES field. -/
def gmul (a b : Byte) : Byte :=
  ((List.range 8).foldl (fun (acc : Byte × Byte) i =>
    (if b.getLsbD i then acc.1 ^^^ acc.2 else acc.1, xtime acc.2)) (0#8, a)).1

/-- The field inverse as the 254th power; 0 goes to 0. -/
def ginv (a : Byte) : Byte :=
  let a2 := gmul a a
  let a4 := gmul a2 a2
  let a8 := gmul a4 a4
  let a16 := gmul a8 a8
  let a32 := gmul a16 a16
  let a64 := gmul a32 a32
  let a128 := gmul a64 a64
  gmul a128 (gmul a64 (gmul a32 (gmul a16 (gmul a8 (gmul a4 a2)))))

/-- The S-box: field inverse, then the affine map. -/
def aesSboxOf (a : Byte) : Byte :=
  let i := ginv a
  i ^^^ i.rotateLeft 1 ^^^ i.rotateLeft 2 ^^^ i.rotateLeft 3 ^^^ i.rotateLeft 4 ^^^ 0x63#8

/-- The inverse S-box. -/
def aesInvSboxOf (a : Byte) : Byte :=
  ginv (a.rotateLeft 1 ^^^ a.rotateLeft 3 ^^^ a.rotateLeft 6 ^^^ 0x05#8)

def aesSboxTable : List Byte := (List.range 256).map (fun i => aesSboxOf (BitVec.ofNat 8 i))
def aesInvSboxTable : List Byte := (List.range 256).map (fun i => aesInvSboxOf (BitVec.ofNat 8 i))
def aesSbox (a : Byte) : Byte := aesSboxTable.getD a.toNat 0
def aesInvSbox (a : Byte) : Byte := aesInvSboxTable.getD a.toNat 0

def aesShiftRows (s : Bytes) : Bytes :=
  (List.range 16).map (fun i => s.getD ((i % 4) + 4 * ((i / 4 + i % 4) % 4)) 0)

def aesInvShiftRows (s : Bytes) : Bytes :=
  (List.range 16).map (fun i => s.getD ((i % 4) + 4 * ((i / 4 + 4 - i % 4) % 4)) 0)

/-- One column times the circulant matrix whose first row is `m0 m1 m2 m3`. -/
def aesMixCol (m0 m1 m2 m3 : Byte) (c : Bytes) : Bytes :=
  let a := c.getD 0 0
  let b := c.getD 1 0
  let d := c.getD 2 0
  let e := c.getD 3 0
  [gmul a m0 ^^^ gmul b m1 ^^^ gmul d m2 ^^^ gmul e m3,
   gmul a m3 ^^^ gmul b m0 ^^^ gmul d m1 ^^^ gmul e m2,
   gmul a m2 ^^^ gmul b m3 ^^^ gmul d m0 ^^^ gmul e m1,
   gmul a m1 ^^^ gmul b m2 ^^^ gmul d m3 ^^^ gmul e m0]

def aesMix (s : Bytes) : Bytes := (chunks 4 s).flatMap (aesMixCol 2 3 1 1)
def aesInvMix (s : Bytes) : Bytes := (chunks 4 s).flatMap (aesMixCol 14 11 13 9)

def aesRcon : Nat → Byte
  | 0 => 1
  | n + 1 => xtime (aesRcon n)

/-- The key schedule, words in reverse order of index. `todo` words remain, the next has index `i`. -/
def aesExpand (nk : Nat) : (todo : Nat) → (i : Nat) → List Bytes → List Bytes
  | 0, _, acc => acc
  | todo + 1, i, acc =>
    let prev := acc.headD []
    let t :=
      if i % nk == 0 then
        xorB ((prev.drop 1 ++ prev.take 1).map aesSbox) [aesRcon (i / nk - 1), 0, 0, 0]
      else if nk > 6 && i % nk == 4 then prev.map aesSbox
      else prev
    aesExpand nk todo (i + 1) (xorB (acc.getD (nk - 1) []) t :: acc)

/-- The round keys of a key of 16, 24 or 32 bytes, first round first. -/
def aesRoundKeys (key : Bytes) : List Bytes :=
  let nk := key.length / 4
  let ws := (aesExpand nk (4 * (nk + 7) - nk) nk (chunks 4 key).reverse).reverse
  chunks 16 ws.flatten

/-- The AES encryption of one 16-byte block. -/
def aesEnc (key blk : Bytes) : Bytes :=
  match aesRoundKeys key with
  | [] => blk
  | k0 :: ks =>
    let mid := ks.dropLast.foldl (fun s k => xorB (aesMix (aesShiftRows (s.map aesSbox))) k) (xorB blk k0)
    xorB (aesShiftRows (mid.map aesSbox)) (ks.getLastD [])

/-- The AES decryption of one 16-byte block. -/
def aesDec (key blk : Bytes) : Bytes :=
  match (aesRoundKeys key).reverse with
  | [] => blk
  | k0 :: ks =>
    let mid := ks.dropLast.foldl (fun s k => aesInvMix (xorB ((aesInvShiftRows s).map aesInvSbox) k)) (xorB blk k0)
    xorB ((aesInvShiftRows mid).map aesInvSbox) (ks.getLastD [])

end Sys2Proof.Machine
end

