-- ==== Sys2Proof/Machine/Assoc.lean ====
section
/-!
DEFINITION. Sparse tables: lists of key and value with strictly rising keys, in which no entry equals the table's
default. Equal tables are equal lists. Memory is such a table of bytes with default 0.
-/
namespace Sys2Proof.Machine

/-- The value under a key; the default where the key is not listed. -/
def tget {α : Type} (d : α) : List (Nat × α) → Nat → α
  | [], _ => d
  | (k, v) :: r, q => if k = q then v else tget d r q

/-- Writes a value under a key, keeping the keys rising. -/
def tinsert {α : Type} (k : Nat) (v : α) : List (Nat × α) → List (Nat × α)
  | [] => [(k, v)]
  | (k', v') :: r =>
    if k < k' then (k, v) :: (k', v') :: r
    else if k = k' then (k, v) :: r
    else (k', v') :: tinsert k v r

/-- Removes a key. -/
def terase {α : Type} (k : Nat) : List (Nat × α) → List (Nat × α)
  | [] => []
  | (k', v') :: r => if k = k' then terase k r else (k', v') :: terase k r

/-- Writes a value: an entry that would equal the default is removed. -/
def tput {α : Type} [DecidableEq α] (d : α) (m : List (Nat × α)) (k : Nat) (v : α) : List (Nat × α) :=
  if v = d then terase k m else tinsert k v m

/-- The entry under a key, where one is listed. -/
def tfind {α : Type} : List (Nat × α) → Nat → Option α
  | [], _ => none
  | (k, v) :: r, q => if k = q then some v else tfind r q

/-- Keys strictly rising from above `lo`. -/
def trising {α : Type} : Nat → List (Nat × α) → Bool
  | _, [] => true
  | lo, (k, _) :: r => decide (lo ≤ k) && trising (k + 1) r

/-- The canonical form: keys strictly rising, no entry equal to the default. -/
def twf {α : Type} [DecidableEq α] (d : α) (m : List (Nat × α)) : Bool :=
  trising 0 m && m.all (fun e => !decide (e.2 = d))

end Sys2Proof.Machine
end

