-- ==== Sys2Proof/Machine/State.lean ====
section
/-!
DEFINITION. The state of the block as plain data, the reasons a step can stop, and the state at reset release.
Sparse tables are lists of key and value with strictly rising keys and no entry equal to the table's default
(Machine/Assoc.lean reads and writes them).
-/
namespace Sys2Proof.Machine
open Sys2Proof

/-! ### Registers -/

/-- A field of a register word: the word's key (page × 0x1000 + offset), its lowest bit and its width. -/
structure Fld where
  key : Nat
  lo : Nat
  width : Nat
deriving DecidableEq, Repr

/-- A row of the register table: offset, reset value, and the masks of the RW, W1C, RC and GW bits (R486). -/
structure RegRow where
  off : Nat
  reset : Nat
  rw : Nat
  w1c : Nat
  rc : Nat
  gw : Nat
deriving DecidableEq, Repr

/-! ### Slices (13_slices) -/

/-- `SLC_STATE.STATE` (R287). -/
inductive SliceSt where
  | none | dormant | active | quiesced | changing
deriving DecidableEq, Repr

/-- `SLC_STATE.CHANGE`. -/
inductive SliceChange where
  | none | quiesce | reset | destroy | exporting | importing
deriving DecidableEq, Repr

/-- `SLC_STATE.CAUSE` of a quiesce (R299). -/
inductive QuiesceCause where
  | none | command | fault
deriving DecidableEq, Repr

/-- A group entry of the configuration record (R289). -/
structure GroupCfg where
  firstQ : Nat
  queues : Nat
  pasid : Nat
  pasidEn : Bool
  ndl : Nat
  pur : Nat
  hsh : Nat
  vlt : Nat
  av : Nat
  ah : Nat
  work : Nat
  ctrl : Nat
  perTick : Nat
  ctxs : Nat
  linkIn : Nat
  linkOut : Nat
deriving DecidableEq, Repr

/-- The configuration record of a slice (R288, R289). -/
structure SliceCfg where
  migratable : Bool
  pairs : Nat
  egress : Nat
  keyQuota : Nat
  vaultUnits : Nat
  recordLimit : Nat
  /-- Units of `TOK`, `REV`, `GEN`, `CRD`, `TMB` (R214). -/
  tableMap : List Nat
  groups : List GroupCfg
deriving DecidableEq, Repr

/-- The placed layout of a group (R291). A needle slot is (needle, stitch slot). -/
structure Layout where
  /-- The serial needle; absent when the group has no charged needle allotment. -/
  serial : Option Nat
  /-- The serial needle in service: another one after a halt of the first, or none (R122). -/
  serialNow : Option Nat
  /-- Charged needle slots, serial slots included. -/
  ndl : List (Nat × Nat)
  /-- Lane slots of work slots. -/
  lanes : List (Nat × Nat)
  work : List Nat
  ctrl : List Nat
  /-- The hash engine of the group's shares and companion reserve. -/
  hsh : Option Nat
  /-- (purlin, position mod 16). -/
  pur : List (Nat × Nat)
  vlt : List Nat
  av : List Nat
deriving DecidableEq, Repr

/-- A dirty-page log (R302). -/
structure DirtyLog where
  base : Nat
  len : Nat
  pasid : Nat
  pasidEn : Bool
  mapA : Nat
  mapB : Nat
  onB : Bool
  /-- Pages (by index in the window) whose bit the device set in the active bitmap since the last flip. -/
  bits : List Nat
deriving DecidableEq, Repr

/-- A live migration offer (R305): nonce and the destination's one-time secrets (ECDH scalar, ML-KEM seed). -/
structure Offer where
  nonce : Bytes
  scalar : Bytes
  kemSeed : Bytes
deriving DecidableEq, Repr

/-- A staged or running change of a slice: what it is, SQUASH or DRAIN, the admin context that asked for it, the
kerf (tick) in which it committed, and the record it carries. -/
structure StagedChange where
  kind : SliceChange
  squash : Bool
  ctx : Option Nat
  committed : Option Nat
  /-- For a quiesce raised by a fault response (R299) or an FLR (R300). -/
  byFault : Bool
  byFlr : Bool
  /-- The slice ends DORMANT (VF Enable cleared, R287). -/
  toDormant : Bool
deriving DecidableEq, Repr

/-- An enrolled infill image (R448, R449): its entry count, the SHA-384 of its code, its security version, and its
blocks of the infill store. -/
structure Infill where
  entries : Nat
  hash : Bytes
  sv : Nat
  first : Nat
  count : Nat
deriving DecidableEq, Repr

/-- One slice. -/
structure Slice where
  st : SliceSt
  cause : QuiesceCause
  fnEn : Bool
  /-- The function is in D3hot, or its Bus Master Enable is clear (R462). -/
  busOff : Bool
  cfg : SliceCfg
  layouts : List Layout
  identity : Bytes
  exportSerial : Nat
  /-- Added to the device's count of hours to give the slice hour (R222). -/
  hourOffset : Int
  vaultFirst : Nat
  logs : List (Nat × DirtyLog)
  change : Option StagedChange
  /-- Staged record of a create or resize awaiting its commit kerf, with its admin context. -/
  stagedCfg : Option (SliceCfg × Nat)
  /-- Fault sources whose QUIESCE_SLICE response holds the slice (R299, R377). -/
  quiesceSources : List Nat
  infill : Option Infill
  /-- The lowest security version an infill image may have (R449). -/
  infillFloor : Nat
  /-- A function-level reset or function disable that waits for the slice's change (R301); true ends DORMANT. -/
  flr : Option Bool
  offer : Option Offer
  /-- Host writes not yet acknowledged, as the flush read sees them (R274, R298). -/
  unacked : Nat
  resumeStaged : Option Nat
deriving DecidableEq, Repr

/-! ### Host queues (03_queues) -/

/-- `HQ_QSTAT.STATE` (R61). -/
inductive QState where
  | disabled | enabled | disabling | stopped | held
deriving DecidableEq, Repr

/-- One queue pair: its register block (R61), doorbells, and moderation (R79). -/
structure Queue where
  sqBase : Nat
  cqBase : Nat
  qsize : Word
  qvec : Word
  st : QState
  cause : Nat
  phase : Bool
  sqHead : Nat
  sqTail : Nat
  cqTail : Nat
  cqHead : Nat
  /-- Staged enable (true) or disable (false), for the next kerf (R62, R63). -/
  staged : Option Bool
  /-- The value last written to HQ_QCTRL.EN. -/
  en : Bool
  /-- Completions written since the queue's last interrupt, not marked NOIRQ. -/
  aggCount : Nat
  /-- Tick in which the first such completion was written. -/
  aggStart : Option Nat
  /-- A due interrupt whose vector is masked waits as the vector's pending bit. -/
  heldFetch : Nat
deriving DecidableEq, Repr

/-- A fetched entry that awaits admission (R67). -/
structure Fetched where
  slice : Nat
  queue : Nat
  entry : Bytes
  arrival : Nat
  /-- Order of fetching, which is the order of positions in each queue. -/
  order : Nat
deriving DecidableEq, Repr

/-- A completion entry that waits for its link slot (R34, R68). -/
structure Completion where
  slice : Nat
  queue : Nat
  cmdId : Nat
  status : Nat
  untrusted : Bool
  partialOut : Bool
  scrubbed : Bool
  late : Bool
  len : Nat
  rtick : Nat
  inline : Bytes
  noirq : Bool
  /-- The context that is freed when the entry is written. -/
  ctx : Option Nat
  gid : Nat
  order : Nat
  /-- The entry's place in fetch order (R82). -/
  fetchNo : Nat
  /-- Already counted in HQ_CQ_HOLD. -/
  held : Bool
deriving DecidableEq, Repr

/-! ### Commands in contexts (01_frame R16, 04_command_reference) -/

/-- What a command's work gives: its status, flags, result length, inline bytes and destination bytes. -/
structure CmdResult where
  status : Nat
  untrusted : Bool
  scrubbed : Bool
  partialOut : Bool
  len : Nat
  inline : Bytes
  dest : Bytes
  /-- Per-item destination size of a batch: the output forms a prefix of whole items (R96). 0 for no batch. -/
  itemLen : Nat
deriving DecidableEq, Repr

/-- A key named by a command and the budget it deducted at admission. -/
structure KeyUse where
  slot : Nat
  deducted : Nat
  /-- The deduction counts invocations that are never refunded (GCM). -/
  noRefund : Bool
deriving DecidableEq, Repr

/-- A tenon: its 128 bits and its tag. -/
structure Tenon where
  bits : BitVec 128
  tag : Bool
deriving DecidableEq, Repr

/-- Where a context stands. -/
inductive CtxPhase where
  | running
  /-- Released; its completion entry waits. -/
  | released
  /-- Its completion entry was written in this tick; freed in the kerf (R16). -/
  | written
deriving DecidableEq, Repr

/-- One context of context RAM with a command in it. -/
structure Ctx where
  slice : Nat
  queue : Nat
  /-- The entry's place in fetch order (R82). -/
  fetchNo : Nat
  gid : Nat
  order : Nat
  entry : Bytes
  arrival : Nat
  admitted : Nat
  /-- Engine class: 0 needle, 1 hash, 2 vault, 3 post, 4 + p purlin p, 12 none. -/
  cls : Nat
  units : Nat
  s0 : Nat
  owed : Nat
  rate : Nat
  k : Nat
  release : Nat
  /-- The last tick of the charged work. -/
  lastTick : Nat
  serial : Bool
  refused : Bool
  /-- The status decided at admission (R95 items 1–6); 0 for none. -/
  status : Nat
  keyA : Option KeyUse
  keyB : Option KeyUse
  newSlots : List Nat
  /-- The device-built IV (R128). -/
  iv : Bytes
  lmsIndex : Option Nat
  /-- Claims an LMS index of the pair in this system slot (R238). -/
  lmsPair : Option Nat
  /-- Source bytes that have arrived, and whether a read failed at the link (R511). -/
  src : Bytes
  srcFail : Bool
  /-- The source piece after the bytes asked for was refused at gate 14 (R273). -/
  srcGate : Bool
  /-- Source bytes asked of the host so far. -/
  asked : Nat
  result : Option CmdResult
  /-- Items of a batch whose work is done. -/
  done : Nat
  /-- Vault slots of its charged work or companion phase that have run, and what their probe chose (R218). -/
  slots : Nat
  scratch : List Nat
  /-- Output bytes already drained; bytes past the output count the zeros of a scrub (R134). -/
  drained : Nat
  /-- Output bytes drained before the last drain, and whether a destination piece failed: no further one is written
  (R273). -/
  drainFrom : Nat
  dstStop : Bool
  /-- Units that WORK pacing has lent the command capacity for (R33), the last tick that lent any, and how many were lent
  before it. -/
  lent : Nat
  lentAt : Nat
  lentOld : Nat
  /-- Ticks that stalls have added to the release (R43). -/
  late : Nat
  /-- Units that had run before and by the end of the last tick in which the plan stalled, and that tick (R43). -/
  floorOld : Nat
  floorNew : Nat
  floorAt : Nat
  /-- The release tick that the formula gave at admission (R44). -/
  formula : Nat
  /-- What the layout in force at admission gives the command beside its places (R17): its group's control posts, the
  vault slots of its charged work or companion phase, and the hash engine and reserve of its companion phase. -/
  ctrlAt : List Nat
  vltAt : List Nat
  hshAt : Option (Nat × Nat)
  /-- The lanes of its work posts, 16 needle slots for each place. -/
  laneAt : List Nat
  phase : CtxPhase
  /-- The run failed: the status, and how many units ran before it (R374, R265, R511). -/
  fail : Option (Nat × Nat)
  /-- The needle slot (128 × needle + slot), engine, purlin or post that carries each unit of a tick, in plan order
  (R512). -/
  place : List Nat
  /-- The slice hour of the admission kerf (R222). -/
  hour : Nat
  /-- A pickup code drawn at admission (R223); the panels that a VAULT_GET has read. -/
  code : Bytes
  /-- What the first link of an INFILL_CALL receives, once its source is staged: the argument registers `a0`–`a7` and the
  tenon registers `t0`–`t3` (R116). -/
  link : List Word
  linkT : List Tenon
  /-- The reason code of a failing admin command (R294, R431, R447). -/
  reason : Nat
  /-- The epilogue of an admin command is due: its status, once known. -/
  adminDone : Option CmdResult
deriving DecidableEq, Repr

/-- The plan of a group in a class, in closed form: the last tick planned under an earlier allotment (`f` of R40),
the last tick planned under the current allotment, and the units it holds in that tick. -/
structure Plan where
  f : Nat
  last : Nat
  used : Nat
deriving DecidableEq, Repr

/-- A fence (R48). -/
structure Fence where
  k : Nat
  d : Nat
  l : Nat
  ctx : Nat
  suite : Bool
deriving DecidableEq, Repr

/-! ### Keys (06_keys) -/

/-- The states of a slot (R156). -/
inductive KeySt where
  | empty | loaded | active | spent | retired | killed
deriving DecidableEq, Repr

/-- A slot of the key store (R149). -/
structure KeySlot where
  st : KeySt
  level : Nat
  owner : Nat
  gen : Nat
  parent : Nat
  ext : Nat
  attr : Nat
  budget : Nat
  ident : Bytes
  typ : Nat
  material : Bytes
  /-- This slot is an extension slot of the extended key in the given first slot. -/
  extOf : Option Nat
  /-- The budget that would remain once everything reserved is consumed (R131). -/
  reserved : Nat
  /-- The stored record is written. -/
  recorded : Bool
  /-- When the slot became RETIRED or KILLED: the next admission order and the tick (R157). -/
  changed : Nat
  changedTick : Nat
  /-- The slot became RETIRED by an integrity failure, which deletes no record (R158). -/
  failed : Bool
  /-- The initial key ID of an AES DUKPT initial key (R175). -/
  ik : Bytes
deriving DecidableEq, Repr

/-- A stored record (R163): what is in the clear, the material wrapped with KWP, and the AES-CMAC. -/
structure KeyRecord where
  slot : Nat
  gen : Nat
  owner : Nat
  level : Nat
  typ : Nat
  parent : Nat
  ext : Nat
  attr : Nat
  ident : Bytes
  /-- The end of the key's last budget reservation, as the budget that then remains. -/
  budgetEnd : Nat
  ik : Bytes
  inVault : Bool
  /-- Material wrapped with KWP. Empty, with `mac`, for a VAULT record that the vault has lost until its reload; its
  slot stays taken (R165, R208). -/
  wrapped : Bytes
  mac : Bytes
  /-- A VAULT record whose deletion marker is still to be placed in the journal (R165). -/
  gone : Bool
deriving DecidableEq, Repr

/-! ### The vault, its journal and its records (08_vault_store, 09_tokens_credentials) -/

/-- The state of a chain's vault (R193, R513). -/
inductive VaultSt where
  | none | unloaded | reloading | ready | failed
deriving DecidableEq, Repr

/-- An entry of a bucket: the 48-byte or 16-byte entry in its stored form (R216). -/
structure VEntry where
  bytes : Bytes
deriving DecidableEq, Repr

/-- What the DIMMs hold of a panel or node besides a node's own counters: the key generation it was sealed under, a
panel's ciphertext (empty for a node), and its tag (R184, R185). -/
structure Sealed where
  gen : Nat
  ct : Bytes
  tag : Bytes
deriving DecidableEq, Repr

/-- The protected memory and its counter tree (R184–R187). A child of level 0 (panel), 1 (L0 block), 2 (L1 node) or
3 (L2 node) with index i within its level has the key 8 i + level; L3 nodes have level 4. -/
structure Tree where
  /-- The keys by generation: ke (32 bytes), km (32 bytes), h (16 bytes) (R185). -/
  keys : List (Nat × Bytes)
  /-- Minor counters by child, and major counters by node. -/
  minors : List (Nat × Nat)
  majors : List (Nat × Nat)
  seals : List (Nat × Sealed)
  /-- Pages and nodes queued for re-encryption (R186). -/
  queue : List Nat
deriving DecidableEq, Repr

/-- A bucket panel that holds at least one entry: the slice, the table code, the bucket number, and its cells. -/
structure Bucket where
  slice : Nat
  table : Nat
  num : Nat
  cells : List (Nat × VEntry)
deriving DecidableEq, Repr

/-- A journal record that was placed and is not yet written to its ring (R198). -/
structure JRecord where
  bytes : Bytes
  seq : Nat
  /-- The context whose completion waits for this record; absent for upkeep's own records. -/
  ctx : Option Nat
  placed : Nat
deriving DecidableEq, Repr

/-- Where a reload of a chain stands between its parts (R202, R203). -/
structure Reload where
  /-- Records of another device of the domain (R205). -/
  foreign : Bool
  seq : Nat
  link : Bytes
  /-- The epoch of the latest record, and the sequence of that epoch's REBASE_START. -/
  epoch : Nat
  startSeq : Nat
  /-- The epoch that the image begins with, and whether its BASE_END has come. -/
  first : Option Nat
  baseEnd : Bool
  /-- The latest epoch whose BASE_END has come, and the sequence of its REBASE_START. -/
  doneEpoch : Nat
  doneSeq : Nat
  applied : Nat
  /-- The pieces of a VAULT key's record that have come (R163). -/
  keyPart : Bytes
deriving DecidableEq, Repr

/-- A journal chain: slice chains 0–127 and the domain chain 128. -/
structure Chain where
  st : VaultSt
  ringBase : Nat
  ringLog : Nat
  ringEn : Bool
  head : Nat
  tail : Nat
  /-- The latest sequence and the tag of its record; the device holds them until they are lost (R197). -/
  seq : Nat
  link : Bytes
  held : Bool
  epoch : Nat
  rebaseSeq : Nat
  /-- The latest epoch whose BASE_END has been placed, and the sequence of its REBASE_START: what an anchor names. -/
  doneEpoch : Nat
  doneSeq : Nat
  period : Nat
  sealedCount : Nat
  /-- The latest sequence whose ring write completed, and that record's tag (R199). -/
  writtenSeq : Nat
  writtenTag : Bytes
  waiting : List JRecord
  /-- A rebase walk that is queued (none) or at a panel of the region (some). -/
  rebase : Option (Option Nat)
  /-- The slice has been READY before, so its first rebase has run (R201). -/
  wasReady : Bool
  reload : Option Reload
deriving DecidableEq, Repr

/-- An entry of an anchor (R199). -/
structure AnchorEntry where
  chain : Nat
  flags : Nat
  epoch : Nat
  rebaseSeq : Nat
  seq : Nat
  tag : Bytes
deriving DecidableEq, Repr

/-- An anchor (R199). -/
structure Anchor where
  number : Nat
  tick : Nat
  thimble : Nat
  mac : Bytes
  entries : List AnchorEntry
deriving DecidableEq, Repr

/-- The vault engine and the memory controllers. -/
structure Vault where
  /-- Per-generation count of panels encrypted (R191). -/
  genUse : List (Nat × Nat)
  gen : Nat
  /-- The sweep's next panel. -/
  sweep : Option Nat
  oldGen : Option Nat
  /-- Generation recorded for a page (R191). -/
  pageGen : List (Nat × Nat)
  tree : Tree
  /-- The bucket panels that hold an entry, opened as the engine works on them. -/
  buckets : List Bucket
  chains : List (Nat × Chain)
  /-- Anchors in the log, latest first. -/
  anchors : List Anchor
  /-- Chains that were discarded, each with the number of the latest anchor at that time: its entries up to that one
  name no chain any more (R208). -/
  discarded : List (Nat × Nat)
  /-- Captured and not yet programmed. -/
  pendingAnchor : Option Anchor
  /-- A cause of an anchor that came too soon (R200). -/
  anchorWanted : Bool
  /-- Admin contexts of VAULT_ANCHOR that wait for an anchor. -/
  anchorCtxs : List Nat
  /-- A chain has advanced since the last anchor (R200). -/
  advanced : Bool
  /-- Tick of the last capture since reset (R200). -/
  anchorTick : Option Nat
deriving DecidableEq, Repr

/-! ### Seam pairs and LMS state (10_seam_signatures) -/

/-- `LMS_PAIR.STATE`. -/
inductive PairSt where
  | building | ready | exhausted
deriving DecidableEq, Repr

/-- A seam key pair in a system slot (R234). -/
structure SeamPair where
  st : PairSt
  set : Nat
  slice : Nat
  serial : Nat
  scalar : Bytes
  seed : Bytes
  /-- The seam public key block (R236). -/
  pub : Bytes
  /-- The first slot of its reference in the slice's range (R235). -/
  refSlot : Option Nat
  /-- The next unassigned seam index. -/
  next : Nat
  /-- Blocks below this one have a programmed RESERVE record. -/
  reservedTo : Nat
  /-- Blocks below this one have their bottom tree built. -/
  builtTo : Nat
  /-- A RESERVE record is captured for block `reservedTo` and not yet programmed. -/
  capturing : Bool
  /-- The tick of that capture. -/
  capTick : Nat
  /-- Programming failed; no further block is reserved until a later record succeeds. -/
  failed : Bool
  skip : Nat
  /-- Its tree cache is built (R246). -/
  cached : Bool
  /-- A DESTROY that waits for admitted commands. -/
  retiring : Bool
deriving DecidableEq, Repr

/-- The LMS state block. -/
structure Lms where
  pairs : List (Nat × SeamPair)
  /-- Records of the reservation log ring, newest first (R242). -/
  log : List Bytes
  logSeq : Nat
  /-- Tree records in use. -/
  trees : Nat
  /-- The set, slice and pair slot of a running GENERATE. -/
  generating : Option Nat
  /-- LOAD_PUBLIC waits for its block from the host. -/
  loadWait : Bool
  /-- The first slot of the reference that a running DESTROY ends. -/
  destroying : Option Nat
  /-- The tick in which the running GENERATE was accepted. -/
  genStart : Nat
  /-- The ring was read at boot (LMS_STAT.LOG_OK). -/
  booted : Bool
  /-- The tick in which the upkeep last finished a bottom tree (R244). -/
  workEnd : Nat
deriving DecidableEq, Repr

/-! ### Entropy (11_entropy) -/

/-- What an entropy cell's tests last measured (R257, R267). -/
structure Cell where
  trans : Nat
  phaseVals : Nat
  run : Nat
  apt : Nat
deriving DecidableEq, Repr

/-- The working state of a CTR_DRBG. -/
structure Drbg where
  key : Bytes
  v : Bytes
deriving DecidableEq, Repr

/-- The entropy block. -/
structure Rng where
  cells : List (Nat × Cell)
  /-- Windows that every cell has passed since reset, by kind of test (R257, R259). -/
  windows : List (Nat × Nat)
  /-- The last two inputs of the conditioner, newest first: 256 raw bits of each cell (R256). -/
  raw : List Bytes
  /-- The root DRBG. -/
  root : Drbg
  /-- Working states of the child DRBGs: of queue groups by global number, and of the service children from 4,096 on: the
  vault engine's, the LMS state block's, the management posts' (R262). -/
  drbgs : List (Nat × Drbg)
  /-- The mask seeds that the last kerf delivered: 24 needles, 8 purlins, 8 legacy TDES units (R261). -/
  maskSeeds : List Bytes
  /-- Shuttle channels, as initiators, whose read of RNG_DATA is held, with the word it then got. -/
  chanReads : List (Nat × Option Word)
  /-- Words that the root generated for RNG_DATA in the last kerf. -/
  words : List Word
  fifo : List Word
  /-- Initiators whose read of RNG_DATA is held, oldest first. -/
  waiting : List Nat
  /-- The root DRBG is instantiated. -/
  seeded : Bool
  failTick : Option Nat
  /-- Live child DRBGs of queue groups, by global queue-group number. -/
  children : List Nat
  /-- Groups waiting for instantiation. -/
  wanting : List Nat
  /-- The three service children are live (vault engine, LMS state block, management posts). -/
  services : Bool
  /-- Next place of the reseeding round robin. -/
  turn : Nat
  /-- Mask seeds were delivered in the last kerf (R133). -/
  masks : Bool
deriving DecidableEq, Repr

/-! ### Fault collection (17_faults) -/

/-- A firing of a source, with what its record shows (R373). -/
structure Firing where
  src : Nat
  acc : Nat
  init : Nat
  imprecise : Bool
  addr : Nat
  slice : Option Nat
  unit : Nat
  detail : Nat
  tick : Nat
  thm : Nat
  cycle : Nat
  /-- The raising command's context. -/
  ctx : Option Nat
  /-- The status that the block's chapter fixes for the failure (R374). -/
  status : Option Nat
  /-- Level applied, once known. -/
  level : Nat
deriving DecidableEq, Repr

/-- The fault collector. -/
structure Faults where
  /-- Firings whose response is to be applied in step 1 of the next kerf. -/
  fired : List Firing
  first : Option Firing
  /-- The 64-entry ring, newest first. -/
  ring : List Firing
  /-- Sources whose clear takes effect in step 1 of the next kerf. -/
  clears : List Nat
  /-- Response words (LEVEL, HOSTIRQ, ALERT) that differ from their reset value. -/
  resp : List (Nat × Nat)
  /-- Records in the event log partition of the NV die, newest first. -/
  log : List Firing
  safe : Bool
  safeTick : Nat
  /-- A ZEROISE response holds the key store until its source is cleared (R371). -/
  zeroised : List Nat
  /-- Latest record naming each slice, and the count of such records (R380). -/
  sliceLast : List (Nat × Firing)
  sliceCnt : List (Nat × Nat)
  /-- Pending sources, each with a slice that a firing of it named (R380). -/
  named : List (Nat × Nat)
  /-- Units halted that no register shows: the vault engine and the flash controller. -/
  vaultHalted : Bool
  flashHalted : Bool
  /-- A SAFE response fired; the safe state is entered in the next fabric cycle (R370). -/
  safeDue : Bool
  /-- Slices that a ZEROISE response quiesced, whose stored keys return at their RESUME (R371). -/
  zeroSlices : List Nat
deriving DecidableEq, Repr

/-! ### The tick (02_tick) -/

/-- The tick, the scheduler and the governor. -/
structure Tick where
  count : Nat
  /-- The working span of this tick has begun. -/
  span : Bool
  /-- The largest a + H over every kerf that admitted a command (R48). -/
  reach : Nat
  fence : Option Fence
  /-- The needle under the rotating test in the coming tick. -/
  testNeedle : Option Nat
  /-- Inbound data link slots taken in this tick, by global group (R67, R272). -/
  inUsed : List (Nat × Nat)
  /-- Outbound data link slots taken in this tick, by global group (R272). -/
  outUsed : List (Nat × Nat)
  /-- Masks of needles, TDES units, purlins and hash engines that failed the suite that ends in this tick. -/
  suiteFails : List Nat
  /-- For each needle, the slots of the keys in its key window, and the entries of its mode-context table (2 × context +
  1 for the second side of a CIPHER_TRANSLATE), as step 6 placed them for the tick (R119). -/
  keyWin : List (Nat × List Nat)
  modeCtx : List (Nat × List Nat)
  /-- The tick from which temperature and droop have allowed an up-step (R51). -/
  calmSince : Nat
  /-- Completion entries written in this tick, by slice (R34). -/
  egress : List (Nat × Nat)
  /-- RECHECK pages and pages whose configuration changed in this tick (R485). -/
  recheck : List Nat
  /-- Stitch slots that carried stitches in the last tick, by needle (NDL_UTIL.USED). -/
  ndlUsed : List (Nat × Nat)
  /-- Owned purlin ticks that ran an operation: purlin × 16 + tick mod 16, and the tick (PUR_UTIL.USED). -/
  purUsed : List (Nat × Nat)
  /-- Hash shares that carried work in the last tick, by engine. -/
  hshUsed : List (Nat × Nat)
deriving DecidableEq, Repr

/-! ### Capacity still returning (02_tick R45) -/

/-- Units that a resize gave up and that return to the free pool in the kerf of tick `until_` (R45). -/
structure Returning where
  until_ : Nat
  /-- The plan that the capacity waits for: 16 × global group + class. -/
  key : Nat
  ndl : List (Nat × Nat)
  posts : List Nat
  pur : List (Nat × Nat)
  /-- Shares of a hash engine. -/
  hsh : Option (Nat × Nat)
  vlt : List Nat
deriving DecidableEq, Repr

/-! ### The thimble domain and the monitors (18_tamper) -/

/-- A tamper loop: its detectors' last checks, its mode in force (0 OFF, 1 REPORT, 2 ERASE), its last and reference
resistance in ohms, its sequence, and the time of the first detection of an alarm whose window is open (R385). -/
structure ThmLoop where
  a : Bool
  b : Bool
  mode : Nat
  ohm : Nat
  ref : Nat
  seq : Nat
  window : Option Nat
deriving DecidableEq, Repr

/-- A switch input: its mode in force, its alarm state (true closed), and consecutive samples in that state (R387). -/
structure ThmSwitch where
  mode : Nat
  closed : Bool
  run : Nat
deriving DecidableEq, Repr

/-- An entry of the thimble log. -/
structure ThmEntry where
  kind : Nat
  unit : Nat
  detA : Bool
  detB : Bool
  mainOff : Bool
  erased : Bool
  time : Nat
deriving DecidableEq, Repr

/-- The thimble domain. No reset of the secure die changes it. -/
structure Thm where
  /-- The thimble key; empty when it is invalid. -/
  key : Bytes
  loops : List (Nat × ThmLoop)
  switches : List (Nat × ThmSwitch)
  /-- A THM_ARM change that the domain has not acknowledged. -/
  arming : Option Word
  /-- Newest first. -/
  log : List ThmEntry
  /-- Main power is present: VDD_IO is in its window. -/
  main : Bool
  /-- A tamper response's effect on the lifecycle waits for step 4 of a kerf (R389, R437). -/
  lifeDue : Bool
deriving DecidableEq, Repr

/-- A wear checkpoint (R475): thimble time, hours on the cell in units of 1/3,600 hour, BATCAP, and its sequence. -/
structure Checkpoint where
  thm : Nat
  hours : Nat
  cap : Nat
  seq : Nat
  /-- Its AES-CMAC, under a key derived from L1. -/
  mac : Bytes
deriving DecidableEq, Repr

/-- The wear block. -/
structure Wear where
  /-- Values of the indicators 0 to 5 at the samples since reset, newest first; the latest 257 stand. -/
  samples : List (List Nat)
  /-- Hours on the cell alone, in units of 1/3,600 hour (R475). -/
  hours : Nat
  /-- The latest valid checkpoint of the event log. -/
  ckpt : Option Checkpoint
deriving DecidableEq, Repr

/-- A rail as measured: present, lowest and highest voltage since reset, in mV. -/
structure Rail where
  mv : Nat
  min : Nat
  max : Nat
deriving DecidableEq, Repr

/-! ### Frame firmware (21_lifecycle_boot) -/

/-- The frame image that runs: its partition (0 A, 1 B), the SHA-384 of its code and its security version; and
whether a staged image stands in the other partition (R445, R447). -/
structure Fw where
  running : Nat
  hash : Bytes
  sv : Nat
  staged : Bool
  /-- The counter that the enrolment table carries (R449). -/
  tableCnt : Nat
  /-- Its entries, by slice: the enrolment record with its signature, and the slice's floor; its AES-CMAC, and the block of
  the two that holds it (R449). -/
  table : List (Nat × Bytes × Nat)
  tableMac : Bytes
  tableAt : Nat
  /-- Replaced infill images whose blocks are not yet free: slice, first block, count, and the admission order below
  which commands still run on them. -/
  freeing : List (Nat × Nat × Nat × Nat)
deriving DecidableEq, Repr

/-! ### The NV die (19_nonvolatile) -/

/-- A unit of 32 bytes (R402). -/
inductive FUnit where
  | erased
  | data (bytes : Bytes)
  | zeroed
  | torn
deriving DecidableEq, Repr

/-- A block: its erase count, and whether it is indeterminate (R408, R409). -/
structure FBlock where
  erases : Nat
  indet : Bool
deriving DecidableEq, Repr

/-- What a bank does: 0 nothing, 1 a program, 2 an erase, 3 a suspended erase (FLS_BANK). -/
structure FBank where
  op : Nat
  block : Nat
  /-- Units to be programmed, by index, with what they take. -/
  units : List (Nat × FUnit)
  /-- The request of FLS_CMD runs here. -/
  cmd : Bool
  /-- The controller suspended the erase itself, for a request of class 1 or 2, and resumes it (R404). -/
  auto : Bool
  attempts : Nat
  /-- A suspended erase behind a program of the bank: block, `cmd`, `auto`, attempts. -/
  saved : Option (Nat × Bool × Bool × Nat)
deriving DecidableEq, Repr

/-- A record of the erase journal (R407): type 1 OPEN, 2 DONE, 3 CARRY. -/
structure EraseRec where
  typ : Nat
  /-- Of a CARRY: 1 when the block is indeterminate. -/
  flag : Nat
  block : Nat
  count : Nat
  seq : Nat
  boot : Nat
  mac : Bytes
deriving DecidableEq, Repr

/-- A record of the sill log (R411). -/
structure SillRec where
  reg : Nat
  value : Word
  count : Nat
  seq : Nat
  mac : Bytes
deriving DecidableEq, Repr

/-- The flash controller and the sill block. -/
structure Nv where
  /-- Units that are not erased, by index (offset / 32). The log partitions are kept by their owners instead. -/
  units : List (Nat × FUnit)
  blocks : List (Nat × FBlock)
  bank0 : FBank
  bank1 : FBank
  /-- An FLS_CMD request that waits for its bank: its units, or none for an erase, and its block. -/
  wait : Option (Nat × List (Nat × FUnit) × Bool)
  /-- Write counters of the sill registers. -/
  silCnt : List (Nat × Nat)
  /-- The waiting batch and the programming batch (R412). -/
  silWait : List (Nat × Word)
  silProg : List (Nat × Word)
  /-- Registers at their limit of which a dropped write has raised SIL_LIMIT. -/
  silTold : List Nat
  /-- The tick in which the oldest write that is still queued was accepted, by register (R412). -/
  silAt : List (Nat × Nat)
  /-- The erase journal, oldest record first, and the sequence of its next record (R407). -/
  journal : List EraseRec
  jseq : Nat
  /-- The sill log, oldest record first, and the sequence of its next record (R411). -/
  silLog : List SillRec
  silSeq : Nat
deriving DecidableEq, Repr


/-! ### Gates (16_gates) -/

/-- A region as its four words: `GTE_RBASE_LO`, `GTE_RBASE_HI`, `GTE_RLIM_LO`, `GTE_RLIM_HI`. -/
structure Region where
  lo : Word
  hi : Word
  llo : Word
  lhi : Word
deriving DecidableEq, Repr

/-- A posted write in a basting buffer (R362): its initiator, its address on the posts' map, its bytes, and the epoch
of its issue. -/
structure Posted where
  init : Nat
  addr : Nat
  bytes : Bytes
  epoch : Nat
deriving DecidableEq, Repr

/-- The gates: region tables as what differs from the reset tables (R355), by table × 32 + region; a table is its
initiator, or 512 + slice for a link table. -/
structure Gates where
  live : List (Nat × Region)
  prev : Option (List (Nat × Region))
  shadow : List (Nat × Region)
  /-- A set is staged; true where it came through GTE_HCOMMIT. -/
  staged : Option Bool
  /-- A table changed in this kerf, so the epoch advances at its end (R360). -/
  changed : Bool
  /-- The committed table 352 in the wrapped key store partition, by region, with its AES-CMAC (R516). -/
  kept : Option (List (Nat × Region) × Bytes)
  /-- Oldest first. -/
  basting : List Posted
deriving DecidableEq, Repr

/-! ### Start-up (21_lifecycle_boot R441–R445) -/

/-- Where the start-up stands. -/
structure Boot where
  /-- PERST_N, CRST_N or the rails hold the secure die in reset. -/
  held : Bool
  /-- Reset release has happened, and the start-up runs. -/
  begun : Bool
  /-- The selected partition and whether it runs as a trial, once selected (R445). -/
  chosen : Option (Nat × Bool)
  /-- The tick in which frame firmware was entered. -/
  frameTick : Option Nat
  /-- Stored keys and slices have been put back. -/
  restored : Bool
  /-- The tick in which the device resets itself (R437, R445). -/
  selfReset : Option Nat
  /-- A verified vendor token's command, for step 4 of the next kerf. -/
  vendor : Option Nat
  /-- The stored configuration records of the slices, with what stands beside them in the wrapped key store. -/
  saved : List (Nat × Slice)
  /-- The posts are stopped because boot failed (R442). -/
  dead : Bool
  /-- The device number as the wrapped key store keeps it; 0 before the first domain ceremony (R128). -/
  devNo : Nat
  /-- LCY_IKID0 to LCY_IKID7 as persisted. -/
  ikid : List Word
  /-- DDR_CTRL.MAXRATE as it stood at the reset, which applies it (R209). -/
  rateCap : Nat
deriving DecidableEq, Repr

/-! ### Officers, cards and the guard (20_officers) -/

/-- An officer's record (R423). Its attempt count lies in sill registers 8 and 9. -/
structure Officer where
  /-- NONE 0, NEW 1, ACTIVE 2, LOCKED 3. -/
  st : Nat
  serial : Bytes
  key : Bytes
  verifier : Bytes
  /-- The seam public key block for remote approvals; empty where none is enrolled. -/
  seam : Bytes
deriving DecidableEq, Repr

/-- What the exchange that runs with a card serves. -/
inductive CardJob where
  | none
  /-- GET_INFO at activation. -/
  | info
  /-- The challenge of a LOGIN: the context, the officer, the challenge's data and a first PIN's verifier. -/
  | login (ctx officer : Nat) (data verifier : Bytes)
  /-- The challenge of a local APPROVE: the context and the data. -/
  | approve (ctx : Nat) (data : Bytes)
  /-- WRITE_KEY for an ENROL entry of the change that commits: the entry's position. -/
  | enrol (entry : Nat)
  /-- A ceremony reads block n of a share card: to find shares, before a write, or after it. -/
  | read (blk : Nat)
  | write (blk : Nat)
  | verify (blk : Nat)
deriving DecidableEq, Repr

/-- A card slot. -/
structure CardSlot where
  /-- A card is in the slot. -/
  present : Bool
  /-- Serial of the card, as GET_INFO gave it. -/
  serial : Bytes
  job : CardJob
  /-- The tick of the session's login or latest approval. -/
  used : Nat
deriving DecidableEq, Repr

/-- An entry of a change (R427). -/
structure GuardEntry where
  typ : Nat
  page : Nat
  off : Nat
  value : Word
  param : Nat
  /-- The seam public key block of an ENROL entry; empty where all zero. -/
  pub : Bytes
  /-- The officer key that an ENROL's WRITE_KEY carried, the card's serial, and whether the write ended well. -/
  key : Bytes
  serial : Bytes
  written : Option Bool
deriving DecidableEq, Repr

/-- An approval: officer, remote, and the slot of the session it was given under. -/
structure Approval where
  officer : Nat
  remote : Bool
  slot : Nat
deriving DecidableEq, Repr

/-- The staged change. -/
structure Change where
  number : Nat
  entries : List GuardEntry
  digest : Bytes
  staged : Nat
  expiry : Nat
  approvals : List Approval
  /-- The context of the GUARD_COMMIT that waits for the commit step. -/
  commit : Option Nat
deriving DecidableEq, Repr

/-- A ceremony that runs (R433). -/
structure Ceremony where
  ctx : Option Nat
  /-- 0x10 DOMAIN_NEW, 0x11 DOMAIN_JOIN, 0x12 RESHARE. -/
  kind : Nat
  k : Nat
  n : Nat
  dev : Nat
  l2 : Bytes
  version : Nat
  /-- Coefficients of the sharing polynomials above the constant, each as a 32-byte string. -/
  coefs : List Bytes
  started : Nat
  /-- The slot with the share card in hand. -/
  slot : Option Nat
  /-- Blocks of that card as read. -/
  blocks : List Bytes
  /-- Valid share blocks read so far. -/
  found : List Bytes
deriving DecidableEq, Repr

/-- The officer block. -/
structure Ofc where
  slotA : CardSlot
  slotB : CardSlot
  officers : List (Nat × Officer)
  /-- Their records in the wrapped key store, each sealed, by officer (R423). -/
  stored : List (Nat × Bytes)
  change : Option Change
  /-- Changes staged in this boot. -/
  count : Nat
  ceremony : Option Ceremony
  /-- The set version of the share set of the installed L2. -/
  version : Nat
deriving DecidableEq, Repr

/-! ### The host link (22_host_link) -/

/-- An SPDM session: its id, whether FINISH has ended its handshake, its shared secret, and its key updates. -/
structure Session where
  id : Nat
  established : Bool
  secret : Bytes
  updates : Nat
deriving DecidableEq, Repr

/-- The port, its IDE streams and its SPDM responder. -/
structure Link where
  /-- The link has trained since reset. -/
  trained : Bool
  /-- The link is down, after a hot reset or a link down. -/
  down : Bool
  /-- IDE keys by stream: 0–127 selective, 255 the link stream; and the streams in Secure state. -/
  ideKeys : List (Nat × Bytes)
  secure : List Nat
  /-- Negotiated version (0 for none), and whether algorithms are negotiated. -/
  version : Nat
  algs : Bool
  /-- Messages of the negotiation, of the certificate phase and of the measurements since the last signature. -/
  transA : Bytes
  transB : Bytes
  transL : Bytes
  sessions : List Session
  /-- Slices whose ATS invalidation waits for accesses under the old translation, with the tick of its arrival. -/
  atsWait : List (Nat × Nat)
  /-- A PF FLR waits for slice 0's queues. -/
  pfFlr : Bool
deriving DecidableEq, Repr

/-! ### Firmware channels of the shuttle (12_shuttle R275–R285) -/

/-- A firmware channel. Its state, last status, write-back count and error offset stand in its registers. -/
structure Chan where
  /-- The address of the current descriptor. -/
  addr : Nat
  /-- The descriptor as fetched; empty until it is. -/
  desc : Bytes
  /-- Byte offsets up to which pieces have been read and written, and what has been read and not written. -/
  read : Nat
  written : Nat
  buf : Bytes
  /-- SHT_CH_CTRL.STOP was written: no further read is issued. -/
  stop : Bool
  /-- The read that failed: its status and byte offset. -/
  fail : Option (Nat × Nat)
  /-- The descriptor waits for the zero-length read of its BARRIER, issued behind so many host writes of its bent (R280). -/
  barrier : Option Nat
  /-- Byte offset of the first write that gate 11 dropped. -/
  dropped : Option Nat
  /-- The status with which the descriptor is to be written back. -/
  done : Option Nat
  /-- Its bit of SHT_CH_IRQ. -/
  irq : Bool
deriving DecidableEq, Repr

/-! ### Posts (14_miade_isa R309, 15_tenons_exceptions R332) -/

/-- A branch whose delay slot has not run: its own address, its target where it is taken, the address it pushes, and
whether it pops (R320). -/
structure Delay where
  at_ : Word
  target : Option Word
  push : Option Word
  pop : Bool
deriving DecidableEq, Repr

/-- A request on an engine ring (R330): ticket, ring, the cycle of its reply where that is exact, and the reply of
rings 2 and 3 once it is in. -/
structure Ticket where
  id : Nat
  ring : Nat
  due : Nat
  reply : Option Word
  /-- What the request asks, and the tick in which it was submitted. -/
  ask : RingAsk
  tick : Nat
  /-- What the operation gave, for frame firmware's layout. -/
  out : Bytes
deriving DecidableEq, Repr

/-- A post. -/
structure Post where
  g : List (Nat × Word)
  t : List (Nat × Tenon)
  pct : Tenon
  pc : Word
  acc : BitVec 96
  cf : Bool
  /-- The return stack, latest entry first. -/
  rs : List Word
  delay : Option Delay
  /-- The post cycle of the next issue, counted in the tick. -/
  cyc : Nat
  /-- Registers whose value comes later than the next cycle: register (32 for the accumulator), cycle. -/
  ready : List (Nat × Nat)
  /-- The cycle of the latest store through each gate (R319). -/
  stores : List (Nat × Nat)
  /-- The granule of the latest fetch, for fetches from the loft and the flash window (R318). -/
  granule : Option Nat
  /-- Blocks of ring 0 and operations of ring 1 submitted in this tick. -/
  ring0 : Nat
  ring1 : Nat
  tickets : List Ticket
  /-- The latest ticket. -/
  ticket : Nat
  dispatch : Tenon
  kpcode : Tenon
  /-- A stitch program or management code runs. -/
  run : Bool
  /-- The stitch program has issued an instruction. -/
  issued : Bool
  /-- The context that holds the post's time-slot of this tick, its slice, and whether it is a work slot. -/
  owner : Option Nat
  slice : Nat
  work : Bool
  /-- FEAT word 4 as of the last kerf. -/
  rswrap : Bool
  /-- The register that a held read of RNG_DATA loads (R264). -/
  held : Option Nat
deriving DecidableEq, Repr
/-! ### The whole block -/

/-- What the device sends out: every write, read request, message and answer that leaves it, oldest last. -/
inductive Out where
  /-- A posted host write: slice, PASID where bound, I/O address, bytes. -/
  | hostWrite (slice : Nat) (pasid : Option Nat) (addr : Nat) (bytes : Bytes)
  /-- A host read request: slice, PASID, I/O address, length. -/
  | hostRead (slice : Nat) (pasid : Option Nat) (addr len : Nat)
  /-- An MSI-X message: slice and vector. -/
  | msix (slice vec : Nat)
  /-- The answer to a register read: initiator, register key, value. -/
  | readReply (init key : Nat) (value : Word)
  /-- An answer of the SPDM responder. -/
  | spdm (bytes : Bytes)
  /-- An SMBus block, without its PEC. -/
  | smbus (bytes : Bytes)
  /-- Bytes sent to a card: slot (0 A, 1 B) and bytes. -/
  | card (slot : Nat) (bytes : Bytes)
  /-- A link action named by number (retrain, ATS completion, error message). -/
  | link (kind : Nat) (args : List Nat)
deriving DecidableEq, Repr

/-- The keys of a power-up (01_frame R20, 18_tamper R395): scrambling keys of the eight SRAM areas, in the order of R20's
table, empty until drawn, and the binding key of overlock codes. -/
structure Sram where
  scramble : List Bytes
  bind : Bytes
deriving DecidableEq, Repr

/-- The state of the block. -/
structure State where
  /-- Commands waiting, first in first out. -/
  pending : List Instr
  /-- The register file: words that differ from their reset value, by key (page × 0x1000 + offset). -/
  regs : List (Nat × Word)
  /-- High halves latched by reads of `_LO` registers, by initiator × 2^24 + key of the pair (R490). -/
  latches : List (Nat × Word)
  /-- What was sent out, newest first. -/
  out : List Out
  /-- MODEL'S OWN: index of the next free value (Config.freeByte). -/
  freeCtr : Nat
  tick : Tick
  slices : List (Nat × Slice)
  queues : List (Nat × Queue)
  fetched : List Fetched
  fetchOrder : Nat
  ctxs : List (Nat × Ctx)
  /-- Aborted commands whose planned vault slots still run, in their idle form (R41, R219). -/
  ghosts : List Ctx
  ctxOrder : Nat
  compls : List Completion
  plans : List (Nat × Plan)
  /-- Control shares taken, by tick × 4096 + global queue-group number (R87). -/
  ctrlUse : List (Nat × Nat)
  /-- Last tick of a planned companion phase, by 2 × global queue-group number + (0 vault, 1 hash) (R87). -/
  compEnd : List (Nat × Nat)
  keys : List (Nat × KeySlot)
  /-- Slots freed since reset, longest ago first, and the lowest slot never yet used (R148). -/
  freed : List Nat
  fresh : Nat
  /-- The slot table's recorded generations (R148): those that differ from `slotBase`, which every other slot has. -/
  slotTable : List (Nat × Nat)
  slotBase : Nat
  records : List KeyRecord
  /-- Stored keys whose record is to be written: slot, tick of the creating command's release (R164). -/
  recordDue : List (Nat × Nat)
  /-- Keys whose next reservation is due: slot, tick in which it became due (R131). -/
  reserveDue : List (Nat × Nat)
  tombPend : List Bytes
  ivCtr : Nat
  vault : Vault
  lms : Lms
  rng : Rng
  faults : Faults
  /-- Thimble time, 48 bits, in cycles of 32.768 kHz (18_tamper R383). -/
  thmTime : Nat
  /-- On-chip memory on the posts' map: bytes that are not zero, by address. -/
  mem : List Host.Cell
  /-- Tagged 16-byte granules of the bent stores: granule index and true. -/
  tags : List (Nat × Bool)
  /-- Values of the sill registers, by register (19_nonvolatile R411). -/
  sill : List (Nat × Word)
  /-- Words of the MSI-X tables (R453), by slice × 2^16 + byte offset in the function's table. -/
  msixTab : List (Nat × Word)
  /-- Pending bits of MSI-X vectors (R79), by slice × 2048 + vector. -/
  msixPba : List (Nat × Bool)
  /-- SMB_ALERT_N is asserted and not yet released (R368, R463). -/
  smbAlert : Bool
  /-- Capacity still returning (R45). -/
  returning : List Returning
  /-- Needle slots of the vault engine's own allotment (R182). -/
  devNdl : List (Nat × Nat)
  /-- The LMS upkeep allotment is laid out (R230). -/
  upkeep : Bool
  /-- The import ledger: a slice identity and the highest serial imported for it (R307). -/
  ledger : List (Bytes × Nat)
  nv : Nv
  fw : Fw
  thm : Thm
  rails : List (Nat × Rail)
  /-- Monitored conditions that one detector fired alone, and which detectors fired, while the 2 µs of R392 run:
  condition (0–8 rails, 9 clock, 10 temperature, 11 glitch) and mask (1 A, 2 B). -/
  monAlone : List (Nat × Nat)
  wear : Wear
  gates : Gates
  boot : Boot
  ofc : Ofc
  link : Link
  /-- Firmware channels, by channel f (R285). -/
  chans : List (Nat × Chan)
  /-- Host writes that each bent's channels have issued (2 × bent), and how many of them the zero-length reads of barriers
  have confirmed (2 × bent + 1) (R280). -/
  hostSent : List (Nat × Nat)
  posts : List (Nat × Post)
  sram : Sram
  /-- Operations since reset: 0 TDES data operations, 1 + p of purlin p, 16 + e compressions of hash engine e. -/
  opCounts : List (Nat × Nat)
  /-- Pieces of the engines in this tick, and of the read engines in the last: 4 × engine + 2 for the last tick + 1 for
  firmware; engines 0 to 7 are the bents' read engines, 8 to 15 their write engines (R269). -/
  pieces : List (Nat × Nat)
deriving DecidableEq, Repr

/-! ### Defaults of the sparse tables, and reset -/

def GroupCfg.zero : GroupCfg := ⟨0, 0, 0, false, 0, 0, 0, 0, 0, 0, 0, 0, 0, 0, 0, 0⟩

def SliceCfg.zero : SliceCfg := ⟨false, 0, 0, 0, 0, 0, [0, 0, 0, 0, 0], []⟩

/-- A slice in `NONE`. -/
def Slice.none : Slice :=
  { st := .none, cause := .none, fnEn := false, busOff := true, cfg := SliceCfg.zero, layouts := [], identity := [],
    exportSerial := 0, hourOffset := 0, vaultFirst := 0, logs := [], change := Option.none, stagedCfg := Option.none,
    quiesceSources := [], infill := Option.none, infillFloor := 0, flr := Option.none, offer := Option.none, unacked := 0, resumeStaged := Option.none }

/-- A queue pair at its reset values (R61): disabled, size 2^4, phase bit 0. -/
def Queue.reset : Queue :=
  { sqBase := 0, cqBase := 0, qsize := 0x404#32, qvec := 0#32, st := .disabled, cause := 0, phase := false,
    sqHead := 0, sqTail := 0, cqTail := 0, cqHead := 0, staged := none, en := false, aggCount := 0,
    aggStart := none, heldFetch := 0 }

/-- An empty slot that has not been used since the last boot; Ops.getKey gives it its generation (R148). -/
def KeySlot.empty : KeySlot :=
  { st := .empty, level := 0, owner := 0, gen := 0, parent := 0, ext := 0, attr := 0, budget := 0, ident := [],
    typ := 0, material := [], extOf := none, reserved := 0, recorded := false,
    changed := 0, changedTick := 0, failed := false, ik := [] }

def Plan.zero : Plan := ⟨0, 0, 0⟩

/-- A chain of a slice without a region or journal key. -/
def Chain.none : Chain :=
  { st := .none, ringBase := 0, ringLog := 8, ringEn := false, head := 0, tail := 0, seq := 0, link := [],
    held := false, epoch := 0, rebaseSeq := 0, doneEpoch := 0, doneSeq := 0, period := 0, sealedCount := 0, writtenSeq := 0, writtenTag := [],
    waiting := [], rebase := Option.none, wasReady := false, reload := Option.none }

def Vault.reset : Vault :=
  { genUse := [], gen := 0, sweep := none, oldGen := none, pageGen := [],
    tree := ⟨[], [], [], [], []⟩, buckets := [], chains := [], anchors := [], discarded := [], pendingAnchor := none, anchorWanted := false, anchorCtxs := [],
    advanced := false, anchorTick := none }

def Lms.reset : Lms :=
  { pairs := [], log := [], logSeq := 0, trees := 0, generating := none, loadWait := false, destroying := none, genStart := 0, booted := false, workEnd := 0 }

def Cell.zero : Cell := ⟨0, 0, 0, 0⟩

def Rng.reset : Rng :=
  { cells := [], windows := [], raw := [], root := ⟨[], []⟩, drbgs := [], maskSeeds := [], chanReads := [], words := [], fifo := [], waiting := [], seeded := false, failTick := none, children := [], wanting := [],
    services := false, turn := 0, masks := false }

def Faults.reset : Faults :=
  { fired := [], first := none, ring := [], clears := [], resp := [], log := [], safe := false, safeTick := 0,
    zeroised := [], sliceLast := [], sliceCnt := [], named := [], vaultHalted := false, flashHalted := false, safeDue := false, zeroSlices := [] }

def Tick.reset : Tick :=
  { count := 0, span := false, reach := 0, fence := none, testNeedle := none, inUsed := [], outUsed := [], suiteFails := [], keyWin := [], modeCtx := [], calmSince := 0,
    egress := [], recheck := [], ndlUsed := [],
    purUsed := [], hshUsed := [] }

/-- Slice 0 always exists (R286); it has no data queue group until `SLICE_RESIZE` gives it one. It is DORMANT until
TIK_STAT.RUN is set (R287); its egress allotment before the first resize is the model's choice
(notes/assumptions/10.md). -/
def Slice.zero : Slice :=
  { Slice.none with st := .dormant, fnEn := true, cfg := { SliceCfg.zero with egress := 32 } }

def FBlock.zero : FBlock := ⟨0, false⟩

def FBank.idle : FBank := ⟨0, 0, [], false, false, 0, none⟩

def ThmLoop.zero : ThmLoop := ⟨false, false, 0, 0, 0, 0, none⟩
def ThmSwitch.zero : ThmSwitch := ⟨0, false, 0⟩
def Wear.reset : Wear := ⟨[], 0, none⟩
def Rail.zero : Rail := ⟨0, 0, 0⟩

/-- The thimble domain after a thimble power-on, with main power present (R384). -/
def Thm.reset : Thm := ⟨[], [], [], none, [], true, false⟩

def Fw.reset : Fw := ⟨0, [], 0, false, 0, [], [], 0, []⟩

def Nv.reset : Nv := ⟨[], [], FBank.idle, FBank.idle, none, [], [], [], [], [], [], 0, [], 0⟩

def Region.zero : Region := ⟨0#32, 0#32, 0#32, 0#32⟩
def Gates.reset : Gates := ⟨[], none, [], none, false, none, []⟩


def Boot.reset : Boot := ⟨false, false, none, none, false, none, none, [], false, 0, [], 4⟩
def Officer.none : Officer := ⟨0, [], [], [], []⟩
def CardSlot.empty : CardSlot := ⟨false, [], .none, 0⟩
def Ofc.reset : Ofc := ⟨CardSlot.empty, CardSlot.empty, [], [], none, 0, none, 0⟩
def Link.reset : Link := ⟨false, false, [], [], 0, false, [], [], [], [], [], false⟩
def Chan.zero : Chan := ⟨0, [], 0, 0, [], false, none, none, none, none, false⟩

def Tenon.null : Tenon := ⟨0#128, false⟩

/-- A tenon from its fields (R332). -/
def Tenon.mk' (kind perm base top cursor otype : Nat) : Tenon :=
  ⟨BitVec.ofNat 128 (base % 2 ^ 32 + top % 2 ^ 32 * 2 ^ 32 + cursor % 2 ^ 32 * 2 ^ 64 + perm % 2 ^ 8 * 2 ^ 96 +
    kind % 16 * 2 ^ 104 + otype % 2 ^ 16 * 2 ^ 108), true⟩

/-- A post at reset, with its roots (R338). -/
def Post.reset (p : Nat) : Post :=
  { g := []
    t := [(0, Tenon.mk' 1 0x3F 0 0x000FFBFF 0 0), (1, Tenon.mk' 1 0x27 0x01000000 0xFFFFFFFF 0 0),
          (2, Tenon.mk' 2 1 0 0xFFFFFFFF 0 0), (3, Tenon.mk' 3 3 1 0xFFFF 0 0)]
    pct := Tenon.mk' 1 0x25 0xFFFF0000 0xFFFFFFFF 0 0
    pc := 0xFFFF0000#32, acc := 0#96, cf := false, rs := [], delay := none, cyc := 0, ready := [], stores := []
    granule := none, ring0 := 0, ring1 := 0, tickets := [], ticket := 0, dispatch := Tenon.null
    kpcode := Tenon.null, run := p < 2, issued := false, owner := none, slice := 0, work := false, rswrap := false
    held := none }


/-- The block at reset release (R28, R492): every register at the value of its Reset column (the register file
lists none), the tick counter zero, nothing admitted, nothing waiting. -/
def State.reset : State :=
  { pending := [], regs := [], latches := [], out := [], freeCtr := 0, tick := Tick.reset,
    slices := [(0, Slice.zero)], queues := [], fetched := [], fetchOrder := 0, ctxs := [], ghosts := [], ctxOrder := 0,
    compls := [], plans := [], ctrlUse := [], compEnd := [], keys := [], freed := [], fresh := 256,
    slotTable := [], slotBase := 0, records := [], recordDue := [], reserveDue := [], tombPend := [], ivCtr := 0,
    vault := Vault.reset, lms := Lms.reset, rng := Rng.reset, faults := Faults.reset,
    thmTime := 0, mem := [], tags := [], sill := [],
    msixTab := [], msixPba := [], smbAlert := false,
    returning := [], devNdl := [], upkeep := false, ledger := [], nv := Nv.reset, fw := Fw.reset, thm := Thm.reset, rails := [], monAlone := [], wear := Wear.reset,
    gates := Gates.reset,
    boot := Boot.reset, ofc := Ofc.reset,
    link := Link.reset, chans := [], hostSent := [], posts := [], sram := ⟨[], []⟩, opCounts := [], pieces := [] }

/-! ### Stops -/

/-- Why a command faults. The block has no fault of its own: an access to an address that the spec says does not
exist is answered by a gate refusal, and a failed check by a status, a reason or a fault source. -/
inductive Fault where
  /-- Raised by no command: kept so that a fault has a name should a rule ever call for one. Safe. -/
  | none
deriving DecidableEq, Repr

/-- Why a command is refused by the model. -/
inductive Refusal where
  /-- Raised by Dispatch.lean for a command that has no meaning yet. Safe. -/
  | notModelled (mnemonic : String)
deriving DecidableEq, Repr

end Sys2Proof.Machine
end

