-- ==== Sys2Proof/Machine/Fields.lean ====
section
/-!
DEFINITION. The names of the register space: every register of the 25 pages by its page and offset (25_register_map
R479 and the register tables of each block's chapter), and every field by its bits, under the spec's own names.
-/
namespace Sys2Proof.Machine.Reg
open Sys2Proof.Machine

/-- Pacing mode and horizon (R54). -/
abbrev TIK_CTRL : Nat := 0x06100
/-- Scheduler state (R54). -/
abbrev TIK_STAT : Nat := 0x06104
/-- TIK_COUNT [31:0]; a read latches [63:32] (R54). -/
abbrev TIK_COUNT_LO : Nat := 0x06108
/-- TIK_COUNT [63:32] as latched (R54). -/
abbrev TIK_COUNT_HI : Nat := 0x0610C
/-- Low 32 bits of k + L of the current or last fence (R54). -/
abbrev TIK_FENCE_END : Nat := 0x06110
/-- Needle stitches per tick not allotted (R54). -/
abbrev TIK_FREE_NDL : Nat := 0x06114
/-- Other classes not allotted (R54). -/
abbrev TIK_FREE_SHR : Nat := 0x06118
/-- Completions flagged LATE (R54). -/
abbrev TIK_LATE_CNT : Nat := 0x0611C
/-- Stalls (R54). -/
abbrev TIK_STALL_CNT : Nat := 0x06120
/-- Tick overruns (R54). -/
abbrev TIK_OVR_CNT : Nat := 0x06124
/-- Last overrun (R54). -/
abbrev TIK_OVR_INFO : Nat := 0x06128
/-- Events (R54). -/
abbrev TIK_EVT : Nat := 0x0612C
/-- Interrupt enables, one per TIK_EVT bit (R54). -/
abbrev TIK_IRQ_EN : Nat := 0x06130
/-- Slowest step the governor may choose for temperature alone (R55). -/
abbrev GOV_FLOOR : Nat := 0x05100
/-- Current step and flags (R55). -/
abbrev GOV_STAT : Nat := 0x05104
/-- Temperature thresholds in °C (R55). -/
abbrev GOV_THR : Nat := 0x05108
/-- VDD_CORE droop threshold (R55). -/
abbrev GOV_DROOP : Nat := 0x0510C
/-- Junction temperature, updated every 2^10 ticks (R55). -/
abbrev GOV_TEMP : Nat := 0x05110
/-- Up-step dwell (R55). -/
abbrev GOV_UPDWELL : Nat := 0x05114
/-- Step changes since reset (R55). -/
abbrev GOV_CHG_CNT : Nat := 0x05118
/-- Low 32 bits of TIK_COUNT at the last change (R55). -/
abbrev GOV_CHG_TICK : Nat := 0x0511C
/-- Doorbell stride (R85). -/
abbrev HQ_CFG : Nat := 0x11100
/-- Pairs in use, readiness, safe state (R85). -/
abbrev HQ_STAT : Nat := 0x11104
/-- Fetch depth per queue group (R85). -/
abbrev HQ_FETCH : Nat := 0x11108
/-- Data pairs declared across all slices (R85). -/
abbrev HQ_QALLOC : Nat := 0x1110C
/-- Contexts held by commands (R85). -/
abbrev HQ_INFLIGHT : Nat := 0x11110
/-- Doorbell writes ignored (R65) (R85). -/
abbrev HQ_DB_DROP : Nat := 0x11114
/-- Host-memory access failures of queues and commands (R85). -/
abbrev HQ_HOSTERR : Nat := 0x11118
/-- Completions that waited for a full queue (R68) (R85). -/
abbrev HQ_CQ_HOLD : Nat := 0x1111C
/-- Safe-state completions dropped (R82) (R85). -/
abbrev HQ_SAFE_DROP : Nat := 0x11120
/-- Last queue to stop (R85). -/
abbrev HQ_ERR_INFO : Nat := 0x11124
/-- Events (R85). -/
abbrev HQ_EVT : Nat := 0x11128
/-- Interrupt enables, one per HQ_EVT bit (R85). -/
abbrev HQ_IRQ_EN : Nat := 0x1112C
/-- Selects a data pair by global pair index (R85). -/
abbrev HQ_QSEL : Nat := 0x11130
/-- Selected pair: owner and state (R85). -/
abbrev HQ_QVIEW0 : Nat := 0x11134
/-- Selected pair: submission head and tail (R85). -/
abbrev HQ_QVIEW1 : Nat := 0x11138
/-- Selected pair: completion tail and head (R85). -/
abbrev HQ_QVIEW2 : Nat := 0x1113C
/-- Readiness, masks, IV counter, halted count (R142). -/
abbrev NDL_STAT : Nat := 0x20100
/-- Halted needles (R142). -/
abbrev NDL_HALTED : Nat := 0x20104
/-- Needles that failed a known-answer test (R142). -/
abbrev NDL_KAT_FAIL : Nat := 0x20108
/-- Needles that failed an integrity check (R142). -/
abbrev NDL_INTEG_FAIL : Nat := 0x2010C
/-- Low 32 bits of TIK_COUNT at the last rotating test (R142). -/
abbrev NDL_KAT_TICK : Nat := 0x20110
/-- Rotating tests since reset (R142). -/
abbrev NDL_KAT_CNT : Nat := 0x20114
/-- Device number used in IVs (R142). -/
abbrev NDL_IVFIX : Nat := 0x20118
/-- Persisted IV counter bits [63:40] (R142). -/
abbrev NDL_IVRSV : Nat := 0x2011C
/-- Next IV counter [31:0]; a read latches [63:32] (R142). -/
abbrev NDL_IVCTR_LO : Nat := 0x20120
/-- Next IV counter [63:32] as latched (R142). -/
abbrev NDL_IVCTR_HI : Nat := 0x20124
/-- Budget reservation records written (R142). -/
abbrev NDL_RSV_CNT : Nat := 0x20128
/-- Longest reservation write since reset (R142). -/
abbrev NDL_RSV_LAT : Nat := 0x2012C
/-- Events (R142). -/
abbrev NDL_EVT : Nat := 0x20130
/-- Interrupt enables, one per NDL_EVT bit (R142). -/
abbrev NDL_IRQ_EN : Nat := 0x20134
/-- Per-needle use, needle n at 0x140 + 4n (R142). -/
abbrev NDL_UTIL : Nat := 0x20140
/-- Keying option 2 encryption (R143). -/
abbrev LDU_CTRL : Nat := 0x21100
/-- Readiness, masks, halted units (R143). -/
abbrev LDU_STAT : Nat := 0x21104
/-- Units that failed a known-answer test (R143). -/
abbrev LDU_KAT_FAIL : Nat := 0x21108
/-- Units that failed an integrity check (R143). -/
abbrev LDU_INTEG_FAIL : Nat := 0x2110C
/-- Data operations since reset [31:0]; a read latches [63:32] (R143). -/
abbrev LDU_OPS_LO : Nat := 0x21110
/-- Data operations [63:32] as latched (R143). -/
abbrev LDU_OPS_HI : Nat := 0x21114
/-- Events (R143). -/
abbrev LDU_EVT : Nat := 0x21118
/-- Interrupt enables, one per LDU_EVT bit (R143). -/
abbrev LDU_IRQ_EN : Nat := 0x2111C
/-- Readiness and restore state (R167). -/
abbrev KST_STAT : Nat := 0x22100
/-- Free slots in 256–16,383 (R167). -/
abbrev KST_FREE : Nat := 0x22104
/-- Slots ACTIVE or SPENT (R167). -/
abbrev KST_ACTIVE : Nat := 0x22108
/-- Stored keys whose record or first reservation is unwritten (R167). -/
abbrev KST_PEND : Nat := 0x2210C
/-- Tombstones held on this device (R167). -/
abbrev KST_TOMB : Nat := 0x22110
/-- Entries in the pending-tombstone list (R167). -/
abbrev KST_TOMB_PEND : Nat := 0x22114
/-- Stored records skipped at restore (R165) (R167). -/
abbrev KST_REC_BAD : Nat := 0x22118
/-- Selects a slot (R167). -/
abbrev KST_SEL : Nat := 0x2211C
/-- Selected slot: state, level, owner, generation (R167). -/
abbrev KST_VIEW0 : Nat := 0x22120
/-- Selected slot: attribute block [31:0] (R167). -/
abbrev KST_VIEW1 : Nat := 0x22124
/-- Selected slot: attribute block [63:32] (R167). -/
abbrev KST_VIEW2 : Nat := 0x22128
/-- Selected slot: budget remaining, as 2^n floor (R167). -/
abbrev KST_BUDGET : Nat := 0x2212C
/-- Last slot that failed its integrity check (R167). -/
abbrev KST_FAULT_INFO : Nat := 0x22130
/-- Events (R167). -/
abbrev KST_EVT : Nat := 0x22134
/-- Interrupt enables, one per KST_EVT bit (R167). -/
abbrev KST_IRQ_EN : Nat := 0x22138
/-- Population and rate in force (R209). -/
abbrev DDR_CFG : Nat := 0x31100
/-- Rate cap, applied at the next reset (R209). -/
abbrev DDR_CTRL : Nat := 0x31104
/-- Training, self-refresh, refresh rate (R209). -/
abbrev DDR_STAT : Nat := 0x31108
/-- Hottest DIMM temperature (R209). -/
abbrev DDR_TEMP : Nat := 0x3110C
/-- Corrected errors, channel n at 0x110 + 4n (R209). -/
abbrev DDR_CE : Nat := 0x31110
/-- Uncorrectable errors, channel n at 0x120 + 4n (R209). -/
abbrev DDR_UE : Nat := 0x31120
/-- Last error (R209). -/
abbrev DDR_ERR_INFO : Nat := 0x31130
/-- Events (R209). -/
abbrev DDR_EVT : Nat := 0x31134
/-- Interrupt enables, one per DDR_EVT bit (R209). -/
abbrev DDR_IRQ_EN : Nat := 0x31138
/-- Presence, readiness, sweep, generation, slots (R210). -/
abbrev VLT_STAT : Nat := 0x30100
/-- Protected capacity in region units (R210). -/
abbrev VLT_CAP : Nat := 0x30104
/-- Region units not assigned (R210). -/
abbrev VLT_FREE : Nat := 0x30108
/-- Panels encrypted under the current generation (R210). -/
abbrev VLT_KEYUSE : Nat := 0x3010C
/-- Sweep progress (R210). -/
abbrev VLT_SWEEP : Nat := 0x30110
/-- Number of the latest anchor (R210). -/
abbrev VLT_ANCHOR_NUM : Nat := 0x30114
/-- Low 32 bits of TIK_COUNT at its capture (R210). -/
abbrev VLT_ANCHOR_TICK : Nat := 0x30118
/-- Rollback permission (R204) (R210). -/
abbrev VLT_RBOK : Nat := 0x3011C
/-- Chain select (R210). -/
abbrev VLT_JSEL : Nat := 0x30120
/-- Ring base [31:12] (R210). -/
abbrev VLT_JBASE_LO : Nat := 0x30124
/-- Ring base [63:32] (R210). -/
abbrev VLT_JBASE_HI : Nat := 0x30128
/-- Ring size and enable (R210). -/
abbrev VLT_JSIZE : Nat := 0x3012C
/-- Host's head entry (R210). -/
abbrev VLT_JHEAD : Nat := 0x30130
/-- Device's next entry (R210). -/
abbrev VLT_JTAIL : Nat := 0x30134
/-- Latest sequence [31:0]; a read latches [63:32] (R210). -/
abbrev VLT_JSEQ_LO : Nat := 0x30138
/-- Latest sequence [63:32] as latched (R210). -/
abbrev VLT_JSEQ_HI : Nat := 0x3013C
/-- Vault state, rebase, holding (R210). -/
abbrev VLT_JSTAT : Nat := 0x30140
/-- Current epoch (R210). -/
abbrev VLT_JEPOCH : Nat := 0x30144
/-- Integrity failures (R210). -/
abbrev VLT_INTEG_CNT : Nat := 0x30148
/-- Last integrity failure (R210). -/
abbrev VLT_FAULT_INFO : Nat := 0x3014C
/-- Panel or node address of the last failure (R210). -/
abbrev VLT_FAULT_PANEL : Nat := 0x30150
/-- Events (R210). -/
abbrev VLT_EVT : Nat := 0x30154
/-- Interrupt enables, one per VLT_EVT bit (R210). -/
abbrev VLT_IRQ_EN : Nat := 0x30158
/-- Last reload failure (R210). -/
abbrev VLT_RLD_INFO : Nat := 0x3015C
/-- Records applied by the last reload part (R210). -/
abbrev VLT_RLD_CNT : Nat := 0x30160
/-- Readiness, masks, halted purlins (R252). -/
abbrev PUR_STAT : Nat := 0x23100
/-- Purlins that failed a known-answer test (R252). -/
abbrev PUR_KAT_FAIL : Nat := 0x23104
/-- Purlins that failed an integrity check (R252). -/
abbrev PUR_INTEG_FAIL : Nat := 0x23108
/-- Purlins that failed a signing check (R240) (R252). -/
abbrev PUR_CHECK_FAIL : Nat := 0x2310C
/-- Selects a purlin (R252). -/
abbrev PUR_SEL : Nat := 0x23110
/-- Operations of the selected purlin [31:0]; a read latches [63:32] (R252). -/
abbrev PUR_OPS_LO : Nat := 0x23114
/-- [63:32] as latched (R252). -/
abbrev PUR_OPS_HI : Nat := 0x23118
/-- Selected purlin: shares allotted and used (R252). -/
abbrev PUR_UTIL : Nat := 0x2311C
/-- Events (R252). -/
abbrev PUR_EVT : Nat := 0x23120
/-- Interrupt enables, one per PUR_EVT bit (R252). -/
abbrev PUR_IRQ_EN : Nat := 0x23124
/-- Readiness, halted engines, upkeep shares (R253). -/
abbrev HSH_STAT : Nat := 0x24100
/-- Engines that failed a known-answer test (R253). -/
abbrev HSH_KAT_FAIL : Nat := 0x24104
/-- Engines that failed an integrity check (R253). -/
abbrev HSH_INTEG_FAIL : Nat := 0x24108
/-- Selects an engine (R253). -/
abbrev HSH_SEL : Nat := 0x2410C
/-- Compressions of the selected engine [31:0]; a read latches [63:32] (R253). -/
abbrev HSH_CMP_LO : Nat := 0x24110
/-- [63:32] as latched (R253). -/
abbrev HSH_CMP_HI : Nat := 0x24114
/-- Selected engine: shares allotted and used (R253). -/
abbrev HSH_UTIL : Nat := 0x24118
/-- Events (R253). -/
abbrev HSH_EVT : Nat := 0x2411C
/-- Interrupt enables, one per HSH_EVT bit (R253). -/
abbrev HSH_IRQ_EN : Nat := 0x24120
/-- Readiness, log, pairs (R254). -/
abbrev LMS_STAT : Nat := 0x25100
/-- Request (R254). -/
abbrev LMS_REQ : Nat := 0x25104
/-- Host buffer [31:0], 256-byte aligned (R254). -/
abbrev LMS_REQ_ADDR_LO : Nat := 0x25108
/-- Host buffer [63:32] (R254). -/
abbrev LMS_REQ_ADDR_HI : Nat := 0x2510C
/-- Request state and progress (R254). -/
abbrev LMS_REQ_STAT : Nat := 0x25110
/-- Handle in for DESTROY, out for the others (R254). -/
abbrev LMS_REQ_HANDLE : Nat := 0x25114
/-- Pair slot − 128, 0–25 (R254). -/
abbrev LMS_SEL : Nat := 0x25118
/-- Selected pair: state, set, slice (R254). -/
abbrev LMS_PAIR : Nat := 0x2511C
/-- Next unassigned seam index [31:0]; a read latches [63:32] (R254). -/
abbrev LMS_NEXT_LO : Nat := 0x25120
/-- [63:32] as latched (R254). -/
abbrev LMS_NEXT_HI : Nat := 0x25124
/-- Available indices (R238) (R254). -/
abbrev LMS_AVAIL : Nat := 0x25128
/-- Indices skipped since creation (R254). -/
abbrev LMS_SKIP : Nat := 0x2512C
/-- Pair serial (R254). -/
abbrev LMS_SERIAL : Nat := 0x25130
/-- Tree records rebuilt after a failed CMAC (R254). -/
abbrev LMS_TREE_BAD : Nat := 0x25134
/-- Certificate word index (R254). -/
abbrev LMS_CERT_SEL : Nat := 0x25138
/-- Selected certificate word, little-endian (R254). -/
abbrev LMS_CERT_DATA : Nat := 0x2513C
/-- Events (R254). -/
abbrev LMS_EVT : Nat := 0x25140
/-- Interrupt enables, one per LMS_EVT bit (R254). -/
abbrev LMS_IRQ_EN : Nat := 0x25144
/-- Readiness, error, start-up, failure (R267). -/
abbrev RNG_STAT : Nat := 0x26100
/-- Next random word; a read removes it (R264) (R267). -/
abbrev RNG_DATA : Nat := 0x26104
/-- Cause and cells of the health failure (R267). -/
abbrev RNG_FAIL : Nat := 0x26108
/-- Low 32 bits of TIK_COUNT at the failure (R267). -/
abbrev RNG_FAIL_TICK : Nat := 0x2610C
/-- Selects a cell (R267). -/
abbrev RNG_CELL_SEL : Nat := 0x26110
/-- Selected cell: last alive and not-locked windows (R267). -/
abbrev RNG_CELL0 : Nat := 0x26114
/-- Selected cell: longest run and largest proportion (R267). -/
abbrev RNG_CELL1 : Nat := 0x26118
/-- Root reseeds since reset (R267). -/
abbrev RNG_RESEEDS : Nat := 0x2611C
/-- Child DRBGs instantiated (R267). -/
abbrev RNG_CHILDREN : Nat := 0x26120
/-- RNG_DATA reads that timed out (R267). -/
abbrev RNG_UNDER : Nat := 0x26124
/-- Raw-sample tap (R267). -/
abbrev RNG_RAW_SEL : Nat := 0x26128
/-- Raw samples of the tapped cell (R267). -/
abbrev RNG_RAW : Nat := 0x2612C
/-- Events (R267). -/
abbrev RNG_EVT : Nat := 0x26130
/-- Interrupt enables, one per RNG_EVT bit (R267). -/
abbrev RNG_IRQ_EN : Nat := 0x26134
/-- Readiness, halted bents (R285). -/
abbrev SHT_STAT : Nat := 0x40100
/-- Selects a bent for SHT_UTIL (R285). -/
abbrev SHT_SEL : Nat := 0x40104
/-- Selected bent: pieces in the last tick (R285). -/
abbrev SHT_UTIL : Nat := 0x40108
/-- Data link slots per direction; short pieces (R285). -/
abbrev SHT_LINK : Nat := 0x4010C
/-- Gate failures on channels (R285). -/
abbrev SHT_GATE_CNT : Nat := 0x40110
/-- Host access failures, flush reads included (R285). -/
abbrev SHT_HOST_CNT : Nat := 0x40114
/-- Last failure (R285). -/
abbrev SHT_FAULT_INFO : Nat := 0x40118
/-- Byte offset of the last failure (R285). -/
abbrev SHT_FAULT_OFF : Nat := 0x4011C
/-- Events (R285). -/
abbrev SHT_EVT : Nat := 0x40120
/-- Interrupt enables, one per SHT_EVT bit (R285). -/
abbrev SHT_IRQ_EN : Nat := 0x40124
/-- Bit f set: firmware channel f raised IRQ; bits [63:32] are read through SHT_SEL.HI (R285). -/
abbrev SHT_CH_IRQ : Nat := 0x40128
/-- A write starts the channel (R279); a read returns the current descriptor address (R285). -/
abbrev SHT_CH_NEXT : Nat := 0x40400
/-- Stop (R285). -/
abbrev SHT_CH_CTRL : Nat := 0x40404
/-- State, last status, descriptors completed (R285). -/
abbrev SHT_CH_STAT : Nat := 0x40408
/-- Byte offset of the failed piece (R285). -/
abbrev SHT_CH_ERR : Nat := 0x4040C
/-- Slice counts, restore done (R308). -/
abbrev SLC_STAT : Nat := 0x12100
/-- Slice and group select (R308). -/
abbrev SLC_SEL : Nat := 0x12104
/-- State, cause, change, function (R308). -/
abbrev SLC_STATE : Nat := 0x12108
/-- Pairs, groups, egress (R308). -/
abbrev SLC_SIZE : Nat := 0x1210C
/-- Key quota and slots held (R308). -/
abbrev SLC_KEYQ : Nat := 0x12110
/-- Region (R308). -/
abbrev SLC_VAULT : Nat := 0x12114
/-- Export serial [31:0]; a read latches [63:32] (R308). -/
abbrev SLC_SERIAL_LO : Nat := 0x12118
/-- Export serial [63:32] as latched (R308). -/
abbrev SLC_SERIAL_HI : Nat := 0x1211C
/-- Current slice hour (R308). -/
abbrev SLC_HOUR : Nat := 0x12120
/-- Dirty logs (R308). -/
abbrev SLC_DLOG : Nat := 0x12124
/-- Queue range (R308). -/
abbrev SLC_GRP0 : Nat := 0x12128
/-- PASID (R308). -/
abbrev SLC_GRP1 : Nat := 0x1212C
/-- Needle, work and control slots (R308). -/
abbrev SLC_GRP2 : Nat := 0x12130
/-- Purlin, hash, vault and companions (R308). -/
abbrev SLC_GRP3 : Nat := 0x12134
/-- Admission limit and contexts (R308). -/
abbrev SLC_GRP4 : Nat := 0x12138
/-- Data link slots (R308). -/
abbrev SLC_GRP5 : Nat := 0x1213C
/-- Needle placement (R308). -/
abbrev SLC_PL_NDL : Nat := 0x12140
/-- Post placement (R308). -/
abbrev SLC_PL_POST : Nat := 0x12144
/-- Hash engine (R308). -/
abbrev SLC_PL_HSH : Nat := 0x12148
/-- Import ledger entries (R308). -/
abbrev SLC_LEDGER : Nat := 0x1214C
/-- Admin commands running; last failure (R308). -/
abbrev SLC_ADM : Nat := 0x12150
/-- Events (R308). -/
abbrev SLC_EVT : Nat := 0x12154
/-- Interrupt enables, one per SLC_EVT bit (R308). -/
abbrev SLC_IRQ_EN : Nat := 0x12158
/-- Share positions on purlin n at 0x160 + 4n (R308). -/
abbrev SLC_PL_PUR : Nat := 0x12160
/-- Bit p set: post p halted (R349). -/
abbrev PST_HALTED : Nat := 0x41100
/-- Bit p set: post p stopped (R347) (R349). -/
abbrev PST_STOPPED : Nat := 0x41104
/-- Escalations in the device (R349). -/
abbrev PST_ESC_CNT : Nat := 0x41108
/-- Events (R349). -/
abbrev PST_EVT : Nat := 0x4110C
/-- Interrupt enables, one per PST_EVT bit (R349). -/
abbrev PST_IRQ_EN : Nat := 0x41110
/-- Return stack wrap, interrupts (R349). -/
abbrev PST_CTRL : Nat := 0x41400
/-- Depth, kingpost level, state (R349). -/
abbrev PST_STAT : Nat := 0x41404
/-- Vector table base (R349). -/
abbrev PST_VBASE : Nat := 0x41408
/-- Flags of the latest exception (R349). -/
abbrev PST_XCAUSE : Nat := 0x4140C
/-- Faulting data address, or the return address (R349). -/
abbrev PST_XADDR : Nat := 0x41410
/-- Latest escalation (R349). -/
abbrev PST_KP_INFO : Nat := 0x41414
/-- Interrupt line enables (R349). -/
abbrev PST_IRQ_LEN : Nat := 0x41418
/-- Pending lines (R349). -/
abbrev PST_IRQ_PEND : Nat := 0x4141C
/-- Frame of depth k + 1 at 0x420 + 96p + 4k (R349). -/
abbrev PST_FRAME : Nat := 0x41420
/-- Exceptions taken (R349). -/
abbrev PST_EXC_CNT : Nat := 0x41430
/-- Dispatch tenon slot, 16 bytes (R349). -/
abbrev PST_DISPATCH : Nat := 0x41440
/-- Kingpost code tenon slot, 16 bytes (R349). -/
abbrev PST_KPCODE : Nat := 0x41450
/-- Staging and refusal flags (R366). -/
abbrev GTE_STAT : Nat := 0x42100
/-- Current epoch (R366). -/
abbrev GTE_EPOCH : Nat := 0x42104
/-- Stage the shadow (R366). -/
abbrev GTE_COMMIT : Nat := 0x42108
/-- Stage the shadow, including table 352 (R366). -/
abbrev GTE_HCOMMIT : Nat := 0x4210C
/-- Copy the live tables into the shadow (R366). -/
abbrev GTE_DISCARD : Nat := 0x42110
/-- Table select (R366). -/
abbrev GTE_SEL : Nat := 0x42114
/-- First failing table and region (R366). -/
abbrev GTE_ERR_INFO : Nat := 0x42118
/-- Refusals, notices included (R366). -/
abbrev GTE_DENY_CNT : Nat := 0x4211C
/-- Last imprecise notice (R366). -/
abbrev GTE_NOTICE : Nat := 0x42120
/-- Its granule (R366). -/
abbrev GTE_NOTICE_ADDR : Nat := 0x42124
/-- Events (R366). -/
abbrev GTE_EVT : Nat := 0x42128
/-- Interrupt enables, one per GTE_EVT bit (R366). -/
abbrev GTE_IRQ_EN : Nat := 0x4212C
/-- Imprecise notices (R364) (R366). -/
abbrev GTE_NOTICE_CNT : Nat := 0x42130
/-- Region r: base and attributes (R366). -/
abbrev GTE_RBASE_LO : Nat := 0x42200
/-- Base [63:32]; link tables only (R366). -/
abbrev GTE_RBASE_HI : Nat := 0x42204
/-- Last granule [31:6] (R366). -/
abbrev GTE_RLIM_LO : Nat := 0x42208
/-- Last granule [63:32]; link tables only (R366). -/
abbrev GTE_RLIM_HI : Nat := 0x4220C
/-- Capture mode (R381). -/
abbrev FCL_CTRL : Nat := 0x02100
/-- State and flags (R381). -/
abbrev FCL_STAT : Nat := 0x02104
/-- Source select (R381). -/
abbrev FCL_SEL : Nat := 0x02108
/-- Response of the selected source (R381). -/
abbrev FCL_RESP : Nat := 0x0210C
/-- Physical-function MSI-X vector (R381). -/
abbrev FCL_VEC : Nat := 0x02110
/-- Firings since reset (R381). -/
abbrev FCL_FIRED : Nat := 0x02114
/-- Firings after FCL_FIRST was latched (R381). -/
abbrev FCL_OVF_CNT : Nat := 0x02118
/-- Ring records overwritten (R381). -/
abbrev FCL_LOST : Nat := 0x0211C
/-- Ring fill (R381). -/
abbrev FCL_RING : Nat := 0x02120
/-- Ring entry select (R381). -/
abbrev FCL_REC_SEL : Nat := 0x02124
/-- Management cold reset (R377) (R381). -/
abbrev FCL_COLD : Nat := 0x02128
/-- Events (R381). -/
abbrev FCL_EVT : Nat := 0x0212C
/-- Interrupt enables, one per FCL_EVT bit (R381). -/
abbrev FCL_IRQ_EN : Nat := 0x02130
/-- Re-arm FCL_FIRST (R381). -/
abbrev FCL_REARM : Nat := 0x02134
/-- Pending bits (R377) (R381). -/
abbrev FCL_PEND : Nat := 0x02140
/-- First record (R373) (R381). -/
abbrev FCL_FIRST : Nat := 0x02180
/-- Selected ring record (R373) (R381). -/
abbrev FCL_REC : Nat := 0x021A0
/-- Key, latch, battery, arming, crystal (R398). -/
abbrev THM_STAT : Nat := 0x03100
/-- Latched alarm causes (R398). -/
abbrev THM_LATCH : Nat := 0x03104
/-- Loop and switch modes, switch polarity (R398). -/
abbrev THM_ARM : Nat := 0x03108
/-- Loop select (R398). -/
abbrev THM_SEL : Nat := 0x0310C
/-- Selected loop: detectors and resistance (R398). -/
abbrev THM_LOOP : Nat := 0x03110
/-- Selected loop: reference resistance (R398). -/
abbrev THM_CAL : Nat := 0x03114
/-- Thimble time [31:0]; a read latches [47:32] (R398). -/
abbrev THM_TIME_LO : Nat := 0x03118
/-- Thimble time [47:32] as latched (R398). -/
abbrev THM_TIME_HI : Nat := 0x0311C
/-- Log entry select (R398). -/
abbrev THM_LOG_SEL : Nat := 0x03120
/-- Selected entry: kind and detectors (R398). -/
abbrev THM_LOG0 : Nat := 0x03124
/-- Selected entry: time [31:0] (R398). -/
abbrev THM_LOG1 : Nat := 0x03128
/-- Selected entry: time [47:32] (R398). -/
abbrev THM_LOG2 : Nat := 0x0312C
/-- Entries held and overwritten (R398). -/
abbrev THM_LOG_CNT : Nat := 0x03130
/-- Erase the key on command (R398). -/
abbrev THM_ERASE : Nat := 0x03134
/-- Backup-cell voltage (R398). -/
abbrev THM_VBAT : Nat := 0x03138
/-- Events (R398). -/
abbrev THM_EVT : Nat := 0x0313C
/-- Interrupt enables, one per THM_EVT bit (R398). -/
abbrev THM_IRQ_EN : Nat := 0x03140
/-- Loops with a recorded disagreement (R398). -/
abbrev THM_DISAGREE : Nat := 0x03144
/-- Arming and conditions in window (R399). -/
abbrev MON_STAT : Nat := 0x04100
/-- Conditions that fired since reset (R399). -/
abbrev MON_TRIP : Nat := 0x04104
/-- Conditions where one detector fired alone (R399). -/
abbrev MON_DISAGREE : Nat := 0x04108
/-- Rail select (R399). -/
abbrev MON_SEL : Nat := 0x0410C
/-- Selected rail: present voltage (R399). -/
abbrev MON_RAIL : Nat := 0x04110
/-- Selected rail: minimum and maximum since reset (R399). -/
abbrev MON_RAIL_EXT : Nat := 0x04114
/-- Measured fabric clock (R399). -/
abbrev MON_FREQ : Nat := 0x04118
/-- Both temperature sensors (R399). -/
abbrev MON_TEMP : Nat := 0x0411C
/-- Glitch reference (R399). -/
abbrev MON_GREF : Nat := 0x04120
/-- Glitches caught (R399). -/
abbrev MON_GLITCH_CNT : Nat := 0x04124
/-- Events (R399). -/
abbrev MON_EVT : Nat := 0x04128
/-- Interrupt enables, one per MON_EVT bit (R399). -/
abbrev MON_IRQ_EN : Nat := 0x0412C
/-- Readiness, busy and suspended banks (R416). -/
abbrev FLS_STAT : Nat := 0x50100
/-- Request (R416). -/
abbrev FLS_CMD : Nat := 0x50104
/-- Flash offset (R416). -/
abbrev FLS_ADDR : Nat := 0x50108
/-- On-chip source of a program (R416). -/
abbrev FLS_SRC : Nat := 0x5010C
/-- Request state and error (R416). -/
abbrev FLS_CMD_STAT : Nat := 0x50110
/-- Operation of each bank (R416). -/
abbrev FLS_BANK : Nat := 0x50114
/-- Block select (R416). -/
abbrev FLS_SEL : Nat := 0x50118
/-- Selected block: state, partition, erase count (R416). -/
abbrev FLS_BLKINFO : Nat := 0x5011C
/-- Highest erase count and its block (R416). -/
abbrev FLS_MAXERASE : Nat := 0x50120
/-- Indeterminate blocks (R416). -/
abbrev FLS_INDET : Nat := 0x50124
/-- Corrected units read (R416). -/
abbrev FLS_ECC_CE : Nat := 0x50128
/-- Uncorrectable units read (R416). -/
abbrev FLS_ECC_UE : Nat := 0x5012C
/-- Execute-only range (R406) (R416). -/
abbrev FLS_XO : Nat := 0x50130
/-- Posts that received a status word (R416). -/
abbrev FLS_RDST : Nat := 0x50134
/-- Events (R416). -/
abbrev FLS_EVT : Nat := 0x50138
/-- Interrupt enables, one per FLS_EVT bit (R416). -/
abbrev FLS_IRQ_EN : Nat := 0x5013C
/-- Erases since reset (R416). -/
abbrev FLS_ERASE_CNT : Nat := 0x50140
/-- Readiness, queue, limit (R417). -/
abbrev SIL_STAT : Nat := 0x51100
/-- Register select (R417). -/
abbrev SIL_SEL : Nat := 0x51104
/-- Selected register: write counter and limit (R417). -/
abbrev SIL_CNT : Nat := 0x51108
/-- Writes dropped (R417). -/
abbrev SIL_DROP : Nat := 0x5110C
/-- Events (R417). -/
abbrev SIL_EVT : Nat := 0x51110
/-- Interrupt enables, one per SIL_EVT bit (R417). -/
abbrev SIL_IRQ_EN : Nat := 0x51114
/-- Registers at their limit (R417). -/
abbrev SIL_LIMIT_CNT : Nat := 0x51118
/-- Bit n mod 32 of word ⌊n ÷ 32⌋: register n has a write pending (R417). -/
abbrev SIL_PEND : Nat := 0x51140
/-- Register n (R411) (R417). -/
abbrev SIL_REG0 : Nat := 0x51800
/-- Readiness, staging, bypass, officers (R435). -/
abbrev OFC_STAT : Nat := 0x52100
/-- Remote limit, detect polarity, change lifetime (R435). -/
abbrev OFC_CTRL : Nat := 0x52104
/-- Card clock divider (R435). -/
abbrev OFC_CLK : Nat := 0x52108
/-- Slot A (R435). -/
abbrev OFC_SLOTA : Nat := 0x5210C
/-- Slot B (R435). -/
abbrev OFC_SLOTB : Nat := 0x52110
/-- Staged change and approvals (R435). -/
abbrev OFC_GUARD : Nat := 0x52114
/-- Change number [31:0]; a read latches [63:32] (R435). -/
abbrev OFC_CHG_LO : Nat := 0x52118
/-- Change number [63:32] as latched (R435). -/
abbrev OFC_CHG_HI : Nat := 0x5211C
/-- Low 32 bits of the expiry tick (R435). -/
abbrev OFC_CHG_EXP : Nat := 0x52120
/-- Officer select (R435). -/
abbrev OFC_OFF_SEL : Nat := 0x52124
/-- Selected officer (R435). -/
abbrev OFC_OFFICER : Nat := 0x52128
/-- Ceremony progress (R435). -/
abbrev OFC_CER : Nat := 0x5212C
/-- Last failure (R435). -/
abbrev OFC_ERR_INFO : Nat := 0x52130
/-- Events (R435). -/
abbrev OFC_EVT : Nat := 0x52134
/-- Interrupt enables, one per OFC_EVT bit (R435). -/
abbrev OFC_IRQ_EN : Nat := 0x52138
/-- State, boot stage, image, flags (R450). -/
abbrev LCY_STAT : Nat := 0x01100
/-- Approved mode; boot completion (R450). -/
abbrev LCY_CTRL : Nat := 0x01104
/-- Requested lifecycle state (R437) (R450). -/
abbrev LCY_REQ : Nat := 0x01108
/-- Running frame security version [31:0]; a read latches [63:32] (R450). -/
abbrev LCY_SVN_LO : Nat := 0x0110C
/-- [63:32] as latched (R450). -/
abbrev LCY_SVN_HI : Nat := 0x01110
/-- Floor [31:0]; a read latches [63:32] (R450). -/
abbrev LCY_FLOOR_LO : Nat := 0x01114
/-- [63:32] as latched (R450). -/
abbrev LCY_FLOOR_HI : Nat := 0x01118
/-- Boot count (sill register 0) (R450). -/
abbrev LCY_BOOTCNT : Nat := 0x0111C
/-- Ticks from reset release to TIK_STAT.RUN (R450). -/
abbrev LCY_BOOT_TIME : Nat := 0x01120
/-- Self-test failures and the unmet condition (R450). -/
abbrev LCY_POST : Nat := 0x01124
/-- Staging progress and reason (R450). -/
abbrev LCY_STAGE : Nat := 0x01128
/-- Enrolment counter (sill register 7) (R450). -/
abbrev LCY_INFILL_CNT : Nat := 0x0112C
/-- Infill signer key id, word k at 0x130 + 4k (R450). -/
abbrev LCY_IKID : Nat := 0x01130
/-- Events (R450). -/
abbrev LCY_EVT : Nat := 0x01150
/-- Interrupt enables, one per LCY_EVT bit (R450). -/
abbrev LCY_IRQ_EN : Nat := 0x01154
/-- Lifecycle and signer fuses (R450). -/
abbrev LCY_FUSE : Nat := 0x01158
/-- Speed and width caps, retrain (R464). -/
abbrev HLK_CTRL : Nat := 0x10100
/-- Trained link (R464). -/
abbrev HLK_LINK : Nat := 0x10104
/-- Streams in Secure state (R464). -/
abbrev HLK_IDE : Nat := 0x10108
/-- Last integrity failure (R464). -/
abbrev HLK_IDE_FAIL : Nat := 0x1010C
/-- Integrity failures (R464). -/
abbrev HLK_IDE_CNT : Nat := 0x10110
/-- Responder state (R464). -/
abbrev HLK_SPDM : Nat := 0x10114
/-- Errors logged in any function (R464). -/
abbrev HLK_AER_CNT : Nat := 0x10118
/-- Last reset and FLR count (R464). -/
abbrev HLK_RST : Nat := 0x1011C
/-- SMBus address (R464). -/
abbrev HLK_SMB : Nat := 0x10120
/-- Events (R464). -/
abbrev HLK_EVT : Nat := 0x10124
/-- Interrupt enables, one per HLK_EVT bit (R464). -/
abbrev HLK_IRQ_EN : Nat := 0x10128
/-- Readiness and indicator flags (R478). -/
abbrev WER_STAT : Nat := 0x53100
/-- Horizon and cell capacity (R478). -/
abbrev WER_CTRL : Nat := 0x53104
/-- Indicator select (R478). -/
abbrev WER_SEL : Nat := 0x53108
/-- Selected indicator: U (R478). -/
abbrev WER_USE : Nat := 0x5310C
/-- Selected indicator: limit (R478). -/
abbrev WER_LIMIT : Nat := 0x53110
/-- Selected indicator: P in wear periods (R478). -/
abbrev WER_PRED : Nat := 0x53114
/-- Cell hours and remaining days (R478). -/
abbrev WER_BATT : Nat := 0x53118
/-- Latest ageing measurement (R478). -/
abbrev WER_AGE : Nat := 0x5311C
/-- Samples since reset (R478). -/
abbrev WER_SAMPLES : Nat := 0x53120
/-- Events (R478). -/
abbrev WER_EVT : Nat := 0x53124
/-- Interrupt enables, one per WER_EVT bit (R478). -/
abbrev WER_IRQ_EN : Nat := 0x53128

def TIK_CTRL_PACE : Fld := ⟨0x06100, 0, 1⟩
def TIK_CTRL_HORIZON : Fld := ⟨0x06100, 8, 5⟩
def TIK_STAT_RUN : Fld := ⟨0x06104, 0, 1⟩
def TIK_STAT_FENCE : Fld := ⟨0x06104, 1, 1⟩
def TIK_STAT_SUITE : Fld := ⟨0x06104, 2, 1⟩
def TIK_STAT_PACE_ACT : Fld := ⟨0x06104, 3, 1⟩
def TIK_STAT_STAGED : Fld := ⟨0x06104, 4, 1⟩
def TIK_STAT_ROT_NDL : Fld := ⟨0x06104, 8, 5⟩
def TIK_FREE_SHR_PUR : Fld := ⟨0x06118, 0, 8⟩
def TIK_FREE_SHR_HSH : Fld := ⟨0x06118, 8, 8⟩
def TIK_FREE_SHR_VLT : Fld := ⟨0x06118, 16, 8⟩
def TIK_FREE_SHR_PST : Fld := ⟨0x06118, 24, 5⟩
def TIK_OVR_INFO_POST : Fld := ⟨0x06128, 0, 5⟩
def TIK_OVR_INFO_SLICE : Fld := ⟨0x06128, 8, 7⟩
def TIK_OVR_INFO_CMD : Fld := ⟨0x06128, 16, 16⟩
def TIK_EVT_FENCE_START : Fld := ⟨0x0612C, 0, 1⟩
def TIK_EVT_FENCE_END : Fld := ⟨0x0612C, 1, 1⟩
def TIK_EVT_OVERRUN : Fld := ⟨0x0612C, 2, 1⟩
def TIK_EVT_STALL : Fld := ⟨0x0612C, 3, 1⟩
def TIK_EVT_PACE_CHANGED : Fld := ⟨0x0612C, 4, 1⟩
def GOV_FLOOR_STEP : Fld := ⟨0x05100, 0, 3⟩
def GOV_STAT_STEP : Fld := ⟨0x05104, 0, 3⟩
def GOV_STAT_FLOOR_BROKEN : Fld := ⟨0x05104, 8, 1⟩
def GOV_STAT_TEMP_HOLD : Fld := ⟨0x05104, 9, 1⟩
def GOV_STAT_DROOP : Fld := ⟨0x05104, 10, 1⟩
def GOV_THR_DOWN : Fld := ⟨0x05108, 0, 8⟩
def GOV_THR_UP : Fld := ⟨0x05108, 8, 8⟩
def GOV_THR_HARD : Fld := ⟨0x05108, 16, 8⟩
def GOV_DROOP_MV : Fld := ⟨0x0510C, 0, 10⟩
def GOV_TEMP_DEG : Fld := ⟨0x05110, 0, 8⟩
def GOV_UPDWELL_N : Fld := ⟨0x05114, 0, 5⟩
def HQ_CFG_DSTRD : Fld := ⟨0x11100, 0, 2⟩
def HQ_STAT_ACTIVE : Fld := ⟨0x11104, 0, 13⟩
def HQ_STAT_READY : Fld := ⟨0x11104, 16, 1⟩
def HQ_STAT_SAFE : Fld := ⟨0x11104, 17, 1⟩
def HQ_FETCH_DEPTH : Fld := ⟨0x11108, 0, 9⟩
def HQ_QALLOC_N : Fld := ⟨0x1110C, 0, 13⟩
def HQ_INFLIGHT_N : Fld := ⟨0x11110, 0, 13⟩
def HQ_ERR_INFO_SLICE : Fld := ⟨0x11124, 0, 7⟩
def HQ_ERR_INFO_QUEUE : Fld := ⟨0x11124, 8, 9⟩
def HQ_ERR_INFO_CAUSE : Fld := ⟨0x11124, 20, 4⟩
def HQ_EVT_QSTOP : Fld := ⟨0x11128, 0, 1⟩
def HQ_EVT_CQ_HOLD : Fld := ⟨0x11128, 1, 1⟩
def HQ_EVT_DB_DROP : Fld := ⟨0x11128, 2, 1⟩
def HQ_EVT_SAFE_DONE : Fld := ⟨0x11128, 3, 1⟩
def HQ_QSEL_PAIR : Fld := ⟨0x11130, 0, 12⟩
def HQ_QVIEW0_SLICE : Fld := ⟨0x11134, 0, 7⟩
def HQ_QVIEW0_QUEUE : Fld := ⟨0x11134, 8, 8⟩
def HQ_QVIEW0_GROUP : Fld := ⟨0x11134, 16, 5⟩
def HQ_QVIEW0_STATE : Fld := ⟨0x11134, 24, 3⟩
def HQ_QVIEW1_SQ_HEAD : Fld := ⟨0x11138, 0, 16⟩
def HQ_QVIEW1_SQ_TAIL : Fld := ⟨0x11138, 16, 16⟩
def HQ_QVIEW2_CQ_TAIL : Fld := ⟨0x1113C, 0, 16⟩
def HQ_QVIEW2_CQ_HEAD : Fld := ⟨0x1113C, 16, 16⟩
def NDL_STAT_READY : Fld := ⟨0x20100, 0, 1⟩
def NDL_STAT_MASK_OK : Fld := ⟨0x20100, 1, 1⟩
def NDL_STAT_IV_OK : Fld := ⟨0x20100, 2, 1⟩
def NDL_STAT_HALTED_CNT : Fld := ⟨0x20100, 16, 5⟩
def NDL_HALTED_N : Fld := ⟨0x20104, 0, 24⟩
def NDL_KAT_FAIL_N : Fld := ⟨0x20108, 0, 24⟩
def NDL_INTEG_FAIL_N : Fld := ⟨0x2010C, 0, 24⟩
def NDL_KAT_CNT_N : Fld := ⟨0x20114, 0, 32⟩
def NDL_IVFIX_DEVNO : Fld := ⟨0x20118, 0, 32⟩
def NDL_IVRSV_RSV : Fld := ⟨0x2011C, 0, 24⟩
def NDL_RSV_LAT_TICKS : Fld := ⟨0x2012C, 0, 16⟩
def NDL_EVT_KAT_FAIL : Fld := ⟨0x20130, 0, 1⟩
def NDL_EVT_INTEG_FAIL : Fld := ⟨0x20130, 1, 1⟩
def NDL_EVT_MASK_LOST : Fld := ⟨0x20130, 2, 1⟩
def NDL_EVT_IV_RSV : Fld := ⟨0x20130, 3, 1⟩
def NDL_EVT_RSV_SLOW : Fld := ⟨0x20130, 4, 1⟩
def NDL_UTIL_ALLOTTED : Fld := ⟨0x20140, 0, 7⟩
def NDL_UTIL_USED : Fld := ⟨0x20140, 8, 7⟩
def NDL_UTIL_HALTED : Fld := ⟨0x20140, 16, 1⟩
def NDL_UTIL_SERIAL : Fld := ⟨0x20140, 17, 1⟩
def LDU_CTRL_OPT2_ENC : Fld := ⟨0x21100, 0, 1⟩
def LDU_STAT_READY : Fld := ⟨0x21104, 0, 1⟩
def LDU_STAT_MASK_OK : Fld := ⟨0x21104, 1, 1⟩
def LDU_STAT_HALTED : Fld := ⟨0x21104, 8, 8⟩
def LDU_KAT_FAIL_N : Fld := ⟨0x21108, 0, 8⟩
def LDU_INTEG_FAIL_N : Fld := ⟨0x2110C, 0, 8⟩
def LDU_EVT_KAT_FAIL : Fld := ⟨0x21118, 0, 1⟩
def LDU_EVT_INTEG_FAIL : Fld := ⟨0x21118, 1, 1⟩
def LDU_EVT_MASK_LOST : Fld := ⟨0x21118, 2, 1⟩
def KST_STAT_READY : Fld := ⟨0x22100, 0, 1⟩
def KST_STAT_DOMAIN : Fld := ⟨0x22100, 1, 1⟩
def KST_STAT_RESTORING : Fld := ⟨0x22100, 2, 1⟩
def KST_FREE_N : Fld := ⟨0x22104, 0, 14⟩
def KST_ACTIVE_N : Fld := ⟨0x22108, 0, 14⟩
def KST_PEND_N : Fld := ⟨0x2210C, 0, 14⟩
def KST_TOMB_N : Fld := ⟨0x22110, 0, 32⟩
def KST_TOMB_PEND_N : Fld := ⟨0x22114, 0, 9⟩
def KST_REC_BAD_N : Fld := ⟨0x22118, 0, 16⟩
def KST_SEL_SLOT : Fld := ⟨0x2211C, 0, 14⟩
def KST_VIEW0_STATE : Fld := ⟨0x22120, 0, 3⟩
def KST_VIEW0_LEVEL : Fld := ⟨0x22120, 4, 3⟩
def KST_VIEW0_EXT : Fld := ⟨0x22120, 7, 1⟩
def KST_VIEW0_SLICE : Fld := ⟨0x22120, 8, 7⟩
def KST_VIEW0_GEN : Fld := ⟨0x22120, 16, 10⟩
def KST_VIEW0_STORE : Fld := ⟨0x22120, 26, 2⟩
def KST_BUDGET_LOG : Fld := ⟨0x2212C, 0, 6⟩
def KST_FAULT_INFO_SLOT : Fld := ⟨0x22130, 0, 14⟩
def KST_FAULT_INFO_SLICE : Fld := ⟨0x22130, 16, 7⟩
def KST_EVT_INTEGRITY : Fld := ⟨0x22134, 0, 1⟩
def KST_EVT_REC_BAD : Fld := ⟨0x22134, 1, 1⟩
def KST_EVT_LOW_FREE : Fld := ⟨0x22134, 2, 1⟩
def KST_EVT_TOMB_FULL : Fld := ⟨0x22134, 3, 1⟩
def DDR_CFG_CHMASK : Fld := ⟨0x31100, 0, 4⟩
def DDR_CFG_RATE : Fld := ⟨0x31100, 4, 3⟩
def DDR_CFG_DIMM : Fld := ⟨0x31100, 8, 3⟩
def DDR_CFG_RANKS : Fld := ⟨0x31100, 12, 1⟩
def DDR_CTRL_MAXRATE : Fld := ⟨0x31104, 0, 3⟩
def DDR_STAT_TRAINED : Fld := ⟨0x31108, 0, 4⟩
def DDR_STAT_SREF : Fld := ⟨0x31108, 4, 1⟩
def DDR_STAT_HOT : Fld := ⟨0x31108, 5, 1⟩
def DDR_TEMP_DEG : Fld := ⟨0x3110C, 0, 8⟩
def DDR_CE_N : Fld := ⟨0x31110, 0, 32⟩
def DDR_UE_N : Fld := ⟨0x31120, 0, 16⟩
def DDR_ERR_INFO_CH : Fld := ⟨0x31130, 0, 2⟩
def DDR_ERR_INFO_SUB : Fld := ⟨0x31130, 2, 1⟩
def DDR_ERR_INFO_UE : Fld := ⟨0x31130, 3, 1⟩
def DDR_EVT_CE : Fld := ⟨0x31134, 0, 1⟩
def DDR_EVT_UE : Fld := ⟨0x31134, 1, 1⟩
def DDR_EVT_TRAIN_FAIL : Fld := ⟨0x31134, 2, 1⟩
def DDR_EVT_HOT : Fld := ⟨0x31134, 3, 1⟩
def VLT_STAT_PRESENT : Fld := ⟨0x30100, 0, 1⟩
def VLT_STAT_READY : Fld := ⟨0x30100, 1, 1⟩
def VLT_STAT_TOMB_READY : Fld := ⟨0x30100, 2, 1⟩
def VLT_STAT_SWEEP : Fld := ⟨0x30100, 3, 1⟩
def VLT_STAT_GEN : Fld := ⟨0x30100, 4, 2⟩
def VLT_STAT_SLOTS : Fld := ⟨0x30100, 8, 7⟩
def VLT_CAP_UNITS : Fld := ⟨0x30104, 0, 10⟩
def VLT_FREE_UNITS : Fld := ⟨0x30108, 0, 10⟩
def VLT_KEYUSE_N : Fld := ⟨0x3010C, 0, 20⟩
def VLT_SWEEP_DONE : Fld := ⟨0x30110, 0, 16⟩
def VLT_RBOK_SLICE : Fld := ⟨0x3011C, 0, 7⟩
def VLT_RBOK_ARM : Fld := ⟨0x3011C, 8, 1⟩
def VLT_JSEL_CHAIN : Fld := ⟨0x30120, 0, 8⟩
def VLT_JBASE_LO_BASE : Fld := ⟨0x30124, 12, 20⟩
def VLT_JSIZE_LOG : Fld := ⟨0x3012C, 0, 5⟩
def VLT_JSIZE_EN : Fld := ⟨0x3012C, 8, 1⟩
def VLT_JHEAD_HEAD : Fld := ⟨0x30130, 0, 24⟩
def VLT_JTAIL_TAIL : Fld := ⟨0x30134, 0, 24⟩
def VLT_JSTAT_STATE : Fld := ⟨0x30140, 0, 3⟩
def VLT_JSTAT_REBASE : Fld := ⟨0x30140, 8, 1⟩
def VLT_JSTAT_HOLD : Fld := ⟨0x30140, 9, 1⟩
def VLT_JSTAT_HELD : Fld := ⟨0x30140, 16, 16⟩
def VLT_INTEG_CNT_N : Fld := ⟨0x30148, 0, 16⟩
def VLT_FAULT_INFO_SLICE : Fld := ⟨0x3014C, 0, 7⟩
def VLT_FAULT_INFO_LEVEL : Fld := ⟨0x3014C, 8, 3⟩
def VLT_FAULT_INFO_DDR_UE : Fld := ⟨0x3014C, 12, 1⟩
def VLT_FAULT_PANEL_ADDR : Fld := ⟨0x30150, 0, 30⟩
def VLT_EVT_INTEGRITY : Fld := ⟨0x30154, 0, 1⟩
def VLT_EVT_SWEEP_START : Fld := ⟨0x30154, 1, 1⟩
def VLT_EVT_SWEEP_END : Fld := ⟨0x30154, 2, 1⟩
def VLT_EVT_ANCHOR : Fld := ⟨0x30154, 3, 1⟩
def VLT_EVT_RING_HOLD : Fld := ⟨0x30154, 4, 1⟩
def VLT_EVT_RELOAD_DONE : Fld := ⟨0x30154, 5, 1⟩
def VLT_EVT_ROLLBACK : Fld := ⟨0x30154, 6, 1⟩
def VLT_RLD_INFO_REASON : Fld := ⟨0x3015C, 0, 4⟩
def VLT_RLD_INFO_CHAIN : Fld := ⟨0x3015C, 8, 8⟩
def VLT_RLD_INFO_OVERRIDDEN : Fld := ⟨0x3015C, 16, 1⟩
def VLT_RLD_CNT_N : Fld := ⟨0x30160, 0, 32⟩
def PUR_STAT_READY : Fld := ⟨0x23100, 0, 1⟩
def PUR_STAT_MASK_OK : Fld := ⟨0x23100, 1, 1⟩
def PUR_STAT_HALTED : Fld := ⟨0x23100, 8, 8⟩
def PUR_KAT_FAIL_N : Fld := ⟨0x23104, 0, 8⟩
def PUR_INTEG_FAIL_N : Fld := ⟨0x23108, 0, 8⟩
def PUR_CHECK_FAIL_N : Fld := ⟨0x2310C, 0, 8⟩
def PUR_SEL_PURLIN : Fld := ⟨0x23110, 0, 3⟩
def PUR_UTIL_ALLOTTED : Fld := ⟨0x2311C, 0, 5⟩
def PUR_UTIL_USED : Fld := ⟨0x2311C, 8, 5⟩
def PUR_EVT_KAT_FAIL : Fld := ⟨0x23120, 0, 1⟩
def PUR_EVT_INTEG_FAIL : Fld := ⟨0x23120, 1, 1⟩
def PUR_EVT_CHECK_FAIL : Fld := ⟨0x23120, 2, 1⟩
def PUR_EVT_MASK_LOST : Fld := ⟨0x23120, 3, 1⟩
def HSH_STAT_READY : Fld := ⟨0x24100, 0, 1⟩
def HSH_STAT_HALTED : Fld := ⟨0x24100, 8, 8⟩
def HSH_STAT_UPKEEP : Fld := ⟨0x24100, 16, 6⟩
def HSH_KAT_FAIL_N : Fld := ⟨0x24104, 0, 8⟩
def HSH_INTEG_FAIL_N : Fld := ⟨0x24108, 0, 8⟩
def HSH_SEL_ENGINE : Fld := ⟨0x2410C, 0, 3⟩
def HSH_UTIL_ALLOTTED : Fld := ⟨0x24118, 0, 5⟩
def HSH_UTIL_USED : Fld := ⟨0x24118, 8, 5⟩
def HSH_EVT_KAT_FAIL : Fld := ⟨0x2411C, 0, 1⟩
def HSH_EVT_INTEG_FAIL : Fld := ⟨0x2411C, 1, 1⟩
def LMS_STAT_READY : Fld := ⟨0x25100, 0, 1⟩
def LMS_STAT_LOG_OK : Fld := ⟨0x25100, 1, 1⟩
def LMS_STAT_LAG : Fld := ⟨0x25100, 2, 1⟩
def LMS_STAT_PAIRS : Fld := ⟨0x25100, 8, 5⟩
def LMS_STAT_TREES : Fld := ⟨0x25100, 16, 7⟩
def LMS_REQ_OP : Fld := ⟨0x25104, 0, 4⟩
def LMS_REQ_SET : Fld := ⟨0x25104, 4, 2⟩
def LMS_REQ_SLICE : Fld := ⟨0x25104, 8, 7⟩
def LMS_REQ_GO : Fld := ⟨0x25104, 31, 1⟩
def LMS_REQ_STAT_STATE : Fld := ⟨0x25110, 0, 2⟩
def LMS_REQ_STAT_ERR : Fld := ⟨0x25110, 8, 4⟩
def LMS_REQ_STAT_PROGRESS : Fld := ⟨0x25110, 16, 16⟩
def LMS_SEL_PAIR : Fld := ⟨0x25118, 0, 5⟩
def LMS_PAIR_STATE : Fld := ⟨0x2511C, 0, 2⟩
def LMS_PAIR_SET : Fld := ⟨0x2511C, 4, 2⟩
def LMS_PAIR_SLICE : Fld := ⟨0x2511C, 8, 7⟩
def LMS_AVAIL_N : Fld := ⟨0x25128, 0, 12⟩
def LMS_SKIP_N : Fld := ⟨0x2512C, 0, 32⟩
def LMS_TREE_BAD_N : Fld := ⟨0x25134, 0, 8⟩
def LMS_CERT_SEL_WORD : Fld := ⟨0x25138, 0, 10⟩
def LMS_EVT_REQ_DONE : Fld := ⟨0x25140, 0, 1⟩
def LMS_EVT_LOG_FAIL : Fld := ⟨0x25140, 1, 1⟩
def LMS_EVT_LAG : Fld := ⟨0x25140, 2, 1⟩
def LMS_EVT_LOW : Fld := ⟨0x25140, 3, 1⟩
def RNG_STAT_READY : Fld := ⟨0x26100, 0, 1⟩
def RNG_STAT_ERR : Fld := ⟨0x26100, 1, 1⟩
def RNG_STAT_STARTUP : Fld := ⟨0x26100, 2, 1⟩
def RNG_STAT_FAILED : Fld := ⟨0x26100, 3, 1⟩
def RNG_STAT_RAW_EN : Fld := ⟨0x26100, 4, 1⟩
def RNG_DATA_WORD : Fld := ⟨0x26104, 0, 32⟩
def RNG_FAIL_CELLS : Fld := ⟨0x26108, 0, 4⟩
def RNG_FAIL_CAUSE : Fld := ⟨0x26108, 8, 3⟩
def RNG_FAIL_STARTUP : Fld := ⟨0x26108, 16, 1⟩
def RNG_CELL_SEL_CELL : Fld := ⟨0x26110, 0, 2⟩
def RNG_CELL0_TRANS : Fld := ⟨0x26114, 0, 13⟩
def RNG_CELL0_PHASE_VALS : Fld := ⟨0x26114, 16, 7⟩
def RNG_CELL1_RUN : Fld := ⟨0x26118, 0, 8⟩
def RNG_CELL1_APT : Fld := ⟨0x26118, 16, 11⟩
def RNG_RESEEDS_N : Fld := ⟨0x2611C, 0, 32⟩
def RNG_CHILDREN_N : Fld := ⟨0x26120, 0, 11⟩
def RNG_UNDER_N : Fld := ⟨0x26124, 0, 16⟩
def RNG_RAW_SEL_CELL : Fld := ⟨0x26128, 0, 2⟩
def RNG_RAW_SEL_EN : Fld := ⟨0x26128, 8, 1⟩
def RNG_RAW_BITS : Fld := ⟨0x2612C, 0, 32⟩
def RNG_EVT_READY : Fld := ⟨0x26130, 0, 1⟩
def RNG_EVT_FAIL : Fld := ⟨0x26130, 1, 1⟩
def RNG_EVT_UNDER : Fld := ⟨0x26130, 2, 1⟩
def SHT_STAT_READY : Fld := ⟨0x40100, 0, 1⟩
def SHT_STAT_HALTED : Fld := ⟨0x40100, 8, 8⟩
def SHT_SEL_BENT : Fld := ⟨0x40104, 0, 3⟩
def SHT_SEL_HI : Fld := ⟨0x40104, 8, 1⟩
def SHT_UTIL_PLAN : Fld := ⟨0x40108, 0, 12⟩
def SHT_UTIL_FW : Fld := ⟨0x40108, 16, 12⟩
def SHT_LINK_SLOTS : Fld := ⟨0x4010C, 0, 12⟩
def SHT_LINK_SHORT : Fld := ⟨0x4010C, 16, 16⟩
def SHT_GATE_CNT_N : Fld := ⟨0x40110, 0, 16⟩
def SHT_HOST_CNT_N : Fld := ⟨0x40114, 0, 16⟩
def SHT_FAULT_INFO_CH : Fld := ⟨0x40118, 0, 8⟩
def SHT_FAULT_INFO_STATUS : Fld := ⟨0x40118, 8, 8⟩
def SHT_FAULT_INFO_SLICE : Fld := ⟨0x40118, 16, 7⟩
def SHT_FAULT_INFO_PLAN : Fld := ⟨0x40118, 23, 1⟩
def SHT_FAULT_OFF_OFF : Fld := ⟨0x4011C, 0, 25⟩
def SHT_EVT_FAULT : Fld := ⟨0x40120, 0, 1⟩
def SHT_EVT_LINK_SHORT : Fld := ⟨0x40120, 1, 1⟩
def SHT_EVT_START_BUSY : Fld := ⟨0x40120, 2, 1⟩
def SHT_EVT_HALT : Fld := ⟨0x40120, 3, 1⟩
def SHT_CH_CTRL_STOP : Fld := ⟨0x40404, 0, 1⟩
def SHT_CH_STAT_STATE : Fld := ⟨0x40408, 0, 2⟩
def SHT_CH_STAT_LAST : Fld := ⟨0x40408, 8, 4⟩
def SHT_CH_STAT_DONE_CNT : Fld := ⟨0x40408, 16, 16⟩
def SHT_CH_ERR_OFF : Fld := ⟨0x4040C, 0, 25⟩
def SLC_STAT_ACTIVE : Fld := ⟨0x12100, 0, 8⟩
def SLC_STAT_DORMANT : Fld := ⟨0x12100, 8, 8⟩
def SLC_STAT_QUIESCED : Fld := ⟨0x12100, 16, 8⟩
def SLC_STAT_RESTORED : Fld := ⟨0x12100, 24, 1⟩
def SLC_SEL_SLICE : Fld := ⟨0x12104, 0, 7⟩
def SLC_SEL_GROUP : Fld := ⟨0x12104, 8, 5⟩
def SLC_STATE_STATE : Fld := ⟨0x12108, 0, 3⟩
def SLC_STATE_CAUSE : Fld := ⟨0x12108, 4, 2⟩
def SLC_STATE_FN_EN : Fld := ⟨0x12108, 8, 1⟩
def SLC_STATE_MIGRATABLE : Fld := ⟨0x12108, 9, 1⟩
def SLC_STATE_CHANGE : Fld := ⟨0x12108, 12, 3⟩
def SLC_SIZE_PAIRS : Fld := ⟨0x1210C, 0, 9⟩
def SLC_SIZE_GROUPS : Fld := ⟨0x1210C, 16, 6⟩
def SLC_SIZE_EGRESS : Fld := ⟨0x1210C, 24, 6⟩
def SLC_KEYQ_QUOTA : Fld := ⟨0x12110, 0, 14⟩
def SLC_KEYQ_HELD : Fld := ⟨0x12110, 16, 14⟩
def SLC_VAULT_FIRST : Fld := ⟨0x12114, 0, 10⟩
def SLC_VAULT_UNITS : Fld := ⟨0x12114, 16, 10⟩
def SLC_HOUR_HOUR : Fld := ⟨0x12120, 0, 32⟩
def SLC_DLOG_EN : Fld := ⟨0x12124, 0, 4⟩
def SLC_DLOG_ON_B : Fld := ⟨0x12124, 8, 4⟩
def SLC_GRP0_FIRST : Fld := ⟨0x12128, 0, 8⟩
def SLC_GRP0_COUNT : Fld := ⟨0x12128, 16, 9⟩
def SLC_GRP1_PASID : Fld := ⟨0x1212C, 0, 20⟩
def SLC_GRP1_PASID_EN : Fld := ⟨0x1212C, 20, 1⟩
def SLC_GRP2_NDL : Fld := ⟨0x12130, 0, 12⟩
def SLC_GRP2_WORK : Fld := ⟨0x12130, 16, 5⟩
def SLC_GRP2_CTRL : Fld := ⟨0x12130, 24, 5⟩
def SLC_GRP3_PUR : Fld := ⟨0x12134, 0, 7⟩
def SLC_GRP3_HSH : Fld := ⟨0x12134, 8, 4⟩
def SLC_GRP3_AH : Fld := ⟨0x12134, 12, 4⟩
def SLC_GRP3_VLT : Fld := ⟨0x12134, 16, 7⟩
def SLC_GRP3_AV : Fld := ⟨0x12134, 24, 7⟩
def SLC_GRP4_ADMIT : Fld := ⟨0x12138, 0, 9⟩
def SLC_GRP4_CTX : Fld := ⟨0x12138, 16, 13⟩
def SLC_GRP5_IN : Fld := ⟨0x1213C, 0, 12⟩
def SLC_GRP5_OUT : Fld := ⟨0x1213C, 16, 12⟩
def SLC_PL_NDL_SERIAL : Fld := ⟨0x12140, 0, 5⟩
def SLC_PL_NDL_NEEDLES : Fld := ⟨0x12140, 8, 24⟩
def SLC_PL_POST_POSTS : Fld := ⟨0x12144, 0, 32⟩
def SLC_PL_HSH_ENGINE : Fld := ⟨0x12148, 0, 3⟩
def SLC_LEDGER_N : Fld := ⟨0x1214C, 0, 17⟩
def SLC_ADM_RUNNING : Fld := ⟨0x12150, 0, 2⟩
def SLC_ADM_OPCODE : Fld := ⟨0x12150, 8, 8⟩
def SLC_ADM_REASON : Fld := ⟨0x12150, 16, 8⟩
def SLC_EVT_COMMIT : Fld := ⟨0x12154, 0, 1⟩
def SLC_EVT_RESET_DONE : Fld := ⟨0x12154, 1, 1⟩
def SLC_EVT_FLR : Fld := ⟨0x12154, 2, 1⟩
def SLC_EVT_FAULT_QUIESCE : Fld := ⟨0x12154, 3, 1⟩
def SLC_EVT_IMPORT_REFUSED : Fld := ⟨0x12154, 4, 1⟩
def SLC_EVT_FLIP : Fld := ⟨0x12154, 5, 1⟩
def SLC_PL_PUR_POS : Fld := ⟨0x12160, 0, 16⟩
def PST_ESC_CNT_N : Fld := ⟨0x41108, 0, 16⟩
def PST_EVT_ESCALATE : Fld := ⟨0x4110C, 0, 1⟩
def PST_EVT_KP_FAIL : Fld := ⟨0x4110C, 1, 1⟩
def PST_EVT_INTEGRITY : Fld := ⟨0x4110C, 2, 1⟩
def PST_CTRL_RSWRAP : Fld := ⟨0x41400, 0, 1⟩
def PST_CTRL_IRQ : Fld := ⟨0x41400, 1, 1⟩
def PST_STAT_DEPTH : Fld := ⟨0x41404, 0, 3⟩
def PST_STAT_KP : Fld := ⟨0x41404, 3, 1⟩
def PST_STAT_STOPPED : Fld := ⟨0x41404, 4, 1⟩
def PST_STAT_HALTED : Fld := ⟨0x41404, 5, 1⟩
def PST_STAT_SLOTTED : Fld := ⟨0x41404, 6, 1⟩
def PST_STAT_RUNNING : Fld := ⟨0x41404, 7, 1⟩
def PST_VBASE_BASE : Fld := ⟨0x41408, 11, 9⟩
def PST_XCAUSE_FLAGS : Fld := ⟨0x4140C, 0, 16⟩
def PST_XADDR_ADDR : Fld := ⟨0x41410, 0, 32⟩
def PST_KP_INFO_CAUSE : Fld := ⟨0x41414, 0, 6⟩
def PST_KP_INFO_DEPTH : Fld := ⟨0x41414, 8, 3⟩
def PST_KP_INFO_CYC : Fld := ⟨0x41414, 16, 10⟩
def PST_IRQ_LEN_LINES : Fld := ⟨0x41418, 0, 6⟩
def PST_IRQ_PEND_LINES : Fld := ⟨0x4141C, 0, 6⟩
def PST_FRAME_ADDR : Fld := ⟨0x41420, 0, 20⟩
def PST_EXC_CNT_N : Fld := ⟨0x41430, 0, 16⟩
def GTE_STAT_STAGED : Fld := ⟨0x42100, 0, 1⟩
def GTE_STAT_OVERLAP : Fld := ⟨0x42100, 1, 1⟩
def GTE_STAT_SPAN : Fld := ⟨0x42100, 2, 1⟩
def GTE_STAT_BADREG : Fld := ⟨0x42100, 3, 1⟩
def GTE_STAT_GUARD : Fld := ⟨0x42100, 4, 1⟩
def GTE_STAT_READY : Fld := ⟨0x42100, 8, 1⟩
def GTE_COMMIT_GO : Fld := ⟨0x42108, 0, 1⟩
def GTE_HCOMMIT_GO : Fld := ⟨0x4210C, 0, 1⟩
def GTE_SEL_INIT : Fld := ⟨0x42114, 0, 9⟩
def GTE_SEL_LINK : Fld := ⟨0x42114, 16, 1⟩
def GTE_SEL_LIVE : Fld := ⟨0x42114, 24, 1⟩
def GTE_ERR_INFO_INIT : Fld := ⟨0x42118, 0, 9⟩
def GTE_ERR_INFO_LINK : Fld := ⟨0x42118, 16, 1⟩
def GTE_ERR_INFO_REGION : Fld := ⟨0x42118, 24, 5⟩
def GTE_DENY_CNT_N : Fld := ⟨0x4211C, 0, 16⟩
def GTE_NOTICE_INIT : Fld := ⟨0x42120, 0, 9⟩
def GTE_NOTICE_GATE : Fld := ⟨0x42120, 12, 4⟩
def GTE_NOTICE_EPOCH : Fld := ⟨0x42120, 16, 16⟩
def GTE_NOTICE_ADDR_GRANULE : Fld := ⟨0x42124, 6, 26⟩
def GTE_EVT_COMMIT : Fld := ⟨0x42128, 0, 1⟩
def GTE_EVT_REFUSED : Fld := ⟨0x42128, 1, 1⟩
def GTE_EVT_NOTICE : Fld := ⟨0x42128, 2, 1⟩
def GTE_NOTICE_CNT_N : Fld := ⟨0x42130, 0, 16⟩
def GTE_RBASE_LO_V : Fld := ⟨0x42200, 0, 1⟩
def GTE_RBASE_LO_R : Fld := ⟨0x42200, 1, 1⟩
def GTE_RBASE_LO_W : Fld := ⟨0x42200, 2, 1⟩
def GTE_RBASE_LO_X : Fld := ⟨0x42200, 3, 1⟩
def GTE_RBASE_LO_BASE : Fld := ⟨0x42200, 6, 26⟩
def GTE_RLIM_LO_LIMIT : Fld := ⟨0x42208, 6, 26⟩
def FCL_CTRL_MODE : Fld := ⟨0x02100, 0, 1⟩
def FCL_STAT_PEND : Fld := ⟨0x02104, 0, 1⟩
def FCL_STAT_OVF : Fld := ⟨0x02104, 1, 1⟩
def FCL_STAT_SAFE : Fld := ⟨0x02104, 2, 1⟩
def FCL_STAT_CERT_OK : Fld := ⟨0x02104, 3, 1⟩
def FCL_STAT_VOTE_OK : Fld := ⟨0x02104, 4, 1⟩
def FCL_STAT_STILL : Fld := ⟨0x02104, 5, 1⟩
def FCL_STAT_MAX : Fld := ⟨0x02104, 8, 3⟩
def FCL_SEL_SOURCE : Fld := ⟨0x02108, 0, 9⟩
def FCL_RESP_LEVEL : Fld := ⟨0x0210C, 0, 3⟩
def FCL_RESP_HOSTIRQ : Fld := ⟨0x0210C, 3, 1⟩
def FCL_RESP_ALERT : Fld := ⟨0x0210C, 4, 1⟩
def FCL_RESP_DEFAULT : Fld := ⟨0x0210C, 8, 3⟩
def FCL_RESP_FLOOR : Fld := ⟨0x0210C, 12, 3⟩
def FCL_RESP_CERT : Fld := ⟨0x0210C, 16, 3⟩
def FCL_VEC_VEC : Fld := ⟨0x02110, 0, 11⟩
def FCL_FIRED_N : Fld := ⟨0x02114, 0, 32⟩
def FCL_OVF_CNT_N : Fld := ⟨0x02118, 0, 16⟩
def FCL_LOST_N : Fld := ⟨0x0211C, 0, 16⟩
def FCL_RING_HEAD : Fld := ⟨0x02120, 0, 6⟩
def FCL_RING_COUNT : Fld := ⟨0x02120, 8, 7⟩
def FCL_REC_SEL_AGE : Fld := ⟨0x02124, 0, 6⟩
def FCL_COLD_KEY : Fld := ⟨0x02128, 0, 32⟩
def FCL_EVT_FIRED : Fld := ⟨0x0212C, 0, 1⟩
def FCL_EVT_OVF : Fld := ⟨0x0212C, 1, 1⟩
def FCL_EVT_LOST : Fld := ⟨0x0212C, 2, 1⟩
def FCL_REARM_GO : Fld := ⟨0x02134, 0, 1⟩
def THM_STAT_KEY_VALID : Fld := ⟨0x03100, 0, 1⟩
def THM_STAT_LATCHED : Fld := ⟨0x03100, 1, 1⟩
def THM_STAT_BATT_LOW : Fld := ⟨0x03100, 2, 1⟩
def THM_STAT_ARM_PEND : Fld := ⟨0x03100, 3, 1⟩
def THM_STAT_CAL_FAIL : Fld := ⟨0x03100, 4, 1⟩
def THM_STAT_XTAL_FAIL : Fld := ⟨0x03100, 5, 1⟩
def THM_STAT_READY : Fld := ⟨0x03100, 6, 1⟩
def THM_LATCH_LOOP : Fld := ⟨0x03104, 0, 8⟩
def THM_LATCH_SWITCH : Fld := ⟨0x03104, 8, 4⟩
def THM_LATCH_KEYLOST : Fld := ⟨0x03104, 12, 1⟩
def THM_LATCH_SOFT : Fld := ⟨0x03104, 13, 1⟩
def THM_LATCH_MAINOFF : Fld := ⟨0x03104, 14, 1⟩
def THM_LATCH_STATE : Fld := ⟨0x03104, 15, 1⟩
def THM_ARM_LOOPMODE : Fld := ⟨0x03108, 0, 16⟩
def THM_ARM_SWMODE : Fld := ⟨0x03108, 16, 8⟩
def THM_ARM_SWPOL : Fld := ⟨0x03108, 24, 4⟩
def THM_SEL_LOOP : Fld := ⟨0x0310C, 0, 3⟩
def THM_LOOP_A_ALARM : Fld := ⟨0x03110, 0, 1⟩
def THM_LOOP_B_ALARM : Fld := ⟨0x03110, 1, 1⟩
def THM_LOOP_MODE : Fld := ⟨0x03110, 2, 2⟩
def THM_LOOP_R : Fld := ⟨0x03110, 16, 16⟩
def THM_CAL_R0 : Fld := ⟨0x03114, 0, 16⟩
def THM_LOG_SEL_AGE : Fld := ⟨0x03120, 0, 4⟩
def THM_LOG0_KIND : Fld := ⟨0x03124, 0, 3⟩
def THM_LOG0_UNIT : Fld := ⟨0x03124, 4, 3⟩
def THM_LOG0_DET_A : Fld := ⟨0x03124, 8, 1⟩
def THM_LOG0_DET_B : Fld := ⟨0x03124, 9, 1⟩
def THM_LOG0_MAINOFF : Fld := ⟨0x03124, 10, 1⟩
def THM_LOG0_KEY_ERASED : Fld := ⟨0x03124, 11, 1⟩
def THM_LOG0_VALID : Fld := ⟨0x03124, 31, 1⟩
def THM_LOG1_TIME : Fld := ⟨0x03128, 0, 32⟩
def THM_LOG2_TIME_HI : Fld := ⟨0x0312C, 0, 16⟩
def THM_LOG_CNT_COUNT : Fld := ⟨0x03130, 0, 5⟩
def THM_LOG_CNT_LOST : Fld := ⟨0x03130, 16, 16⟩
def THM_ERASE_KEY : Fld := ⟨0x03134, 0, 32⟩
def THM_VBAT_MV : Fld := ⟨0x03138, 0, 12⟩
def THM_EVT_ALARM : Fld := ⟨0x0313C, 0, 1⟩
def THM_EVT_BATT_LOW : Fld := ⟨0x0313C, 1, 1⟩
def THM_EVT_ARM_DONE : Fld := ⟨0x0313C, 2, 1⟩
def THM_EVT_DISAGREE : Fld := ⟨0x0313C, 3, 1⟩
def THM_EVT_XTAL : Fld := ⟨0x0313C, 4, 1⟩
def THM_DISAGREE_LOOP : Fld := ⟨0x03144, 0, 8⟩
def MON_STAT_RAIL_OK : Fld := ⟨0x04100, 0, 9⟩
def MON_STAT_CLK_OK : Fld := ⟨0x04100, 9, 1⟩
def MON_STAT_TEMP_OK : Fld := ⟨0x04100, 10, 1⟩
def MON_STAT_ARMED : Fld := ⟨0x04100, 16, 1⟩
def MON_TRIP_RAIL : Fld := ⟨0x04104, 0, 9⟩
def MON_TRIP_CLK : Fld := ⟨0x04104, 9, 1⟩
def MON_TRIP_TEMP : Fld := ⟨0x04104, 10, 1⟩
def MON_TRIP_GLITCH : Fld := ⟨0x04104, 11, 1⟩
def MON_DISAGREE_RAIL : Fld := ⟨0x04108, 0, 9⟩
def MON_DISAGREE_CLK : Fld := ⟨0x04108, 9, 1⟩
def MON_DISAGREE_TEMP : Fld := ⟨0x04108, 10, 1⟩
def MON_DISAGREE_GLITCH : Fld := ⟨0x04108, 11, 1⟩
def MON_SEL_RAIL : Fld := ⟨0x0410C, 0, 4⟩
def MON_RAIL_MV : Fld := ⟨0x04110, 0, 13⟩
def MON_RAIL_EXT_MIN : Fld := ⟨0x04114, 0, 13⟩
def MON_RAIL_EXT_MAX : Fld := ⟨0x04114, 16, 13⟩
def MON_FREQ_MHZ : Fld := ⟨0x04118, 0, 12⟩
def MON_FREQ_STEP : Fld := ⟨0x04118, 16, 3⟩
def MON_TEMP_DIODE : Fld := ⟨0x0411C, 0, 8⟩
def MON_TEMP_RING : Fld := ⟨0x0411C, 8, 8⟩
def MON_GREF_MV : Fld := ⟨0x04120, 0, 10⟩
def MON_GLITCH_CNT_N : Fld := ⟨0x04124, 0, 16⟩
def MON_EVT_TRIP : Fld := ⟨0x04128, 0, 1⟩
def MON_EVT_DISAGREE : Fld := ⟨0x04128, 1, 1⟩
def MON_EVT_ARMED : Fld := ⟨0x04128, 2, 1⟩
def FLS_STAT_READY : Fld := ⟨0x50100, 0, 1⟩
def FLS_STAT_BUSY : Fld := ⟨0x50100, 1, 2⟩
def FLS_STAT_SUSP : Fld := ⟨0x50100, 3, 2⟩
def FLS_STAT_WEAR : Fld := ⟨0x50100, 5, 1⟩
def FLS_CMD_OP : Fld := ⟨0x50104, 0, 4⟩
def FLS_CMD_GO : Fld := ⟨0x50104, 31, 1⟩
def FLS_ADDR_OFF : Fld := ⟨0x50108, 0, 28⟩
def FLS_SRC_ADDR : Fld := ⟨0x5010C, 0, 32⟩
def FLS_CMD_STAT_STATE : Fld := ⟨0x50110, 0, 2⟩
def FLS_CMD_STAT_ERR : Fld := ⟨0x50110, 8, 4⟩
def FLS_BANK_OP0 : Fld := ⟨0x50114, 0, 3⟩
def FLS_BANK_BLK0 : Fld := ⟨0x50114, 4, 12⟩
def FLS_BANK_OP1 : Fld := ⟨0x50114, 16, 3⟩
def FLS_BANK_BLK1 : Fld := ⟨0x50114, 20, 12⟩
def FLS_SEL_BLOCK : Fld := ⟨0x50118, 0, 12⟩
def FLS_BLKINFO_STATE : Fld := ⟨0x5011C, 0, 2⟩
def FLS_BLKINFO_PART : Fld := ⟨0x5011C, 4, 4⟩
def FLS_BLKINFO_ERASES : Fld := ⟨0x5011C, 12, 17⟩
def FLS_MAXERASE_COUNT : Fld := ⟨0x50120, 0, 17⟩
def FLS_MAXERASE_BLOCK : Fld := ⟨0x50120, 20, 12⟩
def FLS_INDET_N : Fld := ⟨0x50124, 0, 13⟩
def FLS_ECC_CE_N : Fld := ⟨0x50128, 0, 16⟩
def FLS_ECC_UE_N : Fld := ⟨0x5012C, 0, 16⟩
def FLS_XO_FIRST : Fld := ⟨0x50130, 0, 12⟩
def FLS_XO_LAST : Fld := ⟨0x50130, 16, 12⟩
def FLS_XO_EN : Fld := ⟨0x50130, 31, 1⟩
def FLS_RDST_POST : Fld := ⟨0x50134, 0, 32⟩
def FLS_EVT_CMD_DONE : Fld := ⟨0x50138, 0, 1⟩
def FLS_EVT_INDET : Fld := ⟨0x50138, 1, 1⟩
def FLS_EVT_ECC_UE : Fld := ⟨0x50138, 2, 1⟩
def FLS_EVT_WEAR : Fld := ⟨0x50138, 3, 1⟩
def FLS_EVT_SUSPENDED : Fld := ⟨0x50138, 4, 1⟩
def FLS_ERASE_CNT_N : Fld := ⟨0x50140, 0, 32⟩
def SIL_STAT_READY : Fld := ⟨0x51100, 0, 1⟩
def SIL_STAT_QUEUED : Fld := ⟨0x51100, 8, 5⟩
def SIL_STAT_FULL : Fld := ⟨0x51100, 16, 1⟩
def SIL_STAT_LIMIT : Fld := ⟨0x51100, 17, 1⟩
def SIL_SEL_REG : Fld := ⟨0x51104, 0, 9⟩
def SIL_CNT_N : Fld := ⟨0x51108, 0, 20⟩
def SIL_CNT_RO_LIMIT : Fld := ⟨0x51108, 31, 1⟩
def SIL_DROP_N : Fld := ⟨0x5110C, 0, 16⟩
def SIL_EVT_FULL : Fld := ⟨0x51110, 0, 1⟩
def SIL_EVT_LIMIT : Fld := ⟨0x51110, 1, 1⟩
def SIL_LIMIT_CNT_N : Fld := ⟨0x51118, 0, 10⟩
def SIL_REG0_VALUE : Fld := ⟨0x51800, 0, 32⟩
def OFC_STAT_READY : Fld := ⟨0x52100, 0, 1⟩
def OFC_STAT_STAGED : Fld := ⟨0x52100, 1, 1⟩
def OFC_STAT_CEREMONY : Fld := ⟨0x52100, 2, 1⟩
def OFC_STAT_BYPASS : Fld := ⟨0x52100, 3, 1⟩
def OFC_STAT_OFFICERS : Fld := ⟨0x52100, 8, 5⟩
def OFC_CTRL_REMOTE_MAX : Fld := ⟨0x52104, 0, 2⟩
def OFC_CTRL_DETPOL_A : Fld := ⟨0x52104, 8, 1⟩
def OFC_CTRL_DETPOL_B : Fld := ⟨0x52104, 9, 1⟩
def OFC_CTRL_TTL : Fld := ⟨0x52104, 16, 5⟩
def OFC_CLK_DIV : Fld := ⟨0x52108, 0, 4⟩
def OFC_SLOTA_STATE : Fld := ⟨0x5210C, 0, 3⟩
def OFC_SLOTA_KIND : Fld := ⟨0x5210C, 4, 2⟩
def OFC_SLOTA_OFFICER : Fld := ⟨0x5210C, 8, 5⟩
def OFC_SLOTA_ERR : Fld := ⟨0x5210C, 24, 8⟩
def OFC_SLOTB_STATE : Fld := ⟨0x52110, 0, 3⟩
def OFC_SLOTB_KIND : Fld := ⟨0x52110, 4, 2⟩
def OFC_SLOTB_OFFICER : Fld := ⟨0x52110, 8, 5⟩
def OFC_SLOTB_ERR : Fld := ⟨0x52110, 24, 8⟩
def OFC_GUARD_APPROVALS : Fld := ⟨0x52114, 0, 2⟩
def OFC_GUARD_CER_ENTRY : Fld := ⟨0x52114, 2, 1⟩
def OFC_GUARD_OFF1 : Fld := ⟨0x52114, 8, 5⟩
def OFC_GUARD_OFF2 : Fld := ⟨0x52114, 16, 5⟩
def OFC_GUARD_REM1 : Fld := ⟨0x52114, 24, 1⟩
def OFC_GUARD_REM2 : Fld := ⟨0x52114, 25, 1⟩
def OFC_OFF_SEL_OFFICER : Fld := ⟨0x52124, 0, 5⟩
def OFC_OFFICER_STATE : Fld := ⟨0x52128, 0, 2⟩
def OFC_OFFICER_ATTEMPTS : Fld := ⟨0x52128, 4, 2⟩
def OFC_OFFICER_REMOTE_OK : Fld := ⟨0x52128, 8, 1⟩
def OFC_CER_STATE : Fld := ⟨0x5212C, 0, 3⟩
def OFC_CER_NEXT : Fld := ⟨0x5212C, 8, 4⟩
def OFC_CER_DONE_CNT : Fld := ⟨0x5212C, 12, 4⟩
def OFC_CER_RETRY : Fld := ⟨0x5212C, 16, 8⟩
def OFC_ERR_INFO_OPCODE : Fld := ⟨0x52130, 0, 8⟩
def OFC_ERR_INFO_REASON : Fld := ⟨0x52130, 8, 8⟩
def OFC_EVT_INSERT : Fld := ⟨0x52134, 0, 1⟩
def OFC_EVT_REMOVE : Fld := ⟨0x52134, 1, 1⟩
def OFC_EVT_CARD_ERR : Fld := ⟨0x52134, 2, 1⟩
def OFC_EVT_LOCKED : Fld := ⟨0x52134, 3, 1⟩
def OFC_EVT_COMMIT : Fld := ⟨0x52134, 4, 1⟩
def OFC_EVT_EXPIRED : Fld := ⟨0x52134, 5, 1⟩
def OFC_EVT_CER_PROMPT : Fld := ⟨0x52134, 6, 1⟩
def LCY_STAT_STATE : Fld := ⟨0x01100, 0, 3⟩
def LCY_STAT_STAGE : Fld := ⟨0x01100, 4, 3⟩
def LCY_STAT_IMAGE : Fld := ⟨0x01100, 8, 1⟩
def LCY_STAT_FW_TRIAL : Fld := ⟨0x01100, 9, 1⟩
def LCY_STAT_RECOVERY : Fld := ⟨0x01100, 10, 1⟩
def LCY_STAT_STALLED : Fld := ⟨0x01100, 11, 1⟩
def LCY_STAT_ERASED : Fld := ⟨0x01100, 12, 1⟩
def LCY_STAT_EVAL : Fld := ⟨0x01100, 13, 1⟩
def LCY_CTRL_APPROVED : Fld := ⟨0x01104, 0, 1⟩
def LCY_CTRL_BOOTED : Fld := ⟨0x01104, 8, 1⟩
def LCY_REQ_TARGET : Fld := ⟨0x01108, 0, 3⟩
def LCY_POST_ROM : Fld := ⟨0x01124, 0, 1⟩
def LCY_POST_FUSE : Fld := ⟨0x01124, 1, 1⟩
def LCY_POST_PUF : Fld := ⟨0x01124, 2, 1⟩
def LCY_POST_RNG : Fld := ⟨0x01124, 3, 1⟩
def LCY_POST_VERIFIER : Fld := ⟨0x01124, 4, 1⟩
def LCY_POST_WAIT : Fld := ⟨0x01124, 16, 5⟩
def LCY_STAGE_STATE : Fld := ⟨0x01128, 0, 2⟩
def LCY_STAGE_REASON : Fld := ⟨0x01128, 8, 4⟩
def LCY_STAGE_PROGRESS : Fld := ⟨0x01128, 16, 16⟩
def LCY_EVT_FALLBACK : Fld := ⟨0x01150, 0, 1⟩
def LCY_EVT_STAGE_DONE : Fld := ⟨0x01150, 1, 1⟩
def LCY_EVT_STATE_CHANGE : Fld := ⟨0x01150, 2, 1⟩
def LCY_EVT_INFILL_LOST : Fld := ⟨0x01150, 3, 1⟩
def LCY_FUSE_FACTORY_DONE : Fld := ⟨0x01158, 0, 1⟩
def LCY_FUSE_TERM : Fld := ⟨0x01158, 1, 1⟩
def LCY_FUSE_DIAG : Fld := ⟨0x01158, 2, 1⟩
def LCY_FUSE_REVOKED : Fld := ⟨0x01158, 4, 2⟩
def HLK_CTRL_MAXSPEED : Fld := ⟨0x10100, 0, 3⟩
def HLK_CTRL_MAXWIDTH : Fld := ⟨0x10100, 4, 3⟩
def HLK_CTRL_RETRAIN : Fld := ⟨0x10100, 8, 1⟩
def HLK_LINK_SPEED : Fld := ⟨0x10104, 0, 3⟩
def HLK_LINK_WIDTH : Fld := ⟨0x10104, 4, 3⟩
def HLK_LINK_FLIT : Fld := ⟨0x10104, 8, 1⟩
def HLK_LINK_UP : Fld := ⟨0x10104, 9, 1⟩
def HLK_LINK_RETRAINS : Fld := ⟨0x10104, 16, 16⟩
def HLK_IDE_LINK : Fld := ⟨0x10108, 0, 1⟩
def HLK_IDE_SEL : Fld := ⟨0x10108, 8, 8⟩
def HLK_IDE_FAIL_STREAM : Fld := ⟨0x1010C, 0, 8⟩
def HLK_IDE_FAIL_SLICE : Fld := ⟨0x1010C, 8, 7⟩
def HLK_IDE_CNT_N : Fld := ⟨0x10110, 0, 16⟩
def HLK_SPDM_SESSIONS : Fld := ⟨0x10114, 0, 2⟩
def HLK_SPDM_SIGN : Fld := ⟨0x10114, 4, 1⟩
def HLK_SPDM_VERSION : Fld := ⟨0x10114, 8, 8⟩
def HLK_AER_CNT_UNCORR : Fld := ⟨0x10118, 0, 16⟩
def HLK_AER_CNT_CORR : Fld := ⟨0x10118, 16, 16⟩
def HLK_RST_CAUSE : Fld := ⟨0x1011C, 0, 4⟩
def HLK_RST_VF_FLR : Fld := ⟨0x1011C, 16, 16⟩
def HLK_SMB_ADDR : Fld := ⟨0x10120, 0, 7⟩
def HLK_EVT_LINK : Fld := ⟨0x10124, 0, 1⟩
def HLK_EVT_IDE_FAIL : Fld := ⟨0x10124, 1, 1⟩
def HLK_EVT_AER : Fld := ⟨0x10124, 2, 1⟩
def HLK_EVT_FLR : Fld := ⟨0x10124, 3, 1⟩
def HLK_EVT_HOT_RESET : Fld := ⟨0x10124, 4, 1⟩
def WER_STAT_READY : Fld := ⟨0x53100, 0, 1⟩
def WER_STAT_BAT_NEW : Fld := ⟨0x53100, 1, 1⟩
def WER_STAT_CEILING : Fld := ⟨0x53100, 2, 1⟩
def WER_STAT_WARN : Fld := ⟨0x53100, 8, 6⟩
def WER_STAT_PRED : Fld := ⟨0x53100, 16, 6⟩
def WER_STAT_EOL : Fld := ⟨0x53100, 24, 6⟩
def WER_CTRL_HORIZON : Fld := ⟨0x53104, 0, 5⟩
def WER_CTRL_BATCAP : Fld := ⟨0x53104, 16, 16⟩
def WER_SEL_IND : Fld := ⟨0x53108, 0, 3⟩
def WER_USE_U : Fld := ⟨0x5310C, 0, 32⟩
def WER_LIMIT_LIM : Fld := ⟨0x53110, 0, 32⟩
def WER_PRED_P : Fld := ⟨0x53114, 0, 32⟩
def WER_BATT_HOURS : Fld := ⟨0x53118, 0, 16⟩
def WER_BATT_DAYS : Fld := ⟨0x53118, 16, 16⟩
def WER_AGE_SLOW : Fld := ⟨0x5311C, 0, 12⟩
def WER_SAMPLES_N : Fld := ⟨0x53120, 0, 32⟩
def WER_EVT_WARN : Fld := ⟨0x53124, 0, 1⟩
def WER_EVT_CHECKPOINT_FAIL : Fld := ⟨0x53124, 1, 1⟩
def WER_EVT_BAT_NEW : Fld := ⟨0x53124, 2, 1⟩

end Sys2Proof.Machine.Reg
end

