-- ==== Sys2Proof/Machine/RegMap.lean ====
section
/-!
DEFINITION. The register table: for each register word its offset in the page, its reset value and which of its bits
carry each access code (25_register_map R486), read from the register tables of the chapters. Bits in no mask are RO
or reserved. The words of a post's block and of a firmware channel's block stand once, at the first block.
-/
namespace Sys2Proof.Machine
open Sys2Proof

/-- The `LCY_` page, 0x001 (R450): offset, reset, RW bits, W1C bits, RC bits, GW bits. -/
def regRowsLCY : List RegRow :=
  [⟨0x100, 0x00000001, 0x0, 0x0, 0x0, 0x0⟩,
   ⟨0x104, 0x00000000, 0x100, 0x0, 0x0, 0x1⟩,
   ⟨0x108, 0x00000000, 0x0, 0x0, 0x0, 0x7⟩,
   ⟨0x10C, 0x00000000, 0x0, 0x0, 0x0, 0x0⟩,
   ⟨0x110, 0x00000000, 0x0, 0x0, 0x0, 0x0⟩,
   ⟨0x114, 0x00000000, 0x0, 0x0, 0x0, 0x0⟩,
   ⟨0x118, 0x00000000, 0x0, 0x0, 0x0, 0x0⟩,
   ⟨0x11C, 0x00000000, 0x0, 0x0, 0x0, 0x0⟩,
   ⟨0x120, 0x00000000, 0x0, 0x0, 0x0, 0x0⟩,
   ⟨0x124, 0x00000000, 0x0, 0x0, 0x0, 0x0⟩,
   ⟨0x128, 0x00000000, 0x0, 0x0, 0x0, 0x0⟩,
   ⟨0x12C, 0x00000000, 0x0, 0x0, 0x0, 0x0⟩,
   ⟨0x130, 0x00000000, 0x0, 0x0, 0x0, 0xFFFFFFFF⟩,
   ⟨0x134, 0x00000000, 0x0, 0x0, 0x0, 0xFFFFFFFF⟩,
   ⟨0x138, 0x00000000, 0x0, 0x0, 0x0, 0xFFFFFFFF⟩,
   ⟨0x13C, 0x00000000, 0x0, 0x0, 0x0, 0xFFFFFFFF⟩,
   ⟨0x140, 0x00000000, 0x0, 0x0, 0x0, 0xFFFFFFFF⟩,
   ⟨0x144, 0x00000000, 0x0, 0x0, 0x0, 0xFFFFFFFF⟩,
   ⟨0x148, 0x00000000, 0x0, 0x0, 0x0, 0xFFFFFFFF⟩,
   ⟨0x14C, 0x00000000, 0x0, 0x0, 0x0, 0xFFFFFFFF⟩,
   ⟨0x150, 0x00000000, 0x0, 0xF, 0x0, 0x0⟩,
   ⟨0x154, 0x00000000, 0xF, 0x0, 0x0, 0x0⟩,
   ⟨0x158, 0x00000000, 0x0, 0x0, 0x0, 0x0⟩]

/-- The `FCL_` page, 0x002 (R381): offset, reset, RW bits, W1C bits, RC bits, GW bits. -/
def regRowsFCL : List RegRow :=
  [⟨0x100, 0x00000000, 0x0, 0x0, 0x0, 0x1⟩,
   ⟨0x104, 0x00000018, 0x0, 0x22, 0x0, 0x0⟩,
   ⟨0x108, 0x00000000, 0x1FF, 0x0, 0x0, 0x0⟩,
   ⟨0x10C, 0x00000000, 0x0, 0x0, 0x0, 0x1F⟩,
   ⟨0x110, 0x00000000, 0x7FF, 0x0, 0x0, 0x0⟩,
   ⟨0x114, 0x00000000, 0x0, 0x0, 0x0, 0x0⟩,
   ⟨0x118, 0x00000000, 0x0, 0x0, 0xFFFF, 0x0⟩,
   ⟨0x11C, 0x00000000, 0x0, 0x0, 0xFFFF, 0x0⟩,
   ⟨0x120, 0x00000000, 0x0, 0x0, 0x0, 0x0⟩,
   ⟨0x124, 0x00000000, 0x3F, 0x0, 0x0, 0x0⟩,
   ⟨0x128, 0x00000000, 0x0, 0x0, 0x0, 0x0⟩,
   ⟨0x12C, 0x00000000, 0x0, 0x7, 0x0, 0x0⟩,
   ⟨0x130, 0x00000000, 0x7, 0x0, 0x0, 0x0⟩,
   ⟨0x134, 0x00000000, 0x0, 0x0, 0x0, 0x0⟩,
   ⟨0x140, 0x00000000, 0x0, 0xFFFFFFFF, 0x0, 0x0⟩,
   ⟨0x144, 0x00000000, 0x0, 0xFFFFFFFF, 0x0, 0x0⟩,
   ⟨0x148, 0x00000000, 0x0, 0xFFFFFFFF, 0x0, 0x0⟩,
   ⟨0x14C, 0x00000000, 0x0, 0xFFFFFFFF, 0x0, 0x0⟩,
   ⟨0x150, 0x00000000, 0x0, 0xFFFFFFFF, 0x0, 0x0⟩,
   ⟨0x154, 0x00000000, 0x0, 0xFFFFFFFF, 0x0, 0x0⟩,
   ⟨0x158, 0x00000000, 0x0, 0xFFFFFFFF, 0x0, 0x0⟩,
   ⟨0x15C, 0x00000000, 0x0, 0xFFFFFFFF, 0x0, 0x0⟩,
   ⟨0x160, 0x00000000, 0x0, 0xFFFFFFFF, 0x0, 0x0⟩,
   ⟨0x164, 0x00000000, 0x0, 0xFFFFFFFF, 0x0, 0x0⟩] ++
  [⟨0x168, 0x00000000, 0x0, 0xFFFFFFFF, 0x0, 0x0⟩,
   ⟨0x16C, 0x00000000, 0x0, 0xFFFFFFFF, 0x0, 0x0⟩,
   ⟨0x170, 0x00000000, 0x0, 0xFFFFFFFF, 0x0, 0x0⟩,
   ⟨0x174, 0x00000000, 0x0, 0xFFFFFFFF, 0x0, 0x0⟩,
   ⟨0x178, 0x00000000, 0x0, 0xFFFFFFFF, 0x0, 0x0⟩,
   ⟨0x17C, 0x00000000, 0x0, 0xFFFFFFFF, 0x0, 0x0⟩]

/-- The `THM_` page, 0x003 (R398): offset, reset, RW bits, W1C bits, RC bits, GW bits. -/
def regRowsTHM : List RegRow :=
  [⟨0x100, 0x00000002, 0x0, 0x0, 0x0, 0x0⟩,
   ⟨0x104, 0x00001000, 0x0, 0x0, 0x0, 0x0⟩,
   ⟨0x108, 0x00000000, 0x0, 0x0, 0x0, 0xFFFFFFF⟩,
   ⟨0x10C, 0x00000000, 0x7, 0x0, 0x0, 0x0⟩,
   ⟨0x110, 0x00000000, 0x0, 0x0, 0x0, 0x0⟩,
   ⟨0x114, 0x00000000, 0x0, 0x0, 0x0, 0x0⟩,
   ⟨0x118, 0x00000000, 0x0, 0x0, 0x0, 0x0⟩,
   ⟨0x11C, 0x00000000, 0x0, 0x0, 0x0, 0x0⟩,
   ⟨0x120, 0x00000000, 0xF, 0x0, 0x0, 0x0⟩,
   ⟨0x124, 0x00000000, 0x0, 0x0, 0x0, 0x0⟩,
   ⟨0x128, 0x00000000, 0x0, 0x0, 0x0, 0x0⟩,
   ⟨0x12C, 0x00000000, 0x0, 0x0, 0x0, 0x0⟩,
   ⟨0x130, 0x00000000, 0x0, 0x0, 0x0, 0x0⟩,
   ⟨0x134, 0x00000000, 0x0, 0x0, 0x0, 0xFFFFFFFF⟩,
   ⟨0x138, 0x00000000, 0x0, 0x0, 0x0, 0x0⟩,
   ⟨0x13C, 0x00000000, 0x0, 0x1F, 0x0, 0x0⟩,
   ⟨0x140, 0x00000000, 0x1F, 0x0, 0x0, 0x0⟩,
   ⟨0x144, 0x00000000, 0x0, 0x0, 0x0, 0x0⟩]

/-- The `MON_` page, 0x004 (R399): offset, reset, RW bits, W1C bits, RC bits, GW bits. -/
def regRowsMON : List RegRow :=
  [⟨0x100, 0x00000000, 0x0, 0x0, 0x0, 0x0⟩,
   ⟨0x104, 0x00000000, 0x0, 0xFFF, 0x0, 0x0⟩,
   ⟨0x108, 0x00000000, 0x0, 0xFFF, 0x0, 0x0⟩,
   ⟨0x10C, 0x00000000, 0xF, 0x0, 0x0, 0x0⟩,
   ⟨0x110, 0x00000000, 0x0, 0x0, 0x0, 0x0⟩,
   ⟨0x114, 0x00000000, 0x0, 0x0, 0x0, 0x0⟩,
   ⟨0x118, 0x00000000, 0x0, 0x0, 0x0, 0x0⟩,
   ⟨0x11C, 0x00000000, 0x0, 0x0, 0x0, 0x0⟩,
   ⟨0x120, 0x00000000, 0x0, 0x0, 0x0, 0x0⟩,
   ⟨0x124, 0x00000000, 0x0, 0x0, 0xFFFF, 0x0⟩,
   ⟨0x128, 0x00000000, 0x0, 0x7, 0x0, 0x0⟩,
   ⟨0x12C, 0x00000000, 0x7, 0x0, 0x0, 0x0⟩]

/-- The `GOV_` page, 0x005 (R55): offset, reset, RW bits, W1C bits, RC bits, GW bits. -/
def regRowsGOV : List RegRow :=
  [⟨0x100, 0x00000004, 0x7, 0x0, 0x0, 0x0⟩,
   ⟨0x104, 0x00000000, 0x0, 0x100, 0x0, 0x0⟩,
   ⟨0x108, 0x00675C64, 0xFFFFFF, 0x0, 0x0, 0x0⟩,
   ⟨0x10C, 0x000002C6, 0x3FF, 0x0, 0x0, 0x0⟩,
   ⟨0x110, 0x00000000, 0x0, 0x0, 0x0, 0x0⟩,
   ⟨0x114, 0x00000014, 0x1F, 0x0, 0x0, 0x0⟩,
   ⟨0x118, 0x00000000, 0x0, 0x0, 0x0, 0x0⟩,
   ⟨0x11C, 0x00000000, 0x0, 0x0, 0x0, 0x0⟩]

/-- The `TIK_` page, 0x006 (R54): offset, reset, RW bits, W1C bits, RC bits, GW bits. -/
def regRowsTIK : List RegRow :=
  [⟨0x100, 0x00000C00, 0x0, 0x0, 0x0, 0x1F01⟩,
   ⟨0x104, 0x00000000, 0x0, 0x0, 0x0, 0x0⟩,
   ⟨0x108, 0x00000000, 0x0, 0x0, 0x0, 0x0⟩,
   ⟨0x10C, 0x00000000, 0x0, 0x0, 0x0, 0x0⟩,
   ⟨0x110, 0x00000000, 0x0, 0x0, 0x0, 0x0⟩,
   ⟨0x114, 0x00000B40, 0x0, 0x0, 0x0, 0x0⟩,
   ⟨0x118, 0x1E4E8080, 0x0, 0x0, 0x0, 0x0⟩,
   ⟨0x11C, 0x00000000, 0x0, 0x0, 0xFFFFFFFF, 0x0⟩,
   ⟨0x120, 0x00000000, 0x0, 0x0, 0xFFFFFFFF, 0x0⟩,
   ⟨0x124, 0x00000000, 0x0, 0x0, 0xFFFFFFFF, 0x0⟩,
   ⟨0x128, 0x00000000, 0x0, 0x0, 0x0, 0x0⟩,
   ⟨0x12C, 0x00000000, 0x0, 0x1F, 0x0, 0x0⟩,
   ⟨0x130, 0x00000000, 0x1F, 0x0, 0x0, 0x0⟩]

/-- The `HLK_` page, 0x010 (R464): offset, reset, RW bits, W1C bits, RC bits, GW bits. -/
def regRowsHLK : List RegRow :=
  [⟨0x100, 0x00000045, 0x177, 0x0, 0x0, 0x0⟩,
   ⟨0x104, 0x00000000, 0x0, 0x0, 0x0, 0x0⟩,
   ⟨0x108, 0x00000000, 0x0, 0x0, 0x0, 0x0⟩,
   ⟨0x10C, 0x00000000, 0x0, 0x0, 0x0, 0x0⟩,
   ⟨0x110, 0x00000000, 0x0, 0x0, 0xFFFF, 0x0⟩,
   ⟨0x114, 0x00000000, 0x0, 0x0, 0x0, 0x0⟩,
   ⟨0x118, 0x00000000, 0x0, 0x0, 0xFFFFFFFF, 0x0⟩,
   ⟨0x11C, 0x00000000, 0x0, 0x0, 0x0, 0x0⟩,
   ⟨0x120, 0x0000005A, 0x0, 0x0, 0x0, 0x0⟩,
   ⟨0x124, 0x00000000, 0x0, 0x1F, 0x0, 0x0⟩,
   ⟨0x128, 0x00000000, 0x1F, 0x0, 0x0, 0x0⟩]

/-- The `HQ_` page, 0x011 (R85): offset, reset, RW bits, W1C bits, RC bits, GW bits. -/
def regRowsHQ : List RegRow :=
  [⟨0x100, 0x00000000, 0x3, 0x0, 0x0, 0x0⟩,
   ⟨0x104, 0x00000000, 0x0, 0x0, 0x0, 0x0⟩,
   ⟨0x108, 0x00000040, 0x1FF, 0x0, 0x0, 0x0⟩,
   ⟨0x10C, 0x00000000, 0x0, 0x0, 0x0, 0x0⟩,
   ⟨0x110, 0x00000000, 0x0, 0x0, 0x0, 0x0⟩,
   ⟨0x114, 0x00000000, 0x0, 0x0, 0xFFFFFFFF, 0x0⟩,
   ⟨0x118, 0x00000000, 0x0, 0x0, 0xFFFFFFFF, 0x0⟩,
   ⟨0x11C, 0x00000000, 0x0, 0x0, 0xFFFFFFFF, 0x0⟩,
   ⟨0x120, 0x00000000, 0x0, 0x0, 0x0, 0x0⟩,
   ⟨0x124, 0x00000000, 0x0, 0x0, 0x0, 0x0⟩,
   ⟨0x128, 0x00000000, 0x0, 0xF, 0x0, 0x0⟩,
   ⟨0x12C, 0x00000000, 0xF, 0x0, 0x0, 0x0⟩,
   ⟨0x130, 0x00000000, 0xFFF, 0x0, 0x0, 0x0⟩,
   ⟨0x134, 0x00000000, 0x0, 0x0, 0x0, 0x0⟩,
   ⟨0x138, 0x00000000, 0x0, 0x0, 0x0, 0x0⟩,
   ⟨0x13C, 0x00000000, 0x0, 0x0, 0x0, 0x0⟩]

/-- The `SLC_` page, 0x012 (R308): offset, reset, RW bits, W1C bits, RC bits, GW bits. -/
def regRowsSLC : List RegRow :=
  [⟨0x100, 0x00000000, 0x0, 0x0, 0x0, 0x0⟩,
   ⟨0x104, 0x00000000, 0x1F7F, 0x0, 0x0, 0x0⟩,
   ⟨0x108, 0x00000000, 0x0, 0x0, 0x0, 0x0⟩,
   ⟨0x10C, 0x00000000, 0x0, 0x0, 0x0, 0x0⟩,
   ⟨0x110, 0x00000000, 0x0, 0x0, 0x0, 0x0⟩,
   ⟨0x114, 0x00000000, 0x0, 0x0, 0x0, 0x0⟩,
   ⟨0x118, 0x00000000, 0x0, 0x0, 0x0, 0x0⟩,
   ⟨0x11C, 0x00000000, 0x0, 0x0, 0x0, 0x0⟩,
   ⟨0x120, 0x00000000, 0x0, 0x0, 0x0, 0x0⟩,
   ⟨0x124, 0x00000000, 0x0, 0x0, 0x0, 0x0⟩,
   ⟨0x128, 0x00000000, 0x0, 0x0, 0x0, 0x0⟩,
   ⟨0x12C, 0x00000000, 0x0, 0x0, 0x0, 0x0⟩,
   ⟨0x130, 0x00000000, 0x0, 0x0, 0x0, 0x0⟩,
   ⟨0x134, 0x00000000, 0x0, 0x0, 0x0, 0x0⟩,
   ⟨0x138, 0x00000000, 0x0, 0x0, 0x0, 0x0⟩,
   ⟨0x13C, 0x00000000, 0x0, 0x0, 0x0, 0x0⟩,
   ⟨0x140, 0x00000000, 0x0, 0x0, 0x0, 0x0⟩,
   ⟨0x144, 0x00000000, 0x0, 0x0, 0x0, 0x0⟩,
   ⟨0x148, 0x00000000, 0x0, 0x0, 0x0, 0x0⟩,
   ⟨0x14C, 0x00000000, 0x0, 0x0, 0x0, 0x0⟩,
   ⟨0x150, 0x00000000, 0x0, 0x0, 0x0, 0x0⟩,
   ⟨0x154, 0x00000000, 0x0, 0x3F, 0x0, 0x0⟩,
   ⟨0x158, 0x00000000, 0x3F, 0x0, 0x0, 0x0⟩]

/-- The `NDL_` page, 0x020 (R142): offset, reset, RW bits, W1C bits, RC bits, GW bits. -/
def regRowsNDL : List RegRow :=
  [⟨0x100, 0x00000000, 0x0, 0x0, 0x0, 0x0⟩,
   ⟨0x104, 0x00000000, 0x0, 0x0, 0x0, 0x0⟩,
   ⟨0x108, 0x00000000, 0x0, 0xFFFFFF, 0x0, 0x0⟩,
   ⟨0x10C, 0x00000000, 0x0, 0xFFFFFF, 0x0, 0x0⟩,
   ⟨0x110, 0x00000000, 0x0, 0x0, 0x0, 0x0⟩,
   ⟨0x114, 0x00000000, 0x0, 0x0, 0x0, 0x0⟩,
   ⟨0x118, 0x00000000, 0x0, 0x0, 0x0, 0x0⟩,
   ⟨0x11C, 0x00000000, 0x0, 0x0, 0x0, 0x0⟩,
   ⟨0x120, 0x00000000, 0x0, 0x0, 0x0, 0x0⟩,
   ⟨0x124, 0x00000000, 0x0, 0x0, 0x0, 0x0⟩,
   ⟨0x128, 0x00000000, 0x0, 0x0, 0xFFFFFFFF, 0x0⟩,
   ⟨0x12C, 0x00000000, 0x0, 0x0, 0x0, 0x0⟩,
   ⟨0x130, 0x00000000, 0x0, 0x1F, 0x0, 0x0⟩,
   ⟨0x134, 0x00000000, 0x1F, 0x0, 0x0, 0x0⟩]

/-- The `LDU_` page, 0x021 (R143): offset, reset, RW bits, W1C bits, RC bits, GW bits. -/
def regRowsLDU : List RegRow :=
  [⟨0x100, 0x00000000, 0x0, 0x0, 0x0, 0x1⟩,
   ⟨0x104, 0x00000000, 0x0, 0x0, 0x0, 0x0⟩,
   ⟨0x108, 0x00000000, 0x0, 0xFF, 0x0, 0x0⟩,
   ⟨0x10C, 0x00000000, 0x0, 0xFF, 0x0, 0x0⟩,
   ⟨0x110, 0x00000000, 0x0, 0x0, 0x0, 0x0⟩,
   ⟨0x114, 0x00000000, 0x0, 0x0, 0x0, 0x0⟩,
   ⟨0x118, 0x00000000, 0x0, 0x7, 0x0, 0x0⟩,
   ⟨0x11C, 0x00000000, 0x7, 0x0, 0x0, 0x0⟩]

/-- The `KST_` page, 0x022 (R167): offset, reset, RW bits, W1C bits, RC bits, GW bits. -/
def regRowsKST : List RegRow :=
  [⟨0x100, 0x00000000, 0x0, 0x0, 0x0, 0x0⟩,
   ⟨0x104, 0x00003F00, 0x0, 0x0, 0x0, 0x0⟩,
   ⟨0x108, 0x00000000, 0x0, 0x0, 0x0, 0x0⟩,
   ⟨0x10C, 0x00000000, 0x0, 0x0, 0x0, 0x0⟩,
   ⟨0x110, 0x00000000, 0x0, 0x0, 0x0, 0x0⟩,
   ⟨0x114, 0x00000000, 0x0, 0x0, 0x0, 0x0⟩,
   ⟨0x118, 0x00000000, 0x0, 0x0, 0xFFFF, 0x0⟩,
   ⟨0x11C, 0x00000100, 0x3FFF, 0x0, 0x0, 0x0⟩,
   ⟨0x120, 0x00000000, 0x0, 0x0, 0x0, 0x0⟩,
   ⟨0x124, 0x00000000, 0x0, 0x0, 0x0, 0x0⟩,
   ⟨0x128, 0x00000000, 0x0, 0x0, 0x0, 0x0⟩,
   ⟨0x12C, 0x00000000, 0x0, 0x0, 0x0, 0x0⟩,
   ⟨0x130, 0x00000000, 0x0, 0x0, 0x0, 0x0⟩,
   ⟨0x134, 0x00000000, 0x0, 0xF, 0x0, 0x0⟩,
   ⟨0x138, 0x00000000, 0xF, 0x0, 0x0, 0x0⟩]

/-- The `PUR_` page, 0x023 (R252): offset, reset, RW bits, W1C bits, RC bits, GW bits. -/
def regRowsPUR : List RegRow :=
  [⟨0x100, 0x00000000, 0x0, 0x0, 0x0, 0x0⟩,
   ⟨0x104, 0x00000000, 0x0, 0xFF, 0x0, 0x0⟩,
   ⟨0x108, 0x00000000, 0x0, 0xFF, 0x0, 0x0⟩,
   ⟨0x10C, 0x00000000, 0x0, 0xFF, 0x0, 0x0⟩,
   ⟨0x110, 0x00000000, 0x7, 0x0, 0x0, 0x0⟩,
   ⟨0x114, 0x00000000, 0x0, 0x0, 0x0, 0x0⟩,
   ⟨0x118, 0x00000000, 0x0, 0x0, 0x0, 0x0⟩,
   ⟨0x11C, 0x00000000, 0x0, 0x0, 0x0, 0x0⟩,
   ⟨0x120, 0x00000000, 0x0, 0xF, 0x0, 0x0⟩,
   ⟨0x124, 0x00000000, 0xF, 0x0, 0x0, 0x0⟩]

/-- The `HSH_` page, 0x024 (R253): offset, reset, RW bits, W1C bits, RC bits, GW bits. -/
def regRowsHSH : List RegRow :=
  [⟨0x100, 0x00000000, 0x0, 0x0, 0x0, 0x0⟩,
   ⟨0x104, 0x00000000, 0x0, 0xFF, 0x0, 0x0⟩,
   ⟨0x108, 0x00000000, 0x0, 0xFF, 0x0, 0x0⟩,
   ⟨0x10C, 0x00000000, 0x7, 0x0, 0x0, 0x0⟩,
   ⟨0x110, 0x00000000, 0x0, 0x0, 0x0, 0x0⟩,
   ⟨0x114, 0x00000000, 0x0, 0x0, 0x0, 0x0⟩,
   ⟨0x118, 0x00000000, 0x0, 0x0, 0x0, 0x0⟩,
   ⟨0x11C, 0x00000000, 0x0, 0x3, 0x0, 0x0⟩,
   ⟨0x120, 0x00000000, 0x3, 0x0, 0x0, 0x0⟩]

/-- The `LMS_` page, 0x025 (R254): offset, reset, RW bits, W1C bits, RC bits, GW bits. -/
def regRowsLMS : List RegRow :=
  [⟨0x100, 0x00000000, 0x0, 0x0, 0x0, 0x0⟩,
   ⟨0x104, 0x00000000, 0x80007F3F, 0x0, 0x0, 0x0⟩,
   ⟨0x108, 0x00000000, 0xFFFFFFFF, 0x0, 0x0, 0x0⟩,
   ⟨0x10C, 0x00000000, 0xFFFFFFFF, 0x0, 0x0, 0x0⟩,
   ⟨0x110, 0x00000000, 0x0, 0x0, 0x0, 0x0⟩,
   ⟨0x114, 0x00000000, 0xFFFFFFFF, 0x0, 0x0, 0x0⟩,
   ⟨0x118, 0x00000000, 0x1F, 0x0, 0x0, 0x0⟩,
   ⟨0x11C, 0x00000000, 0x0, 0x0, 0x0, 0x0⟩,
   ⟨0x120, 0x00000000, 0x0, 0x0, 0x0, 0x0⟩,
   ⟨0x124, 0x00000000, 0x0, 0x0, 0x0, 0x0⟩,
   ⟨0x128, 0x00000000, 0x0, 0x0, 0x0, 0x0⟩,
   ⟨0x12C, 0x00000000, 0x0, 0x0, 0x0, 0x0⟩,
   ⟨0x130, 0x00000000, 0x0, 0x0, 0x0, 0x0⟩,
   ⟨0x134, 0x00000000, 0x0, 0x0, 0xFF, 0x0⟩,
   ⟨0x138, 0x00000000, 0x3FF, 0x0, 0x0, 0x0⟩,
   ⟨0x13C, 0x00000000, 0x0, 0x0, 0x0, 0x0⟩,
   ⟨0x140, 0x00000000, 0x0, 0xF, 0x0, 0x0⟩,
   ⟨0x144, 0x00000000, 0xF, 0x0, 0x0, 0x0⟩]

/-- The `RNG_` page, 0x026 (R267): offset, reset, RW bits, W1C bits, RC bits, GW bits. -/
def regRowsRNG : List RegRow :=
  [⟨0x100, 0x00000006, 0x0, 0x0, 0x0, 0x0⟩,
   ⟨0x104, 0x00000000, 0x0, 0x0, 0x0, 0x0⟩,
   ⟨0x108, 0x00000000, 0x0, 0x0, 0x0, 0x0⟩,
   ⟨0x10C, 0x00000000, 0x0, 0x0, 0x0, 0x0⟩,
   ⟨0x110, 0x00000000, 0x3, 0x0, 0x0, 0x0⟩,
   ⟨0x114, 0x00000000, 0x0, 0x0, 0x0, 0x0⟩,
   ⟨0x118, 0x00000000, 0x0, 0x0, 0x0, 0x0⟩,
   ⟨0x11C, 0x00000000, 0x0, 0x0, 0x0, 0x0⟩,
   ⟨0x120, 0x00000000, 0x0, 0x0, 0x0, 0x0⟩,
   ⟨0x124, 0x00000000, 0x0, 0x0, 0xFFFF, 0x0⟩,
   ⟨0x128, 0x00000000, 0x103, 0x0, 0x0, 0x0⟩,
   ⟨0x12C, 0x00000000, 0x0, 0x0, 0x0, 0x0⟩,
   ⟨0x130, 0x00000000, 0x0, 0x7, 0x0, 0x0⟩,
   ⟨0x134, 0x00000000, 0x7, 0x0, 0x0, 0x0⟩]

/-- The `VLT_` page, 0x030 (R210): offset, reset, RW bits, W1C bits, RC bits, GW bits. -/
def regRowsVLT : List RegRow :=
  [⟨0x100, 0x00000000, 0x0, 0x0, 0x0, 0x0⟩,
   ⟨0x104, 0x00000000, 0x0, 0x0, 0x0, 0x0⟩,
   ⟨0x108, 0x00000000, 0x0, 0x0, 0x0, 0x0⟩,
   ⟨0x10C, 0x00000000, 0x0, 0x0, 0x0, 0x0⟩,
   ⟨0x110, 0x00000000, 0x0, 0x0, 0x0, 0x0⟩,
   ⟨0x114, 0x00000000, 0x0, 0x0, 0x0, 0x0⟩,
   ⟨0x118, 0x00000000, 0x0, 0x0, 0x0, 0x0⟩,
   ⟨0x11C, 0x00000000, 0x0, 0x0, 0x0, 0x17F⟩,
   ⟨0x120, 0x00000000, 0xFF, 0x0, 0x0, 0x0⟩,
   ⟨0x124, 0x00000000, 0xFFFFF000, 0x0, 0x0, 0x0⟩,
   ⟨0x128, 0x00000000, 0xFFFFFFFF, 0x0, 0x0, 0x0⟩,
   ⟨0x12C, 0x00000008, 0x11F, 0x0, 0x0, 0x0⟩,
   ⟨0x130, 0x00000000, 0xFFFFFF, 0x0, 0x0, 0x0⟩,
   ⟨0x134, 0x00000000, 0x0, 0x0, 0x0, 0x0⟩,
   ⟨0x138, 0x00000000, 0x0, 0x0, 0x0, 0x0⟩,
   ⟨0x13C, 0x00000000, 0x0, 0x0, 0x0, 0x0⟩,
   ⟨0x140, 0x00000000, 0x0, 0x0, 0x0, 0x0⟩,
   ⟨0x144, 0x00000000, 0x0, 0x0, 0x0, 0x0⟩,
   ⟨0x148, 0x00000000, 0x0, 0x0, 0xFFFF, 0x0⟩,
   ⟨0x14C, 0x00000000, 0x0, 0x0, 0x0, 0x0⟩,
   ⟨0x150, 0x00000000, 0x0, 0x0, 0x0, 0x0⟩,
   ⟨0x154, 0x00000000, 0x0, 0x7F, 0x0, 0x0⟩,
   ⟨0x158, 0x00000000, 0x7F, 0x0, 0x0, 0x0⟩,
   ⟨0x15C, 0x00000000, 0x0, 0x0, 0x0, 0x0⟩] ++
  [⟨0x160, 0x00000000, 0x0, 0x0, 0x0, 0x0⟩]

/-- The `DDR_` page, 0x031 (R209): offset, reset, RW bits, W1C bits, RC bits, GW bits. -/
def regRowsDDR : List RegRow :=
  [⟨0x100, 0x00000000, 0x0, 0x0, 0x0, 0x0⟩,
   ⟨0x104, 0x00000004, 0x7, 0x0, 0x0, 0x0⟩,
   ⟨0x108, 0x00000000, 0x0, 0x0, 0x0, 0x0⟩,
   ⟨0x10C, 0x00000000, 0x0, 0x0, 0x0, 0x0⟩,
   ⟨0x110, 0x00000000, 0x0, 0x0, 0xFFFFFFFF, 0x0⟩,
   ⟨0x114, 0x00000000, 0x0, 0x0, 0xFFFFFFFF, 0x0⟩,
   ⟨0x118, 0x00000000, 0x0, 0x0, 0xFFFFFFFF, 0x0⟩,
   ⟨0x11C, 0x00000000, 0x0, 0x0, 0xFFFFFFFF, 0x0⟩,
   ⟨0x120, 0x00000000, 0x0, 0x0, 0xFFFF, 0x0⟩,
   ⟨0x124, 0x00000000, 0x0, 0x0, 0xFFFF, 0x0⟩,
   ⟨0x128, 0x00000000, 0x0, 0x0, 0xFFFF, 0x0⟩,
   ⟨0x12C, 0x00000000, 0x0, 0x0, 0xFFFF, 0x0⟩,
   ⟨0x130, 0x00000000, 0x0, 0x0, 0x0, 0x0⟩,
   ⟨0x134, 0x00000000, 0x0, 0xF, 0x0, 0x0⟩,
   ⟨0x138, 0x00000000, 0xF, 0x0, 0x0, 0x0⟩]

/-- The `SHT_` page, 0x040 (R285): offset, reset, RW bits, W1C bits, RC bits, GW bits. -/
def regRowsSHT : List RegRow :=
  [⟨0x100, 0x00000000, 0x0, 0x0, 0x0, 0x0⟩,
   ⟨0x104, 0x00000000, 0x107, 0x0, 0x0, 0x0⟩,
   ⟨0x108, 0x00000000, 0x0, 0x0, 0x0, 0x0⟩,
   ⟨0x10C, 0x00000000, 0x0, 0x0, 0x0, 0x0⟩,
   ⟨0x110, 0x00000000, 0x0, 0x0, 0xFFFF, 0x0⟩,
   ⟨0x114, 0x00000000, 0x0, 0x0, 0xFFFF, 0x0⟩,
   ⟨0x118, 0x00000000, 0x0, 0x0, 0x0, 0x0⟩,
   ⟨0x11C, 0x00000000, 0x0, 0x0, 0x0, 0x0⟩,
   ⟨0x120, 0x00000000, 0x0, 0xF, 0x0, 0x0⟩,
   ⟨0x124, 0x00000000, 0xF, 0x0, 0x0, 0x0⟩,
   ⟨0x128, 0x00000000, 0x0, 0xFFFFFFFF, 0x0, 0x0⟩,
   ⟨0x400, 0x00000000, 0xFFFFFFFF, 0x0, 0x0, 0x0⟩,
   ⟨0x404, 0x00000000, 0x1, 0x0, 0x0, 0x0⟩,
   ⟨0x408, 0x00000000, 0x0, 0x0, 0x0, 0x0⟩,
   ⟨0x40C, 0x00000000, 0x0, 0x0, 0x0, 0x0⟩]

/-- The `PST_` page, 0x041 (R349): offset, reset, RW bits, W1C bits, RC bits, GW bits. -/
def regRowsPST : List RegRow :=
  [⟨0x100, 0x00000000, 0x0, 0x0, 0x0, 0x0⟩,
   ⟨0x104, 0x00000000, 0x0, 0x0, 0x0, 0x0⟩,
   ⟨0x108, 0x00000000, 0x0, 0x0, 0xFFFF, 0x0⟩,
   ⟨0x10C, 0x00000000, 0x0, 0x7, 0x0, 0x0⟩,
   ⟨0x110, 0x00000000, 0x7, 0x0, 0x0, 0x0⟩,
   ⟨0x400, 0x00000000, 0x3, 0x0, 0x0, 0x0⟩,
   ⟨0x404, 0x00000000, 0x0, 0x0, 0x0, 0x0⟩,
   ⟨0x408, 0x00000000, 0xFF800, 0x0, 0x0, 0x0⟩,
   ⟨0x40C, 0x00000000, 0x0, 0x0, 0x0, 0x0⟩,
   ⟨0x410, 0x00000000, 0x0, 0x0, 0x0, 0x0⟩,
   ⟨0x414, 0x00000000, 0x0, 0x0, 0x0, 0x0⟩,
   ⟨0x418, 0x00000000, 0x3F, 0x0, 0x0, 0x0⟩,
   ⟨0x41C, 0x00000000, 0x0, 0x3F, 0x0, 0x0⟩,
   ⟨0x420, 0x00000000, 0x0, 0x0, 0x0, 0x0⟩,
   ⟨0x424, 0x00000000, 0x0, 0x0, 0x0, 0x0⟩,
   ⟨0x428, 0x00000000, 0x0, 0x0, 0x0, 0x0⟩,
   ⟨0x42C, 0x00000000, 0x0, 0x0, 0x0, 0x0⟩,
   ⟨0x430, 0x00000000, 0x0, 0x0, 0xFFFF, 0x0⟩,
   ⟨0x440, 0x00000000, 0x0, 0x0, 0x0, 0x0⟩,
   ⟨0x450, 0x00000000, 0x0, 0x0, 0x0, 0x0⟩]

/-- The `GTE_` page, 0x042 (R366): offset, reset, RW bits, W1C bits, RC bits, GW bits. -/
def regRowsGTE : List RegRow :=
  [⟨0x100, 0x00000000, 0x0, 0x0, 0x0, 0x0⟩,
   ⟨0x104, 0x00000000, 0x0, 0x0, 0x0, 0x0⟩,
   ⟨0x108, 0x00000000, 0x1, 0x0, 0x0, 0x0⟩,
   ⟨0x10C, 0x00000000, 0x0, 0x0, 0x0, 0x1⟩,
   ⟨0x110, 0x00000000, 0x0, 0x0, 0x0, 0x0⟩,
   ⟨0x114, 0x00000000, 0x10101FF, 0x0, 0x0, 0x0⟩,
   ⟨0x118, 0x00000000, 0x0, 0x0, 0x0, 0x0⟩,
   ⟨0x11C, 0x00000000, 0x0, 0x0, 0xFFFF, 0x0⟩,
   ⟨0x120, 0x00000000, 0x0, 0x0, 0x0, 0x0⟩,
   ⟨0x124, 0x00000000, 0x0, 0x0, 0x0, 0x0⟩,
   ⟨0x128, 0x00000000, 0x0, 0x7, 0x0, 0x0⟩,
   ⟨0x12C, 0x00000000, 0x7, 0x0, 0x0, 0x0⟩,
   ⟨0x130, 0x00000000, 0x0, 0x0, 0xFFFF, 0x0⟩]

/-- The `FLS_` page, 0x050 (R416): offset, reset, RW bits, W1C bits, RC bits, GW bits. -/
def regRowsFLS : List RegRow :=
  [⟨0x100, 0x00000000, 0x0, 0x0, 0x0, 0x0⟩,
   ⟨0x104, 0x00000000, 0x8000000F, 0x0, 0x0, 0x0⟩,
   ⟨0x108, 0x00000000, 0xFFFFFFF, 0x0, 0x0, 0x0⟩,
   ⟨0x10C, 0x00000000, 0xFFFFFFFF, 0x0, 0x0, 0x0⟩,
   ⟨0x110, 0x00000000, 0x0, 0x0, 0x0, 0x0⟩,
   ⟨0x114, 0x00000000, 0x0, 0x0, 0x0, 0x0⟩,
   ⟨0x118, 0x00000000, 0xFFF, 0x0, 0x0, 0x0⟩,
   ⟨0x11C, 0x00000000, 0x0, 0x0, 0x0, 0x0⟩,
   ⟨0x120, 0x00000000, 0x0, 0x0, 0x0, 0x0⟩,
   ⟨0x124, 0x00000000, 0x0, 0x0, 0x0, 0x0⟩,
   ⟨0x128, 0x00000000, 0x0, 0x0, 0xFFFF, 0x0⟩,
   ⟨0x12C, 0x00000000, 0x0, 0x0, 0xFFFF, 0x0⟩,
   ⟨0x130, 0x00000000, 0x0, 0x0, 0x0, 0x8FFF0FFF⟩,
   ⟨0x134, 0x00000000, 0x0, 0xFFFFFFFF, 0x0, 0x0⟩,
   ⟨0x138, 0x00000000, 0x0, 0x1F, 0x0, 0x0⟩,
   ⟨0x13C, 0x00000000, 0x1F, 0x0, 0x0, 0x0⟩,
   ⟨0x140, 0x00000000, 0x0, 0x0, 0x0, 0x0⟩]

/-- The `SIL_` page, 0x051 (R417): offset, reset, RW bits, W1C bits, RC bits, GW bits. -/
def regRowsSIL : List RegRow :=
  [⟨0x100, 0x00000000, 0x0, 0x0, 0x0, 0x0⟩,
   ⟨0x104, 0x00000000, 0x1FF, 0x0, 0x0, 0x0⟩,
   ⟨0x108, 0x00000000, 0x0, 0x0, 0x0, 0x0⟩,
   ⟨0x10C, 0x00000000, 0x0, 0x0, 0xFFFF, 0x0⟩,
   ⟨0x110, 0x00000000, 0x0, 0x3, 0x0, 0x0⟩,
   ⟨0x114, 0x00000000, 0x3, 0x0, 0x0, 0x0⟩,
   ⟨0x118, 0x00000000, 0x0, 0x0, 0x0, 0x0⟩]

/-- The `OFC_` page, 0x052 (R435): offset, reset, RW bits, W1C bits, RC bits, GW bits. -/
def regRowsOFC : List RegRow :=
  [⟨0x100, 0x00000000, 0x0, 0x0, 0x0, 0x0⟩,
   ⟨0x104, 0x001C0001, 0x0, 0x0, 0x0, 0x1F0303⟩,
   ⟨0x108, 0x00000002, 0xF, 0x0, 0x0, 0x0⟩,
   ⟨0x10C, 0x00000000, 0x0, 0x0, 0x0, 0x0⟩,
   ⟨0x110, 0x00000000, 0x0, 0x0, 0x0, 0x0⟩,
   ⟨0x114, 0x00000000, 0x0, 0x0, 0x0, 0x0⟩,
   ⟨0x118, 0x00000000, 0x0, 0x0, 0x0, 0x0⟩,
   ⟨0x11C, 0x00000000, 0x0, 0x0, 0x0, 0x0⟩,
   ⟨0x120, 0x00000000, 0x0, 0x0, 0x0, 0x0⟩,
   ⟨0x124, 0x00000001, 0x1F, 0x0, 0x0, 0x0⟩,
   ⟨0x128, 0x00000000, 0x0, 0x0, 0x0, 0x0⟩,
   ⟨0x12C, 0x00000000, 0x0, 0x0, 0x0, 0x0⟩,
   ⟨0x130, 0x00000000, 0x0, 0x0, 0x0, 0x0⟩,
   ⟨0x134, 0x00000000, 0x0, 0x7F, 0x0, 0x0⟩,
   ⟨0x138, 0x00000000, 0x7F, 0x0, 0x0, 0x0⟩]

/-- The `WER_` page, 0x053 (R478): offset, reset, RW bits, W1C bits, RC bits, GW bits. -/
def regRowsWER : List RegRow :=
  [⟨0x100, 0x00000000, 0x0, 0x0, 0x0, 0x0⟩,
   ⟨0x104, 0x00000000, 0xFFFF001F, 0x0, 0x0, 0x0⟩,
   ⟨0x108, 0x00000000, 0x7, 0x0, 0x0, 0x0⟩,
   ⟨0x10C, 0x00000000, 0x0, 0x0, 0x0, 0x0⟩,
   ⟨0x110, 0x00000000, 0x0, 0x0, 0x0, 0x0⟩,
   ⟨0x114, 0xFFFFFFFF, 0x0, 0x0, 0x0, 0x0⟩,
   ⟨0x118, 0x00000000, 0x0, 0x0, 0x0, 0x0⟩,
   ⟨0x11C, 0x00000000, 0x0, 0x0, 0x0, 0x0⟩,
   ⟨0x120, 0x00000000, 0x0, 0x0, 0x0, 0x0⟩,
   ⟨0x124, 0x00000000, 0x0, 0x7, 0x0, 0x0⟩,
   ⟨0x128, 0x00000000, 0x7, 0x0, 0x0, 0x0⟩]

/-- The rows of a page; an unassigned page has none (R480). -/
def regRows (page : Nat) : List RegRow :=
  match page with
  | 0x001 => regRowsLCY
  | 0x002 => regRowsFCL
  | 0x003 => regRowsTHM
  | 0x004 => regRowsMON
  | 0x005 => regRowsGOV
  | 0x006 => regRowsTIK
  | 0x010 => regRowsHLK
  | 0x011 => regRowsHQ
  | 0x012 => regRowsSLC
  | 0x020 => regRowsNDL
  | 0x021 => regRowsLDU
  | 0x022 => regRowsKST
  | 0x023 => regRowsPUR
  | 0x024 => regRowsHSH
  | 0x025 => regRowsLMS
  | 0x026 => regRowsRNG
  | 0x030 => regRowsVLT
  | 0x031 => regRowsDDR
  | 0x040 => regRowsSHT
  | 0x041 => regRowsPST
  | 0x042 => regRowsGTE
  | 0x050 => regRowsFLS
  | 0x051 => regRowsSIL
  | 0x052 => regRowsOFC
  | 0x053 => regRowsWER
  | _ => []

end Sys2Proof.Machine
end

