-- ==== Sys2Proof/Machine/Ops.lean ====
section
/-!
DEFINITION. The shared operations: register words and fields, counters that saturate, event bits and their interrupt
lines, free values, the outbox, memory on the posts' map, and lookups of slices, queues, contexts and slots.
-/
namespace Sys2Proof.Machine
open Sys2Proof

/-! ### Bits of a word -/

/-- A field of `k` bits from `lo`, as a number. -/
def getBits (w : Word) (lo k : Nat) : Nat := (w.toNat >>> lo) % 2 ^ k

/-- The word with a field replaced; the value is cut to the field's width. -/
def setBits (w : Word) (lo k v : Nat) : Word :=
  (w &&& ~~~(BitVec.ofNat 32 ((2 ^ k - 1) <<< lo))) ||| BitVec.ofNat 32 ((v % 2 ^ k) <<< lo)

/-! ### The register file -/

/-- The row of the register table for a key: the words of a post's block and of a firmware channel's block stand
once in the table (R285, R349). -/
def rowOffset (page off : Nat) : Nat :=
  if page = 0x041 ∧ 0x400 ≤ off ∧ off < 0x400 + 32 * 96 then 0x400 + (off - 0x400) % 96
  else if page = 0x040 ∧ 0x400 ≤ off ∧ off < 0x800 then 0x400 + (off - 0x400) % 16
  else off

def regRow (key : Nat) : Option RegRow :=
  (regRows (key / 0x1000)).find? (fun r => r.off == rowOffset (key / 0x1000) (key % 0x1000))

/-- The reset value of a register word; reserved words read as zero (R480, R481). -/
def regReset (key : Nat) : Word :=
  match regRow key with
  | some r => BitVec.ofNat 32 r.reset
  | none => 0#32

/-- The stored word of a register. -/
def getReg (s : State) (key : Nat) : Word := tget (regReset key) s.regs key

/-- Stores a register word. -/
def setReg (s : State) (key : Nat) (w : Word) : State := { s with regs := tput (regReset key) s.regs key w }

/-- A field, as a number. -/
def getF (s : State) (f : Fld) : Nat := getBits (getReg s f.key) f.lo f.width

/-- Writes a field. -/
def setF (s : State) (f : Fld) (v : Nat) : State := setReg s f.key (setBits (getReg s f.key) f.lo f.width v)

/-- A one-bit field as a Bool. -/
def flag (s : State) (f : Fld) : Bool := getF s f == 1

def setFlag (s : State) (f : Fld) (b : Bool) : State := setF s f (b2n b)

/-- Adds to a counter that holds at its ceiling. -/
def countF (s : State) (f : Fld) (n : Nat) : State := setF s f (min (getF s f + n) (2 ^ f.width - 1))

/-- Adds to a whole-word counter that holds at `0xFFFF_FFFF`. -/
def countReg (s : State) (key n : Nat) : State :=
  setReg s key (BitVec.ofNat 32 (min ((getReg s key).toNat + n) 0xFFFFFFFF))

/-- Sets a bit of a one-hot register (an alarm, a failed unit). -/
def orReg (s : State) (key n : Nat) : State := setReg s key (getReg s key ||| BitVec.ofNat 32 n)

/-! ### Pages and the common header (R479, R481) -/

/-- The 25 assigned pages. -/
def assignedPages : List Nat :=
  [0x001, 0x002, 0x003, 0x004, 0x005, 0x006, 0x010, 0x011, 0x012, 0x020, 0x021, 0x022, 0x023, 0x024, 0x025, 0x026,
   0x030, 0x031, 0x040, 0x041, 0x042, 0x050, 0x051, 0x052, 0x053]

/-! ### Free values (log entry 4) -/

/-- `n` free bytes, and the state with the next free index. -/
def drawBytes (n : Nat) (s : State) : Bytes × State :=
  ((List.range n).map (fun i => Config.freeByte (s.freeCtr + i)), { s with freeCtr := s.freeCtr + n })

/-- A free number below `b`, from 16 free bytes (uniform draws of R212, R223). -/
def drawBelow (b : Nat) (s : State) : Nat × State :=
  let d := drawBytes 16 s
  (leNat d.1 % b, d.2)

/-- The posts' address of a register. -/
def regAddr (key : Nat) : Nat := 0x40000000 + key % 2 ^ 24

/-! ### Counts of operations (R143, R252, R253) -/

/-- Adds to a count by key. -/
def bumpAt (l : List (Nat × Nat)) (k n : Nat) : List (Nat × Nat) := tput 0 l k (tget 0 l k + n)

/-- An operation of the device's own on purlin 0, which holds its share (R230). -/
def ownPurlin (s : State) : State := { s with opCounts := bumpAt s.opCounts 1 1 }

/-! ### Out -/

def emit (s : State) (o : Out) : State := { s with out := o :: s.out }

/-! ### Lookups -/

def getSlice (s : State) (n : Nat) : Slice := tget Slice.none s.slices n
def setSlice (s : State) (n : Nat) (x : Slice) : State := { s with slices := tput Slice.none s.slices n x }

/-- The admin pair's queue id (R56). -/
def adminQ : Nat := 0x100

/-- The key of a queue pair in the table: slice × 512 + queue id. -/
def qKey (slice queue : Nat) : Nat := slice * 512 + queue

def getQueue (s : State) (slice queue : Nat) : Queue := tget Queue.reset s.queues (qKey slice queue)
def setQueue (s : State) (slice queue : Nat) (q : Queue) : State :=
  { s with queues := tput Queue.reset s.queues (qKey slice queue) q }

def getCtx (s : State) (n : Nat) : Option Ctx := tfind s.ctxs n
def setCtx (s : State) (n : Nat) (c : Ctx) : State := { s with ctxs := tinsert n c s.ctxs }
def dropCtx (s : State) (n : Nat) : State := { s with ctxs := terase n s.ctxs }

/-- The generation of a slot unused since the last boot: the one the slot table records, which the boot has advanced by
16 in the cycle of 1 to 1,023 (R148, notes/assumptions/8.md). -/
def freshGen (s : State) (n : Nat) : Nat := tget s.slotBase s.slotTable n

def getKey (s : State) (n : Nat) : KeySlot :=
  match tfind s.keys n with
  | some k => k
  | none => { KeySlot.empty with gen := freshGen s n }
def setKey (s : State) (n : Nat) (k : KeySlot) : State := { s with keys := tput KeySlot.empty s.keys n k }

def getChain (s : State) (n : Nat) : Chain := tget Chain.none s.vault.chains n
def setChain (s : State) (n : Nat) (c : Chain) : State :=
  { s with vault := { s.vault with chains := tput Chain.none s.vault.chains n c } }

/-- A register of the sill, zero if never written (R411). -/
def sillVal (s : State) (n : Nat) : Nat := (tget (0#32) s.sill n).toNat

/-- The group entry `g` of a slice. -/
def groupOf (s : State) (slice g : Nat) : Option GroupCfg := (getSlice s slice).cfg.groups[g]?

/-- The layout of group `g` of a slice. -/
def layoutOf (s : State) (slice g : Nat) : Option Layout := (getSlice s slice).layouts[g]?

/-- The global queue-group number (R289). -/
def gidOf (slice g : Nat) : Nat := 32 * slice + g

/-- The group that holds a data queue id of a slice (R56, R289). -/
def groupOfQueue (s : State) (slice queue : Nat) : Option Nat :=
  let gs := (getSlice s slice).cfg.groups
  (List.range gs.length).find? (fun g =>
    match gs[g]? with
    | some c => c.firstQ ≤ queue && queue < c.firstQ + c.queues
    | none => false)

/-- Whether the slice holds this queue (R59, R60): a declared data pair, or the admin pair of slice 0. -/
def queueHeld (s : State) (slice queue : Nat) : Bool :=
  (queue < (getSlice s slice).cfg.pairs && queue < 256) || (slice == 0 && queue == adminQ)

/-- The PASID of a slice's group where it is PASID-bound (R58). -/
def pasidOf (s : State) (slice queue : Nat) : Option Nat :=
  if queue == adminQ then none
  else match groupOfQueue s slice queue with
    | none => none
    | some g => match groupOf s slice g with
      | some c => if c.pasidEn then some c.pasid else none
      | none => none

/-- Every (slice, group) in ascending global queue-group number (R36, R289). -/
def allGroups (s : State) : List (Nat × Nat) :=
  s.slices.flatMap (fun x => (List.range x.2.cfg.groups.length).map (fun g => (x.1, g)))

/-! ### Pieces and data link slots (12_shuttle R268, R269, R272, R280) -/

/-- Pieces of an access: its parts in the 64-byte granules that it touches. -/
def pieceCount (a n : Nat) : Nat := if n == 0 then 0 else ceilDiv (a % 64 + n) 64

/-- Bytes of an access that its first `k` pieces carry. -/
def pieceBytes (a n k : Nat) : Nat := min n (64 * k - a % 64)

/-- Counts pieces of an engine in this tick: `e` is the bent of a read engine, 8 + the bent of a write engine; `kind` is 0
for the plan, 1 for firmware (R269, SHT_UTIL). -/
def countPiece (s : State) (e kind n : Nat) : State := { s with pieces := bumpAt s.pieces (4 * e + kind) n }

/-- An engine issues up to 3,968 pieces in a tick, and firmware has what the plan leaves (R269). -/
def engineFree (s : State) (e : Nat) : Bool := tget 0 s.pieces (4 * e) + tget 0 s.pieces (4 * e + 1) < 3968

/-- Host writes that the channels of a bent have issued, and how many of them zero-length reads behind them have
confirmed (R280). -/
def hostWrites (s : State) (b : Nat) : Nat := tget 0 s.hostSent (2 * b)
def bentDirty (s : State) (b : Nat) : Bool := tget 0 s.hostSent (2 * b + 1) < hostWrites s b
def sentByBent (s : State) (b : Nat) : State := { s with hostSent := bumpAt s.hostSent (2 * b) 1 }
def confirmHost (s : State) (b n : Nat) : State :=
  { s with hostSent := tput 0 s.hostSent (2 * b + 1) (max n (tget 0 s.hostSent (2 * b + 1))) }

/-- Data link slots of the link as trained; before it has first trained, those of its caps (R272, R456). -/
def linkSlots (s : State) : Nat := getF s Reg.SHT_LINK_SLOTS

/-- The groups, by number, whose data link slots do not fit the trained link, each with the slots in and out that fit: the
groups before them in ascending number have theirs (R272). -/
def shortRooms (s : State) : List (Nat × (Nat × Nat)) :=
  let slots := linkSlots s
  ((allGroups s).foldl (fun (x : (Nat × Nat) × List (Nat × (Nat × Nat))) g =>
    match groupOf s g.1 g.2 with
    | none => x
    | some c =>
      let i := min c.linkIn (slots - x.1.1)
      let o := min c.linkOut (slots - x.1.2)
      ((x.1.1 + i, x.1.2 + o), if i < c.linkIn || o < c.linkOut then x.2 ++ [(gidOf g.1 g.2, (i, o))] else x.2))
    ((0, 0), [])).2

/-- Data link slots of this tick are taken: inbound ones by a group. -/
def useIn (s : State) (gid n : Nat) : State := { s with tick := { s.tick with inUsed := bumpAt s.tick.inUsed gid n } }

/-- Outbound ones. -/
def useOut (s : State) (gid n : Nat) : State := { s with tick := { s.tick with outUsed := bumpAt s.tick.outUsed gid n } }

def takenSlots (l : List (Nat × Nat)) : Nat := l.foldl (fun n x => n + x.2) 0

/-- Inbound data link slots that a group may still take in this tick, where there is a limit: in WORK pacing those of the
link, in STRICT pacing those of a group whose slots do not all fit. -/
def roomIn (s : State) (gid : Nat) : Option Nat :=
  if flag s Reg.TIK_STAT_PACE_ACT then some (linkSlots s - takenSlots s.tick.inUsed)
  else (tfind (shortRooms s) gid).map (fun r => r.1 - tget 0 s.tick.inUsed gid)

/-- Outbound ones. -/
def roomOut (s : State) (gid : Nat) : Option Nat :=
  if flag s Reg.TIK_STAT_PACE_ACT then some (linkSlots s - takenSlots s.tick.outUsed)
  else (tfind (shortRooms s) gid).map (fun r => r.2 - tget 0 s.tick.outUsed gid)

/-- Bytes of an access that the room of a tick lets go. -/
def roomBytes (room : Option Nat) (a n : Nat) : Nat :=
  match room with
  | some k => pieceBytes a n k
  | none => n

/-- Pieces that find no data link slot in this tick are counted. -/
def shortPieces (s : State) (k : Nat) : State :=
  if k == 0 then s else setFlag (countF s Reg.SHT_LINK_SHORT k) Reg.SHT_EVT_LINK_SHORT true

/-! ### Host writes and the dirty-page logs (13_slices R302, R303) -/

/-- Pages of a log's window that a write touches and the active bitmap does not hold yet. -/
def logPages (l : DirtyLog) (pas : Option Nat) (addr len : Nat) : List Nat :=
  let mine := if l.pasidEn then pas == some l.pasid else pas == none
  let lo := max addr l.base
  let hi := min (addr + len) (l.base + l.len)
  if !mine || hi ≤ lo then []
  else
    let p0 := (lo - l.base) / 4096
    let p1 := (hi - 1 - l.base) / 4096
    ((List.range (p1 + 1 - p0)).map (· + p0)).filter (fun p => !l.bits.contains p)

/-- The 64-byte granule of a bitmap with the pages set so far (R268). -/
def bitmapGranule (bits : List Nat) (g : Nat) : Bytes :=
  leBytes 64 (bits.foldl (fun a p => if p / 512 == g then a + 2 ^ (p % 512) else a) 0)

/-- Sets the bits of a write in one log, and writes the granules that change, as the physical function. -/
def logWrite (s : State) (slice l : Nat) (pas : Option Nat) (addr len : Nat) : State :=
  let x := getSlice s slice
  match tfind x.logs l with
  | none => s
  | some d =>
    let new := logPages d pas addr len
    let bits := d.bits ++ new
    let s1 := setSlice s slice { x with logs := tinsert l { d with bits := bits } x.logs }
    ((new.map (· / 512)).eraseDups).foldl (fun s g =>
      emit s (.hostWrite 0 none ((if d.onB then d.mapB else d.mapA) + 64 * g) (bitmapGranule bits g))) s1

/-- A host write of a slice, logged in each of its dirty-page logs. -/
def sendHost (s : State) (slice : Nat) (pas : Option Nat) (addr : Nat) (bytes : Bytes) : State :=
  (List.range 4).foldl (fun s l => logWrite s slice l pas addr bytes.length)
    (emit s (.hostWrite slice pas addr bytes))

/-- Work of a kerf that a row of its own brings: it is done in the kerf, between the end of a tick's span and the start
of the next, with the tick that ended; within a span nothing happens, and the kerf to come does the work (R27). -/
def inKerf (f : State → State) (s : State) : State :=
  let t := s.tick.count
  if s.tick.span || t == 0 then s
  else
    let r := f { s with tick := { s.tick with count := t - 1 } }
    { r with tick := { r.tick with count := t } }

/-- The horizon H (R36). -/
def horizon (s : State) : Nat := 2 ^ getF s Reg.TIK_CTRL_HORIZON

/-- The device runs data service (TIK_STAT.RUN). -/
def running (s : State) : Bool := flag s Reg.TIK_STAT_RUN

/-- Lifecycle codes of R436. -/
def lcyState (s : State) : Nat := getF s Reg.LCY_STAT_STATE

/-- Approved mode (R440). -/
def approved (s : State) : Bool := flag s Reg.LCY_CTRL_APPROVED

/-- The slice hour (R222). -/
def sliceHour (s : State) (slice : Nat) : Nat :=
  ((s.thmTime : Int) + (getSlice s slice).hourOffset).toNat / 117964800

/-- The canonical form of memory: addresses rising, no byte listed that reads as zero without being listed. -/
def Memory.wf (m : List Host.Cell) : Bool := twf 0#8 m

/-- One memory byte on the posts' map; unlisted bytes read as zero. -/
def memByte (s : State) (a : Nat) : Byte := tget (0#8) s.mem a

def setMemByte (s : State) (a : Nat) (b : Byte) : State := { s with mem := tput (0#8) s.mem a b }

/-- `n` bytes from an address upward. -/
def memRead (s : State) (a n : Nat) : Bytes := (List.range n).map (fun i => memByte s (a + i))

/-- Stores a byte string from an address upward. -/
def memWrite (s : State) (a : Nat) : Bytes → State
  | [] => s
  | b :: r => memWrite (setMemByte s a b) (a + 1) r

end Sys2Proof.Machine
end

