-- ==== Sys2Proof/Machine/Drbg.lean ====
section
/-!
DEFINITION. CTR_DRBG with AES-256 (11_entropy R260–R263), as SP 800-90A gives it (PRESUMED: notes/assumptions/5.md), and
the draws "from the CTR_DRBG" that commands and blocks make from the children.
-/
namespace Sys2Proof.Machine
open Sys2Proof

/-- `n` counter blocks after V, and V after them. -/
def drbgBlocks (d : Drbg) : Nat → Bytes × Bytes
  | 0 => ([], d.v)
  | n + 1 =>
    let v := beBytes 16 ((beNat d.v + 1) % 2 ^ 128)
    let r := drbgBlocks { d with v := v } n
    (aesEnc d.key v ++ r.1, r.2)

/-- The Update step with 48 bytes of provided data. -/
def drbgUpdate (d : Drbg) (data : Bytes) : Drbg :=
  let x := xorB (drbgBlocks d 3).1 (padTo 48 data)
  ⟨x.take 32, x.drop 32⟩

/-- Instantiation without the derivation function; a reseed is an Update with the seed. -/
def drbgNew (seed : Bytes) : Drbg := drbgUpdate ⟨zeros 32, zeros 16⟩ seed

/-- The Generate function without additional input. -/
def drbgGenerate (d : Drbg) (n : Nat) : Bytes × Drbg :=
  let r := drbgBlocks d (ceilDiv n 16)
  (r.1.take n, drbgUpdate { d with v := r.2 } [])

/-- CBC-MAC of the derivation function. -/
def drbgBcc (key : Bytes) (m : Bytes) : Bytes := (chunks 16 m).foldl (fun c b => aesEnc key (xorB c b)) (zeros 16)

/-- The derivation function: 48 bytes of an input of any length. -/
def drbgDf (input : Bytes) : Bytes :=
  let body := beBytes 4 input.length ++ beBytes 4 48 ++ input ++ [0x80]
  let m := body ++ zeros ((16 - body.length % 16) % 16)
  let k0 := (List.range 32).map (fun i => BitVec.ofNat 8 i)
  let t := (List.range 3).flatMap (fun i => drbgBcc k0 (beBytes 4 i ++ zeros 12 ++ m))
  let k := t.take 32
  let x1 := aesEnc k (t.drop 32)
  let x2 := aesEnc k x1
  x1 ++ x2 ++ aesEnc k x2

/-! ### Draws (R263) -/

/-- Live children, service children included. -/
def childCount (r : Rng) : Nat := r.children.length + if r.services then 3 else 0

def childSync (s : State) : State := setF s Reg.RNG_CHILDREN_N (childCount s.rng)

/-- The service children. -/
def childVault : Nat := 4096
def childLms : Nat := 4097
def childPosts : Nat := 4098

/-- A child that is instantiated. -/
def liveChild (s : State) (who : Nat) : Option Drbg :=
  if (if 4096 ≤ who then s.rng.services else s.rng.children.contains who) then tfind s.rng.drbgs who else none

/-- `n` bytes drawn from a child; free bytes where none stands, which R262 and R265 keep from happening in a command
(notes/assumptions/91.md). -/
def drawFrom (who n : Nat) (s : State) : Bytes × State :=
  match liveChild s who with
  | none => drawBytes n s
  | some d =>
    let r := drbgGenerate d n
    (padTo n r.1, { s with rng := { s.rng with drbgs := tinsert who r.2 s.rng.drbgs } })

/-- A number below `b` drawn from a child, from 16 of its bytes. -/
def drawBelowFrom (who b : Nat) (s : State) : Nat × State :=
  let d := drawFrom who 16 s
  (leNat d.1 % b, d.2)

end Sys2Proof.Machine
end

