-- ==== Sys2Proof/Machine/Entry.lean ====
section
/-!
DEFINITION. The 64-byte command entry (03_queues R69), the opcodes, the status codes (R77), and the 32-byte
completion entry (R72).
-/
namespace Sys2Proof.Machine
open Sys2Proof

/-! ### Fields of the entry -/

def eOp (e : Bytes) : Nat := byteAt e 0
def eScrub (e : Bytes) : Bool := bitAt (leAt e 0 4) 8
def eNoIrq (e : Bytes) : Bool := bitAt (leAt e 0 4) 9
def eBatch (e : Bytes) : Bool := bitAt (leAt e 0 4) 10
/-- Bits [15:8]: the flags. -/
def eFlags (e : Bytes) : Nat := byteAt e 1
def eId (e : Bytes) : Nat := leAt e 2 2
def eKeyA (e : Bytes) : Nat := leAt e 4 4
def eKeyB (e : Bytes) : Nat := leAt e 8 4
def eParam (e : Bytes) : Nat := leAt e 0x0C 4
def eSrc (e : Bytes) : Nat := leAt e 0x10 8
def eDst (e : Bytes) : Nat := leAt e 0x18 8
def eLen (e : Bytes) : Nat := leAt e 0x20 4
def eCap (e : Bytes) : Nat := leAt e 0x24 4
/-- The 24 class-parameter bytes. -/
def eCls (e : Bytes) : Bytes := sub e 0x28 24

/-! ### Status codes (R77) -/

def stOk : Nat := 0x0000
def stBadOpcode : Nat := 0x0101
def stBadLength : Nat := 0x0102
def stGate : Nat := 0x0103
def stBadField : Nat := 0x0104
def stDupId : Nat := 0x0105
def stHostAccess : Nat := 0x0106
def stKeyHandle : Nat := 0x0201
def stKeySpent : Nat := 0x0202
def stKeyUsage : Nat := 0x0203
def stKeyKilled : Nat := 0x0204
def stVaultMiss : Nat := 0x0301
def stVaultFull : Nat := 0x0302
def stVaultIntegrity : Nat := 0x0303
def stAuthFail : Nat := 0x0401
def stSigFail : Nat := 0x0402
def stCredLocked : Nat := 0x0403
def stCredKilled : Nat := 0x0404
def stTooLarge : Nat := 0x0501
def stLmsExhausted : Nat := 0x0502
def stAborted : Nat := 0x0601
def stAbortLate : Nat := 0x0602
def stSquashed : Nat := 0x0603
def stEntropyFailed : Nat := 0x0701
def stSafeState : Nat := 0x0702
def stSelftestFail : Nat := 0x0703
def stTampered : Nat := 0x0704
def stNotReady : Nat := 0x0705

/-! ### The completion entry (R72) -/

/-- The 32 bytes of a completion entry, with the phase bit of this pass. -/
def complBytes (c : Completion) (phase : Bool) : Bytes :=
  leBytes 2 c.cmdId ++ leBytes 2 c.queue ++
  leBytes 4 (c.status + b2n c.untrusted * 2 ^ 16 + b2n c.partialOut * 2 ^ 17 + b2n c.scrubbed * 2 ^ 18 +
    b2n c.late * 2 ^ 19 + b2n phase * 2 ^ 31) ++
  leBytes 4 c.len ++ leBytes 4 c.rtick ++ padTo 16 c.inline

/-! ### Results -/

/-- A failure, or a success without output: the status alone. -/
def resStatus (st : Nat) : CmdResult := ⟨st, false, false, false, 0, [], [], 0⟩

/-- Success with destination bytes. -/
def resDest (dest : Bytes) : CmdResult := ⟨stOk, false, false, false, dest.length, [], dest, 0⟩

/-- Success with an inline result of the given length. -/
def resInline (len : Nat) (inline : Bytes) : CmdResult := ⟨stOk, false, false, false, len, inline, [], 0⟩

/-- A batch of output items of one size. -/
def resBatch (itemLen : Nat) (dest : Bytes) : CmdResult := ⟨stOk, false, false, false, dest.length, [], dest, itemLen⟩

end Sys2Proof.Machine
end

