-- ==== Sys2Proof/Machine/Modes.lean ====
section
/-!
DEFINITION. The AES modes of 05_needles R125 within the limits given there: CBC, CTR, GCM, XTS with ciphertext
stealing, CMAC, KW, KWP and FF1 with radix 10. The modes are those of the standards the spec names (PRESUMED,
notes/assumptions/5.md); the parameter rules are R125's.
-/
namespace Sys2Proof.Machine
open Sys2Proof

/-! ### CBC -/

def cbcEncGo (key : Bytes) : List Bytes → Bytes → Bytes
  | [], _ => []
  | b :: r, iv => let c := aesEnc key (xorB b iv); c ++ cbcEncGo key r c

/-- CBC encryption of a multiple of 16 bytes under a 16-byte IV, no padding. -/
def cbcEnc (key iv text : Bytes) : Bytes := cbcEncGo key (chunks 16 text) iv

def cbcDecGo (key : Bytes) : List Bytes → Bytes → Bytes
  | [], _ => []
  | c :: r, iv => xorB (aesDec key c) iv ++ cbcDecGo key r c

/-- CBC decryption. -/
def cbcDec (key iv text : Bytes) : Bytes := cbcDecGo key (chunks 16 text) iv

/-! ### CTR -/

/-- The counter block `i` blocks after `icb`: the low `w` bits count, big-endian, and the rest is fixed (R125). -/
def ctrBlock (icb : Bytes) (w i : Nat) : Bytes :=
  let v := beNat icb
  beBytes 16 (v / 2 ^ w * 2 ^ w + (v % 2 ^ w + i) % 2 ^ w)

def ctrGo (key icb : Bytes) (w : Nat) : List Bytes → Nat → Bytes
  | [], _ => []
  | b :: r, i => xorB b (aesEnc key (ctrBlock icb w i)) ++ ctrGo key icb w r (i + 1)

/-- CTR in either direction: a last partial block uses the leading keystream bytes. -/
def ctrXor (key icb : Bytes) (w : Nat) (text : Bytes) : Bytes := ctrGo key icb w (chunks 16 text) 0

/-- Whether an initial counter wraps within its width over `n` blocks (R98, R100). -/
def ctrWraps (icb : Bytes) (w n : Nat) : Bool := beNat icb % 2 ^ w + n > 2 ^ w

/-! ### GCM -/

/-- Multiplication in the GHASH field, on 128-bit numbers whose most significant bit is the constant term. -/
def ghMul (x y : BitVec 128) : BitVec 128 :=
  ((List.range 128).foldl (fun (acc : BitVec 128 × BitVec 128) i =>
    (if x.getMsbD i then acc.1 ^^^ acc.2 else acc.1,
     if acc.2.getLsbD 0 then (acc.2 >>> 1) ^^^ (0xE1#128 <<< 120) else acc.2 >>> 1)) (0#128, y)).1

def blk128 (b : Bytes) : BitVec 128 := BitVec.ofNat 128 (beNat (padTo 16 b))

/-- GHASH of AAD and ciphertext under the hash key `h`. -/
def ghash (h : BitVec 128) (aad ct : Bytes) : BitVec 128 :=
  let bs := (chunks 16 aad).map blk128 ++ (chunks 16 ct).map blk128 ++
    [BitVec.ofNat 128 (aad.length * 8 * 2 ^ 64 + ct.length * 8)]
  bs.foldl (fun y b => ghMul (y ^^^ b) h) 0#128

/-- The full 16-byte GCM tag; `J0 = IV ‖ 0^31 ‖ 1` (R125). -/
def gcmTag (key iv aad ct : Bytes) : Bytes :=
  let h := blk128 (aesEnc key (zeros 16))
  xorB (aesEnc key (iv ++ [0, 0, 0, 1])) (beBytes 16 (ghash h aad ct).toNat)

/-- The GCM transformation of the text, in either direction. -/
def gcmXor (key iv text : Bytes) : Bytes := ctrXor key (iv ++ [0, 0, 0, 2]) 32 text

/-- Ciphertext and tag of `tagLen` bytes. -/
def gcmEnc (key iv aad text : Bytes) (tagLen : Nat) : Bytes × Bytes :=
  let ct := gcmXor key iv text
  (ct, (gcmTag key iv aad ct).take tagLen)

/-- Plaintext, and whether the tag matched over its full declared length (R126). -/
def gcmDec (key iv aad ct tag : Bytes) : Bytes × Bool :=
  (gcmXor key iv ct, (gcmTag key iv aad ct).take tag.length == tag)

/-! ### XTS -/

/-- The tweak times x, little-endian. -/
def xtsMulX (t : Bytes) : Bytes :=
  let v := leNat t
  leBytes 16 (if v ≥ 2 ^ 127 then (2 * v) % 2 ^ 128 ^^^ 0x87 else 2 * v)

def xtsTweak (k2 tw : Bytes) : Nat → Bytes
  | 0 => aesEnc k2 tw
  | n + 1 => xtsMulX (xtsTweak k2 tw n)

def xtsBlk (enc : Bool) (k1 t b : Bytes) : Bytes :=
  xorB (if enc then aesEnc k1 (xorB b t) else aesDec k1 (xorB b t)) t

/-- The whole blocks of a data unit, the tweak advancing by one each. -/
def xtsGo (enc : Bool) (k1 : Bytes) : List Bytes → Bytes → Bytes
  | [], _ => []
  | b :: r, t => xtsBlk enc k1 t b ++ xtsGo enc k1 r (xtsMulX t)

/-- XTS over one data unit of at least 16 bytes, with ciphertext stealing on a partial last block. The key holds
two keys of one size, the data key first. -/
def xts (enc : Bool) (key tweak text : Bytes) : Bytes :=
  let k1 := key.take (key.length / 2)
  let k2 := key.drop (key.length / 2)
  let m := text.length / 16
  let b := text.length % 16
  if b == 0 then xtsGo enc k1 (chunks 16 text) (xtsTweak k2 tweak 0)
  else
    let hd := xtsGo enc k1 (chunks 16 (text.take (16 * (m - 1)))) (xtsTweak k2 tweak 0)
    let x := sub text (16 * (m - 1)) 16
    let tl := text.drop (16 * m)
    let tA := xtsTweak k2 tweak (m - 1)
    let tB := xtsMulX tA
    let y := xtsBlk enc k1 (if enc then tA else tB) x
    let z := xtsBlk enc k1 (if enc then tB else tA) (tl ++ y.drop b)
    hd ++ z ++ y.take b

/-! ### CMAC -/

/-- Doubling in the CMAC field of a block of `n` bytes. -/
def cmacDbl (n r : Nat) (b : Bytes) : Bytes :=
  let v := beNat b
  beBytes n ((if v ≥ 2 ^ (8 * n - 1) then (2 * v) % 2 ^ (8 * n) ^^^ r else 2 * v))

def cmacGo (key : Bytes) : List Bytes → Bytes → Bytes
  | [], st => st
  | b :: r, st => cmacGo key r (aesEnc key (xorB st b))

/-- The full 16-byte AES-CMAC. -/
def cmac (key msg : Bytes) : Bytes :=
  let k1 := cmacDbl 16 0x87 (aesEnc key (zeros 16))
  let k2 := cmacDbl 16 0x87 k1
  let n := ceilDiv msg.length 16
  let lastFull := n > 0 && msg.length % 16 == 0
  let head := msg.take (16 * (n - 1))
  let tl := msg.drop (16 * (n - 1))
  let fin := if lastFull then xorB tl k1 else xorB (padTo 16 (tl ++ [0x80])) k2
  aesEnc key (xorB (cmacGo key (chunks 16 head) (zeros 16)) fin)

/-! ### KW and KWP -/

/-- One step of the wrapping function: register A, the list of 8-byte halves, and the step number. -/
def kwStep (key : Bytes) (st : Bytes × List Bytes) (t : Nat) : Bytes × List Bytes :=
  match st.2 with
  | [] => st
  | r :: rs =>
    let b := aesEnc key (st.1 ++ r)
    (xorB (b.take 8) (beBytes 8 t), rs ++ [b.drop 8])

/-- The wrapping function W over an initial register and halves: 6 steps for each half. -/
def kwW (key a : Bytes) (r : List Bytes) : Bytes :=
  let out := (List.range (6 * r.length)).foldl (fun st i => kwStep key st (i + 1)) (a, r)
  out.1 ++ out.2.flatten

def kwUnstep (key : Bytes) (st : Bytes × List Bytes) (t : Nat) : Bytes × List Bytes :=
  match st.2.reverse with
  | [] => st
  | r :: rs =>
    let b := aesDec key (xorB st.1 (beBytes 8 t) ++ r)
    (b.take 8, b.drop 8 :: rs.reverse)

/-- The inverse of W: the register and the halves. -/
def kwUnW (key ct : Bytes) : Bytes × List Bytes :=
  let hs := chunks 8 ct
  let n := hs.length - 1
  (List.range (6 * n)).foldl (fun st i => kwUnstep key st (6 * n - i)) (hs.headD [], hs.drop 1)

def kwIcv : Bytes := List.replicate 8 0xA6
def kwpIcv : Bytes := beBytes 4 0xA65959A6

/-- KW with the default ICV. -/
def kwWrap (key pt : Bytes) : Bytes := kwW key kwIcv (chunks 8 pt)

def kwUnwrap (key ct : Bytes) : Option Bytes :=
  let r := kwUnW key ct
  if r.1 == kwIcv then some r.2.flatten else none

/-- KWP: the ICV carries the 4-byte message length indicator. -/
def kwpWrap (key pt : Bytes) : Bytes :=
  let a := kwpIcv ++ beBytes 4 pt.length
  let p := padTo (8 * ceilDiv pt.length 8) pt
  if p.length ≤ 8 then aesEnc key (a ++ p) else kwW key a (chunks 8 p)

def kwpUnwrap (key ct : Bytes) : Option Bytes :=
  let r : Bytes × List Bytes :=
    if ct.length == 16 then let b := aesDec key ct; (b.take 8, [b.drop 8]) else kwUnW key ct
  let body := r.2.flatten
  let len := beNat (r.1.drop 4)
  if r.1.take 4 == kwpIcv && len ≤ body.length && body.length < len + 8 && allZero (body.drop len)
  then some (body.take len) else none

/-! ### FF1, radix 10 -/

/-- The number of a decimal digit string. -/
def numR (ds : List Nat) : Nat := ds.foldl (fun a d => a * 10 + d) 0

/-- `m` decimal digits of `x`, most significant first. -/
def strR : (m : Nat) → (x : Nat) → List Nat
  | 0, _ => []
  | m + 1, x => strR m (x / 10) ++ [x % 10]

/-- The smallest number of bytes that holds `10^v − 1`. -/
def ff1B (v : Nat) : Nat := ceilDiv (Nat.log2 (10 ^ v - 1) + 1) 8

/-- The round value y of round `i`. -/
def ff1Y (key tweak : Bytes) (n u v i b : Nat) : Nat :=
  let bl := ff1B v
  let d := 4 * ceilDiv bl 4 + 4
  let p : Bytes := [1, 2, 1] ++ beBytes 3 10 ++ [10, BitVec.ofNat 8 u] ++ beBytes 4 n ++ beBytes 4 tweak.length
  let q := tweak ++ zeros ((16 - (tweak.length + bl + 1) % 16) % 16) ++ [BitVec.ofNat 8 i] ++ beBytes bl b
  let r := cmacGo key (chunks 16 (p ++ q)) (zeros 16)
  beNat (r.take d)

/-- One round of encryption on the two halves. -/
def ff1Round (key tweak : Bytes) (n u v : Nat) (st : List Nat × List Nat) (i : Nat) : List Nat × List Nat :=
  let m := if i % 2 == 0 then u else v
  let c := (numR st.1 + ff1Y key tweak n u v i (numR st.2)) % 10 ^ m
  (st.2, strR m c)

def ff1Unround (key tweak : Bytes) (n u v : Nat) (st : List Nat × List Nat) (i : Nat) : List Nat × List Nat :=
  let m := if i % 2 == 0 then u else v
  let y := ff1Y key tweak n u v i (numR st.1) % 10 ^ m
  (strR m ((numR st.2 + 10 ^ m - y) % 10 ^ m), st.1)

/-- FF1 encryption of a string of decimal digits, ten rounds. -/
def ff1Enc (key tweak : Bytes) (x : List Nat) : List Nat :=
  let n := x.length
  let u := n / 2
  let out := (List.range 10).foldl (ff1Round key tweak n u (n - u)) (x.take u, x.drop u)
  out.1 ++ out.2

/-- FF1 decryption. -/
def ff1Dec (key tweak : Bytes) (x : List Nat) : List Nat :=
  let n := x.length
  let u := n / 2
  let out := (List.range 10).foldl (fun st i => ff1Unround key tweak n u (n - u) st (9 - i)) (x.take u, x.drop u)
  out.1 ++ out.2

end Sys2Proof.Machine
end

