-- ==== Sys2Proof/Machine/Overlock.lean ====
section
/-!
DEFINITION. Overlock codes (18_tamper R395) and the keys of a power-up (01_frame R20). The code beside a stored word is what
R395 computes of the word and its address, so State holds the keys and the words, and no second copy of the codes
(notes/assumptions/93.md).
-/
namespace Sys2Proof.Machine
open Sys2Proof

/-- The code of a word in transit. -/
def transitCode (key : Bytes) (data : BitVec 64) (addr init acc beat : Nat) : Byte :=
  Config.hsiao data ^^^ Config.bindTransit key addr init acc beat

/-- The code of a word in store. -/
def storeCode (key : Bytes) (data : BitVec 64) (addr : Nat) : Byte := Config.hsiao data ^^^ Config.bindStore key addr

/-- What a gate XORs to a code as it converts it. -/
def bindDifference (key : Bytes) (addr init acc beat : Nat) : Byte :=
  Config.bindTransit key addr init acc beat ^^^ Config.bindStore key addr

/-- A gate's conversion of a checked transit code to the store code, and back. -/
def toStore (key : Bytes) (code : Byte) (addr init acc beat : Nat) : Byte := code ^^^ bindDifference key addr init acc beat
def toTransit (key : Bytes) (code : Byte) (addr init acc beat : Nat) : Byte := code ^^^ bindDifference key addr init acc beat

/-- The requester's check of a returned word against the address it issued and its own identity. -/
def returnOk (key : Bytes) (data : BitVec 64) (code : Byte) (addr init acc beat : Nat) : Bool :=
  code == transitCode key data addr init acc beat

/-- The SRAM word at an address, and the code held beside it. -/
def sramWord (s : State) (a : Nat) : BitVec 64 := BitVec.ofNat 64 (leNat (memRead s (a / 8 * 8) 8))
def heldCode (s : State) (a : Nat) : Byte := storeCode s.sram.bind (sramWord s a) (a / 8 * 8)

/-! ### The keys of a power-up (R20) -/

/-- A power-up's scrambling keys, one for each area, and its binding key are drawn where none stand. -/
def drawSram (s : State) : State :=
  if !s.sram.scramble.isEmpty then s
  else
    let d := drawBytes 144 s
    { d.2 with sram := ⟨(List.range 8).map (fun i => sub d.1 (16 * i) 16), d.1.drop 128⟩ }

/-- The keys are zeroised with the volatile keys: what the SRAM held is lost. -/
def zeroiseSram (s : State) : State := { s with sram := ⟨[], []⟩, mem := [], tags := [] }

end Sys2Proof.Machine
end

