-- ==== Sys2Proof/Machine/KeyOps.lean ====
section
/-!
DEFINITION. The key store's shared operations (06_keys): handles, the attribute block, budgets and their rows
(05_needles R130, R515), the state machine of a slot, identities, tombstone lists, allocation and retirement.
-/
namespace Sys2Proof.Machine
open Sys2Proof

/-! ### Handles (R147) -/

def hSlice (h : Nat) : Nat := bitsAt h 24 8
def hSlot (h : Nat) : Nat := bitsAt h 10 14
def hGen (h : Nat) : Nat := bitsAt h 0 10
def mkHandle (slice slot gen : Nat) : Nat := slice * 2 ^ 24 + slot * 2 ^ 10 + gen

/-- The handle passes R147 for the issuing slice, and names a slot of 256–16,383 (R146). -/
def handleOk (s : State) (slice h : Nat) : Bool :=
  let k := getKey s (hSlot h)
  hSlice h == slice && 256 ≤ hSlot h && k.owner == slice && k.gen == hGen h && k.extOf == none && k.st != .empty

/-! ### The attribute block (R150) -/

def aLevel (a : Nat) : Nat := bitsAt a 0 3
def aPurpose (a : Nat) : Nat := bitsAt a 4 4
def aUse (a : Nat) : Nat := bitsAt a 8 8
def aModes (a : Nat) : Nat := bitsAt a 16 8
def aExport (a : Nat) : Nat := bitsAt a 24 2
def aStore (a : Nat) : Nat := bitsAt a 26 2
def aLegacyOut (a : Nat) : Bool := bitAt a 28
def aDukpt (a : Nat) : Bool := bitAt a 29
def aBudgetLog (a : Nat) : Nat := bitsAt a 32 6

def pPin : Nat := 1
def pData : Nat := 2
def pMac : Nat := 3
def pCred : Nat := 4
def pJournal : Nat := 5
def pAgree : Nat := 6

/-- Use bits by their number in the block. -/
def uEncrypt : Nat := 8
def uDecrypt : Nat := 9
def uMacGen : Nat := 10
def uMacVer : Nat := 11
def uWrap : Nat := 12
def uUnwrap : Nat := 13
def uDerive : Nat := 14
def uAgree : Nat := 15
/-- Mode bits by their number in the block. -/
def mCbc : Nat := 16
def mCtr : Nat := 17
def mGcm : Nat := 18
def mXts : Nat := 19
def mCmac : Nat := 20
def mKw : Nat := 21
def mFf1 : Nat := 22
def mPin : Nat := 23

/-- A key that is not symmetric by its type code (R510). -/
def typAsym (t : Nat) : Bool := 0x10 ≤ t && t < 0x40
def typAes (t : Nat) : Bool := t == 1 || t == 2 || t == 3
def typXts (t : Nat) : Bool := t == 5 || t == 6
def typTdes (t : Nat) : Bool := t == 4
def typSym (t : Nat) : Bool := 1 ≤ t && t ≤ 6
def typSecret (t : Nat) : Bool := 0x50 ≤ t && t ≤ 0x53
def typSeam (t : Nat) : Bool := t == 0x40 || t == 0x41

/-- A level from 4 holds keys of this type (R144). -/
def levelHolds (level typ : Nat) : Bool :=
  if level == 4 then typAes typ
  else if level == 5 then typSym typ || (0x30 ≤ typ && typ ≤ 0x32)
  else if level == 6 then typSym typ || typAsym typ || typSecret typ
  else typSym typ || typAsym typ

/-- The block is refused with `ST_BAD_FIELD` (R144, R145, R150): level outside 4–7, an algorithm that its level does
not hold, a reserved bit, an undefined code, or a forbidden combination for a key of this type. -/
def attrBad (typ a : Nat) : Bool :=
  aLevel a < 4 || !levelHolds (aLevel a) typ || bitAt a 3 || aPurpose a == 0 || aPurpose a > 6 || aExport a == 3 || aStore a == 3 ||
  bitsAt a 30 2 != 0 || aBudgetLog a > 48 || bitsAt a 38 2 != 0 ||
  (bitAt a uAgree && (typSym typ || aPurpose a != pAgree)) ||
  ((bitAt a uWrap || bitAt a uUnwrap) && aLevel a == 7) ||
  (aStore a == 2 && aLevel a == 4) ||
  (aLegacyOut a && aPurpose a != pPin) ||
  (aDukpt a && (aLevel a == 7 || aPurpose a != pPin))

/-! ### Budgets (R130, R515, R152) -/

/-- Budget rows: 0 CTR and CBC, 1 GCM, 2 XTS, 3 CMAC, 4 KW and KWP, 5 FF1, 6 TDES. -/
def budgetRow (typ a : Nat) : Nat :=
  if typTdes typ then 6
  else if bitAt a mCbc || bitAt a mCtr then 0
  else if bitAt a mGcm then 1
  else if bitAt a mXts then 2
  else if bitAt a mCmac then 3
  else if bitAt a mKw then 4
  else if bitAt a mFf1 then 5
  else 0

/-- The default budget of a row, as a power of two. -/
def rowLog : Nat → Nat
  | 0 => 40
  | 1 => 32
  | 2 => 36
  | 3 => 48
  | 4 => 32
  | 5 => 40
  | _ => 20

/-- The row counts blocks, not invocations or items. -/
def rowBlocks (r : Nat) : Bool := r == 0 || r == 2 || r == 3 || r == 6

/-- Units of a reservation of one row (R130); the whole budget for TDES. -/
def rowUnit : Nat → Nat
  | 0 => 2 ^ 16
  | 2 => 2 ^ 16
  | 3 => 2 ^ 16
  | 6 => 2 ^ 20
  | _ => 1

/-- A key's initial budget (R130, R150). -/
def initialBudget (typ a : Nat) : Nat :=
  let d := rowLog (budgetRow typ a)
  2 ^ (if aBudgetLog a == 0 then d else min d (aBudgetLog a))

/-- What a use deducts: its block operations from a key whose row counts blocks, its invocations or items from one
whose row counts those (R515). -/
def deduction (k : KeySlot) (blocks inv : Nat) : Nat :=
  if rowBlocks (budgetRow k.typ k.attr) then blocks else inv

/-- `⌊log2 x⌋`, 0 for 0 (KST_BUDGET.LOG). -/
def floorLog2 (x : Nat) : Nat := Nat.log2 x

/-! ### Slots an extended key takes (R149) -/

def slotsOf (typ : Nat) : Nat :=
  if typXts typ then 2
  else if typ == 0x30 then 6
  else if typ == 0x31 then 8
  else if typ == 0x32 then 11
  else if typSeam typ then 3
  else 1

/-- Key bytes of a symmetric type. -/
def typBytes (t : Nat) : Nat :=
  match t with
  | 1 => 16
  | 2 => 24
  | 3 => 32
  | 4 => 24
  | 5 => 32
  | 6 => 64
  | _ => 0

/-! ### Counting -/

/-- Slots a slice holds, extension slots included (R148, R149). -/
def heldSlots (s : State) (slice : Nat) : Nat :=
  s.keys.foldl (fun n e => if e.2.st != .empty && e.2.owner == slice && 256 ≤ e.1 then n + 1 else n) 0

/-- Free slots of 256–16,383. -/
def freeSlots (s : State) : Nat :=
  s.keys.foldl (fun n e => if e.2.st != .empty && 256 ≤ e.1 then n - 1 else n) 16128

/-! ### Identity (R153, R510) -/

/-- The domain identity key, derived from L2 (PRESUMED: the derivation is not printed). -/
def domainIdKey (s : State) : Bytes := padTo 32 (Config.pk 20 [(getKey s 0).material])

/-- The identity: leftmost 16 bytes of AES-CMAC over type code and material. -/
def keyIdent (s : State) (typ : Nat) (material : Bytes) : Bytes :=
  (cmac (domainIdKey s) (BitVec.ofNat 8 typ :: material)).take 16

/-- The 3-byte check value (R126). -/
def checkValue (typ : Nat) (material : Bytes) : Bytes :=
  if typTdes typ then (tdesEnc material (zeros 8)).take 3
  else if typXts typ then (cmac (material.take (material.length / 2)) (zeros 16)).take 3
  else (cmac material (zeros 16)).take 3

/-! ### State changes (R157) -/

/-- The next generation: 1 to 1,023, wrapping to 1 (R148). -/
def nextGen (g : Nat) : Nat := if g ≥ 1023 then 1 else g + 1

/-- The slot table with a slot's generation, recorded where it is a multiple of 16. -/
def recordGen (base : Nat) (table : List (Nat × Nat)) (n g : Nat) : List (Nat × Nat) :=
  if g % 16 == 0 then tput base table n g else table

/-- The generation 16 places on in the cycle of 1 to 1,023. -/
def bootGen (g : Nat) : Nat := 1 + (g + 15) % 1023

/-- A slot that a stored key's record takes up, extension slots included: no other key takes it (R158, R165). -/
def heldByRecord (s : State) (n : Nat) : Bool := s.records.any (fun r => r.slot ≤ n && n ≤ r.slot + r.ext)

/-- At a boot, every slot that holds no stored key resumes at its recorded generation plus 16, and that is recorded. -/
def bootGens (s : State) : State :=
  let held := ((s.slotTable.map (·.1)) ++ s.records.flatMap (fun r => (List.range (r.ext + 1)).map (r.slot + ·))).eraseDups
  let base := bootGen s.slotBase
  { s with
    slotBase := base
    slotTable := held.foldl (fun t n => tput base t n
      (if heldByRecord s n then freshGen s n else bootGen (freshGen s n))) [] }

/-- Every slot is zeroised, its generation advanced (R166). -/
def zeroiseStore (s : State) : State :=
  let live := s.keys.filter (fun e => e.2.st != .empty)
  { s with
    keys := s.keys.map (fun e =>
      (e.1, { KeySlot.empty with gen := if e.2.st == .empty then e.2.gen else nextGen e.2.gen }))
    slotTable := live.foldl (fun t e => recordGen s.slotBase t e.1 (nextGen e.2.gen)) s.slotTable
    freed := s.freed ++ (live.filter (fun e => 256 ≤ e.1)).map (·.1)
    recordDue := [], reserveDue := [] }

/-- A slot returns to EMPTY: material and header zeroised, generation advanced, slot freed; a generation that is a
multiple of 16 is recorded in the slot table (R148). -/
def emptySlot (s : State) (n : Nat) : State :=
  let k := getKey s n
  let g := nextGen k.gen
  let s1 := setKey s n { KeySlot.empty with gen := g }
  { s1 with
    freed := if 256 ≤ n then s1.freed ++ [n] else s1.freed
    slotTable := recordGen s1.slotBase s1.slotTable n g }

/-- Empties a key with its extension slots. -/
def emptyKey (s : State) (n : Nat) : State :=
  (List.range ((getKey s n).ext + 1)).foldl (fun s i => emptySlot s (n + i)) s

/-- Nothing further is written for a key: neither its record nor a reservation. -/
def stopRecord (s : State) (n : Nat) : State :=
  { s with recordDue := s.recordDue.filter (fun r => r.1 != n)
           reserveDue := s.reserveDue.filter (fun r => r.1 != n) }

/-- A key's stored record is overwritten with a deletion marker (R165); a VAULT record's marker goes to the journal in a
kerf, and the slot stays taken until then. -/
def dropRecord (s : State) (n : Nat) : State :=
  stopRecord { s with records := s.records.flatMap (fun r =>
    if r.slot != n then [r]
    else if r.inVault then [{ r with wrapped := [], mac := [], gone := true }] else []) } n

/-- A slot that is KILLED, or RETIRED other than by an integrity failure: its record is deleted as it becomes EMPTY
(R165). -/
def doomed (k : KeySlot) : Bool := k.st == .killed || (k.st == .retired && !k.failed)

/-- The keys whose parent is `n`, directly (R145). -/
def childrenOf (s : State) (n : Nat) : List Nat :=
  (s.keys.filter (fun e => e.2.parent == n && e.1 != n && 256 ≤ e.1 && e.2.extOf == none && e.2.st != .empty)).map (·.1)

/-- A slot enters RETIRED or KILLED: the state, with the admission order and tick of the change. -/
def endKey (s : State) (n : Nat) (st : KeySt) : State :=
  setKey s n { getKey s n with st := st, changed := s.ctxOrder, changedTick := s.tick.count }

/-- A key beneath one that ended is RETIRED, unless it has ended already (R157). -/
def retireKey (s : State) (n : Nat) : State :=
  let st := (getKey s n).st
  if st == .loaded || st == .active || st == .spent then stopRecord (endKey s n .retired) n else s

/-- Retires every key beneath the given slots, down the whole chain; `fuel` bounds the depth (seven levels). -/
def retireBelow : (fuel : Nat) → State → List Nat → State
  | 0, s, _ => s
  | fuel + 1, s, ns =>
    let cs := ns.flatMap (childrenOf s)
    if cs.isEmpty then s
    else
      let s1 := cs.foldl retireKey s
      retireBelow fuel s1 cs

/-- `KEY_KILL` in step 5: the key is KILLED, its identity pends as a tombstone, everything beneath is retired
(R154, R157). -/
def killKey (s : State) (n : Nat) : State :=
  let k := getKey s n
  let s1 := stopRecord (endKey s n .killed) n
  let s2 := { s1 with tombPend := s1.tombPend ++ [k.ident] }
  let s3 := if s2.tombPend.length == 256 then setFlag s2 Reg.KST_EVT_TOMB_FULL true else s2
  retireBelow 8 s3 [n]

/-- A deduction at admission (R93): SPENT when it leaves zero. -/
def deductKey (s : State) (n d : Nat) : State :=
  if d = 0 then s
  else
    let k := getKey s n
    let b := k.budget - d
    setKey s n { k with budget := b, st := if b = 0 && k.st == .active then .spent else k.st }

/-- A refund (R93, step 2): a SPENT key with budget again is ACTIVE. -/
def refundKey (s : State) (n d : Nat) : State :=
  if d = 0 then s
  else
    let k := getKey s n
    if k.st == .empty then s
    else setKey s n { k with budget := k.budget + d, st := if k.st == .spent then .active else k.st }

/-- A command admitted before the slot's change still runs and names the key, or is creating it (R157). -/
def keyInUse (s : State) (n : Nat) : Bool :=
  s.ctxs.any (fun e => e.2.phase == .running && e.2.order < (getKey s n).changed &&
    ((match e.2.keyA with | some u => u.slot == n | none => false) ||
     (match e.2.keyB with | some u => u.slot == n | none => false) || e.2.newSlots.contains n))

/-- A RETIRED or KILLED slot becomes EMPTY, with its extension slots, once no such command is left; in the kerf
after the change at the earliest (R157). -/
def zeroiseSlot (s : State) (n : Nat) : State :=
  let k := getKey s n
  if (k.st == .retired || k.st == .killed) && k.extOf == none && k.changedTick < s.tick.count && !keyInUse s n then
    (if doomed k then dropRecord (emptyKey s n) n else stopRecord (emptyKey s n) n)
  else s

/-! ### Allocation (R148, R149) -/

/-- `n` consecutive EMPTY slots from `a`, none of them kept for a stored key that is to return. -/
def emptyRun (s : State) (a n : Nat) : Bool :=
  (List.range n).all (fun i => (getKey s (a + i)).st == .empty && a + i < 16384 && !heldByRecord s (a + i))

/-- The first run of `n` free slots from `a` upward that begins with a slot not used since the boot. -/
def freshRun (s : State) (n : Nat) : (fuel : Nat) → (a : Nat) → Option Nat
  | 0, _ => none
  | fuel + 1, a => if emptyRun s a n && !s.freed.contains a then some a else freshRun s n fuel (a + 1)

/-- The first slot of a run of `n` free slots: one not used since the boot, or else the one freed longest ago. An
extended key needs consecutive slots; the order of choice among runs is the model's (notes/assumptions/8.md). -/
def chooseSlots (s : State) (n : Nat) : Option Nat :=
  match freshRun s n (16384 - s.fresh) s.fresh with
  | some a => some a
  | none => s.freed.find? (fun a => emptyRun s a n)

/-- Marks `n` slots from `a` as LOADED for a slice, the first the key's slot, the others its extension. -/
def loadSlots (s : State) (a n slice level parent attr typ : Nat) : State :=
  let s1 := (List.range n).foldl (fun s i =>
    let k := getKey s (a + i)
    setKey s (a + i) { k with
      st := .loaded, owner := slice, level := level, parent := parent
      attr := if i = 0 then attr else 0
      typ := if i = 0 then typ else 0
      ext := if i = 0 then n - 1 else 0
      extOf := if i = 0 then none else some a }) s
  let s2 := if freeSlots s ≥ 256 && freeSlots s1 < 256 then setFlag s1 Reg.KST_EVT_LOW_FREE true else s1
  { s2 with freed := s2.freed.filter (fun x => !(decide (a ≤ x ∧ x < a + n)))
            fresh := if a = s2.fresh then a + n else s2.fresh }

/-- Puts the material into a LOADED key, with its identity and budget. -/
def fillKey (s : State) (a : Nat) (material : Bytes) (budget : Nat) : State :=
  let k := getKey s a
  setKey s a { k with material := material, ident := keyIdent s k.typ material, budget := budget, reserved := budget }

/-- A LOADED key and its extension slots become ACTIVE. -/
def activateKey (s : State) (a : Nat) : State :=
  (List.range ((getKey s a).ext + 1)).foldl (fun s i => setKey s (a + i) { getKey s (a + i) with st := .active }) s

/-! ### Tombstones (R154, R155) -/

/-- An identity is in the pending list or in a tombstone of the domain area (table code 5 of slice 0). -/
def tombstoned (s : State) (ident : Bytes) : Bool :=
  s.tombPend.contains ident ||
  s.vault.buckets.any (fun b => b.slice == 0 && b.table == 5 && b.cells.any (fun c => c.2.bytes == ident))

/-- Tombstones held in the domain area (KST_TOMB). -/
def tombCount (s : State) : Nat :=
  s.vault.buckets.foldl (fun n b => if b.slice == 0 && b.table == 5 then n + b.cells.length else n) 0

/-! ### Attribute limits from the parent (R151) -/

/-- The block a new key carries: EXPORT no looser than the parent's, VOLATILE under a VOLATILE parent. -/
def limitAttr (parentAttr a : Nat) : Nat :=
  let ex := min (aExport a) (aExport parentAttr)
  let st := if aStore parentAttr == 0 then 0 else aStore a
  a - aExport a * 2 ^ 24 - aStore a * 2 ^ 26 + ex * 2 ^ 24 + st * 2 ^ 26

end Sys2Proof.Machine
end

