-- ==== Sys2Proof/Machine/OpSpec.lean ====
section
/-!
DEFINITION. The data-path opcodes before they run (04_command_reference): the format and length rules of each, its
charge, its companion phases, the size of its output, and what each key it names must allow (R70, R91–R93, R151).
-/
namespace Sys2Proof.Machine
open Sys2Proof

/-! ### Opcodes -/

def opCipher : Nat := 0x01
def opTranslate : Nat := 0x02
def opMacGen : Nat := 0x03
def opMacVerify : Nat := 0x04
def opHash : Nat := 0x05
def opPinTranslate : Nat := 0x08
def opPinVerify : Nat := 0x09
def opDukpt : Nat := 0x0A
def opTokenize : Nat := 0x10
def opDetokenize : Nat := 0x11
def opVaultPut : Nat := 0x12
def opVaultGet : Nat := 0x13
def opVaultDelete : Nat := 0x14
def opCredIssue : Nat := 0x18
def opCredRedeem : Nat := 0x19
def opCredKill : Nat := 0x1A
def opSignSeam : Nat := 0x20
def opVerifySeam : Nat := 0x21
def opKemEncaps : Nat := 0x22
def opKemDecaps : Nat := 0x23
def opEcdh : Nat := 0x24
def opKeyGenerate : Nat := 0x28
def opKeyImport : Nat := 0x29
def opKeyExport : Nat := 0x2A
def opKeyDerive : Nat := 0x2B
def opKeyKill : Nat := 0x2C
def opRandom : Nat := 0x30
def opAttest : Nat := 0x31
def opInfill : Nat := 0x38
def opSelftest : Nat := 0x3E
def opAbort : Nat := 0x3F

/-- The data-path opcodes of R91. -/
def dataOpcodes : List Nat :=
  [0x01, 0x02, 0x03, 0x04, 0x05, 0x08, 0x09, 0x0A, 0x10, 0x11, 0x12, 0x13, 0x14, 0x18, 0x19, 0x1A, 0x20, 0x21, 0x22,
   0x23, 0x24, 0x28, 0x29, 0x2A, 0x2B, 0x2C, 0x30, 0x31, 0x38, 0x3E, 0x3F]

/-! ### Engine classes -/

def clNeedle : Nat := 0
def clHash : Nat := 1
def clVault : Nat := 2
def clPost : Nat := 3
/-- Purlin `p` is class `4 + p`; 4 stands for the purlin class before a purlin is assigned (R89). -/
def clPurlin : Nat := 4
/-- No charged class: a fence, an ABORT, an admin command. -/
def clNone : Nat := 12

/-! ### Class parameters, flags and the parameter word (R70) -/

/-- Bits of the parameter word outside a mask are clear. -/
def paramOk (e : Bytes) (mask : Nat) : Bool := (eParam e &&& mask) == eParam e

/-- Class parameter bytes outside the given (offset, length) ranges, offsets from 0x28, are zero. -/
def clsOk (e : Bytes) (used : List (Nat × Nat)) : Bool :=
  (List.range 24).all (fun i =>
    used.any (fun u => u.1 ≤ i && i < u.1 + u.2) || byteAt e (0x28 + i) == 0)

/-- Only the given flags of byte 1 are set; bit 1 is NOIRQ, which every opcode defines. -/
def flagsOk (e : Bytes) (allowed : Nat) : Bool := (eFlags e &&& (allowed ||| 2)) == eFlags e

/-- Handles that the opcode does not use are zero. -/
def keysOk (e : Bytes) (a b : Bool) : Bool := (a || eKeyA e == 0) && (b || eKeyB e == 0)

/-! ### Fields of CIPHER and CIPHER_TRANSLATE (R98, R100) -/

def mdCbc : Nat := 1
def mdCtr : Nat := 2
def mdGcm : Nat := 3
def mdXts : Nat := 4

def cMode (e : Bytes) : Nat := bitsAt (eParam e) 0 4
def cDecrypt (e : Bytes) : Bool := bitAt (eParam e) 4
def cIvgen (e : Bytes) : Bool := bitAt (eParam e) 5
def cCtrw (e : Bytes) : Nat := bitsAt (eParam e) 6 2
def cTagLen (e : Bytes) : Nat := bitsAt (eParam e) 8 5
def cIv (e : Bytes) : Bytes := sub e 0x28 16
def cAad (e : Bytes) : Nat := leAt e 0x38 4

def tInMode (e : Bytes) : Nat := bitsAt (eParam e) 0 4
def tOutMode (e : Bytes) : Nat := bitsAt (eParam e) 4 4
def tInTag (e : Bytes) : Nat := bitsAt (eParam e) 8 5
def tInCtrw (e : Bytes) : Nat := bitsAt (eParam e) 13 2
def tOutTag (e : Bytes) : Nat := bitsAt (eParam e) 16 5

/-- Counter bits of a CTRW code. -/
def ctrBits (c : Nat) : Nat := 2 ^ (5 + c)

/-- The text length of CIPHER (R99); the source is shorter than its fixed parts only in a refused command. -/
def cipherText (e : Bytes) : Nat :=
  if cMode e == mdGcm then eLen e - cAad e - (if cDecrypt e then cTagLen e else 0) else eLen e

/-- Block count of one side (R99). -/
def sideBlocks (mode t aad : Nat) : Nat :=
  ceilDiv t 16 + (if mode == mdXts then 1 else if mode == mdGcm then ceilDiv aad 16 + 2 else 0)

def translateText (e : Bytes) : Nat :=
  if tInMode e == mdGcm then eLen e - cAad e - tInTag e else eLen e

def tagLenOk (n : Nat) : Bool := 12 ≤ n && n ≤ 16

/-! ### The format of an opcode -/

/-- What an opcode fixes about an entry: whether a field or a length is refused, the charge, the companions, the
output size and the part that may be transformed in place. -/
structure OpInfo where
  badField : Bool
  badLength : Bool
  cls : Nat
  units : Nat
  compV : Nat
  compH : Nat
  /-- Takes two control shares (R87). -/
  ctrl : Bool
  serial : Bool
  /-- Vault table whose units the command needs (R214); 0 for none. -/
  table : Nat
  /-- Refused while the slice's reload runs (R193). -/
  vaultCmd : Bool
  out : Nat
  inOff : Nat
  inLen : Nat
deriving DecidableEq, Repr

def OpInfo.mk0 (badField badLength : Bool) (cls units : Nat) : OpInfo :=
  ⟨badField, badLength, cls, units, 0, 0, false, false, 0, false, 0, 0, 0⟩

/-- 2^24, the longest source (R92). -/
def maxSource : Nat := 16777216

/-- The device number of IVs is set (R128). -/
def devNo (s : State) : Nat := getF s Reg.NDL_IVFIX_DEVNO

def infoCipher (s : State) (e : Bytes) : OpInfo :=
  let m := cMode e
  let t := cipherText e
  let n := sideBlocks m t (cAad e)
  let gcmDec := m == mdGcm && cDecrypt e
  let fixed := if m == mdGcm then cAad e + (if cDecrypt e then cTagLen e else 0) else 0
  let bf := m == 0 || m > 4 || !paramOk e 0x1FFF || !flagsOk e (if gcmDec then 1 else 0) || !keysOk e true false ||
    !clsOk e [(0, 16), (16, 4)] || (m != mdGcm && cAad e != 0) || (m != mdCtr && cCtrw e != 0) ||
    (m == mdCtr && cCtrw e == 3) || (m != mdGcm && cTagLen e != 0) || (m == mdGcm && leAt e 0x34 4 != 0) ||
    (cIvgen e && (cDecrypt e || m == mdXts || !allZero (cIv e) || (m == mdCtr && cCtrw e != 0) || devNo s == 0)) ||
    (approved s && m == mdGcm && !cDecrypt e && !cIvgen e) ||
    (m == mdCtr && !cIvgen e && ctrWraps (cIv e) (ctrBits (cCtrw e)) (ceilDiv t 16))
  let out := if m == mdGcm && !cDecrypt e then t + cTagLen e else t
  let bl := eLen e > maxSource || eLen e < fixed || eCap e < out ||
    (m == mdCbc && (t < 16 || t % 16 != 0)) || (m == mdCtr && t < 1) || (m == mdXts && t < 16) ||
    (m == mdGcm && (cAad e > 65536 || !tagLenOk (cTagLen e)))
  { OpInfo.mk0 bf bl clNeedle (ceilDiv n 16 + (if gcmDec && eScrub e then ceilDiv t 256 else 0)) with
    serial := m == mdCbc && !cDecrypt e
    out := out, inOff := if m == mdGcm then cAad e else 0, inLen := t }

def infoTranslate (s : State) (e : Bytes) : OpInfo :=
  let i := tInMode e
  let o := tOutMode e
  let t := translateText e
  let inGcm := i == mdGcm
  let outGcm := o == mdGcm
  let fixed := if inGcm then cAad e + tInTag e else 0
  let bf := i == 0 || i > 3 || o == 0 || o > 3 || !paramOk e 0x1F7FFF || !flagsOk e (if inGcm then 1 else 0) ||
    !clsOk e [(0, 16), (16, 4)] || (!inGcm && cAad e != 0) || (!inGcm && tInTag e != 0) ||
    (!outGcm && tOutTag e != 0) || (i != mdCtr && tInCtrw e != 0) || (i == mdCtr && tInCtrw e == 3) ||
    (inGcm && leAt e 0x34 4 != 0) || (o != mdCbc && devNo s == 0) ||
    (i == mdCtr && ctrWraps (cIv e) (ctrBits (tInCtrw e)) (ceilDiv t 16))
  let out := if outGcm then cAad e + t + tOutTag e else t
  let bl := eLen e > maxSource || eLen e < fixed || eCap e < out ||
    ((i == mdCbc || o == mdCbc) && (t < 16 || t % 16 != 0)) || ((i == mdCtr || o == mdCtr) && t < 1) ||
    (inGcm && (cAad e > 65536 || !tagLenOk (tInTag e))) || (outGcm && !tagLenOk (tOutTag e))
  let n := sideBlocks i t (cAad e) + sideBlocks o t (cAad e)
  { OpInfo.mk0 bf bl clNeedle (ceilDiv n 16 + (if inGcm && eScrub e then ceilDiv t 256 else 0)) with
    serial := o == mdCbc, out := out, inOff := if inGcm then cAad e else 0, inLen := t }

/-- `MACLEN` of MAC_GEN and MAC_VERIFY. -/
def macLen (e : Bytes) : Nat := bitsAt (eParam e) 8 5

def infoMac (e : Bytes) (verify : Bool) : OpInfo :=
  let t := eLen e - (if verify then macLen e else 0)
  let bf := !paramOk e 0x1F0F || bitsAt (eParam e) 0 4 != 1 || !flagsOk e 0 || !keysOk e true false ||
    !clsOk e [] || eCap e != 0
  let bl := macLen e < 4 || macLen e > 16 || eLen e > maxSource || (verify && eLen e < macLen e)
  { OpInfo.mk0 bf bl clNeedle (ceilDiv (max 1 (ceilDiv t 16)) 16) with serial := true }

/-- Compressions of a digest over `l` bytes (R102). -/
def hashComps (alg l : Nat) : Nat :=
  match alg with
  | 1 => (l + 8) / 64 + 1
  | 2 => (l + 16) / 128 + 1
  | 3 => (l + 16) / 128 + 1
  | 4 => l / 136 + 1
  | 5 => l / 104 + 1
  | _ => l / 72 + 1

def digestLen (alg : Nat) : Nat :=
  match alg with
  | 1 => 32
  | 2 => 48
  | 3 => 64
  | 4 => 32
  | 5 => 48
  | _ => 64

def infoHash (e : Bytes) : OpInfo :=
  let alg := bitsAt (eParam e) 0 4
  { OpInfo.mk0 (alg == 0 || alg > 6 || !paramOk e 0xF || !flagsOk e 0 || !keysOk e false false || !clsOk e [])
      (eLen e > maxSource || eCap e < digestLen alg) clHash (ceilDiv (hashComps alg (eLen e)) 4) with
    out := digestLen alg }

/-- Items of a batch of the given item size. -/
def items (e : Bytes) (size : Nat) : Nat := eLen e / size

/-- The source of a batch holds 1 to `mmax` items, or exactly one without BATCH. -/
def batchLenBad (e : Bytes) (size mmax : Nat) : Bool :=
  eLen e == 0 || eLen e % size != 0 || items e size > mmax || (!eBatch e && items e size != 1)

/-- The flags byte's BATCH bit. -/
def fBatch : Nat := 4

def fmtOk (f : Nat) : Bool := f == 0 || f == 1 || f == 3 || f == 4
/-- Grains of one side of a PIN command (R104). -/
def fmtGrains (f : Nat) : Nat := if f == 4 then 30 else 40

def pInFmt (e : Bytes) : Nat := bitsAt (eParam e) 0 4
def pOutFmt (e : Bytes) : Nat := bitsAt (eParam e) 4 4

def infoPinTranslate (e : Bytes) : OpInfo :=
  let bf := !paramOk e 0xFF || !fmtOk (pInFmt e) || !fmtOk (pOutFmt e) || (pOutFmt e == 1 && pInFmt e != 1) ||
    !flagsOk e fBatch || !clsOk e []
  let g := fmtGrains (pInFmt e) + fmtGrains (pOutFmt e)
  { OpInfo.mk0 bf (batchLenBad e 48 1024 || eCap e < eLen e) clPost (ceilDiv (items e 48 * g) 128) with
    out := eLen e, inLen := eLen e }

def infoPinVerify (e : Bytes) : OpInfo :=
  OpInfo.mk0 (!paramOk e 0xF || !fmtOk (pInFmt e) || !flagsOk e 0 || !clsOk e [] || eCap e != 0)
    (eLen e != 48) clPost 1

/-- `ACTION` and `KSIZE` of DUKPT_DERIVE (R106). -/
def dAction (e : Bytes) : Nat := bitsAt (eParam e) 0 2
def dKsize (e : Bytes) : Nat := bitsAt (eParam e) 8 2

def infoDukpt (e : Bytes) : OpInfo :=
  let g := (if dKsize e == 0 then 15 else 30) + (if dAction e == 1 then 60 else 0)
  { OpInfo.mk0 (!paramOk e 0x303 || dAction e > 1 || dKsize e > 2 || !flagsOk e fBatch || !clsOk e [])
      (batchLenBad e 64 512 || eCap e < eLen e) clPost (ceilDiv (items e 64 * g) 128) with
    out := eLen e, inLen := eLen e }

def kVaulted (e : Bytes) : Bool := bitAt (eParam e) 0
def kTweakLen (e : Bytes) : Nat := bitsAt (eParam e) 8 5

/-- Table codes of R214. -/
def tbTok : Nat := 1
def tbRev : Nat := 2
def tbGen : Nat := 3
def tbCrd : Nat := 4
def tbTmb : Nat := 5

/-- `p` is the largest number of needle slots the group holds on any one needle (R121). -/
def infoToken (e : Bytes) (detok : Bool) (p : Nat) : OpInfo :=
  let m := items e 32
  let v := kVaulted e
  let bf := !paramOk e 0x1F01 || !flagsOk e fBatch || !keysOk e true false || !clsOk e [(0, 16)] ||
    (v && (kTweakLen e != 0 || !allZero (sub e 0x28 16)))
  let bl := batchLenBad e 32 1024 || eCap e < eLen e || kTweakLen e > 16
  { OpInfo.mk0 bf bl (if v then clVault else clNeedle)
      (if v then (if detok then m else 3 * m) else ceilDiv (30 * m) 16) with
    ctrl := v || detok, serial := !v && m < p, table := if v then tbTok else 0, vaultCmd := v
    out := eLen e, inLen := eLen e }

def infoVaultPut (e : Bytes) : OpInfo :=
  { OpInfo.mk0 (!paramOk e 0 || !flagsOk e 0 || !keysOk e true false || !clsOk e [] || eCap e != 0)
      (eLen e < 32 || eLen e > 1056) clVault (2 + ceilDiv (eLen e - 32) 256) with
    ctrl := true, table := tbGen, vaultCmd := true }

def infoVaultGet (e : Bytes) : OpInfo :=
  { OpInfo.mk0 (!paramOk e 0 || !flagsOk e 0 || !keysOk e true false || !clsOk e [])
      (eLen e != 32 || eCap e > 1024) clVault (1 + ceilDiv (eCap e) 256) with
    ctrl := true, table := tbGen, vaultCmd := true, out := eCap e }

def infoVaultDelete (e : Bytes) : OpInfo :=
  { OpInfo.mk0 (!paramOk e 0 || !flagsOk e 0 || !keysOk e true false || !clsOk e [] || eCap e != 0)
      (eLen e != 32) clVault 2 with ctrl := true, table := tbGen, vaultCmd := true }

def infoCredIssue (e : Bytes) : OpInfo :=
  let lim := byteAt e 0x38
  let dig := byteAt e 0x39
  let life := leAt e 0x3C 2
  { OpInfo.mk0 (!paramOk e 0 || !flagsOk e 0 || !clsOk e [(0, 18), (20, 2)] || lim < 1 || lim > 15 || dig < 6 ||
        dig > 10 || life < 1 || life > 8760) (eLen e != 32 || eCap e < 5288) clPurlin 52 with
    compV := 3, ctrl := true, table := tbCrd, vaultCmd := true, out := 5288 }

def infoCredUse (e : Bytes) (redeem : Bool) : OpInfo :=
  { OpInfo.mk0 (!paramOk e 0 || !flagsOk e 0 || !keysOk e true false || !clsOk e [(0, 16)] || eCap e != 0)
      (if redeem then eLen e < 6 || eLen e > 10 else eLen e != 0) clVault 2 with
    ctrl := true, table := tbCrd, vaultCmd := true }

/-- `SET` of the seam and purlin commands. -/
def eSet (e : Bytes) : Nat := bitsAt (eParam e) 0 4

def containerLen (set : Nat) : Nat := if set == 1 then 5208 else 3420
/-- HSS levels of a set (R232). -/
def hssLevels (set : Nat) : Nat := if set == 1 then 3 else 2

def setBad (e : Bytes) : Bool := eSet e != 1 && eSet e != 2

def infoSignSeam (e : Bytes) : OpInfo :=
  { OpInfo.mk0 (!paramOk e 0xF || setBad e || !flagsOk e 0 || !keysOk e true false || !clsOk e [])
      (eLen e < 1 || eLen e > 4096 || eCap e < containerLen (eSet e)) clPurlin 52 with
    ctrl := true, out := containerLen (eSet e) }

/-- Message length of VERIFY_SEAM. -/
def vsMsgLen (e : Bytes) : Nat := leAt e 0x28 4

def infoVerifySeam (e : Bytes) : OpInfo :=
  let m := vsMsgLen e
  { OpInfo.mk0 (!paramOk e 0xF || setBad e || !flagsOk e 0 || !keysOk e true false || !clsOk e [(0, 4)] || eCap e != 0)
      (m < 1 || m > 4096 || eLen e != m + containerLen (eSet e)) clPurlin 64 with
    compH := 200 * hssLevels (eSet e), ctrl := true }

/-- The attribute block at an offset of the entry. -/
def attrAt (e : Bytes) (off : Nat) : Nat := leAt e off 8

/-- The block that a shared secret must carry (R110). -/
def secretAttrBad (typ a : Nat) : Bool :=
  attrBad typ a || aLevel a != 6 || aPurpose a != pAgree || aUse a != 64 || aExport a != 0

def kemCtLen (set : Nat) : Nat := if set == 1 then 1088 else 1568
def kemKeyLen (set : Nat) : Nat := if set == 1 then 1184 else 1568

def infoKemEncaps (e : Bytes) : OpInfo :=
  { OpInfo.mk0 (!paramOk e 0xF || setBad e || !flagsOk e 0 || !keysOk e false false || !clsOk e [(0, 8)] ||
        secretAttrBad (0x51 + eSet e) (attrAt e 0x28))
      (eLen e != kemKeyLen (eSet e) || eCap e < kemCtLen (eSet e)) clPurlin (2 + eSet e) with
    compV := 1, ctrl := true, table := tbTmb, out := kemCtLen (eSet e) }

def infoKemDecaps (e : Bytes) : OpInfo :=
  { OpInfo.mk0 (!paramOk e 0xF || setBad e || !flagsOk e 0 || !keysOk e true false || !clsOk e [(8, 8)] ||
        secretAttrBad (0x51 + eSet e) (attrAt e 0x30) || eCap e != 0)
      (eLen e != kemCtLen (eSet e)) clPurlin (3 + eSet e) with compV := 1, ctrl := true, table := tbTmb }

def pointLen (set : Nat) : Nat := if set == 1 then 65 else 97

def infoEcdh (e : Bytes) : OpInfo :=
  { OpInfo.mk0 (!paramOk e 0xF || setBad e || !flagsOk e 0 || !keysOk e true false || !clsOk e [(8, 8)] ||
        secretAttrBad (0x4F + eSet e) (attrAt e 0x30) || eCap e != 0)
      (eLen e != pointLen (eSet e)) clPurlin (if eSet e == 1 then 16 else 36) with compV := 1, ctrl := true, table := tbTmb }

/-- `TYPE` of KEY_GENERATE. -/
def gType (e : Bytes) : Nat := bitsAt (eParam e) 0 8

def genTypeOk (t : Nat) : Bool := typSym t || t == 0x10 || t == 0x11 || t == 0x20 || t == 0x21

/-- The public output of a generated key. -/
def genOut (t : Nat) : Nat :=
  match t with
  | 0x10 => 65
  | 0x11 => 97
  | 0x20 => 1184
  | 0x21 => 1568
  | _ => 0

def genUnits (t : Nat) : Nat :=
  match t with
  | 0x10 => 16
  | 0x11 => 36
  | 0x20 => 2
  | 0x21 => 3
  | _ => 1

def infoKeyGenerate (e : Bytes) : OpInfo :=
  let t := gType e
  { OpInfo.mk0 (!paramOk e 0xFF || !genTypeOk t || !flagsOk e 0 || !keysOk e false false || !clsOk e [(0, 8)] ||
        attrBad t (attrAt e 0x28) || (typSym t && eCap e != 0))
      (eLen e != 0 || eCap e < genOut t) (if typSym t then clNeedle else clPurlin) (genUnits t) with
    compV := 1, ctrl := true, table := tbTmb, out := genOut t }

def xFormat (e : Bytes) : Nat := bitsAt (eParam e) 0 4
def xType (e : Bytes) : Nat := bitsAt (eParam e) 16 8
/-- The modulus code of RSA_OAEP, bytes of its modulus, and its charge (R112). -/
def xMod (e : Bytes) : Nat := bitsAt (eParam e) 8 2
def modBytes (m : Nat) : Nat := if m == 0 then 256 else if m == 1 then 384 else 512
def modTicks (m : Nat) : Nat := if m == 0 then 375 else if m == 1 then 1266 else 3000

def infoKeyImport (e : Bytes) : OpInfo :=
  let f := xFormat e
  let t := xType e
  let l := eLen e
  let typOk := if f == 1 then t == 0
    else (1 ≤ t && t ≤ 3) || t == 5 || t == 6 || (t == 4 && (f == 2 || f == 3))
  let bf := f == 0 || f > 4 || !paramOk e (if f == 4 then 0xFF030F else 0xFF000F) || !typOk || !flagsOk e 0 ||
    (f == 4 && xMod e == 3) || !keysOk e true false || !clsOk e (if f == 1 then [] else [(0, 8)]) ||
    (f != 1 && attrBad t (attrAt e 0x28)) || eCap e != 0
  let bl := match f with
    | 1 => l < 48 || l > 2048
    | 2 => l < 24 || l > 520 || l % 8 != 0
    | 3 => l < 16 || l > 520 || l % 8 != 0
    | _ => l != modBytes (xMod e)
  let n := if f == 1 then 2 * ceilDiv l 16 + 4 else 6 * (l / 8 - 1)
  { OpInfo.mk0 bf bl (if f == 4 then clPurlin else clNeedle) (if f == 4 then modTicks (xMod e) else ceilDiv n 16) with
    compV := 1, ctrl := true, table := tbTmb, serial := f != 4 }

def infoKeyExport (e : Bytes) : OpInfo :=
  let f := xFormat e
  { OpInfo.mk0 (f == 0 || f > 3 || !paramOk e 0xF || !flagsOk e 0 || !clsOk e [])
      (eLen e != 0 || eCap e < (if f == 1 then 2048 else 520)) clNeedle 8 with
    ctrl := true, serial := true, out := if f == 1 then 2048 else 520 }

/-- Function, output type and attribute block of KEY_DERIVE (R113, R159). -/
def vFn (e : Bytes) : Nat := bitsAt (eParam e) 0 8
def vType (e : Bytes) : Nat := bitsAt (eParam e) 8 8

def infoKeyDerive (e : Bytes) : OpInfo :=
  let f := vFn e
  let t := vType e
  let fOk := f == 0x01 || f == 0x10 || f == 0x20 || f == 0x30 || f == 0x31
  { OpInfo.mk0 (!fOk || !((1 ≤ t && t ≤ 3) || (t == 4 && f == 1)) || !paramOk e 0xFFFF || !flagsOk e 0 ||
        !keysOk e true (f == 0x31) || attrBad t (attrAt e 0x38) || eCap e != 0 ||
        (f == 0x10 && !allZero (sub e 0x30 8)))
      (eLen e != 0) clNeedle 1 with compV := 1, ctrl := true, table := tbTmb, serial := true }

def infoKeyKill (e : Bytes) : OpInfo :=
  { OpInfo.mk0 (!paramOk e 0 || !flagsOk e 0 || !keysOk e true false || !clsOk e [] || eCap e != 0)
      (eLen e != 0) clVault 2 with ctrl := true, table := tbTmb }

def infoRandom (e : Bytes) : OpInfo :=
  { OpInfo.mk0 (!paramOk e 0 || !flagsOk e 0 || !keysOk e false false || !clsOk e [])
      (eLen e != 0 || eCap e < 1 || eCap e > 65536) clNeedle (ceilDiv (ceilDiv (eCap e) 16 + 3) 16) with
    out := eCap e }

def infoAttest (e : Bytes) : OpInfo :=
  { OpInfo.mk0 (!paramOk e 1 || !flagsOk e 0 || !keysOk e false false) (eLen e != 0 || eCap e < 3932) clPurlin 52 with
    ctrl := true, out := 3932 }

/-- Declared slots of INFILL_CALL. -/
def nSlots (e : Bytes) : Nat := leAt e 0x28 4

def infoInfill (s : State) (slice : Nat) (e : Bytes) : OpInfo :=
  let entries := match (getSlice s slice).infill with
    | some i => i.entries
    | none => 0
  { OpInfo.mk0 (!paramOk e 0xFFF || eParam e ≥ entries || !flagsOk e 0 || nSlots e < 1 || nSlots e > 4096)
      (eLen e > 65536 || eCap e > 65536) clPost (nSlots e) with out := eCap e }

def infoSelftest (slice : Nat) (e : Bytes) : OpInfo :=
  OpInfo.mk0 (!paramOk e 0 || !flagsOk e 0 || !keysOk e false false || !clsOk e [] || eCap e != 0)
    (eLen e != 0) (if slice == 0 then clNone else clNeedle) (if slice == 0 then 0 else 16)

def infoAbort (e : Bytes) : OpInfo :=
  OpInfo.mk0 (!paramOk e 0x1FFFFFF || bitsAt (eParam e) 25 7 != 0 || !flagsOk e 0 || !keysOk e false false ||
    !clsOk e [] || eCap e != 0) (eLen e != 0) clNone 0

/-- The largest number of needle slots a group holds on any one needle that is not halted (R121). -/
def needleSlotsOn (l : Layout) (n : Nat) : Nat := (l.ndl.filter (fun x => x.1 == n)).length

def maxNeedleSlots (s : State) (slice g : Nat) : Nat :=
  match layoutOf s slice g with
  | none => 0
  | some l => (List.range 24).foldl (fun m n => if needleHaltedReg s n then m else max m (needleSlotsOn l n)) 0
where needleHaltedReg (s : State) (n : Nat) : Bool := (getReg s Reg.NDL_HALTED).getLsbD n

/-- The format of a data-path entry; absent for an opcode that does not exist on a data queue. -/
def opInfo (s : State) (slice g : Nat) (e : Bytes) : Option OpInfo :=
  match eOp e with
  | 0x01 => some (infoCipher s e)
  | 0x02 => some (infoTranslate s e)
  | 0x03 => some (infoMac e false)
  | 0x04 => some (infoMac e true)
  | 0x05 => some (infoHash e)
  | 0x08 => some (infoPinTranslate e)
  | 0x09 => some (infoPinVerify e)
  | 0x0A => some (infoDukpt e)
  | 0x10 => some (infoToken e false (maxNeedleSlots s slice g))
  | 0x11 => some (infoToken e true (maxNeedleSlots s slice g))
  | 0x12 => some (infoVaultPut e)
  | 0x13 => some (infoVaultGet e)
  | 0x14 => some (infoVaultDelete e)
  | 0x18 => some (infoCredIssue e)
  | 0x19 => some (infoCredUse e true)
  | 0x1A => some (infoCredUse e false)
  | 0x20 => some (infoSignSeam e)
  | 0x21 => some (infoVerifySeam e)
  | 0x22 => some (infoKemEncaps e)
  | 0x23 => some (infoKemDecaps e)
  | 0x24 => some (infoEcdh e)
  | 0x28 => some (infoKeyGenerate e)
  | 0x29 => some (infoKeyImport e)
  | 0x2A => some (infoKeyExport e)
  | 0x2B => some (infoKeyDerive e)
  | 0x2C => some (infoKeyKill e)
  | 0x30 => some (infoRandom e)
  | 0x31 => some (infoAttest e)
  | 0x38 => some (infoInfill s slice e)
  | 0x3E => some (infoSelftest slice e)
  | 0x3F => some (infoAbort e)
  | _ => none

/-- The stated output overlaps the source other than in place (R92). Zero-length buffers never overlap. -/
def overlapBad (e : Bytes) (i : OpInfo) : Bool :=
  let a := eSrc e
  let d := eDst e
  let inPlace := d == a + i.inOff && i.out == i.inLen && i.out != 0
  eLen e != 0 && i.out != 0 && d < a + eLen e && a < d + i.out && !inPlace

/-! ### What a key must allow (R93, R145, R151, R161, R213) -/

/-- A use of a key: the attribute condition, and what is deducted. -/
structure KeyNeed where
  usageOk : Bool
  deduct : Nat
  noRefund : Bool
  /-- A SPENT key is accepted (KEY_KILL only). -/
  spentOk : Bool
deriving DecidableEq, Repr

def need (ok : Bool) (d : Nat) : KeyNeed := ⟨ok, d, false, false⟩

def lev67 (k : KeySlot) : Bool := k.level == 6 || k.level == 7

/-- The mode bit of a CIPHER mode. -/
def modeBit (m : Nat) : Nat := if m == mdCbc then mCbc else if m == mdCtr then mCtr else if m == mdGcm then mGcm else mXts

def modeTypOk (m typ : Nat) : Bool := if m == mdXts then typXts typ else typAes typ

/-- A TDES key of keying option 2: K1 = K3 (R137). -/
def tdesOpt2 (k : KeySlot) : Bool := typTdes k.typ && sub k.material 0 8 == sub k.material 16 8

/-- Key bytes that an export carries: 16 for a TDES key of keying option 2 (R112). -/
def exportLen (k : KeySlot) : Nat := if tdesOpt2 k then 16 else typBytes k.typ

/-- Characters of an X9.143 block that exports a key (R160): the header, the `9R` block, for an initial key the `IK`
and `PB` blocks, the enciphered key field, the MAC. -/
def x9Chars (len : Nat) (ik : Bool) : Nat :=
  16 + (if ik then 64 else 32) + 2 * (16 * ceilDiv (2 + len) 16) + 32

/-- An initial key: L6 with DUKPT (R159). -/
def isInitialKey (k : KeySlot) : Bool := k.level == 6 && aDukpt k.attr

/-- Block operations of an export of a key in a format (R112, R515). -/
def exportBlocks (format : Nat) (ka : KeySlot) : Nat :=
  if format == 1 then 2 * ceilDiv (x9Chars (exportLen ka) (isInitialKey ka)) 16 + 4
  else if format == 2 then 6 * (exportLen ka / 8) else 6 * ceilDiv (exportLen ka) 8

/-- An option 2 key may encrypt: outside approved mode with OPT2_ENC set (R137). -/
def opt2Enc (s : State) : Bool := !approved s && flag s Reg.LDU_CTRL_OPT2_ENC

/-- A PIN key matches its block format: AES for format 4, TDES for the others. -/
def fmtTypOk (f typ : Nat) : Bool := if f == 4 then typAes typ else typTdes typ

/-- Deduction of one PIN side for `m` items: two AES blocks or one TDES block each (R173). -/
def pinDeduct (k : KeySlot) (f m : Nat) : Nat := deduction k (if f == 4 then 2 * m else m) m

/-- The AES type of KSIZE. -/
def ksizeTyp (n : Nat) : Nat := n + 1

/-- The TYPE of the key that a command creates, where its entry names it; 0 where it does not. -/
def newType (e : Bytes) : Nat :=
  match eOp e with
  | 0x22 => 0x51 + eSet e
  | 0x23 => 0x51 + eSet e
  | 0x24 => 0x4F + eSet e
  | 0x28 => gType e
  | 0x29 => xType e
  | 0x2B => vType e
  | _ => 0

/-- The attribute block that a creating command's entry carries; 0 where it carries none. -/
def newAttr (e : Bytes) : Nat :=
  match eOp e with
  | 0x22 => attrAt e 0x28
  | 0x23 => attrAt e 0x30
  | 0x24 => attrAt e 0x30
  | 0x28 => attrAt e 0x28
  | 0x29 => if xFormat e == 1 then 0 else attrAt e 0x28
  | 0x2B => attrAt e 0x38
  | _ => 0

/-- The level condition of R145 and, from L4 downward, its purpose condition. -/
def childOk (parent : KeySlot) (a : Nat) : Bool :=
  aLevel a > parent.level && (parent.level < 4 || aPurpose a == aPurpose parent.attr)

/-- What key A must allow. -/
def needA (e : Bytes) (k : KeySlot) : KeyNeed :=
  let at_ := k.attr
  let u := fun b => bitAt at_ b
  let pu := aPurpose at_
  match eOp e with
  | 0x01 =>
    let m := cMode e
    { need (u (if cDecrypt e then uDecrypt else uEncrypt) && u (modeBit m) && pu == pData && lev67 k &&
        modeTypOk m k.typ) (deduction k (sideBlocks m (cipherText e) (cAad e)) 1) with noRefund := m == mdGcm }
  | 0x02 =>
    let m := tInMode e
    { need (u uDecrypt && u (modeBit m) && pu == pData && (lev67 k || k.level == 4) && modeTypOk m k.typ)
        (deduction k (sideBlocks m (translateText e) (cAad e)) 1) with noRefund := m == mdGcm }
  | 0x03 => need (u uMacGen && u mCmac && pu == pMac && lev67 k && typAes k.typ)
      (deduction k (max 1 (ceilDiv (eLen e) 16)) 1)
  | 0x04 => need (u uMacVer && u mCmac && pu == pMac && lev67 k && typAes k.typ)
      (deduction k (max 1 (ceilDiv (eLen e - macLen e) 16)) 1)
  | 0x08 => need (u uDecrypt && u mPin && pu == pPin && lev67 k && fmtTypOk (pInFmt e) k.typ)
      (pinDeduct k (pInFmt e) (items e 48))
  | 0x09 => need (u uDecrypt && u mPin && pu == pPin && lev67 k && fmtTypOk (pInFmt e) k.typ)
      (pinDeduct k (pInFmt e) 1)
  | 0x0A => need (u uDerive && aDukpt at_ && pu == pPin && (k.level == 5 || k.level == 6) &&
      k.typ == ksizeTyp (dKsize e)) 0
  | 0x10 =>
    if kVaulted e then
      need (u uMacGen && u uEncrypt && u mCmac && pu == pData && k.level == 6 && typAes k.typ)
        (deduction k (4 * items e 32) (items e 32))
    else need (u uDerive && u uEncrypt && u mFf1 && pu == pData && k.level == 6 && typAes k.typ)
      (deduction k (30 * items e 32) (items e 32))
  | 0x11 =>
    if kVaulted e then
      need (u uMacGen && u uDecrypt && u mCmac && pu == pData && k.level == 6 && typAes k.typ)
        (deduction k (2 * items e 32) (items e 32))
    else need (u uDerive && u uDecrypt && u mFf1 && pu == pData && k.level == 6 && typAes k.typ)
      (deduction k (30 * items e 32) (items e 32))
  | 0x12 => need (u uMacGen && u mCmac && pu == pData && k.level == 6 && typAes k.typ) (deduction k 3 1)
  | 0x13 => need (u uMacGen && u mCmac && pu == pData && k.level == 6 && typAes k.typ) (deduction k 3 1)
  | 0x14 => need (u uMacGen && u mCmac && pu == pData && k.level == 6 && typAes k.typ) (deduction k 3 1)
  | 0x18 => need (u uMacGen && u mCmac && pu == pCred && k.level == 6 && typAes k.typ) (deduction k 5 1)
  | 0x19 => need (u uMacGen && u mCmac && pu == pCred && k.level == 6 && typAes k.typ) (deduction k 5 1)
  | 0x1A => need (u uMacGen && u mCmac && pu == pCred && k.level == 6 && typAes k.typ) (deduction k 2 1)
  | 0x20 => need (k.typ == 0x40 && byteAt k.material 1 == eSet e) 0
  | 0x21 => need (typSeam k.typ && byteAt k.material 1 == eSet e) 0
  | 0x23 => need (u uAgree && pu == pAgree && k.typ == 0x1F + eSet e) 0
  | 0x24 => need (u uAgree && pu == pAgree && k.typ == 0x0F + eSet e) 0
  | 0x29 =>
    let lv := if xFormat e == 4 then u uUnwrap && (k.level == 5 || k.level == 6) && k.typ == 0x30 + xMod e
      else u uUnwrap && u mKw && typAes k.typ
    { need (lv && (xFormat e == 1 || childOk k (newAttr e)))
        (if xFormat e == 4 then 1 else deduction k (if xFormat e == 1 then 2 * ceilDiv (eLen e) 16 + 4
          else 6 * (eLen e / 8 - 1)) 1) with noRefund := false }
  | 0x2A => need (!typSeam k.typ && k.ext == 0 && !typAsym k.typ && !typSecret k.typ && aExport at_ != 0 &&
      pu != pJournal && (xFormat e == 1 || aExport at_ == 2)) 0
  | 0x2B =>
    let a := newAttr e
    let f := vFn e
    if f == 0x30 || f == 0x31 then
      need (u uDerive && pu == pAgree && k.level == 6 && aLevel a == 7 &&
        (if f == 0x31 then k.typ == 0x50 || k.typ == 0x51 else typSecret k.typ)) 0
    else if f == 0x10 then
      need (u uDerive && aDukpt at_ && k.level == 5 && typAes k.typ && aLevel a == 6 && aPurpose a == pPin &&
        aDukpt a && vType e == k.typ && childOk k a) 0
    else if f == 0x20 then need (u uDerive && k.level == 5 && pu == pCred && typAes k.typ && childOk k a) 0
    else need (u uDerive && typSym k.typ && childOk k a) 0
  | 0x2C => { need (!typSeam k.typ) 0 with spentOk := true }
  | 0x38 => need (!typSeam k.typ) 0
  | _ => need false 0

/-- What key B must allow, beside key A. -/
def needB (s : State) (e : Bytes) (ka k : KeySlot) : KeyNeed :=
  let at_ := k.attr
  let u := fun b => bitAt at_ b
  let pu := aPurpose at_
  match eOp e with
  | 0x02 =>
    let m := tOutMode e
    { need (u uEncrypt && u (modeBit m) && pu == pData && (lev67 k || k.level == 4) && modeTypOk m k.typ)
        (deduction k (sideBlocks m (translateText e) (cAad e)) 1) with noRefund := m == mdGcm }
  | 0x08 => need (u uEncrypt && u mPin && pu == pPin && lev67 k && fmtTypOk (pOutFmt e) k.typ &&
      (pInFmt e != 4 || pOutFmt e == 4 || aLegacyOut at_) && (!tdesOpt2 k || opt2Enc s))
      (pinDeduct k (pOutFmt e) (items e 48))
  | 0x09 => need (u uMacGen && u mCmac && pu == pMac && lev67 k && typAes k.typ) (deduction k 2 1)
  | 0x0A =>
    if dAction e == 0 then need (u uWrap && u mKw && typAes k.typ) (deduction k (6 * (2 + dKsize e) * items e 64) (items e 64))
    else need (u uEncrypt && u mPin && pu == pPin && lev67 k && typAes k.typ) (deduction k (2 * items e 64) (items e 64))
  | 0x18 => need (k.typ == 0x40 && byteAt k.material 1 == 1) 0
  | 0x2A => need (u uWrap && u mKw && typAes k.typ && k.level < ka.level && pu == aPurpose ka.attr &&
      (aExport ka.attr != 1 || (k.level == 4 || k.level == 5))) (deduction k (exportBlocks (xFormat e) ka) 1)
  | 0x2B => need (u uDerive && pu == pAgree && k.level == 6 && (k.typ == 0x52 || k.typ == 0x53)) 0
  | 0x38 => need (!typSeam k.typ) 0
  | _ => need false 0

/-- The opcode uses key A, key B. INFILL_CALL uses a key only where its handle is not zero. -/
def usesA (e : Bytes) : Bool :=
  match eOp e with
  | 0x05 => false
  | 0x22 => false
  | 0x28 => false
  | 0x30 => false
  | 0x31 => false
  | 0x38 => eKeyA e != 0
  | 0x3E => false
  | 0x3F => false
  | _ => true

def usesB (e : Bytes) : Bool :=
  match eOp e with
  | 0x02 => true
  | 0x08 => true
  | 0x09 => true
  | 0x0A => true
  | 0x18 => true
  | 0x2A => true
  | 0x2B => vFn e == 0x31
  | 0x38 => eKeyB e != 0
  | _ => false

/-- The first failing check of one key (R93), 0 where it passes. -/
def keyStatus (s : State) (slice h : Nat) (n : KeySlot → KeyNeed) : Nat :=
  let k := getKey s (hSlot h)
  if !handleOk s slice h || k.st == .empty || k.st == .loaded || k.st == .retired then stKeyHandle
  else if k.st == .killed then stKeyKilled
  else if !(n k).usageOk then stKeyUsage
  else if k.st == .spent && !(n k).spentOk then stKeySpent
  else if k.budget < (n k).deduct && !typSeam k.typ then stKeySpent
  else 0

/-- The first of two statuses in the order of R95; 0 is none. -/
def worse (a b : Nat) : Nat :=
  let rank := fun x => if x == 0 then 100 else if x == stKeyHandle then 1 else if x == stKeyKilled then 2
    else if x == stKeyUsage then 3 else if x == stKeySpent then 4 else if x == stLmsExhausted then 5
    else if x == stEntropyFailed then 6 else 7
  if rank a ≤ rank b then a else b

/-- The key status of a command over both its keys (R93, R95). -/
def keysStatus (s : State) (slice : Nat) (e : Bytes) : Nat :=
  let a := if usesA e then keyStatus s slice (eKeyA e) (needA e) else 0
  let b := if usesB e then keyStatus s slice (eKeyB e) (needB s e (getKey s (hSlot (eKeyA e)))) else 0
  let w := worse a b
  -- two uses of one key must fit its budget together
  if w == 0 && usesA e && usesB e && hSlot (eKeyA e) == hSlot (eKeyB e) then
    let k := getKey s (hSlot (eKeyA e))
    if k.budget < (needA e k).deduct + (needB s e k k).deduct then stKeySpent else 0
  else w

end Sys2Proof.Machine
end

