-- ==== Sys2Proof/Machine/AdminSpec.lean ====
section
/-!
DEFINITION. The admin opcodes before they run: which lifecycle serves them (21_lifecycle_boot R439), and the format of
their entries (13_slices R293, 08_vault_store R202, R206, 20_officers R427–R430, 21_lifecycle_boot R447).
-/
namespace Sys2Proof.Machine
open Sys2Proof

def opSliceCreate : Nat := 0x80
def opSliceResize : Nat := 0x81
def opSliceQuiesce : Nat := 0x82
def opSliceReset : Nat := 0x83
def opSliceDestroy : Nat := 0x84
def opSliceExport : Nat := 0x85
def opSliceImport : Nat := 0x86
def opDirtyLog : Nat := 0x87
def opVaultReload : Nat := 0x88
def opVaultAnchor : Nat := 0x89
def opFwStage : Nat := 0x8A
def opFwActivate : Nat := 0x8B
def opGuardStage : Nat := 0x8C
def opGuardApprove : Nat := 0x8D
def opGuardCommit : Nat := 0x8E
def opLifecycle : Nat := 0x8F

/-! ### Lifecycle states (R436) -/

def lcyFactory : Nat := 1
def lcyBlank : Nat := 2
def lcyProvisioned : Nat := 3
def lcyOperational : Nat := 4
def lcyTampered : Nat := 5
def lcyTerminated : Nat := 6
def lcyDiagnostic : Nat := 7

/-- The lifecycle serves the admin opcode (R439); in recovery, the ROM alone serves two of them (R445). -/
def adminServed (s : State) (e : Bytes) : Bool :=
  let op := eOp e
  let l := lcyState s
  if !(0x80 ≤ op && op ≤ 0x8F) then false
  else if flag s Reg.LCY_STAT_RECOVERY then
    (op == opFwStage && !bitAt (eParam e) 0) || (op == opLifecycle && bitsAt (eParam e) 0 2 == 0)
  else if l == lcyTampered then
    op == opGuardStage || op == opGuardApprove || op == opGuardCommit || op == opLifecycle ||
    (op == opVaultReload && bitsAt (eParam e) 0 8 == 128)
  else if l == lcyTerminated || l == lcyDiagnostic then op == opLifecycle
  else true

/-- The slice that an admin command names in bits [6:0] of its parameter word (R293), with the other opcodes' own
places for a slice. -/
def adminSlice (e : Bytes) : Option Nat :=
  let p := eParam e
  if 0x80 ≤ eOp e && eOp e ≤ 0x87 then some (bitsAt p 0 7)
  else if eOp e == opVaultReload then (if bitsAt p 0 8 < 128 then some (bitsAt p 0 8) else none)
  else if eOp e == opVaultAnchor then some (bitsAt p 0 8)
  else if eOp e == opFwStage && bitAt p 0 then some (bitsAt p 8 7)
  else none

def aSquash (e : Bytes) : Bool := bitAt (eParam e) 9
def aResume (e : Bytes) : Bool := bitAt (eParam e) 8
def aPhase (e : Bytes) : Nat := bitsAt (eParam e) 8 3
def aLogAction (e : Bytes) : Nat := bitsAt (eParam e) 12 2
def aLogIndex (e : Bytes) : Nat := bitsAt (eParam e) 10 2

/-- Format and length refusals of an admin entry (R70): 0 where it has none. -/
def adminFormat (e : Bytes) : Nat :=
  let op := eOp e
  let l := eLen e
  let c := eCap e
  let common := flagsOk e 0 && keysOk e false false
  let r := fun (ok lenOk : Bool) => if !(common && ok) then stBadField else if !lenOk then stBadLength else 0
  if op == opSliceCreate || op == opSliceResize then r (paramOk e 0x7F && clsOk e [] && c == 0) (l == 2304)
  else if op == opSliceQuiesce then r (paramOk e 0x37F && clsOk e [] && c == 0) (l == 0)
  else if op == opSliceReset || op == opSliceDestroy then r (paramOk e 0x27F && clsOk e [] && c == 0) (l == 0)
  else if op == opSliceExport then r (paramOk e 0x7F && clsOk e []) (l == 9084)
  else if op == opSliceImport then
    if aPhase e == 0 then r (paramOk e 0x77F && clsOk e []) (l == 0 && c ≥ 9084)
    else r (paramOk e 0x77F && clsOk e [] && aPhase e == 1) (l > 0 && c ≥ 129024)
  else if op == opDirtyLog then
    let start := aLogAction e == 0
    r (paramOk e 0x3C7F && aLogAction e != 3 && clsOk e (if start then [(0, 16), (16, 4)] else []) &&
        (!start || bitsAt (leAt e 0x38 4) 21 11 == 0)) (start || (l == 0 && c == 0))
  else if op == opVaultReload then
    r (paramOk e 0x7FF && clsOk e [] && c == 0 && bitsAt (eParam e) 0 8 ≤ 128)
      (64 ≤ l && l ≤ 2 ^ 30 && l % 64 == 0)
  else if op == opVaultAnchor then r (paramOk e 0x1FF && clsOk e [] && c == 0 && bitsAt (eParam e) 0 8 < 128) (l == 0)
  else if op == opFwStage then
    if bitAt (eParam e) 0 then r (paramOk e 0x7F01 && clsOk e []) (c ≥ 3548)
    else r (paramOk e 1 && clsOk e [] && c == 0) true
  else if op == opFwActivate then r (paramOk e 1 && clsOk e [] && c == 0) (l == 0)
  else if op == opGuardStage then r (paramOk e 0 && clsOk e []) (c ≥ 48)
  else if op == opGuardApprove then
    let act := bitsAt (eParam e) 0 2
    let remote := bitAt (eParam e) 9
    r (paramOk e 0x303 && act != 3 && (!remote || act == 1) && clsOk e [(0, 8)] && c == 0)
      (if act == 0 then l == 113 else if remote then l == 3516 else l == 0)
  else if op == opGuardCommit then r (paramOk e 1 && clsOk e [(0, 8)] && c == 0) (l == 0)
  else
    let act := bitsAt (eParam e) 0 2
    r (paramOk e 3 && (act == 0 || act == 2) && clsOk e [] && c == 0) (if act == 2 then l == 3484 else l == 0)

end Sys2Proof.Machine
end

