-- ==== Sys2Proof/Machine/Faults.lean ====
section
/-!
DEFINITION. The fault collector (17_faults): the sources and their response settings, the firing of a source, its
capture, and the interrupts that carry it. The responses themselves are applied by Machine/Responses.lean.
-/
namespace Sys2Proof.Machine
open Sys2Proof

/-! ### Interrupts out -/

/-- A word of a function's MSI-X table. The vector control word, the fourth of each entry, resets to masked
(PRESUMED, from PCIe: notes/assumptions/9.md). -/
def msixWord (s : State) (slice off : Nat) : Word :=
  tget (if off % 16 == 12 then 1#32 else 0#32) s.msixTab (slice * 65536 + off)

def setMsixWord (s : State) (slice off : Nat) (w : Word) : State :=
  { s with msixTab := tput (if off % 16 == 12 then 1#32 else 0#32) s.msixTab (slice * 65536 + off) w }

def msixMasked (s : State) (slice vec : Nat) : Bool := (msixWord s slice (vec * 16 + 12)).getLsbD 0

def msixPending (s : State) (slice vec : Nat) : Bool := tget false s.msixPba (slice * 2048 + vec)

/-- Sends an MSI-X message, or sets the pending bit of a masked vector (R79). -/
def raiseMsix (s : State) (slice vec : Nat) : State :=
  if msixMasked s slice vec then { s with msixPba := tput false s.msixPba (slice * 2048 + vec) true }
  else emit s (.msix slice vec)

/-- The host unmasks a vector: a pending message is sent and its pending bit clears. -/
def msixUnmask (s : State) (slice vec : Nat) : State :=
  let s1 := setMsixWord s slice (vec * 16 + 12) (msixWord s slice (vec * 16 + 12) &&& ~~~1#32)
  if msixPending s slice vec then
    emit { s1 with msixPba := tput false s1.msixPba (slice * 2048 + vec) false } (.msix slice vec)
  else s1

/-- The key of a register in a post's block (R349). -/
def pstKey (post key : Nat) : Nat := key + 0x60 * post

/-- A field in a post's block. -/
def pstFld (post : Nat) (f : Fld) : Fld := { f with key := f.key + 0x60 * post }

/-- Sets an interrupt line of a post (R344). -/
def raiseLine (s : State) (post line : Nat) : State := orReg s (pstKey post Reg.PST_IRQ_PEND) (2 ^ line)

/-- Lines 0, 1, 3, 4 and 5 reach posts 0.0 and 0.1 (R344). -/
def raiseMgmt (s : State) (line : Nat) : State := raiseLine (raiseLine s 0 line) 1 line

/-- A bit of an event register. -/
def event (s : State) (f : Fld) : State := setFlag s f true

/-! ### Sources (R367) -/

/-- What a halt of a source's unit acts on. -/
inductive Target where
  | none | slice | needle | ldu | purlin | hash | shuttle | post | entropy | vault | flash
deriving DecidableEq, Repr

/-- A row of the source table: first index, instances, default, floor, certified floor, target, the page of its
block and its bit in that page's PG_FAULT (R483). -/
structure SrcRow where
  base : Nat
  n : Nat
  dflt : Nat
  floor : Nat
  cert : Nat
  target : Target
  page : Nat
  bit : Nat
deriving DecidableEq, Repr

/-- The table of R367. -/
def srcTable : List SrcRow :=
  [⟨0, 1, 6, 6, 6, .none, 0x002, 0⟩, ⟨8, 24, 4, 4, 4, .needle, 0x020, 0⟩, ⟨32, 24, 4, 4, 4, .needle, 0x020, 1⟩,
   ⟨56, 8, 4, 4, 4, .ldu, 0x021, 0⟩, ⟨64, 8, 4, 4, 4, .ldu, 0x021, 1⟩, ⟨72, 8, 4, 4, 4, .purlin, 0x023, 0⟩,
   ⟨80, 8, 4, 4, 4, .purlin, 0x023, 1⟩, ⟨88, 8, 4, 4, 4, .purlin, 0x023, 2⟩, ⟨96, 8, 4, 4, 4, .hash, 0x024, 0⟩,
   ⟨104, 8, 4, 4, 4, .hash, 0x024, 1⟩, ⟨112, 8, 4, 4, 4, .shuttle, 0x040, 0⟩, ⟨120, 1, 2, 1, 2, .none, 0x040, 1⟩,
   ⟨128, 2, 2, 2, 2, .slice, 0x041, 0⟩, ⟨130, 30, 3, 2, 3, .slice, 0x041, 0⟩,
   ⟨160, 32, 4, 4, 4, .post, 0x041, 1⟩, ⟨192, 32, 6, 4, 6, .post, 0x041, 2⟩] ++
  [⟨224, 1, 3, 2, 3, .slice, 0x006, 0⟩, ⟨225, 1, 2, 1, 2, .none, 0x005, 0⟩, ⟨226, 1, 4, 4, 4, .entropy, 0x026, 0⟩,
   ⟨227, 1, 2, 1, 2, .none, 0x022, 0⟩, ⟨228, 1, 3, 3, 3, .slice, 0x022, 1⟩, ⟨229, 1, 3, 3, 3, .slice, 0x030, 0⟩,
   ⟨230, 1, 4, 4, 4, .vault, 0x030, 1⟩, ⟨231, 1, 2, 1, 2, .none, 0x031, 0⟩, ⟨232, 1, 1, 1, 1, .none, 0x031, 1⟩,
   ⟨233, 1, 2, 2, 2, .none, 0x025, 0⟩, ⟨234, 16, 2, 1, 2, .none, 0x042, 0⟩, ⟨250, 1, 2, 1, 2, .none, 0x042, 1⟩,
   ⟨251, 1, 5, 5, 5, .none, 0x042, 2⟩, ⟨252, 1, 6, 6, 6, .none, 0x042, 3⟩] ++
  [⟨256, 8, 6, 2, 6, .none, 0x003, 0⟩, ⟨264, 4, 6, 2, 6, .none, 0x003, 1⟩, ⟨268, 1, 2, 1, 2, .none, 0x003, 2⟩,
   ⟨272, 9, 6, 5, 6, .none, 0x004, 0⟩, ⟨281, 1, 6, 5, 6, .none, 0x004, 1⟩, ⟨282, 1, 6, 5, 6, .none, 0x004, 2⟩,
   ⟨283, 1, 6, 6, 6, .none, 0x004, 3⟩, ⟨288, 1, 4, 4, 4, .flash, 0x050, 0⟩, ⟨289, 1, 1, 1, 1, .none, 0x050, 1⟩,
   ⟨290, 1, 2, 2, 2, .none, 0x051, 0⟩, ⟨291, 1, 6, 6, 6, .none, 0x051, 1⟩, ⟨296, 1, 1, 1, 1, .none, 0x052, 0⟩,
   ⟨297, 1, 2, 2, 2, .none, 0x052, 1⟩, ⟨312, 1, 2, 1, 2, .none, 0x010, 0⟩, ⟨313, 1, 3, 2, 3, .slice, 0x010, 1⟩,
   ⟨320, 1, 2, 1, 2, .none, 0x053, 0⟩]

/-- The row of a source; none for a reserved index. -/
def srcRow (src : Nat) : Option SrcRow := srcTable.find? (fun r => r.base ≤ src && src < r.base + r.n)

/-- What a halt of a source's unit acts on. -/
def srcTarget (src : Nat) : Target :=
  match srcRow src with
  | some r => r.target
  | none => .none

/-- The instance number within the source's name; posts 0 and 1 of PST_ESCALATE share its numbering. -/
def srcUnit (src : Nat) : Nat :=
  if 128 ≤ src && src < 160 then src - 128
  else match srcRow src with
    | some r => src - r.base
    | none => 0

/-! First indices of the sources. -/

def srcFclSelf : Nat := 0
def srcNdlKat : Nat := 8
def srcNdlInteg : Nat := 32
def srcLduKat : Nat := 56
def srcLduInteg : Nat := 64
def srcPurKat : Nat := 72
def srcPurInteg : Nat := 80
def srcPurCheck : Nat := 88
def srcHshKat : Nat := 96
def srcHshInteg : Nat := 104
def srcShtInteg : Nat := 112
def srcShtReadback : Nat := 120
def srcPstEscalate : Nat := 128
def srcPstInteg : Nat := 160
def srcPstKingpost : Nat := 192
def srcTikOverrun : Nat := 224
def srcGovFloor : Nat := 225
def srcRngHealth : Nat := 226
def srcKstReserve : Nat := 227
def srcKstInteg : Nat := 228
def srcVltInteg : Nat := 229
def srcVltRoot : Nat := 230
def srcDdrTrain : Nat := 231
def srcDdrThermal : Nat := 232
def srcLmsLog : Nat := 233
def srcGteDeny : Nat := 234
def srcGteOverlap : Nat := 250
def srcGteDouble : Nat := 251
def srcGteInteg : Nat := 252
def srcThmLoop : Nat := 256
def srcThmSwitch : Nat := 264
def srcThmBatt : Nat := 268
def srcMonVdd : Nat := 272
def srcMonClk : Nat := 281
def srcMonTemp : Nat := 282
def srcMonGlitch : Nat := 283
def srcFlsInteg : Nat := 288
def srcFlsWear : Nat := 289
def srcSilLimit : Nat := 290
def srcSilInteg : Nat := 291
def srcOfcCard : Nat := 296
def srcOfcLock : Nat := 297
def srcHlkAer : Nat := 312
def srcHlkIde : Nat := 313
def srcWerWarn : Nat := 320

/-! ### Responses (R368, R381) -/

/-- The response word of a source at reset: its default level, HOSTIRQ 1, ALERT 0. -/
def respReset (src : Nat) : Nat :=
  match srcRow src with
  | some r => r.dflt + 8
  | none => 0

def respWord (s : State) (src : Nat) : Nat := tget (respReset src) s.faults.resp src
def respLevel (s : State) (src : Nat) : Nat := bitsAt (respWord s src) 0 3
def respHostIrq (s : State) (src : Nat) : Bool := bitAt (respWord s src) 3
def respAlert (s : State) (src : Nat) : Bool := bitAt (respWord s src) 4

/-- `FCL_RESP` of the selected source; zero for a reserved source. -/
def respView (s : State) (src : Nat) : Word :=
  match srcRow src with
  | some r => BitVec.ofNat 32 (respWord s src % 32 + r.dflt * 2 ^ 8 + r.floor * 2 ^ 12 + r.cert * 2 ^ 16)
  | none => 0#32

/-- Every source is at or above its certified floor (FCL_STAT.CERT_OK). -/
def certOk (s : State) : Bool :=
  s.faults.resp.all (fun e => match srcRow e.1 with
    | some r => r.cert ≤ e.2 % 8
    | none => true)

/-- Whether the source's target is a slice or a unit. -/
def targetUnit (src : Nat) : Bool :=
  match srcRow src with
  | some r => r.target != .none && r.target != .slice
  | none => false

/-- The level that applies to a firing: a quiesce without a slice and a halt without a unit act as INTERRUPT; the
collector's own source is SAFE whatever its setting (R368, R379). -/
def appliedLevel (s : State) (src : Nat) (slice : Option Nat) : Nat :=
  let l := respLevel s src
  if src == srcFclSelf then 6
  else if l == 3 && slice == none then 2
  else if l == 4 && !targetUnit src then 2
  else l

/-! ### Pending bits (R376, R377) -/

def pendKey (src : Nat) : Nat := Reg.FCL_PEND + 4 * (src / 32)

def srcPending (s : State) (src : Nat) : Bool := (getReg s (pendKey src)).getLsbD (src % 32)

/-- FCL_STAT.PEND is the union of the pending bits. -/
def anyPending (s : State) : Bool := (List.range 16).any (fun i => getReg s (Reg.FCL_PEND + 4 * i) != 0#32)

def setPending (s : State) (src : Nat) : State :=
  setFlag (orReg s (pendKey src) (2 ^ (src % 32))) Reg.FCL_STAT_PEND true

def clearPending (s : State) (src : Nat) : State :=
  let s1 := setReg s (pendKey src) (getReg s (pendKey src) &&& ~~~(BitVec.ofNat 32 (2 ^ (src % 32))))
  setFlag { s1 with faults := { s1.faults with named := s1.faults.named.filter (·.1 != src) } } Reg.FCL_STAT_PEND (anyPending s1)

/-- FAULT_N is low: a pending bit is set, or the device is in the safe state. -/
def faultPinLow (s : State) : Bool := flag s Reg.FCL_STAT_PEND || s.faults.safe

/-- HALT_N is low: the safe state only. -/
def haltPinLow (s : State) : Bool := s.faults.safe

/-! ### The record (R373) -/

/-- A record as eight words. -/
def recordWords (f : Firing) : List Word :=
  [BitVec.ofNat 32 (f.src % 512 + f.level * 2 ^ 9 + f.acc * 2 ^ 12 + f.init * 2 ^ 16 + b2n f.imprecise * 2 ^ 25 +
      2 ^ 31),
   BitVec.ofNat 32 f.addr, BitVec.ofNat 32 (f.addr / 2 ^ 32),
   BitVec.ofNat 32 ((f.slice.getD 0) % 128 + b2n f.slice.isSome * 2 ^ 7 + f.unit * 2 ^ 16 + f.detail * 2 ^ 24),
   BitVec.ofNat 32 f.tick, BitVec.ofNat 32 (f.tick / 2 ^ 32),
   BitVec.ofNat 32 f.thm, BitVec.ofNat 32 (f.thm / 2 ^ 32 % 65536 + f.cycle % 2048 * 2 ^ 16)]

/-! ### What a firing records in its own block's page -/

/-- The failure registers of the blocks whose chapter names the unit that failed (R138, R140, R228). -/
def blockRecord (s : State) (src : Nat) : State :=
  let u := srcUnit src
  if srcNdlKat ≤ src && src < srcNdlInteg then event (orReg s Reg.NDL_KAT_FAIL (2 ^ u)) Reg.NDL_EVT_KAT_FAIL
  else if srcNdlInteg ≤ src && src < srcLduKat then
    event (orReg s Reg.NDL_INTEG_FAIL (2 ^ u)) Reg.NDL_EVT_INTEG_FAIL
  else if srcLduKat ≤ src && src < srcLduInteg then event (orReg s Reg.LDU_KAT_FAIL (2 ^ u)) Reg.LDU_EVT_KAT_FAIL
  else if srcLduInteg ≤ src && src < srcPurKat then
    event (orReg s Reg.LDU_INTEG_FAIL (2 ^ u)) Reg.LDU_EVT_INTEG_FAIL
  else if srcPurKat ≤ src && src < srcPurInteg then event (orReg s Reg.PUR_KAT_FAIL (2 ^ u)) Reg.PUR_EVT_KAT_FAIL
  else if srcPurInteg ≤ src && src < srcPurCheck then
    event (orReg s Reg.PUR_INTEG_FAIL (2 ^ u)) Reg.PUR_EVT_INTEG_FAIL
  else if srcPurCheck ≤ src && src < srcHshKat then
    event (orReg s Reg.PUR_CHECK_FAIL (2 ^ u)) Reg.PUR_EVT_CHECK_FAIL
  else if srcHshKat ≤ src && src < srcHshInteg then event (orReg s Reg.HSH_KAT_FAIL (2 ^ u)) Reg.HSH_EVT_KAT_FAIL
  else if srcHshInteg ≤ src && src < srcShtInteg then
    event (orReg s Reg.HSH_INTEG_FAIL (2 ^ u)) Reg.HSH_EVT_INTEG_FAIL
  else if srcPstInteg ≤ src && src < srcPstKingpost then event s (pstFld u Reg.PST_EVT_INTEGRITY)
  else s

/-! ### Firing (R367, R372) -/

/-- What a block gives when its source fires. -/
structure FireArgs where
  src : Nat
  slice : Option Nat
  ctx : Option Nat
  status : Option Nat
  acc : Nat
  init : Nat
  addr : Nat
  detail : Nat
  imprecise : Bool
deriving DecidableEq, Repr

/-- A firing without an access, an address or a code. -/
def FireArgs.plain (src : Nat) (slice : Option Nat) : FireArgs :=
  ⟨src, slice, none, none, 0, 0, 0, 0, false⟩

/-- FCL_FIRST latches the first firing since the last re-arm; every other one counts as an overflow. -/
def captureFirst (s : State) (f : Firing) : State :=
  match s.faults.first with
  | none => { s with faults := { s.faults with first := some f, log := f :: s.faults.log } }
  | some _ =>
    let s1 := if flag s Reg.FCL_STAT_OVF then s else event s Reg.FCL_EVT_OVF
    let s2 := countF (setFlag s1 Reg.FCL_STAT_OVF true) Reg.FCL_OVF_CNT_N 1
    if f.level ≥ 5 then { s2 with faults := { s2.faults with log := f :: s2.faults.log } } else s2

/-- RECORD mode: the 64-entry ring, overwriting its oldest entry. -/
def captureRing (s : State) (f : Firing) : State :=
  if flag s Reg.FCL_CTRL_MODE then
    let full := s.faults.ring.length ≥ 64
    let s1 := { s with faults := { s.faults with ring := (f :: s.faults.ring).take 64 } }
    let s2 := if full then event (countF s1 Reg.FCL_LOST_N 1) Reg.FCL_EVT_LOST else s1
    let s3 := setF s2 Reg.FCL_RING_HEAD (getF s2 Reg.FCL_RING_HEAD + 1)
    setF s3 Reg.FCL_RING_COUNT s3.faults.ring.length
  else s

/-- The slice fault page's count and latest record (R380). -/
def captureSlice (s : State) (f : Firing) : State :=
  match f.slice with
  | none => s
  | some n =>
    let fs := s.faults
    { s with faults := { fs with
        sliceLast := tinsert n f fs.sliceLast
        named := if fs.named.contains (f.src, n) then fs.named else (f.src, n) :: fs.named
        sliceCnt := tput 0 fs.sliceCnt n (min (tget 0 fs.sliceCnt n + 1) 0xFFFFFFFF) } }

/-- A source fires: its pending bit, its block's summary, the capture, and its response kept for step 1 of the next
kerf. The fabric cycle within the tick is a free value (notes/assumptions/4.md). A reserved index never fires. -/
def fireLevel (s : State) (a : FireArgs) (cycle level : Nat) : State :=
  match srcRow a.src with
  | none => s
  | some r =>
    let f : Firing :=
      { src := a.src, acc := a.acc, init := a.init, imprecise := a.imprecise, addr := a.addr, slice := a.slice,
        unit := srcUnit a.src, detail := a.detail, tick := s.tick.count, thm := s.thmTime, cycle := cycle,
        ctx := a.ctx, status := a.status, level := level }
    let s1 := setPending s a.src
    let s2 := orReg s1 (r.page * 0x1000 + 0x010) (2 ^ r.bit)
    let s3 := event (countF s2 Reg.FCL_FIRED_N 1) Reg.FCL_EVT_FIRED
    let s4 := captureSlice (captureRing (captureFirst s3 f) f) f
    let s5 := blockRecord s4 a.src
    { s5 with faults := { s5.faults with fired := s5.faults.fired ++ [f]
                                         safeDue := s5.faults.safeDue || level == 6 } }

/-- A source fires with the response that its setting gives. -/
def fireAt (s : State) (a : FireArgs) (cycle : Nat) : State := fireLevel s a cycle (appliedLevel s a.src a.slice)

/-- A source fires in a cycle that no rule fixes. -/
def fire (s : State) (a : FireArgs) : State :=
  let d := drawBelow 2048 s
  fireAt d.2 a d.1

/-- A source fires, naming at most a slice. -/
def firePlain (s : State) (src : Nat) (slice : Option Nat) : State := fire s (FireArgs.plain src slice)

/-- The FIRST record and its overflow flag are re-armed (R372). -/
def rearm (s : State) : State :=
  setFlag { s with faults := { s.faults with first := none } } Reg.FCL_STAT_OVF false

/-! ### Units that are halted (R24, R371) -/

def shuttleHalted (s : State) (b : Nat) : Bool := bitAt (getF s Reg.SHT_STAT_HALTED) b

/-- A needle or hash engine is halted by its own source, or with the shuttle of its bent (R283). -/
def needleHalted (s : State) (n : Nat) : Bool := (getReg s Reg.NDL_HALTED).getLsbD n || shuttleHalted s (n / 3)
def lduHalted (s : State) (b : Nat) : Bool := bitAt (getF s Reg.LDU_STAT_HALTED) b
def purlinHalted (s : State) (p : Nat) : Bool := bitAt (getF s Reg.PUR_STAT_HALTED) p
def hashHalted (s : State) (e : Nat) : Bool := bitAt (getF s Reg.HSH_STAT_HALTED) e || shuttleHalted s e
def postHalted (s : State) (p : Nat) : Bool := flag s (pstFld p Reg.PST_STAT_HALTED)

def popCount (n : Nat) : Nat → Nat
  | 0 => 0
  | k + 1 => b2n (bitAt n k) + popCount n k

/-- Halts the unit that a source targets. -/
def haltUnit (s : State) (src : Nat) : State :=
  let u := srcUnit src
  match srcRow src with
  | none => s
  | some r =>
    match r.target with
    | .none => s
    | .slice => s
    | .needle =>
      let s1 := orReg s Reg.NDL_HALTED (2 ^ u)
      setF s1 Reg.NDL_STAT_HALTED_CNT (popCount (getReg s1 Reg.NDL_HALTED).toNat 24)
    | .ldu => setF s Reg.LDU_STAT_HALTED (getF s Reg.LDU_STAT_HALTED ||| 2 ^ u)
    | .purlin => setF s Reg.PUR_STAT_HALTED (getF s Reg.PUR_STAT_HALTED ||| 2 ^ u)
    | .hash => setF s Reg.HSH_STAT_HALTED (getF s Reg.HSH_STAT_HALTED ||| 2 ^ u)
    | .shuttle => event (setF s Reg.SHT_STAT_HALTED (getF s Reg.SHT_STAT_HALTED ||| 2 ^ u)) Reg.SHT_EVT_HALT
    | .post => setFlag s (pstFld u Reg.PST_STAT_HALTED) true
    | .entropy => { s with rng := { s.rng with masks := false } }
    | .vault => { s with faults := { s.faults with vaultHalted := true } }
    | .flash => { s with faults := { s.faults with flashHalted := true } }

/-- An uncorrectable error is logged. -/
def linkError (s : State) : State :=
  firePlain (event (countF s Reg.HLK_AER_CNT_UNCORR 1) Reg.HLK_EVT_AER) srcHlkAer none

end Sys2Proof.Machine
end

