-- ==== Sys2Proof/Machine/Plan.lean ====
section
/-!
DEFINITION. Capacity and the release tick (02_tick R30, R36–R41, 04_command_reference R87–R90, 05_needles R121–R123):
the allotment of a group in a class on the units that are not halted, the plan of a group in closed form, the release
tick of a command, and how many of its units have run by a tick.
-/
namespace Sys2Proof.Machine
open Sys2Proof

/-! ### The clock -/

/-- The tick after the one counted. `TIK_COUNT` has 64 bits (R28). -/
def nextTick (t : Nat) : Nat := (t + 1) % 2 ^ 64

/-! ### Allotments on the units that remain (R24, R512) -/

/-- The charged needle slots of a group on needles that are not halted, in ascending needle and slot order. -/
def needleSlots (s : State) (slice g : Nat) : List (Nat × Nat) :=
  match layoutOf s slice g with
  | none => []
  | some l => l.ndl.filter (fun x => !needleHalted s x.1)

/-- Slots of a needle that may be scheduled: not the two of pipeline fill, not the six of cover (R30, R118). -/
def schedSlot (i : Nat) : Bool := 2 ≤ i && i < 128 && (i < 22 || i % 21 != 1)

/-- Two stitch slots are at least 30 apart modulo 128 (R122). -/
def apart30 (a b : Nat) : Bool :=
  let d := (a + 128 - b) % 128
  30 ≤ d && d ≤ 98

/-- A slot list holds `n` slots pairwise at least 30 apart; `n` is at most 3. -/
def hasApart (l : List Nat) : Nat → Bool
  | 0 => true
  | 1 => !l.isEmpty
  | 2 => l.any (fun a => l.any (fun b => apart30 a b))
  | _ => l.any (fun a => l.any (fun b => apart30 a b && l.any (fun c => apart30 a c && apart30 b c)))

/-- The first set of `n` slots pairwise at least 30 apart, in ascending order of slot indices; `n` is at most 3. -/
def firstApart (l : List Nat) (n : Nat) : Option (List Nat) :=
  if n == 0 then some []
  else if n == 1 then l.head?.map (fun a => [a])
  else if n == 2 then
    match l.find? (fun a => l.any (fun b => a < b && apart30 a b)) with
    | none => none
    | some a => (l.find? (fun b => a < b && apart30 a b)).map (fun b => [a, b])
  else
    let third := fun a b => l.find? (fun c => b < c && apart30 a c && apart30 b c)
    match l.find? (fun a => l.any (fun b => a < b && apart30 a b && (third a b).isSome)) with
    | none => none
    | some a => match l.find? (fun b => a < b && apart30 a b && (third a b).isSome) with
      | none => none
      | some b => (third a b).map (fun c => [a, b, c])

/-- The group's serial needle (R122): the one in service, unless it is halted. -/
def serialNeedle (s : State) (slice g : Nat) : Option Nat :=
  match layoutOf s slice g with
  | none => none
  | some l => match l.serialNow with
    | none => none
    | some n => if needleHalted s n then none else some n

/-- The serial needle that the kerf of a halt names: the lowest-numbered one that remains and holds min(*A*′, 3) of
the group's slots pairwise at least 30 apart (R122). -/
def nextSerialNeedle (s : State) (l : Layout) : Option Nat :=
  let ns := l.ndl.filter (fun x => !needleHalted s x.1)
  let want := min ns.length 3
  if want == 0 then none
  else (List.range 24).find? (fun m => !needleHalted s m && hasApart ((ns.filter (fun x => x.1 == m)).map (·.2)) want)

/-- A layout after halts: its serial needle in service is kept, or named anew. -/
def renameSerial (s : State) (l : Layout) : Layout :=
  match l.serialNow with
  | none => l
  | some n => if needleHalted s n then { l with serialNow := nextSerialNeedle s l } else l

/-- The slots of a group's serial stitches: on its serial needle, pairwise at least 30 apart. -/
def serialSlots (s : State) (slice g n k : Nat) : List Nat :=
  let mine := ((needleSlots s slice g).filter (fun x => x.1 == n)).map (·.2)
  ((firstApart mine k).getD (List.replicate k 0)).map (fun i => 128 * n + i)

/-- The lane of a layout's `i`-th work post: 16 slots of a needle of its bent (R86). -/
def laneOf (l : Layout) (i : Nat) : List (Nat × Nat) := (l.lanes.drop (16 * i)).take 16

/-- The lane of a work post. -/
def postLane (l : Layout) (p : Nat) : List (Nat × Nat) :=
  match l.work.findIdx? (· == p) with
  | some i => laneOf l i
  | none => []

/-- Work posts that are not halted, and whose lane's needle is not. -/
def workPosts (s : State) (slice g : Nat) : List Nat :=
  match layoutOf s slice g with
  | none => []
  | some l => l.work.filter (fun p => !postHalted s p && !(postLane l p).any (fun x => needleHalted s x.1))

/-- Control posts that are not halted. -/
def ctrlPosts (s : State) (slice g : Nat) : List Nat :=
  match layoutOf s slice g with
  | none => []
  | some l => l.ctrl.filter (fun p => !postHalted s p)

/-- The positions (modulo 16) that a group owns on a purlin that is not halted. -/
def purlinPos (s : State) (slice g p : Nat) : List Nat :=
  match layoutOf s slice g with
  | none => []
  | some l => if purlinHalted s p then [] else (l.pur.filter (fun x => x.1 == p)).map (·.2)

/-- The group's hash engine, where it is not halted. -/
def hashEngine (s : State) (slice g : Nat) : Option Nat :=
  match layoutOf s slice g with
  | none => none
  | some l => match l.hsh with
    | some e => if hashHalted s e then none else some e
    | none => none

/-- The largest number of shares on any one purlin (R38). -/
def maxPurlin (s : State) (slice g : Nat) : Nat :=
  (List.range 8).foldl (fun m p => max m (purlinPos s slice g p).length) 0

/-- The allotment `A` of a group in a class other than purlins; for purlins the shares held. -/
def allot (s : State) (slice g cls : Nat) : Nat :=
  match groupOf s slice g with
  | none => 0
  | some c =>
    if cls == clNeedle then (needleSlots s slice g).length
    else if cls == clHash then (if (hashEngine s slice g).isSome then c.hsh else 0)
    else if cls == clVault then (if s.faults.vaultHalted then 0 else c.vlt)
    else if cls == clPost then (workPosts s slice g).length
    else if cls == clNone then 1
    else maxPurlin s slice g

/-- The companion reserves in vault slots and hash shares. -/
def reserveV (s : State) (slice g : Nat) : Nat :=
  match groupOf s slice g with
  | none => 0
  | some c => if s.faults.vaultHalted then 0 else c.av

def reserveH (s : State) (slice g : Nat) : Nat :=
  match groupOf s slice g with
  | none => 0
  | some c => if (hashEngine s slice g).isSome then c.ah else 0

/-- Control shares per tick: 8 for each control slot (R86). -/
def ctrlShares (s : State) (slice g : Nat) : Nat := 8 * (ctrlPosts s slice g).length

/-- Units of its table that a slice holds (R214); tombstones live in slice 0. -/
def tableUnits (s : State) (slice table : Nat) : Nat :=
  (getSlice s (if table == tbTmb then 0 else slice)).cfg.tableMap.getD (table - 1) 0

/-- The group lacks an allotment, a companion reserve, control slots or a table that the command needs (R37, R90,
R122, R214). -/
def lacksCapacity (s : State) (slice g : Nat) (i : OpInfo) : Bool :=
  allot s slice g i.cls == 0 ||
  (i.compV != 0 && reserveV s slice g == 0) || (i.compH != 0 && reserveH s slice g == 0) ||
  (i.ctrl && ctrlShares s slice g == 0) ||
  (i.cls == clNeedle && i.serial && (serialNeedle s slice g).isNone) ||
  (i.table != 0 && (tableUnits s slice i.table == 0 || !flag s Reg.VLT_STAT_PRESENT))

/-- The class constant `K` (R88). -/
def classK (s : State) (slice g : Nat) (i : OpInfo) : Nat :=
  if i.ctrl then
    1 + (if i.compV == 0 then 0 else ceilDiv i.compV (reserveV s slice g)) +
      (if i.compH == 0 then 0 else ceilDiv i.compH (reserveH s slice g))
  else 0

/-- The span bound `B` (R38, R124). -/
def spanBound (s : State) (slice g : Nat) (i : OpInfo) : Nat :=
  let n := max 1 i.units
  let a := allot s slice g i.cls
  if i.cls == clPurlin then 16 * ceilDiv n a
  else if i.serial then ceilDiv n (min a 3)
  else ceilDiv n a

/-! ### Plans -/

/-- The key of a group's plan in a class. -/
def planKey (gid cls : Nat) : Nat := gid * 16 + cls

def getPlan (s : State) (gid cls : Nat) : Plan := tget Plan.zero s.plans (planKey gid cls)
def setPlan (s : State) (gid cls : Nat) (p : Plan) : State :=
  { s with plans := tput Plan.zero s.plans (planKey gid cls) p }

/-- A placement: the release tick, first tick, units planned ahead, units per tick, last charged tick, class with
its purlin, units' places, and the plan that results. -/
structure Placement where
  r : Nat
  s0 : Nat
  owed : Nat
  rate : Nat
  last : Nat
  cls : Nat
  place : List Nat
  plan : Plan
deriving DecidableEq, Repr

/-- Units of the group's plan at tick `s0` or later under the current allotment `a` (`o` of R40). -/
def owedAt (p : Plan) (s0 a : Nat) : Nat := if p.last < s0 || p.used == 0 then 0 else (p.last - s0) * a + p.used

/-- R40, for a class other than purlins. -/
def placeParallel (p : Plan) (now units a k cls : Nat) (places : List Nat) : Placement :=
  let s0 := max (now + 2) (p.f + 1)
  let o := owedAt p s0 a
  let s := max 1 units
  let q := ceilDiv (o + s) a
  { r := s0 + q + k, s0 := s0, owed := o, rate := a, last := s0 + q - 1, cls := cls, place := places
    plan := ⟨p.f, s0 + q - 1, (o + s) - (q - 1) * a⟩ }

/-- R123: the stitches of a serial-mode command count as planned under an earlier allotment afterwards. -/
def placeSerial (p : Plan) (now units a k : Nat) (slots : List Nat) : Placement :=
  let s0 := max (now + 2) (p.f + 1)
  let o := owedAt p s0 a
  let s1 := s0 + ceilDiv o a
  let rate := min a 3
  let q := ceilDiv (max 1 units) rate
  { r := s1 + q + k, s0 := s1, owed := 0, rate := rate, last := s1 + q - 1, cls := clNeedle
    place := slots, plan := ⟨s1 + q - 1, s1 + q - 1, 0⟩ }

/-- Owned ticks at or after `t` and below `t + 16`, in order. -/
def ownedIn (pos : List Nat) (t : Nat) : List Nat :=
  ((List.range 16).filter (fun i => pos.contains ((t + i) % 16))).map (fun i => t + i)

/-- The `n`-th owned tick from `t`, counting from 1. -/
def ownedNth (pos : List Nat) (t n : Nat) : Nat :=
  let w := ownedIn pos t
  if w.length == 0 then t
  else w.getD ((n - 1) % w.length) t + 16 * ((n - 1) / w.length)

/-- Owned ticks from `t` to `u`, both included. -/
def ownedCount (pos : List Nat) (t u : Nat) : Nat :=
  if u < t then 0
  else
    let n := u + 1 - t
    (n / 16) * (ownedIn pos t).length + ((ownedIn pos t).filter (fun x => x < t + n % 16)).length

/-- The purlin form of R40 (R89): the purlin whose needed owned tick is earliest, the lowest index on a tie. -/
def placePurlin (s : State) (slice g now units k : Nat) : Option Placement :=
  let gid := gidOf slice g
  (List.range 8).foldl (fun best p =>
    let pos := purlinPos s slice g p
    if pos.isEmpty then best
    else
      let pl := getPlan s gid (clPurlin + p)
      let s0 := max (now + 2) (pl.f + 1)
      let o := if pl.used == 0 then 0 else ownedCount pos s0 pl.last
      let t := ownedNth pos s0 (o + max 1 units)
      let c : Placement :=
        { r := t + 1 + k, s0 := s0, owed := o, rate := 1, last := t, cls := clPurlin + p, place := p :: pos
          plan := ⟨pl.f, t, 1⟩ }
      match best with
      | none => some c
      | some b => if t < b.last then some c else best) none

/-- The placement of a command admitted in the kerf of `now`. -/
def placement (s : State) (slice g now : Nat) (i : OpInfo) : Option Placement :=
  let gid := gidOf slice g
  let k := classK s slice g i
  if i.cls == clPurlin then placePurlin s slice g now i.units k
  else if i.cls == clNone then
    some { r := now + 2, s0 := now + 2, owed := 0, rate := 1, last := now + 1, cls := clNone, place := [],
           plan := Plan.zero }
  else
    let a := allot s slice g i.cls
    let p := getPlan s gid i.cls
    if i.serial then
      match serialNeedle s slice g with
      | some n => some (placeSerial p now i.units a k (serialSlots s slice g n (min a 3)))
      | none => none
    else
      let places :=
        if i.cls == clNeedle then (needleSlots s slice g).map (fun x => 128 * x.1 + x.2)
        else if i.cls == clPost then workPosts s slice g
        else if i.cls == clHash then (hashEngine s slice g).toList
        else []
      some (placeParallel p now i.units a k i.cls places)

/-! ### Progress -/

/-- Units that the plan of a context, as it stands, puts into ticks up to `t`. A purlin command's places are its
purlin and then the positions under which it was planned. -/
def plannedThrough (c : Ctx) (t : Nat) : Nat :=
  if c.cls == clNone || t < c.s0 then 0
  else if c.cls ≥ clPurlin && c.cls < clNone then ownedCount (c.place.drop 1) c.s0 t - c.owed
  else (t + 1 - c.s0) * c.rate - c.owed

/-- Units that had run by the end of tick `t` before a stall moved the plan. -/
def floorThrough (c : Ctx) (t : Nat) : Nat := if c.floorAt ≤ t then c.floorNew else c.floorOld

/-- Units lent by the end of tick `t`. -/
def lentThrough (c : Ctx) (t : Nat) : Nat := if c.lentAt ≤ t then c.lent else c.lentOld

/-- Units of a context that have run by the end of tick `t`. -/
def unitsThrough (c : Ctx) (t : Nat) : Nat :=
  min c.units (max (plannedThrough c t) (floorThrough c t) + lentThrough c t)

/-- The command's charged work has begun by tick `t`. -/
def begunBy (c : Ctx) (t : Nat) : Bool := c.s0 ≤ t || 0 < unitsThrough c t

/-- The command is a parallel, serial, hash, vault or post command with work in tick `t`: the indices of its units
of that tick, from the first to one past the last. -/
def unitsIn (c : Ctx) (t : Nat) : Nat × Nat :=
  (if t == 0 then 0 else unitsThrough c (t - 1), unitsThrough c t)

/-- Units that the plan alone has carried by the end of tick `t`, lent ones not counted. -/
def ownThrough (c : Ctx) (t : Nat) : Nat := min c.units (max (plannedThrough c t) (floorThrough c t))

/-- The planned units of tick `t` that carry work, counted in the plan: none is left for a slot whose work was done
early in lent capacity. -/
def ownIn (c : Ctx) (t : Nat) : Nat × Nat :=
  if t == 0 then (0, ownThrough c t)
  else
    let a := ownThrough c (t - 1)
    (a, max a (min (ownThrough c t) (c.units - lentThrough c (t - 1))))

/-- The place in the layout of the `j`-th unit of a command's plan: 128 × needle + slot, post, engine or purlin. -/
def spotAt (c : Ctx) (j : Nat) : Option Nat :=
  if c.place.isEmpty then none
  else if c.cls == clNeedle || c.cls == clPost then c.place[(c.owed + j) % c.rate]?
  else c.place.head?

/-- The place (needle, post, engine or purlin) of unit `i` of a command, which has not run yet. -/
def unitPlace (c : Ctx) (i : Nat) : Option Nat :=
  (spotAt c (i - c.lent)).map (fun x => if c.cls == clNeedle then x / 128 else x)

/-- The lane of the work slot that carries the `j`-th unit of a post command's plan. -/
def laneAtPlan (c : Ctx) (j : Nat) : List Nat := (c.laneAt.drop (16 * ((c.owed + j) % c.rate))).take 16

/-- The vault slot of the `j`-th unit of a vault-charged command's plan, or of a companion phase (R219): planned work
takes the slots of the allotment in force at admission, first in, first out, in ascending slot number. -/
def vaultSpot (c : Ctx) (j : Nat) : Nat :=
  c.vltAt.getD (if c.cls == clVault then (c.owed + j) % c.rate else j % max 1 c.vltAt.length) 0

/-! ### Control shares (R87) -/

/-- Commands with a control share in tick `t`, of the same group and under the same layout, in admission order. -/
def sharersAt (s : State) (c : Ctx) (t : Nat) : List (Nat × Ctx) :=
  s.ctxs.filter (fun e => e.2.phase == .running && !e.2.refused && e.2.k != 0 && e.2.gid == c.gid && e.2.ctrlAt == c.ctrlAt &&
    (e.2.admitted + 1 == t || e.2.release == t + 1))

/-- The control post that carries a command's share of tick `t`: shares fill the control slots in plan order, 8 to a
slot. -/
def sharePost (s : State) (c : Ctx) (t : Nat) : Option Nat :=
  let i := ((sharersAt s c t).filter (fun e => e.2.order < c.order)).length
  c.ctrlAt[i / 8]?

end Sys2Proof.Machine
end

