-- ==== Sys2Proof/Machine/Admit.lean ====
section
/-!
DEFINITION. Step 5 of the kerf: the admission of fetched commands (02_tick R36, R37, 03_queues R57, R71, R78,
04_command_reference R87, R93, R95, 05_needles R128, 06_keys R145, R148, R157, 10_seam_signatures R238, 11_entropy
R262, R265).
-/
namespace Sys2Proof.Machine
open Sys2Proof

/-! ### Refusals (R37, R78) -/

/-- The id of an entry is that of a command of its queue that holds a context or awaits admission ahead of it. -/
def dupId (s : State) (f : Fetched) : Bool :=
  s.ctxs.any (fun c => c.2.slice == f.slice && c.2.queue == f.queue && eId c.2.entry == eId f.entry) ||
  s.fetched.any (fun x => x.slice == f.slice && x.queue == f.queue && x.order < f.order && eId x.entry == eId f.entry)

/-- The slice's reload runs (R193). -/
def reloadRuns (s : State) (slice : Nat) : Bool :=
  let st := (getChain s slice).st
  st == .unloaded || st == .reloading || st == .failed

/-- The status with which a data entry is refused; 0 where it is not. -/
def refusal (s : State) (g : Nat) (f : Fetched) : Nat :=
  let e := f.entry
  match opInfo s f.slice g e with
  | none => stBadOpcode
  | some i =>
    if lcyState s == lcyTampered then stTampered
    else if dupId s f then stDupId
    else if i.badField || overlapBad e i then stBadField
    else if i.badLength then stBadLength
    else if lacksCapacity s f.slice g i then stGate
    else if (i.vaultCmd && reloadRuns s f.slice) || (eOp e == opRandom && !s.rng.seeded) then stNotReady
    else if i.cls != clNone && spanBound s f.slice g i + classK s f.slice g i + 2 > horizon s then stTooLarge
    else 0

/-! ### Key-creating commands (R145, R148, R194) -/

def createsKey (e : Bytes) : Bool :=
  let o := eOp e
  o == opKemEncaps || o == opKemDecaps || o == opEcdh || o == opKeyGenerate || o == opKeyImport || o == opKeyDerive

/-- Slots that a creating command takes (R149); one for an X9.143 import. -/
def newSlotCount (e : Bytes) : Nat :=
  if eOp e == opKeyImport && xFormat e == 1 then 1 else slotsOf (newType e)

/-- The parent of a created key (R145). -/
def newParent (slice : Nat) (e : Bytes) : Nat :=
  if eOp e == opKeyImport || eOp e == opKeyDerive then hSlot (eKeyA e) else slice

/-- The slice holds a live key of purpose JOURNAL (R194). -/
def hasJournalKey (s : State) (slice : Nat) : Bool :=
  s.keys.any (fun k => 256 ≤ k.1 && k.2.owner == slice && aPurpose k.2.attr == pJournal &&
    (k.2.st == .loaded || k.2.st == .active || k.2.st == .spent))

/-- The slice has a journal key: a live one, or one whose stored record will return it. -/
def ownsJournalKey (s : State) (slice : Nat) : Bool :=
  hasJournalKey s slice || s.records.any (fun r => r.owner == slice && aPurpose r.attr == pJournal)

/-- Entries of a bucket that count as records: a credential counts in any state but FREE and STAGED; reverse entries
do not count, and tombstones count against slice 0, the only one that holds them (R192, R214). -/
def bucketRecords (b : Bucket) : Nat :=
  if b.table == tbRev then 0
  else if b.table == tbCrd then (b.cells.filter (fun c => 2 ≤ byteAt c.2.bytes 0)).length
  else b.cells.length

/-- Records held in a slice's region. -/
def regionRecords (s : State) (slice : Nat) : Nat :=
  s.vault.buckets.foldl (fun n b => if b.slice == slice then n + bucketRecords b else n) 0

/-- The journal-key conditions of R194. -/
def journalBad (s : State) (slice : Nat) (e : Bytes) : Bool :=
  let a := newAttr e
  if eOp e == opKeyGenerate && aPurpose a == pJournal then
    aLevel a != 4 || aStore a != 1 || hasJournalKey s slice
  else if (eOp e == opKeyImport || eOp e == opKeyDerive) && aPurpose a == pJournal then true
  else if eOp e == opKeyKill then
    aPurpose (getKey s (hSlot (eKeyA e))).attr == pJournal && regionRecords s slice != 0
  else false

/-- The quota or the pool has no room for a created key (R110, R148). -/
def quotaBad (s : State) (slice : Nat) (e : Bytes) : Bool :=
  createsKey e &&
    (heldSlots s slice + newSlotCount e > (getSlice s slice).cfg.keyQuota || (chooseSlots s (newSlotCount e)).isNone)

/-! ### IVs (R128) -/

/-- The command builds a GCM or CTR IV; the mode. -/
def ivMode (e : Bytes) : Option Nat :=
  if eOp e == opCipher && cIvgen e && (cMode e == mdGcm || cMode e == mdCtr) then some (cMode e)
  else if eOp e == opTranslate && (tOutMode e == mdGcm || tOutMode e == mdCtr) then some (tOutMode e)
  else none

def builtIv (s : State) (mode : Nat) : Bytes :=
  let h := beBytes 4 (devNo s) ++ beBytes 8 s.ivCtr
  if mode == mdCtr then h ++ zeros 4 else h

/-! ### LMS indices (R238) -/

/-- The pair that a signing command uses: 128 for ATTEST, the pair of the seam reference otherwise. -/
def signPair (s : State) (e : Bytes) : Option Nat :=
  if eOp e == opAttest then some 128
  else if eOp e == opSignSeam then some (leAt (getKey s (hSlot (eKeyA e))).material 256 2)
  else if eOp e == opCredIssue then some (leAt (getKey s (hSlot (eKeyB e))).material 256 2)
  else none

def getPair (s : State) (n : Nat) : Option SeamPair := tfind s.lms.pairs n
def setPair (s : State) (n : Nat) (p : SeamPair) : State :=
  { s with lms := { s.lms with pairs := tinsert n p s.lms.pairs } }

/-- Indices of a set (R232). -/
def pairIndices (set : Nat) : Nat := if set == 1 then 2 ^ 50 else 2 ^ 30

/-- Where a pair's indices end: with the last reserved block after a programming failed, until a later one succeeds
(R241). -/
def lastIndex (p : SeamPair) : Nat := if p.failed then p.reservedTo * 1024 else pairIndices p.set

/-- Claims of admitted commands whose purlin work has not begun. -/
def claims (s : State) (pair : Nat) : Nat :=
  (s.ctxs.filter (fun c => c.2.phase == .running && c.2.lmsPair == some pair && c.2.lmsIndex == none)).length

/-- Indices in blocks that are reserved and built, from the next unassigned one (R238). -/
def availIndices (p : SeamPair) : Nat := min p.reservedTo p.builtTo * 1024 - p.next

def pairUsable (p : SeamPair) : Bool := p.st == .ready && p.cached

/-! ### Status decided at admission (R95 items 1–6) -/

/-- The command needs masked engine work, vault work or a child draw (R265). -/
def needsEntropy (e : Bytes) : Bool := !(eOp e == opHash || eOp e == opInfill)

/-- The status decided at admission; 0 where none is. -/
def admitStatus (s : State) (slice : Nat) (e : Bytes) : Nat :=
  let k := keysStatus s slice e
  let k := if quotaBad s slice e then worse k stKeyHandle else k
  let k := if journalBad s slice e then worse k stKeyUsage else k
  let k := if (match opInfo s slice 0 e with | some i => i.vaultCmd | none => false) &&
      ((getChain s slice).st == .none || !hasJournalKey s slice) then worse k stKeyUsage else k
  let k := if (ivMode e).isSome && !flag s Reg.NDL_STAT_IV_OK then worse k stKeySpent else k
  let k := match signPair s e with
    | none => k
    | some p =>
      if k != 0 then k
      else match getPair s p with
        | none => if eOp e == opAttest then k else stKeyHandle
        | some q => if lastIndex q - q.next ≤ claims s p then worse k stLmsExhausted else k
  if s.rng.failTick.isSome && needsEntropy e then worse k stEntropyFailed else k

/-- Tombstones can be looked up and written (R513): chain 128 is NONE, or READY with an anchor that holds it. -/
def tombReady (s : State) : Bool :=
  let c := getChain s 128
  c.st == .none || (c.st == .ready && s.vault.anchors.any (fun a => a.entries.any (fun x => x.chain == 128)))

/-! ### Waiting (R36, R87, R154, R205, R238, R262) -/

/-- A free context among the group's reserved ones. -/
def groupCtxs (s : State) (gid : Nat) : Nat := (s.ctxs.filter (fun c => c.2.gid == gid && c.1 < 4032)).length

/-- The lowest free context number from `lo`, below `hi`. -/
def freeCtx (s : State) (lo hi : Nat) : Option Nat :=
  ((List.range (s.ctxs.length + 1)).map (· + lo)).find? (fun n => n < hi && (tfind s.ctxs n).isNone)

def ctrlKey (gid tick : Nat) : Nat := tick * 4096 + gid
def ctrlTaken (s : State) (gid tick : Nat) : Nat := tget 0 s.ctrlUse (ctrlKey gid tick)

/-- A control share is not free, or the companion reserve holds a phase at or after the new one (R87). -/
def pathBusy (s : State) (slice g now : Nat) (i : OpInfo) (p : Placement) : Bool :=
  let gid := gidOf slice g
  let cap := ctrlShares s slice g
  (i.ctrl && (ctrlTaken s gid (now + 1) ≥ cap || ctrlTaken s gid (p.r - 1) ≥ cap)) ||
  (i.compV != 0 && tget 0 s.compEnd (2 * gid) ≥ p.last + 1) ||
  (i.compH != 0 && tget 0 s.compEnd (2 * gid + 1) ≥ p.last + 1)

/-- A chain's journal holding area of 4 MiB is full (R183, R198). -/
def holdingFull (s : State) (chain : Nat) : Bool :=
  ((getChain s chain).waiting.foldl (fun n r => n + r.bytes.length) 0) + 1280 > 2 ^ 22

/-- The chain that a command's mutation is journalled in. -/
def mutatesChain (slice : Nat) (e : Bytes) : Option Nat :=
  let o := eOp e
  if o == opKeyKill then some 128
  else if (o == opTokenize && kVaulted e) || o == opVaultPut || o == opVaultDelete || o == opCredIssue ||
      o == opCredRedeem || o == opCredKill then some slice
  else none

/-- The other waits of an admissible command that holds no failure. -/
def mustWait (s : State) (slice g : Nat) (e : Bytes) (status : Nat) : Bool :=
  (s.rng.failTick.isNone && !s.rng.children.contains (gidOf slice g)) ||
  ((createsKey e || eOp e == opKeyKill) && !tombReady s) ||
  (eOp e == opKeyKill && status == 0 && s.tombPend.length ≥ 256) ||
  (match mutatesChain slice e with | some n => holdingFull s n | none => false) ||
  (eOp e == opSelftest && slice == 0 && s.tick.fence.isSome) ||
  (status == 0 && match signPair s e with
    | none => false
    | some p => match getPair s p with
      | none => true
      | some q => !pairUsable q || !s.faults.zeroised.isEmpty || availIndices q ≤ claims s p)

/-! ### Admission -/

/-- The context of a command that is refused, released at `a + 2` (R37). -/
def refusedCtx (f : Fetched) (gid now status order : Nat) : Ctx :=
  { slice := f.slice, queue := f.queue, fetchNo := f.order, gid := gid, order := order, entry := f.entry, arrival := f.arrival,
    admitted := now, cls := clNone, units := 0, s0 := now + 2, owed := 0, rate := 1, k := 0, release := now + 2,
    lastTick := now + 1, serial := false, refused := true, status := status, keyA := none, keyB := none,
    newSlots := [], iv := [], lmsIndex := none, lmsPair := none, src := [], srcFail := false, srcGate := false, asked := 0,
    result := none, done := 0, slots := 0, scratch := [], drained := 0, drainFrom := 0, dstStop := false, lent := 0, lentAt := 0, lentOld := 0, late := 0, floorOld := 0,
    floorNew := 0, floorAt := 0, formula := now + 2, ctrlAt := [], vltAt := [], hshAt := none, laneAt := [], phase := .running, fail := none,
    place := [], hour := 0, code := [], link := [], linkT := [], reason := 0, adminDone := none }

/-- Puts a context into context RAM and drops its entry from the fetched ones. -/
def enterCtx (s : State) (n : Nat) (f : Fetched) (c : Ctx) : State :=
  { setCtx s n c with
    fetched := s.fetched.filter (fun x => x.order != f.order)
    ctxOrder := s.ctxOrder + 1 }

/-- Takes the two control shares and the companion reserve of a placement (R87). -/
def takePath (s : State) (slice g now : Nat) (i : OpInfo) (p : Placement) : State :=
  let gid := gidOf slice g
  let bump := fun (s : State) t => { s with ctrlUse := tput 0 s.ctrlUse (ctrlKey gid t) (ctrlTaken s gid t + 1) }
  let s1 := if i.ctrl then bump (bump s (now + 1)) (p.r - 1) else s
  let s2 := if i.compV == 0 then s1
    else { s1 with compEnd := tput 0 s1.compEnd (2 * gid) (p.last + ceilDiv i.compV (reserveV s slice g)) }
  if i.compH == 0 then s2
  else { s2 with compEnd := tput 0 s2.compEnd (2 * gid + 1) (p.last + ceilDiv i.compH (reserveH s slice g)) }

/-- Deducts the budgets of a command that passed every check (R93). -/
def deductAll (s : State) (e : Bytes) : State × Option KeyUse × Option KeyUse :=
  let a := hSlot (eKeyA e)
  let b := hSlot (eKeyB e)
  let na := needA e (getKey s a)
  let nb := needB s e (getKey s a) (getKey s b)
  let s1 := if usesA e then deductKey s a na.deduct else s
  let s2 := if usesB e then deductKey s1 b nb.deduct else s1
  (s2, if usesA e then some ⟨a, na.deduct, na.noRefund⟩ else none,
   if usesB e then some ⟨b, nb.deduct, nb.noRefund⟩ else none)

/-- The keys that a command names, without a deduction: a command that failed at admission. -/
def namedKeys (s : State) (slice : Nat) (e : Bytes) : Option KeyUse × Option KeyUse :=
  (if usesA e && handleOk s slice (eKeyA e) then some ⟨hSlot (eKeyA e), 0, false⟩ else none,
   if usesB e && handleOk s slice (eKeyB e) then some ⟨hSlot (eKeyB e), 0, false⟩ else none)

/-- `n` decimal digits of a number, ASCII, most significant first. -/
def asciiDigits : (n : Nat) → Nat → Bytes
  | 0, _ => []
  | n + 1, x => asciiDigits n (x / 10) ++ [BitVec.ofNat 8 (48 + x % 10)]

/-- What an admitted command that holds no failure does to the keys: slots, deductions, the kill, the IV, the code. -/
def admitEffects (s : State) (c : Ctx) : State × Ctx :=
  let e := c.entry
  let d := deductAll s e
  let s1 := d.1
  let c1 := { c with keyA := d.2.1, keyB := d.2.2 }
  let r2 : State × Ctx :=
    if createsKey e then
      match chooseSlots s1 (newSlotCount e) with
      | none => (s1, c1)
      | some a =>
        let parent := newParent c.slice e
        let attr := if eOp e == opKeyImport || eOp e == opKeyDerive then limitAttr (getKey s1 parent).attr (newAttr e)
          else newAttr e
        (loadSlots s1 a (newSlotCount e) c.slice (aLevel attr) parent attr (newType e),
         { c1 with newSlots := (List.range (newSlotCount e)).map (· + a) })
    else (s1, c1)
  let r3 : State × Ctx :=
    match ivMode e with
    | none => r2
    | some m => ({ r2.1 with ivCtr := (r2.1.ivCtr + 1) % 2 ^ 64 }, { r2.2 with iv := builtIv r2.1 m })
  let r4 : State × Ctx :=
    if eOp e == opCredIssue then
      let dg := byteAt e 0x39
      let x := drawBelowFrom r3.2.gid (10 ^ dg) r3.1
      (x.2, { r3.2 with code := asciiDigits dg x.1 })
    else r3
  let r5 : State × Ctx :=
    if eOp e == opKeyKill then
      (killKey r4.1 (hSlot (eKeyA e)), { r4.2 with scratch := [leNat (getKey r4.1 (hSlot (eKeyA e))).ident] })
    else r4
  (r5.1, { r5.2 with lmsPair := signPair s e })

/-- The vault slots that a command's charged work or companion phase takes, ascending (R17, R219). -/
def vaultAt (s : State) (slice g : Nat) (i : OpInfo) : List Nat :=
  match layoutOf s slice g with
  | none => []
  | some l => if i.cls == clVault then l.vlt else if i.compV != 0 then l.av else []

/-- The hash engine of a command's companion phase, with the group's reserve on it. -/
def companionHash (s : State) (slice g : Nat) (i : OpInfo) : Option (Nat × Nat) :=
  if i.compH == 0 then none else (hashEngine s slice g).map (fun e => (e, reserveH s slice g))

/-- The lanes of the work posts that a post command is placed on. -/
def lanesAt (s : State) (slice g : Nat) (p : Placement) : List Nat :=
  match layoutOf s slice g with
  | none => []
  | some l => if p.cls == clPost then p.place.flatMap (fun w => (postLane l w).map (fun x => 128 * x.1 + x.2)) else []

/-- Tries to admit one fetched entry of group `g`; `none` where it waits. -/
def admitOne (s : State) (g : Nat) (f : Fetched) : Option State :=
  let now := s.tick.count
  let slice := f.slice
  let gid := gidOf slice g
  match groupOf s slice g, freeCtx s 0 4032 with
  | some cfg, some n =>
    if groupCtxs s gid ≥ cfg.ctxs then none
    else
      let bad := refusal s g f
      if bad != 0 then some (enterCtx s n f (refusedCtx f gid now bad s.ctxOrder))
      else match opInfo s slice g f.entry with
        | none => none
        | some i =>
          match placement s slice g now i with
          | none => none
          | some p =>
            let status := admitStatus s slice f.entry
            let fence := eOp f.entry == opSelftest && slice == 0
            if p.r > now + horizon s || pathBusy s slice g now i p || mustWait s slice g f.entry status then none
            else
              let nk := namedKeys s slice f.entry
              let c : Ctx :=
                { refusedCtx f gid now status s.ctxOrder with
                  refused := false, cls := p.cls, units := i.units, s0 := p.s0, owed := p.owed, rate := p.rate
                  k := classK s slice g i, release := p.r, formula := p.r, lastTick := p.last,
                  ctrlAt := ctrlPosts s slice g, vltAt := vaultAt s slice g i, hshAt := companionHash s slice g i
                  laneAt := lanesAt s slice g p, serial := i.serial, place := p.place
                  hour := sliceHour s slice, keyA := nk.1, keyB := nk.2
                  scratch := if eOp f.entry == opAttest then [getF s Reg.LCY_STAT_EVAL] else [] }
              let r := if status == 0 then admitEffects s c else (s, c)
              let s1 := enterCtx r.1 n f r.2
              let s2 := if i.cls == clNone then s1 else setPlan (takePath s1 slice g now i p) gid p.cls p.plan
              some (if fence then { s2 with tick := { s2.tick with fence := some ⟨now, 0, 0, n, false⟩ } } else s2)
  | _, _ => none

/-- The next fetched entry of a group: by arrival tick, submission queue id, then position in the queue (R36). -/
def nextFetched (s : State) (slice g : Nat) : Option Fetched :=
  let mine := s.fetched.filter (fun f => f.slice == slice && f.queue != adminQ && eOp f.entry != opAbort &&
    groupOfQueue s slice f.queue == some g)
  mine.foldl (fun b f => match b with
    | none => some f
    | some x =>
      if f.arrival < x.arrival || (f.arrival == x.arrival && (f.queue < x.queue ||
          (f.queue == x.queue && f.order < x.order))) then some f else b) none

/-- Admits up to `n` commands of a group; stops at the first that waits. -/
def admitGroup : (n : Nat) → State → (slice g : Nat) → State
  | 0, s, _, _ => s
  | n + 1, s, slice, g =>
    match nextFetched s slice g with
    | none => s
    | some f =>
      match admitOne s g f with
      | none => s
      | some s1 =>
        let s2 := { s1 with tick := { s1.tick with reach := max s1.tick.reach (s1.tick.count + horizon s1) } }
        admitGroup n s2 slice g

/-! ### The admin pair (R292) -/

/-- Admin commands that run. -/
def adminRunning (s : State) : List (Nat × Ctx) := s.ctxs.filter (fun c => 4032 ≤ c.1 && c.2.phase == .running)

/-- The admin command needs purlin or needle work, or a draw of the posts' child, whatever its operands: a creation, a
migration, a reload, a staged image, an approval or a login (R265, DEDUCED: notes/assumptions/91.md). -/
def adminNeedsEntropy (e : Bytes) : Bool :=
  [opSliceCreate, opSliceExport, opSliceImport, opVaultReload, opFwStage].contains (eOp e) ||
  (eOp e == opGuardApprove && bitsAt (eParam e) 0 2 != 2)

/-- The status with which an admin entry is refused; 0 where it is not. -/
def adminRefusal (s : State) (f : Fetched) : Nat :=
  if !adminServed s f.entry then stBadOpcode
  else if dupId s f then stDupId
  else
    let k := adminFormat f.entry
    if k == 0 && s.rng.failTick.isSome && adminNeedsEntropy f.entry then stEntropyFailed else k

/-- The management posts take the next admin command: at most two run, and one that names a slice waits while
another that names it runs (R292). -/
def admitAdmin : (n : Nat) → State → State
  | 0, s => s
  | n + 1, s =>
    match s.fetched.find? (fun f => f.queue == adminQ && f.slice == 0 && eOp f.entry != opAbort) with
    | none => s
    | some f =>
      match freeCtx s 4032 4096 with
      | none => s
      | some c =>
        let run := adminRunning s
        let now := s.tick.count
        let bad := adminRefusal s f
        if bad != 0 then admitAdmin n (enterCtx s c f (refusedCtx f 4096 now bad s.ctxOrder))
        else if run.length ≥ 2 || (adminSlice f.entry != none &&
            run.any (fun x => adminSlice x.2.entry == adminSlice f.entry)) then s
        else
          admitAdmin n (enterCtx s c f { refusedCtx f 4096 now 0 s.ctxOrder with refused := false, release := 2 ^ 64 })

/-! ### Step 5 -/

/-- The fence raised in this kerf gets its drain and its length (R48). -/
def startFence (s : State) : State :=
  match s.tick.fence with
  | none => s
  | some f =>
    if f.l != 0 then s
    else
      let k := f.k
      let d := s.tick.reach - k
      let l := d + 32768
      let s1 := { s with tick := { s.tick with fence := some { f with d := d, l := l } } }
      let s2 := match getCtx s1 f.ctx with
        | some c => setCtx s1 f.ctx { c with release := k + l, lastTick := k + l - 1 }
        | none => s1
      event (setReg (setFlag s2 Reg.TIK_STAT_FENCE true) Reg.TIK_FENCE_END (BitVec.ofNat 32 (k + l)))
        Reg.TIK_EVT_FENCE_START

/-- A fence holds admission: one raised in an earlier kerf and not ended by this kerf. -/
def fenceHolds (s : State) : Bool :=
  match s.tick.fence with
  | none => false
  | some f => f.l != 0 && s.tick.count < f.k + f.l

/-- Step 5: admission (R36). -/
def kerfAdmit (s : State) : State :=
  if s.faults.safe || fenceHolds s then s
  else
    let s1 := if running s then
        (allGroups s).foldl (fun s x =>
          if (getSlice s x.1).st == .active && (getSlice s x.1).change.isNone then
            match groupOf s x.1 x.2 with
            | some c => admitGroup c.perTick s x.1 x.2
            | none => s
          else s) s
      else s
    startFence (admitAdmin 64 s1)

end Sys2Proof.Machine
end

