-- ==== Sys2Proof/Machine/Work.lean ====
section
/-!
DEFINITION. What every data-path command's work shares: its keys' material, its source, its result, and how much of
its work has run (04_command_reference R92–R97, 12_shuttle R271).
-/
namespace Sys2Proof.Machine
open Sys2Proof

/-- Material of the key in a use; a killed or retired key keeps it for the commands admitted before (R94, R120). -/
def useKey (s : State) (u : Option KeyUse) : KeySlot :=
  match u with
  | some k => getKey s k.slot
  | none => KeySlot.empty

def keyMatA (s : State) (c : Ctx) : Bytes := (useKey s c.keyA).material
def keyMatB (s : State) (c : Ctx) : Bytes := (useKey s c.keyB).material

/-- The identity that a KEY_KILL found in its slot as it was admitted; the slot may be EMPTY before the commit. -/
def killIdent (c : Ctx) : Bytes := leBytes 16 (c.scratch.headD 0)

/-- The last tick of the command's charged work and companion phases. -/
def endTick (c : Ctx) : Nat := c.lastTick + (c.k - 1)

/-- Every charged unit and companion phase has run by the end of tick `t`. -/
def workDone (c : Ctx) (t : Nat) : Bool := endTick c ≤ t && unitsThrough c t == c.units

/-- The source has arrived, or there is none. -/
def srcDone (c : Ctx) : Bool := eLen c.entry ≤ c.src.length

/-- The command's work goes on: admitted without a failure, not stopped. -/
def working (c : Ctx) : Bool :=
  c.phase == .running && !c.refused && c.status == 0 && c.fail.isNone && c.adminDone.isNone

/-- Unit `i` of the command runs for real: it has not failed at admission, and no failure came before the unit. -/
def liveUnit (c : Ctx) (i : Nat) : Bool :=
  c.phase == .running && !c.refused && c.status == 0 && c.adminDone.isNone &&
    (match c.fail with | some f => i < f.2 | none => true)

/-- Units that have run for real by the end of tick `t`. -/
def realThrough (c : Ctx) (t : Nat) : Nat :=
  match c.fail with
  | some f => min (unitsThrough c t) f.2
  | none => unitsThrough c t

/-- Hash shares of a VERIFY_SEAM's companion phase (R91). -/
def compHashUnits (e : Bytes) : Nat := if eOp e == opVerifySeam then 200 * hssLevels (eSet e) else 0

def putResult (s : State) (n : Nat) (c : Ctx) (r : CmdResult) : State := setCtx s n { c with result := some r }

/-- The items of a batch source. -/
def srcItems (c : Ctx) (size : Nat) : List Bytes := chunks size c.src

end Sys2Proof.Machine
end

