-- ==== Sys2Proof/Machine/Payment.lean ====
section
/-!
DEFINITION. The payment commands (07_payment, 04_command_reference R104–R106): PIN block formats, PIN_TRANSLATE,
PIN_VERIFY, and AES DUKPT derivation.
-/
namespace Sys2Proof.Machine
open Sys2Proof

/-! ### Nibbles -/

/-- The nibbles of a byte string, most significant first. -/
def nibbles (b : Bytes) : List Nat := b.flatMap (fun x => [x.toNat / 16, x.toNat % 16])

/-- Bytes from pairs of nibbles. -/
def unnibble : List Nat → Bytes
  | a :: b :: r => BitVec.ofNat 8 (a * 16 + b) :: unnibble r
  | _ => []

/-! ### PAN fields (R168) -/

/-- The PAN digits of an item: `n` nibbles from the BCD field at an offset. -/
def panDigits (item : Bytes) (off n : Nat) : List Nat := (nibbles (sub item off 10)).take n

/-- A PAN is usable: 12–19 digits, all decimal (R172). -/
def panOk (n : Nat) (ds : List Nat) : Bool := 12 ≤ n && n ≤ 19 && ds.all (· ≤ 9)

/-- Formats 0 and 3: `0x0000`, then the 12 rightmost digits without the check digit. A PAN of 12 digits leaves 11: a zero
nibble stands before them (DESIGN CHOICE, notes/assumptions/81.md). -/
def panField8 (ds : List Nat) : Bytes :=
  let d := ds.dropLast
  let t := d.drop (d.length - 12)
  unnibble (List.replicate (16 - t.length) 0 ++ t)

/-- Format 4: length − 12, all digits, zeros to nibble 31. -/
def panField16 (ds : List Nat) : Bytes :=
  let l := (ds.length - 12) :: ds
  unnibble (l ++ List.replicate (32 - l.length) 0)

/-! ### PIN fields (R168, R169) -/

/-- A decoded PIN field is well formed: control nibble, length, digits, fill. -/
def pinFieldOk (fmt : Nat) (ns : List Nat) : Bool :=
  let n := ns.getD 1 0
  let fill := (ns.take 16).drop (n + 2)
  ns.getD 0 16 == fmt && 4 ≤ n && n ≤ 12 && ((ns.drop 2).take n).all (· ≤ 9) &&
  (if fmt == 0 then fill.all (· == 0xF)
   else if fmt == 3 then fill.all (0xA ≤ ·)
   else if fmt == 4 then fill.all (· == 0xA)
   else true)

/-- The PIN digits of a PIN field. -/
def pinOf (ns : List Nat) : List Nat := (ns.drop 2).take (ns.getD 1 0)

/-- The PIN field of an enciphered block (R168). -/
def decodeField (fmt : Nat) (key : Bytes) (pan : List Nat) (block : Bytes) : List Nat :=
  if fmt == 4 then nibbles (aesDec key (xorB (aesDec key (sub block 0 16)) (panField16 pan)))
  else
    let p := tdesDec key (sub block 0 8)
    nibbles (if fmt == 1 then p else xorB p (panField8 pan))

/-- The PIN field of a PIN in a format with its random fill: 14 − N nibbles, or 16 more for format 4. -/
def pinField (fmt : Nat) (pin : List Nat) (fill : List Nat) : List Nat :=
  let h := fmt :: pin.length :: pin
  let k := 16 - h.length
  if fmt == 0 then h ++ List.replicate k 0xF
  else if fmt == 1 then h ++ fill.take k
  else if fmt == 3 then h ++ (fill.take k).map (fun x => 10 + x % 6)
  else h ++ List.replicate k 0xA ++ fill.take 16

/-- The enciphered block of a PIN, padded to the item's 16 bytes. -/
def encodeBlock (fmt : Nat) (key : Bytes) (pan pin fill : List Nat) : Bytes :=
  let f := unnibble (pinField fmt pin fill)
  if fmt == 4 then aesEnc key (xorB (aesEnc key f) (panField16 pan))
  else padTo 16 (tdesEnc key (if fmt == 1 then f else xorB f (panField8 pan)))

/-! ### Batches (R96) -/

/-- Runs items from the first not yet done up to `upTo`, appending their outputs to the result. -/
def batchRun (step : State → Bytes → Bytes × State) (size : Nat) :
    (todo : Nat) → State → (n : Nat) → State
  | 0, s, _ => s
  | todo + 1, s, n =>
    match getCtx s n with
    | none => s
    | some c =>
      let item := sub c.src (size * c.done) size
      let o := step s item
      let old := match c.result with
        | some r => r.dest
        | none => []
      let s1 := setCtx o.2 n { c with done := c.done + 1, result := some (resBatch size (old ++ o.1)) }
      batchRun step size todo s1 n

/-- Items whose last grain has run by unit `u`, of weight `g` (R86, R104). -/
def grainItems (e : Bytes) (size g u : Nat) : Nat := min (items e size) (128 * u / g)

/-! ### PIN_TRANSLATE (R104, R171–R173) -/

def pinUsesPan (inF outF : Nat) : Bool := !(inF == 1 && outF == 1)

/-- The item's status, and the PIN where it is well formed. -/
def pinTranslateCheck (inF outF : Nat) (key item : Bytes) : Nat × List Nat × List Nat :=
  let n := byteAt item 0
  let ds := panDigits item 4 n
  let panBad := if pinUsesPan inF outF then !panOk n ds else !(n == 0 || (12 ≤ n && n ≤ 19))
  let ns := decodeField inF key ds (sub item 0x10 16)
  (if panBad || !pinFieldOk inF ns then stBadField else stOk, ds, pinOf ns)

/-- An output item (R104). -/
def pinOutItem (status : Nat) (block item : Bytes) : Bytes :=
  leBytes 2 status ++ zeros 14 ++ padTo 16 block ++ sub item 0x20 8 ++ zeros 8

def pinTranslateItem (who : Nat) (e keyA keyB : Bytes) (s : State) (item : Bytes) : Bytes × State :=
  let d := drawFrom who 16 s
  let k := pinTranslateCheck (pInFmt e) (pOutFmt e) keyA item
  if k.1 == stOk then
    (pinOutItem stOk (encodeBlock (pOutFmt e) keyB k.2.1 k.2.2 (d.1.map (fun b => b.toNat % 16))) item, d.2)
  else (pinOutItem k.1 [] item, d.2)

def workPinTranslate (s : State) (n : Nat) (c : Ctx) (u : Nat) : State :=
  let e := c.entry
  let k := min (grainItems e 48 (fmtGrains (pInFmt e) + fmtGrains (pOutFmt e)) u) (c.src.length / 48)
  batchRun (pinTranslateItem c.gid e (keyMatA s c) (keyMatB s c)) 48 (k - c.done) s n

/-! ### PIN_VERIFY (R105, R174) -/

/-- The canonical PIN field: format 4 with nibbles 16–31 zero. -/
def canonicalPin (pin : List Nat) : Bytes := unnibble (pinField 4 pin [] ++ List.replicate 16 0)

def pinVerifyResult (e keyA keyB src : Bytes) : CmdResult :=
  let n := byteAt src 0
  let ds := panDigits src 4 n
  let ns := decodeField (pInFmt e) keyA ds (sub src 0x10 16)
  let want := (cmac keyB (canonicalPin (pinOf ns) ++ panField16 ds)).take 8
  if panOk n ds && pinFieldOk (pInFmt e) ns && want == sub src 0x28 8 then resStatus stOk else resStatus stAuthFail

def workPinVerify (s : State) (n : Nat) (c : Ctx) : State :=
  putResult s n c (pinVerifyResult c.entry (keyMatA s c) (keyMatB s c) c.src)

/-! ### AES DUKPT (R175–R178) -/

/-- Key bytes of a size code: AES-128 0, AES-192 1, AES-256 2. -/
def ksBytes (k : Nat) : Nat := 16 + 8 * k

/-- One derivation: derivation data blocks enciphered in ECB, leftmost bits kept (R176). -/
def dukptDerive (key : Bytes) (usage size : Nat) (tail : Bytes) : Bytes :=
  let blk := fun (ctr : Nat) =>
    [1, BitVec.ofNat 8 ctr] ++ beBytes 2 usage ++ beBytes 2 (2 + size) ++ beBytes 2 (8 * ksBytes size) ++ padTo 8 tail
  (aesEnc key (blk 1) ++ (if size == 0 then [] else aesEnc key (blk 2))).take (ksBytes size)

/-- The set bits of a counter, most significant first. -/
def dukptBits (tc : Nat) : List Nat := ((List.range 32).reverse.filter (fun i => bitAt tc i)).map (fun i => 2 ^ i)

/-- The working key's usage indicator. -/
def dukptUsage (code : Nat) : Nat :=
  match code with
  | 1 => 0x1000
  | 2 => 0x2000
  | 3 => 0x2001
  | 4 => 0x2002
  | 5 => 0x3000
  | 6 => 0x3001
  | _ => 0x3002

/-- The key of the transaction counter (R177). -/
def dukptTransaction (key did : Bytes) (ksize tc : Nat) : Bytes × Nat :=
  (dukptBits tc).foldl (fun (st : Bytes × Nat) b =>
    let wc := st.2 + b
    (dukptDerive st.1 0x8000 ksize (did ++ beBytes 4 wc), wc)) (key, 0)

/-- The working key of an item. -/
def dukptWorking (k : KeySlot) (ksize : Nat) (ksn : Bytes) (code alg : Nat) : Bytes :=
  let ik := if k.level == 5 then dukptDerive k.material 0x8001 ksize (sub ksn 0 8) else k.material
  let tc := beNat (sub ksn 8 4)
  let did := sub ksn 4 4
  dukptDerive (dukptTransaction ik did ksize tc).1 (dukptUsage code) (alg - 2) (did ++ beBytes 4 tc)

/-- The purpose that an item's usage requires of key B. -/
def dukptPurpose (code : Nat) : Nat := if code == 1 then pPin else if code ≤ 4 then pMac else pData

/-- An output item: status, length, result, tag. -/
def dukptOutItem (status : Nat) (res item : Bytes) : Bytes :=
  leBytes 2 status ++ leBytes 2 res.length ++ padTo 40 res ++ zeros 4 ++ sub item 0x30 8 ++ zeros 8

/-- One item (R106, R177, R178): every condition is evaluated, the precedence applied at the end. -/
def dukptItem (who : Nat) (e : Bytes) (ka kb : KeySlot) (s : State) (item : Bytes) : Bytes × State :=
  let d := drawFrom who 16 s
  let pin := dAction e == 1
  let ks := dKsize e
  let ksn := sub item 0 12
  let tc := beNat (sub ksn 8 4)
  let code := byteAt item 0x0C
  let alg := byteAt item 0x0D
  let n := byteAt item 0x20
  let ds := panDigits item 0x21 n
  let bad := tc == 0 || popCount tc 32 > 16 || code == 0 || code > 7 || alg < 2 || alg > 4 || (pin && !panOk n ds)
  let usage := alg - 2 > ks || (ka.level == 6 && ka.ik != sub ksn 0 8) ||
    (if pin then code != 1 else dukptPurpose code != aPurpose kb.attr)
  let wk := dukptWorking ka ks ksn code alg
  let ns := decodeField 4 wk ds (sub item 0x10 16)
  let st := if bad then stBadField else if usage then stKeyUsage
    else if pin && !pinFieldOk 4 ns then stBadField else stOk
  let res := if st != stOk then []
    else if pin then encodeBlock 4 kb.material ds (pinOf ns) (d.1.map (fun b => b.toNat % 16))
    else kwWrap kb.material wk
  (dukptOutItem st res item, d.2)

def dukptGrains (e : Bytes) : Nat := (if dKsize e == 0 then 15 else 30) + (if dAction e == 1 then 60 else 0)

def workDukpt (s : State) (n : Nat) (c : Ctx) (u : Nat) : State :=
  let k := min (grainItems c.entry 64 (dukptGrains c.entry) u) (c.src.length / 64)
  batchRun (dukptItem c.gid c.entry (useKey s c.keyA) (useKey s c.keyB)) 64 (k - c.done) s n

end Sys2Proof.Machine
end

