-- ==== Sys2Proof/Machine/Derive.lean ====
section
/-!
DEFINITION. The derivation functions of the key store (06_keys R159), which KEY_DERIVE and the journal's seal keys
share, and the journal of a chain (08_vault_store R194–R198): sealing a record and placing it.
-/
namespace Sys2Proof.Machine
open Sys2Proof

/-! ### Derivation (R159) -/

/-- SP 800-108 in counter mode with AES-CMAC: block `i` over the counter, the label, a zero byte, the context and the
output length, the counter and the length in 32 bits (PRESUMED widths: notes/assumptions/5.md). -/
def kdfBlock (key label context : Bytes) (bits i : Nat) : Bytes :=
  cmac key (beBytes 4 i ++ label ++ [0] ++ context ++ beBytes 4 bits)

/-- `n` bytes of key material. -/
def kdf108 (key label context : Bytes) (n : Nat) : Bytes :=
  ((List.range (ceilDiv n 16)).flatMap (fun i => kdfBlock key label context (8 * n) (i + 1))).take n

/-- The fixed label of function 0x20. -/
def bankLabel : Bytes := beBytes 6 0x4C4B42414E4B

/-- SP 800-56C in two steps: extraction under a salt of zeros, expansion as function 0x01. -/
def kdf56c (secret label context : Bytes) (n : Nat) : Bytes := kdf108 (cmac (zeros 16) secret) label context n

/-! ### The chain of a journal (R194, R196, R197) -/

/-- The chain field of a record. -/
def chainCode (chain : Nat) : Nat := if chain == 128 then 0x100 else chain

/-- The boot count (sill register 0). -/
def bootCount (s : State) : Nat := sillVal s 0

/-- The material of a slice's live journal key. -/
def sliceJournalKey (s : State) (slice : Nat) : Bytes :=
  match s.keys.find? (fun k => 256 ≤ k.1 && k.2.owner == slice && aPurpose k.2.attr == pJournal &&
      (k.2.st == .loaded || k.2.st == .active || k.2.st == .spent)) with
  | some k => k.2.material
  | none => []

/-- The journal key of a chain: the domain journal key is derived from L2 (PRESUMED: its derivation is not printed). -/
def journalKey (s : State) (chain : Nat) : Bytes :=
  if chain == 128 then padTo 32 (Config.pk 21 [(getKey s 0).material]) else sliceJournalKey s chain

/-- A seal key: function 0x01 over the epoch, device number, boot count and seal period. No rule prints the label,
which is therefore left free (notes/assumptions/4.md). -/
def sealKey (s : State) (chain epoch dev boot period : Nat) : Bytes :=
  kdf108 (journalKey s chain) (padTo 8 (Config.pk 23 []))
    (leBytes 4 epoch ++ leBytes 4 dev ++ leBytes 4 boot ++ leBytes 4 period) 32

/-! ### Records (R196) -/

def jPad : Nat := 0
def jPut : Nat := 1
def jDelete : Nat := 2
def jTomb : Nat := 3
def jRebaseStart : Nat := 8
def jBase : Nat := 9
def jBaseEnd : Nat := 10

/-- Entries of a record with a payload of `p` bytes. -/
def jEntries (p : Nat) : Nat := ceilDiv (p + 64) 64

/-- The 48 header bytes. -/
def jHeader (typ chain epoch seq dev boot period p : Nat) (link : Bytes) : Bytes :=
  leBytes 1 typ ++ leBytes 1 (jEntries p) ++ leBytes 2 (chainCode chain) ++ leBytes 4 epoch ++ leBytes 8 seq ++
  leBytes 4 dev ++ leBytes 4 boot ++ leBytes 4 period ++ leBytes 4 p ++ padTo 16 link

/-- The IV of a record (R197). -/
def jIv (seq : Nat) : Bytes := zeros 4 ++ beBytes 8 seq

/-- A sealed record and its tag. -/
def jSeal (key header : Bytes) (seq : Nat) (payload : Bytes) : Bytes × Bytes :=
  let r := gcmEnc key (jIv seq) header payload 16
  (header ++ padTo (64 * jEntries payload.length - 64) r.1 ++ r.2, r.2)

/-- Places a record in its chain: the next sequence, the link to the record before it, and the seal period, which
advances after 2^31 records (R196–R198). It is written to the ring in the tick after. -/
def placeRecord (s : State) (chain typ : Nat) (payload : Bytes) (ctx : Option Nat) : State :=
  let c := getChain s chain
  let seq := c.seq + 1
  let dev := devNo s
  let boot := bootCount s
  let link := if seq == 1 then zeros 16 else c.link
  let r := jSeal (sealKey s chain c.epoch dev boot c.period)
    (jHeader typ chain c.epoch seq dev boot c.period payload.length link) seq payload
  let full := c.sealedCount + 1 ≥ 2 ^ 31
  let c1 := { c with
    seq := seq, link := r.2, held := true
    sealedCount := if full then 0 else c.sealedCount + 1
    period := if full then c.period + 1 else c.period
    rebaseSeq := if typ == jRebaseStart then seq else c.rebaseSeq
    waiting := c.waiting ++ [⟨r.1, seq, ctx, s.tick.count⟩] }
  let s1 := setChain s chain c1
  { s1 with vault := { s1.vault with advanced := true } }

/-- A completion waits while a record of its command waits for its ring (R198). -/
def journalWaits (s : State) (ctx : Nat) : Bool :=
  s.vault.chains.any (fun c => c.2.waiting.any (fun r => r.ctx == some ctx))

end Sys2Proof.Machine
end

