-- ==== Sys2Proof/Machine/Protect.lean ====
section
/-!
DEFINITION. The protected memory of the vault (08_vault_store R183–R187, R190, R207, R513): the tree of counters and tags,
sealing and opening panels, re-encryption, the panels of buckets, and the clearing of regions.
-/
namespace Sys2Proof.Machine
open Sys2Proof

/-! ### The counter tree (R184) -/

/-- A child by its level (0 panel, 1 L0 block, 2 L1 node, 3 L2 node; 4 names an L3 node) and index. -/
def ctrKey (level i : Nat) : Nat := 8 * i + level
def keyLevel (k : Nat) : Nat := k % 8
def keyIndex (k : Nat) : Nat := k / 8

/-- The node that holds a child's counter. -/
def parentKey (k : Nat) : Nat := ctrKey (k % 8 + 1) (k / 8 / 16)

/-- Child `j` of a node. -/
def childKey (k j : Nat) : Nat := ctrKey (k % 8 - 1) (16 * (k / 8) + j)

/-- A child and the nodes above it that lie on a DIMM, upward. -/
def upPath (k : Nat) : List Nat := (List.range (4 - k % 8)).map (fun i => ctrKey (k % 8 + i) (k / 8 / 16 ^ i))

/-- The counter of a child: major ‖ minor (R184). -/
def treeCtr (t : Tree) (k : Nat) : Nat := tget 0 t.majors (parentKey k) * 2 ^ 24 + tget 0 t.minors k

/-- The first 448 bits of a node, as 56 bytes in the order of their addresses: its major counter and the minor counters
of its children (R184). -/
def nodeBytes (t : Tree) (k : Nat) : Bytes :=
  leBytes 8 (tget 0 t.majors k) ++ (List.range 16).flatMap (fun j => leBytes 3 (tget 0 t.minors (childKey k j)))

/-! ### Sealing (R185) -/

/-- blk(d, a, g, c, i): its fields from the most significant bit on (DEDUCED, notes/assumptions/82.md). -/
def vblk (d a g c i : Nat) : Bytes :=
  beBytes 16 (((((d * 2 ^ 30 + a % 2 ^ 30) * 4 + g % 4) * 2 ^ 88 + c % 2 ^ 88) * 16 + i % 16) * 8)

/-- GHASH over blocks alone, without a block of lengths; a last part of a block is filled with zeros. -/
def ghashRaw (h : BitVec 128) (b : Bytes) : BitVec 128 :=
  ((chunks 16 b).map blk128).foldl (fun y x => ghMul (y ^^^ x) h) 0#128

/-- A tag under a generation's key: GHASH under h of the data and the block, masked by the block under km. -/
def maskTag (key data blk : Bytes) : Bytes :=
  xorB (beBytes 16 (ghashRaw (blk128 (sub key 64 16)) (data ++ blk)).toNat) (aesEnc (sub key 32 32) blk)

/-- The key stream of a panel under ke. -/
def panelStream (key : Bytes) (p g c : Nat) : Bytes :=
  (List.range 16).flatMap (fun i => aesEnc (key.take 32) (vblk 0 p g c i))

/-- A node's address in the counter area: its index, after the nodes of the levels below, each level taken as 2^28 long
(DESIGN CHOICE, notes/assumptions/82.md). -/
def nodeAddr (k : Nat) : Nat := (k % 8 - 1) * 2 ^ 28 + k / 8

/-- The tag of a child under its counter: 128 bits for a panel, the leftmost 64 for a node. -/
def childTag (t : Tree) (key : Bytes) (k g : Nat) (ct : Bytes) : Bytes :=
  if k % 8 == 0 then maskTag key ct (vblk 0 (k / 8) g (treeCtr t k) 0)
  else (maskTag key (nodeBytes t k) (vblk 1 (nodeAddr k) g (treeCtr t k) 0)).take 8

/-- Seals a child under its counter: a panel with its plaintext, a node as it stands. -/
def sealChild (t : Tree) (g : Nat) (key : Bytes) (k : Nat) (pt : Bytes) : Tree :=
  let ct := if k % 8 == 0 then xorB pt (panelStream key (k / 8) g (treeCtr t k)) else []
  { t with seals := tinsert k ⟨g, ct, childTag t key k g ct⟩ t.seals }

/-- The tag of a child verifies against its counter. -/
def sealOk (t : Tree) (k : Nat) : Bool :=
  match tfind t.seals k with
  | none => false
  | some x => match tfind t.keys x.gen with
    | none => false
    | some key => x.tag == childTag t key k x.gen x.ct

/-- The plaintext of a panel; a panel whose counter is zero reads as zeros (R186). -/
def openChild (t : Tree) (k : Nat) : Bytes :=
  if treeCtr t k == 0 then zeros 256
  else match tfind t.seals k with
    | none => zeros 256
    | some x => match tfind t.keys x.gen with
      | none => zeros 256
      | some key => xorB x.ct (panelStream key (k / 8) x.gen (treeCtr t k))

/-! ### Reads and writes (R186, R187) -/

/-- The first failure that a read of panel `p` meets on its path, from the L2 node down: level and index. A child whose
counter is zero has no tag. Every read checks the whole path, cached nodes too (notes/assumptions/83.md). -/
def panelFault (t : Tree) (p : Nat) : Option (Nat × Nat) :=
  (upPath (ctrKey 0 p)).reverse.findSome? (fun k =>
    if treeCtr t k == 0 || sealOk t k then none else some (keyLevel k, keyIndex k))

/-- One more write of a child: its minor counter; at 2^23 its page or node is queued for re-encryption. -/
def bumpChild (t : Tree) (k : Nat) : Tree :=
  let v := tget 0 t.minors k + 1
  let q := parentKey k
  { t with minors := tput 0 t.minors k v
           queue := if v == 2 ^ 23 && !t.queue.contains q then t.queue ++ [q] else t.queue }

/-- A write of panel `p` under generation `g`: every counter on its path, the panel and every node on the path sealed
again. -/
def treeWrite (t : Tree) (g p : Nat) (pt : Bytes) : Tree :=
  match tfind t.keys g with
  | none => t
  | some key =>
    let path := upPath (ctrKey 0 p)
    path.foldl (fun t k => sealChild t g key k pt) (path.foldl bumpChild t)

/-- Re-encryption of a page or node: its major counter is incremented, every child sealed under a minor counter of 1, and
the node itself written (R186). -/
def treeRenew (t : Tree) (g q : Nat) : Tree :=
  match tfind t.keys g with
  | none => t
  | some key =>
    let kids := (List.range 16).map (childKey q)
    let old := kids.map (fun k => (k, openChild t k))
    let t1 := { t with majors := tput 0 t.majors q (tget 0 t.majors q + 1)
                       minors := kids.foldl (fun m k => tput 0 m k 1) t.minors
                       queue := t.queue.filter (· != q) }
    let t2 := (upPath q).foldl bumpChild t1
    let t3 := old.foldl (fun t x => sealChild t g key x.1 x.2) t2
    (upPath q).foldl (fun t k => sealChild t g key k []) t3

/-- A child or node of the panels from `lo` up to `hi`. -/
def inSpan (lo hi k : Nat) : Bool := lo ≤ k / 8 * 16 ^ (k % 8) && k / 8 * 16 ^ (k % 8) < hi

/-- The children of a span lose their counters, and read as never written. -/
def treeClear (t : Tree) (lo hi : Nat) : Tree :=
  { t with minors := t.minors.filter (fun e => !inSpan lo hi e.1), majors := t.majors.filter (fun e => !inSpan lo hi e.1)
           seals := t.seals.filter (fun e => !inSpan lo hi e.1), queue := t.queue.filter (fun k => !inSpan lo hi k) }

def setTree (s : State) (t : Tree) : State := { s with vault := { s.vault with tree := t } }

/-- A panel write under the current generation: the tree, the page's recorded generation where it has none, and the
generation's use (R186, R191). Without a key the channels rest in self-refresh and nothing is written (R190). -/
def panelWrite (s : State) (p : Nat) (pt : Bytes) : State :=
  let v := s.vault
  match tfind v.tree.keys v.gen with
  | none => s
  | some _ =>
    { s with vault := { v with
        tree := treeWrite v.tree v.gen p pt
        pageGen := if (tfind v.pageGen (p / 16)).isSome then v.pageGen else tinsert (p / 16) v.gen v.pageGen
        genUse := tput 0 v.genUse v.gen (tget 0 v.genUse v.gen + 1) } }

/-- The plaintext of a panel. -/
def panelOpen (s : State) (p : Nat) : Bytes := openChild s.vault.tree (ctrKey 0 p)

/-- A panel is written back unchanged, under a new counter (R219). -/
def panelBack (s : State) (p : Nat) : State := panelWrite s p (panelOpen s p)

/-! ### Buckets and their panels (R214, R216) -/

/-- The slice whose region holds a table: tombstones lie in slice 0. -/
def tableSlice (slice table : Nat) : Nat := if table == tbTmb then 0 else slice

/-- Buckets of a table. -/
def tableBuckets (s : State) (slice table : Nat) : Nat :=
  let p := tableUnits s slice table * 2 ^ 20
  if table == tbGen then p / 41 else p

/-- Entries of a bucket. -/
def bucketCap (table : Nat) : Nat := if table == tbRev || table == tbTmb then 15 else 5

/-- Bytes of an entry. -/
def entrySize (table : Nat) : Nat := if table == tbRev || table == tbTmb then 16 else 48

def isBucket (b : Bucket) (slice table num : Nat) : Bool := b.slice == slice && b.table == table && b.num == num

/-- The cells of a bucket; a panel never written is an empty bucket (R186, R216). -/
def cellsOf (s : State) (slice table num : Nat) : List (Nat × VEntry) :=
  match s.vault.buckets.find? (fun b => isBucket b slice table num) with
  | some b => b.cells
  | none => []

/-- A bucket's panel: the table code, the occupancy bitmap, the entries in order (R216). -/
def panelBytes (table : Nat) (cs : List (Nat × VEntry)) : Bytes :=
  leBytes 1 table ++ zeros 1 ++ leBytes 2 (((List.range (bucketCap table)).filter (fun i => (tfind cs i).isSome)).foldl
    (fun m i => m + 2 ^ i) 0) ++ zeros 12 ++ (List.range (bucketCap table)).flatMap (fun i => match tfind cs i with
    | some e => padTo (entrySize table) e.bytes
    | none => zeros (entrySize table))

/-- The first region unit of a table within its slice's region, which holds the tables in the map's order
(DEDUCED: notes/assumptions/12.md). -/
def tableFirst (s : State) (slice table : Nat) : Nat :=
  (getSlice s slice).vaultFirst + ((getSlice s slice).cfg.tableMap.take (table - 1)).foldl (· + ·) 0

/-- The panel of a bucket. -/
def bucketPanel (s : State) (slice table num : Nat) : Nat :=
  tableFirst s slice table * 2 ^ 20 + num * (if table == tbGen then 41 else 1)

/-- Panel `j` of extent `e` of a cell of a `GEN` frame (R216). -/
def extentPanel (s : State) (slice num cell e j : Nat) : Nat := bucketPanel s slice tbGen num + 1 + 8 * cell + 4 * e + j

/-- Writes a bucket panel. -/
def setCells (s : State) (slice table num : Nat) (cs : List (Nat × VEntry)) : State :=
  let s := panelWrite s (bucketPanel s slice table num) (panelBytes table cs)
  let rest := s.vault.buckets.filter (fun b => !isBucket b slice table num)
  let bs := if cs.isEmpty then rest else ⟨slice, table, num, cs⟩ :: rest
  { s with vault := { s.vault with buckets := bs } }

def putCell (s : State) (slice table num cell : Nat) (e : VEntry) : State :=
  setCells s slice table num (tinsert cell e (cellsOf s slice table num))

def clearCell (s : State) (slice table num cell : Nat) : State :=
  setCells s slice table num (terase cell (cellsOf s slice table num))

/-- A panel write that leaves the panel as it was, under a new counter (R219). -/
def idleWrite (s : State) (slice table num : Nat) : State :=
  if tableBuckets s slice table == 0 then s else panelBack s (bucketPanel s slice table num)

/-! ### Regions (R186, R192, R193, R513) -/

def setVault (s : State) (v : Vault) : State := { s with vault := v }

/-- Panels of a span of region units lose their counters, which makes them read as never written. -/
def clearSpan (s : State) (first units : Nat) : State :=
  let lo := first * 2 ^ 20
  let hi := (first + units) * 2 ^ 20
  setVault s { s.vault with
    tree := treeClear s.vault.tree lo hi
    pageGen := s.vault.pageGen.filter (fun e => !(lo ≤ 16 * e.1 && 16 * e.1 < hi)) }

/-- The VAULT records of a slice, or of all, are lost with the vault; their slots stay taken until a reload brings them
back (R165, R208). -/
def loseRecords (s : State) (mine : Nat → Bool) : State :=
  { s with records := s.records.map (fun r => if r.inVault && mine r.owner then { r with wrapped := [], mac := [] } else r) }

/-- Clears the part of the region that a chain fills: a slice's region, without TMB for slice 0; or TMB alone. -/
def clearChain (s : State) (chain : Nat) : State :=
  let mine := fun (b : Bucket) =>
    if chain == 128 then b.slice == 0 && b.table == tbTmb else b.slice == chain && b.table != tbTmb
  let s1 := setVault s { s.vault with buckets := s.vault.buckets.filter (fun b => !mine b) }
  let x := getSlice s (if chain == 128 then 0 else chain)
  let tmb := x.cfg.tableMap.getD 4 0
  if chain == 128 then clearSpan s1 (tableFirst s 0 tbTmb) tmb
  else clearSpan (loseRecords s1 (· == chain)) x.vaultFirst (x.cfg.vaultUnits - (if chain == 0 then tmb else 0))

def setChainSt (s : State) (chain : Nat) (st : VaultSt) : State := setChain s chain { getChain s chain with st := st }

/-- VLT_STAT.TOMB_READY (R205, R513). -/
def tombSync (s : State) : State :=
  let none_ := !flag s Reg.VLT_STAT_PRESENT || tableUnits s 0 tbTmb == 0
  setFlag s Reg.VLT_STAT_TOMB_READY (tombReady s && !none_)

/-- The chain state is lost: volatile sequence and link, waiting records, the reload in progress. -/
def loseChain (c : Chain) : Chain :=
  { c with st := if c.st == .none then .none else .unloaded
           seq := 0, link := [], held := false, period := 0, sealedCount := 0, writtenSeq := 0, writtenTag := []
           waiting := [], rebase := none, reload := none, head := 0, tail := 0, ringEn := false, ringBase := 0
           ringLog := 8 }

/-- Every generation and the L3 nodes are zeroised, the channels rest in self-refresh, and every chain's state is lost
(R190, R208). -/
def loseVault (s : State) : State :=
  let v := s.vault
  let s1 := loseRecords s (fun _ => true)
  tombSync (setFlag (setVault s1 { v with
    tree := ⟨[], [], [], [], []⟩, buckets := [], pageGen := [], genUse := [], sweep := none, oldGen := none
    pendingAnchor := none, anchorWanted := false, anchorCtxs := []
    chains := v.chains.map (fun c => (c.1, loseChain c.2)) }) Reg.DDR_STAT_SREF true)

/-! ### Integrity failures (R207) -/

/-- The chain whose part of a region holds a panel; none outside every region. -/
def chainOfPanel (s : State) (p : Nat) : Option Nat :=
  match s.slices.find? (fun x => x.2.vaultFirst * 2 ^ 20 ≤ p && p < (x.2.vaultFirst + x.2.cfg.vaultUnits) * 2 ^ 20) with
  | none => none
  | some x => some (if x.1 == 0 && tableFirst s 0 tbTmb * 2 ^ 20 ≤ p then 128 else x.1)

/-- What a failed check records, and the chain FAILED (R207, R513). -/
def integrityMark (s : State) (chain level : Nat) (ue : Bool) (addr : Nat) : State :=
  let slice := if chain == 128 then 0 else chain
  let s2 := countF s Reg.VLT_INTEG_CNT_N 1
  let s3 := setF (setF (setF s2 Reg.VLT_FAULT_INFO_SLICE slice) Reg.VLT_FAULT_INFO_LEVEL level)
    Reg.VLT_FAULT_INFO_DDR_UE (b2n ue)
  let s4 := event (setF s3 Reg.VLT_FAULT_PANEL_ADDR addr) Reg.VLT_EVT_INTEGRITY
  let c := getChain s4 chain
  if c.st == .none then s4
  else tombSync (setChain (clearChain s4 chain) chain { c with st := .failed, reload := none, rebase := none })

/-- An integrity failure in the region of a chain: its source, its record, and the chain FAILED. -/
def vaultIntegrity (s : State) (chain level : Nat) (ue : Bool) (addr : Nat) (ctx : Option Nat) : State :=
  let slice := if chain == 128 then 0 else chain
  integrityMark (fire s { FireArgs.plain srcVltInteg (some slice) with
    ctx := ctx, status := some stVaultIntegrity, addr := addr, detail := level }) chain level ue addr

end Sys2Proof.Machine
end

