-- ==== Sys2Proof/Machine/Vault.lean ====
section
/-!
DEFINITION. The vault's records (09_tokens_credentials): buckets, indexes, and the slots of every vault command in
order (R211–R224, 04_command_reference R107–R109). A slot runs in the tick that the plan gives it; the last slot of a
mutation commits it and places its journal record (R97, R217).
-/
namespace Sys2Proof.Machine
open Sys2Proof

/-! ### Entries that an insert may take (R220, R224) -/

/-- An entry that an insert may take: a free one; for credentials also one that is staged or expired (R224). -/
def cellOpen (table hour : Nat) : Option VEntry → Bool
  | none => true
  | some e => table == tbCrd && (byteAt e.bytes 0 ≤ 1 || leAt e.bytes 4 4 ≤ hour)

/-- The open entries of a bucket, lowest first. -/
def openCells (s : State) (slice table num hour : Nat) : List Nat :=
  let cs := cellsOf s slice table num
  (List.range (bucketCap table)).filter (fun i => cellOpen table hour (tfind cs i))

/-! ### Indexes (R215) -/

/-- The index under key A: its 16-byte header and its content padded to 16 bytes. -/
def vIndex (key : Bytes) (table d head tail : Nat) (content : Bytes) : Bytes :=
  cmac key (leBytes 1 table ++ leBytes 1 d ++ leBytes 1 head ++ leBytes 1 tail ++ zeros 12 ++
    padTo (16 * ceilDiv content.length 16) content)

/-- BCD digits padded with 0xF to `n` bytes. -/
def bcd (n : Nat) (ds : List Nat) : Bytes := unnibble ((ds ++ List.replicate (2 * n - ds.length) 0xF).take (2 * n))

/-- Candidates A and B of an index among `n` buckets. -/
def candA (t : Bytes) (n : Nat) : Nat := beNat (sub t 0 4) % n
def candB (t : Bytes) (n : Nat) : Nat :=
  let b := beNat (sub t 4 4) % n
  if b == candA t n then (candA t n + 1) % n else b

/-- The fingerprint T[63:0] as an entry stores it, little-endian. -/
def fingerprint (t : Bytes) : Bytes := leBytes 8 (beNat (sub t 8 8))

/-- The bucket of two with more open entries, A on a tie; none where neither has one (R220). -/
def chooseBucket (s : State) (slice table a b hour : Nat) : Option Nat :=
  let na := (openCells s slice table a hour).length
  let nb := (openCells s slice table b hour).length
  if na == 0 && nb == 0 then none else if nb > na then some b else some a

/-- The first entry of A, then of B, from the lowest, that meets a condition: bucket, cell, entry (R220). -/
def lookupTwo (s : State) (slice table a b : Nat) (p : Bytes → Bool) : Option (Nat × Nat × VEntry) :=
  match (cellsOf s slice table a).find? (fun c => p c.2.bytes) with
  | some c => some (a, c.1, c.2)
  | none => match (cellsOf s slice table b).find? (fun c => p c.2.bytes) with
    | some c => some (b, c.1, c.2)
    | none => none

/-- The stored form's placement header (R217). -/
def placement16 (table cell cleared revEntry bucket revBucket : Nat) : Bytes :=
  leBytes 1 table ++ leBytes 1 cell ++ leBytes 1 cleared ++ leBytes 1 revEntry ++ leBytes 4 bucket ++
  leBytes 4 revBucket ++ zeros 4

/-- A new record would pass the slice's record limit (R192). -/
def limitHit (s : State) (slice : Nat) : Bool := regionRecords s slice ≥ (getSlice s slice).cfg.recordLimit

/-! ### Batches of the vault -/

/-- Appends an output item to a batch and counts it. -/
def addItem (s : State) (n size : Nat) (out : Bytes) : State :=
  match getCtx s n with
  | none => s
  | some c =>
    let old := match c.result with
      | some r => r.dest
      | none => []
    setCtx s n { c with done := c.done + 1, result := some (resBatch size (old ++ out)) }

/-! ### Token items (R107) -/

/-- An input item: d, head, tail, digits, and whether it passes its own checks. A vaulted DETOKENIZE reads d and the
digits only (R212). -/
structure TokItem where
  d : Nat
  head : Nat
  tail : Nat
  digits : List Nat
  ok : Bool
deriving DecidableEq, Repr

def tokItem (item : Bytes) (shape : Bool) : TokItem :=
  let d := byteAt item 0
  let h := byteAt item 1
  let t := byteAt item 2
  let cs := (sub item 4 (min d 20)).map (·.toNat)
  let dOk := 6 ≤ d && d ≤ 19 && cs.all (fun c => 48 ≤ c && c ≤ 57)
  ⟨d, h, t, cs.map (fun c => c - 48), dOk && (!shape || (h ≤ 8 && t ≤ 4 && h + t + 6 ≤ d))⟩

def digitChars (ds : List Nat) : Bytes := ds.map (fun d => BitVec.ofNat 8 (48 + d))

/-- An output item: its status, d, the digits (zero after a failure) and the copied tag. -/
def tokOut (status : Nat) (item : Bytes) (ds : List Nat) : Bytes :=
  leBytes 2 status ++ sub item 0 1 ++ zeros 1 ++ padTo 20 (digitChars ds) ++ sub item 0x18 8

/-! ### Derived tokens (R211) -/

/-- One derived item, forward or back. -/
def derivedItem (e key : Bytes) (detok : Bool) (item : Bytes) : Bytes :=
  let k := tokItem item true
  if !k.ok then tokOut stBadField item []
  else
    let mid := (k.digits.drop k.head).take (k.d - k.head - k.tail)
    let tw := sub e 0x28 (kTweakLen e)
    let m := if detok then ff1Dec key tw mid else ff1Enc key tw mid
    tokOut stOk item (k.digits.take k.head ++ m ++ k.digits.drop (k.d - k.tail))

/-- Items whose last block has run by stitch `u`: one after another in the serial form (R514), in round robin in the
parallel form. -/
def derivedItems (c : Ctx) (u : Nat) : Nat :=
  let m := items c.entry 32
  min m (if c.serial then 16 * u / 30 else 16 * u - 29 * m)

def workDerived (s : State) (n : Nat) (c : Ctx) (detok : Bool) (u : Nat) : State :=
  let k := min (derivedItems c u) (c.src.length / 32)
  let key := keyMatA s c
  batchRun (fun s item => (derivedItem c.entry key detok item, s)) 32 (k - c.done) s n

/-! ### Vaulted TOKENIZE (R212, R216, R218–R221) -/

/-- A token record (R216). -/
def tokRecord (k : TokItem) (token : List Nat) (revB revE : Nat) (panFp tokFp : Bytes) : Bytes :=
  leBytes 1 1 ++ leBytes 1 k.d ++ leBytes 1 k.head ++ leBytes 1 k.tail ++ bcd 10 k.digits ++ bcd 10 token ++
  leBytes 4 revB ++ leBytes 1 revE ++ zeros 3 ++ panFp ++ tokFp

def panIndex (key : Bytes) (k : TokItem) : Bytes := vIndex key tbTok k.d k.head k.tail (bcd 16 k.digits)
def revIndex (key : Bytes) (d : Nat) (digits : List Nat) : Bytes := vIndex key tbRev d 0 0 (bcd 16 digits)

/-- A token record holds this PAN and shape. -/
def panMatches (k : TokItem) (fp : Bytes) (b : Bytes) : Bool :=
  byteAt b 0 == 1 && sub b 0x20 8 == fp && byteAt b 1 == k.d && byteAt b 2 == k.head && byteAt b 3 == k.tail &&
  sub b 4 10 == bcd 10 k.digits

/-- The token digits of a record. -/
def recToken (b : Bytes) : List Nat := (nibbles (sub b 0x0E 10)).take (byteAt b 1)
def recPan (b : Bytes) : List Nat := (nibbles (sub b 4 10)).take (byteAt b 1)

/-- What a TOKENIZE probe leaves for the slots after it: a kind (0 a failed item with its status, 1 a token that
exists, 2 an insert), the bucket, the cell, the reverse bucket and entry, and the token's digits. -/
def tokScratch (kind a cell revB revE : Nat) (token : List Nat) : List Nat := [kind, a, cell, revB, revE] ++ token

/-- A drawn token (R212): the middle digits (m + 1 + x) mod 10^t. -/
def drawToken (s : State) (who : Nat) (k : TokItem) : List Nat × State :=
  let t := k.d - k.head - k.tail
  let mid := (k.digits.drop k.head).take t
  let x := drawBelowFrom who (10 ^ t - 1) s
  (k.digits.take k.head ++ strR t ((numR mid + 1 + x.1) % 10 ^ t) ++ k.digits.drop (k.d - k.tail), x.2)

/-- The probe of an item: the existing token, or a drawn one and the bucket it will go to. -/
def tokProbe (s : State) (c : Ctx) (item : Bytes) : List Nat × State :=
  let key := keyMatA s c
  let k := tokItem item true
  let nb := tableBuckets s c.slice tbTok
  if !k.ok then (tokScratch 0 stBadField 0 0 0 [], s)
  else
    let t := panIndex key k
    let a := candA t nb
    let b := candB t nb
    match lookupTwo s c.slice tbTok a b (panMatches k (fingerprint t)) with
    | some r => (tokScratch 1 r.1 r.2.1 0 0 (recToken r.2.2.bytes), s)
    | none =>
      let d := drawToken s c.gid k
      match chooseBucket s c.slice tbTok a b 0 with
      | none => (tokScratch 0 stVaultFull 0 0 0 [], d.2)
      | some q => (tokScratch 2 q ((openCells s c.slice tbTok q 0).headD 0) 0 0 d.1, d.2)

/-- The write of the token's reverse bucket: a collision or a full bucket ends the item. -/
def tokReverse (s : State) (c : Ctx) (item : Bytes) (x : List Nat) : List Nat × State :=
  let k := tokItem item true
  if x.headD 0 != 2 then
    let ds := if x.headD 0 == 1 then x.drop 5 else k.digits
    (x, idleWrite s c.slice tbRev (candA (revIndex (keyMatA s c) k.d ds) (tableBuckets s c.slice tbRev)))
  else
    let t := revIndex (keyMatA s c) k.d (x.drop 5)
    let rb := candA t (tableBuckets s c.slice tbRev)
    let cs := cellsOf s c.slice tbRev rb
    let fp := fingerprint t
    if cs.any (fun y => sub y.2.bytes 0 8 == fp) then
      (tokScratch 0 stVaultFull 0 0 0 [], idleWrite s c.slice tbRev rb)
    else match openCells s c.slice tbRev rb 0 with
      | [] => (tokScratch 0 stVaultFull 0 0 0 [], idleWrite s c.slice tbRev rb)
      | i :: _ =>
        let e := fp ++ leBytes 4 (x.getD 1 0) ++ leBytes 1 (x.getD 2 0) ++ zeros 3
        (tokScratch 2 (x.getD 1 0) (x.getD 2 0) rb i (x.drop 5), putCell s c.slice tbRev rb i ⟨e⟩)

/-- The commit of an item: its status and digits, and the record it inserts. -/
def tokCommit (s : State) (n : Nat) (c : Ctx) (item : Bytes) (x : List Nat) : (Nat × List Nat) × State :=
  let key := keyMatA s c
  let k := tokItem item true
  let q := x.getD 1 0
  if x.headD 0 == 0 then
    ((q, []), idleWrite s c.slice tbTok (candA (panIndex key k) (tableBuckets s c.slice tbTok)))
  else if x.headD 0 == 1 then ((stOk, x.drop 5), idleWrite s c.slice tbTok q)
  else
    let fp := fingerprint (panIndex key k)
    let tok := x.drop 5
    match (cellsOf s c.slice tbTok q).find? (fun y => panMatches k fp y.2.bytes) with
    | some y => ((stOk, recToken y.2.bytes), idleWrite s c.slice tbTok q)
    | none =>
      let fr := openCells s c.slice tbTok q 0
      let cell := if fr.contains (x.getD 2 0) then some (x.getD 2 0) else fr.head?
      match cell with
      | none => ((stVaultFull, []), idleWrite s c.slice tbTok q)
      | some i =>
        if limitHit s c.slice then ((stVaultFull, []), idleWrite s c.slice tbTok q)
        else
          let r := tokRecord k tok (x.getD 3 0) (x.getD 4 0) fp (fingerprint (revIndex key k.d tok))
          let s1 := putCell s c.slice tbTok q i ⟨r⟩
          ((stOk, tok), placeRecord s1 c.slice jPut (placement16 tbTok i 0xFF (x.getD 4 0) q (x.getD 3 0) ++ r) (some n))

def setScratch (s : State) (n : Nat) (x : List Nat) : State :=
  match getCtx s n with
  | some c => setCtx s n { c with scratch := x }
  | none => s

/-- One slot of a vaulted TOKENIZE. -/
def tokSlot (s : State) (n : Nat) (c : Ctx) : State :=
  let item := sub c.src (32 * (c.slots / 3)) 32
  match c.slots % 3 with
  | 0 => let r := tokProbe s c item; setScratch r.2 n r.1
  | 1 => let r := tokReverse s c item c.scratch; setScratch r.2 n r.1
  | _ => let r := tokCommit s n c item c.scratch; addItem r.2 n 32 (tokOut r.1.1 item r.1.2)

/-! ### Vaulted DETOKENIZE (R220) -/

/-- The entry of a token in its REV bucket. -/
def detokEntry (s : State) (c : Ctx) (k : TokItem) : Option (Nat × VEntry) :=
  let t := revIndex (keyMatA s c) k.d k.digits
  let rb := candA t (tableBuckets s c.slice tbRev)
  (cellsOf s c.slice tbRev rb).find? (fun y => sub y.2.bytes 0 8 == fingerprint t)

/-- The record that a reverse entry accepts: the lowest LIVE one of its TOK panel that names the entry and holds the
digits. -/
def detokFind (s : State) (c : Ctx) (k : TokItem) : Option VEntry :=
  let t := revIndex (keyMatA s c) k.d k.digits
  let rb := candA t (tableBuckets s c.slice tbRev)
  match detokEntry s c k with
  | none => none
  | some y =>
    ((cellsOf s c.slice tbTok (leAt y.2.bytes 8 4)).find? (fun z =>
      byteAt z.2.bytes 0 == 1 && sub z.2.bytes 0x28 8 == fingerprint t && leAt z.2.bytes 0x18 4 == rb &&
      byteAt z.2.bytes 0x1C == y.1 && recToken z.2.bytes == k.digits)).map (·.2)

/-- The panels that the slot reads: the REV bucket, and the TOK panel that its entry names, or one drawn where no entry
matches. -/
def detokReads (s : State) (c : Ctx) : List Nat × State :=
  let k := tokItem (sub c.src (32 * c.slots) 32) false
  let rb := candA (revIndex (keyMatA s c) k.d k.digits) (tableBuckets s c.slice tbRev)
  match (if k.ok then detokEntry s c k else none) with
  | some y => ([bucketPanel s c.slice tbRev rb, bucketPanel s c.slice tbTok (leAt y.2.bytes 8 4)], s)
  | none =>
    let d := drawBelowFrom childVault (tableBuckets s c.slice tbTok) s
    ([bucketPanel s c.slice tbRev rb, bucketPanel s c.slice tbTok d.1], d.2)

/-- One slot of a vaulted DETOKENIZE: one item. -/
def detokSlot (s : State) (n : Nat) (c : Ctx) : State :=
  let item := sub c.src (32 * c.slots) 32
  let k := tokItem item false
  let out :=
    if !k.ok then tokOut stBadField item []
    else match detokFind s c k with
      | none => tokOut stVaultMiss item []
      | some e => tokOut stOk item (recPan e.bytes)
  addItem s n 32 out

/-! ### Generic records (R108, R216, R220) -/

def genIndex (key rk : Bytes) : Bytes := vIndex key tbGen 0 0 0 rk

def genMatches (fp rk b : Bytes) : Bool := byteAt b 0 == 1 && sub b 8 8 == fp && sub b 0x10 32 == rk

def genLookup (s : State) (c : Ctx) (rk : Bytes) : Option (Nat × Nat × VEntry) :=
  let t := genIndex (keyMatA s c) rk
  let nb := tableBuckets s c.slice tbGen
  lookupTwo s c.slice tbGen (candA t nb) (candB t nb) (genMatches (fingerprint t) rk)

/-- A generic cell (R216). -/
def genCell (extent len : Nat) (fp rk : Bytes) : Bytes :=
  leBytes 1 1 ++ leBytes 1 extent ++ leBytes 2 len ++ zeros 4 ++ fp ++ rk

/-- The extent of a cell that holds no active value; a FREE cell's active extent is A (R216). -/
def idleExtent (s : State) (slice num cell : Nat) : Nat :=
  match tfind (cellsOf s slice tbGen num) cell with
  | some v => 1 - byteAt v.bytes 1
  | none => 1

/-- The value in the active extent of a cell. -/
def genValue (s : State) (slice num cell : Nat) (b : Bytes) : Bytes :=
  ((List.range 4).flatMap (fun j => panelOpen s (extentPanel s slice num cell (byteAt b 1) j))).take (leAt b 2 2)

/-- The part of a value that panel `j` of its extent holds, filled with zeros. -/
def valuePiece (value : Bytes) (j : Nat) : Bytes := padTo 256 (sub value (256 * j) 256)

/-- Writes a whole value into an extent. -/
def writeValue (s : State) (slice num cell ext : Nat) (value : Bytes) : State :=
  (List.range (ceilDiv value.length 256)).foldl
    (fun s j => panelWrite s (extentPanel s slice num cell ext j) (valuePiece value j)) s

/-- The probe of VAULT_PUT: whether there is room, the record's bucket and cell or those an insert goes to, and the
extent its value goes to. -/
def putProbe (s : State) (c : Ctx) : List Nat :=
  let rk := sub c.src 0 32
  let t := genIndex (keyMatA s c) rk
  let nb := tableBuckets s c.slice tbGen
  match genLookup s c rk with
  | some r => [1, r.1, r.2.1, idleExtent s c.slice r.1 r.2.1]
  | none => match chooseBucket s c.slice tbGen (candA t nb) (candB t nb) 0 with
    | some q => [1, q, (openCells s c.slice tbGen q 0).headD 0, 1]
    | none => [0, candA t nb, 0, idleExtent s c.slice (candA t nb) 0]

/-- The commit of VAULT_PUT: it acts on what it finds in its bucket (R219). Where the record now lies in another cell
than the one whose extent took the value, the value is written again beside it (DESIGN CHOICE, notes/assumptions/84.md). -/
def putCommit (s : State) (n : Nat) (c : Ctx) : State :=
  let e := c.entry
  let rk := sub c.src 0 32
  let value := sub c.src 32 (eLen e - 32)
  let fp := fingerprint (genIndex (keyMatA s c) rk)
  let q := c.scratch.getD 1 0
  let own := c.scratch.getD 2 0
  let full := putResult (idleWrite s c.slice tbGen q) n c (resStatus stVaultFull)
  let finish := fun (s0 : State) (cell replaced : Nat) =>
    let ext := if cell == own then c.scratch.getD 3 0 else idleExtent s0 c.slice q cell
    let s := if cell == own then s0 else writeValue s0 c.slice q cell ext value
    let b := genCell ext value.length fp rk
    let s1 := putCell s c.slice tbGen q cell ⟨b⟩
    let s2 := placeRecord s1 c.slice jPut (placement16 tbGen cell 0xFF 0xFF q 0 ++ b ++ value) (some n)
    match getCtx s2 n with
    | some c2 => putResult s2 n c2 (resInline 1 [BitVec.ofNat 8 replaced])
    | none => s2
  if c.scratch.headD 0 == 0 then full
  else match (cellsOf s c.slice tbGen q).find? (fun y => genMatches fp rk y.2.bytes) with
    | some y => finish s y.1 1
    | none =>
      let fr := openCells s c.slice tbGen q 0
      match (if fr.contains own then some own else fr.head?) with
      | none => full
      | some i => if limitHit s c.slice then full else finish s i 0

/-- The panel of an extent that slot `j + 1` of VAULT_PUT or VAULT_GET works on. -/
def valuePanel (s : State) (c : Ctx) (x : List Nat) : Nat :=
  extentPanel s c.slice (x.getD 1 0) (x.getD 2 0) (x.getD 3 0) (c.slots - 1)

def vaultPutSlot (s : State) (n : Nat) (c : Ctx) : State :=
  if c.slots == 0 then setScratch s n (putProbe s c)
  else if c.slots + 1 == c.units then putCommit s n c
  else panelWrite s (valuePanel s c c.scratch) (valuePiece (sub c.src 32 (eLen c.entry - 32)) (c.slots - 1))

/-- The probe of VAULT_GET: whether a record stands, its bucket, cell, active extent and length. -/
def getProbe (s : State) (c : Ctx) : List Nat :=
  let a := candA (genIndex (keyMatA s c) (sub c.src 0 32)) (tableBuckets s c.slice tbGen)
  match genLookup s c (sub c.src 0 32) with
  | none => [0, a, 0, 1 - idleExtent s c.slice a 0, 0]
  | some r => [1, r.1, r.2.1, byteAt r.2.2.bytes 1, leAt r.2.2.bytes 2 2]

/-- The result of VAULT_GET over the panels it has read. -/
def getResult (e : Bytes) (x : List Nat) (b : Bytes) : CmdResult :=
  if x.headD 0 == 0 then resStatus stVaultMiss
  else { resDest ((b.take (x.getD 4 0)).take (eCap e)) with inline := leBytes 4 (x.getD 4 0) }

/-- VAULT_GET: the probe finds the record, each read takes one panel of its value, and the last one ends it (R108). -/
def vaultGetSlot (s : State) (n : Nat) (c : Ctx) : State :=
  let x := if c.slots == 0 then getProbe s c else c.scratch
  let b := if c.slots == 0 then [] else c.code ++ panelOpen s (valuePanel s c x)
  let c1 := { c with scratch := x, code := b }
  if c.slots + 1 == c.units then putResult (setCtx s n c1) n c1 (getResult c.entry x b) else setCtx s n c1

/-- The probe of VAULT_DELETE. -/
def deleteProbe (s : State) (c : Ctx) : List Nat :=
  match genLookup s c (sub c.src 0 32) with
  | some r => [1, r.1]
  | none => [0, candA (genIndex (keyMatA s c) (sub c.src 0 32)) (tableBuckets s c.slice tbGen)]

/-- The commit of VAULT_DELETE, in the bucket that its probe chose. -/
def deleteCommit (s : State) (n : Nat) (c : Ctx) : State :=
  let q := c.scratch.getD 1 0
  let rk := sub c.src 0 32
  match (cellsOf s c.slice tbGen q).find? (fun y =>
      genMatches (fingerprint (genIndex (keyMatA s c) rk)) rk y.2.bytes) with
  | none => putResult (idleWrite s c.slice tbGen q) n c (resStatus stVaultMiss)
  | some y =>
    let s1 := clearCell s c.slice tbGen q y.1
    let s2 := placeRecord s1 c.slice jDelete rk (some n)
    match getCtx s2 n with
    | some c2 => putResult s2 n c2 (resStatus stOk)
    | none => s2

def vaultDeleteSlot (s : State) (n : Nat) (c : Ctx) : State :=
  if c.slots == 0 then setScratch s n (deleteProbe s c) else deleteCommit s n c

/-! ### Credentials (R222–R224) -/

def crdStaged : Nat := 1
def crdLive : Nat := 2
def crdLocked : Nat := 3
def crdKilled : Nat := 4

def credId (e : Bytes) : Bytes := sub e 0x28 16
def credIndex (key id : Bytes) : Bytes := vIndex key tbCrd 0 0 0 id

/-- The verifier of a code: table code 6, all 128 bits (R215). -/
def credVerifier (key id code : Bytes) : Bytes := vIndex key 6 0 0 0 (id ++ padTo 16 code)

/-- A credential record of this id; a staged one is none (R224). -/
def crdMatches (fp id b : Bytes) : Bool := 2 ≤ byteAt b 0 && sub b 8 8 == fp && sub b 0x10 16 == id

def crdLookup (s : State) (c : Ctx) : Option (Nat × Nat × VEntry) :=
  let t := credIndex (keyMatA s c) (credId c.entry)
  let nb := tableBuckets s c.slice tbCrd
  lookupTwo s c.slice tbCrd (candA t nb) (candB t nb) (crdMatches (fingerprint t) (credId c.entry))

/-- A credential record (R216). -/
def crdRecord (st left limit digits expiry : Nat) (fp id ver : Bytes) : Bytes :=
  leBytes 1 st ++ leBytes 1 left ++ leBytes 1 limit ++ leBytes 1 digits ++ leBytes 4 expiry ++ fp ++ id ++ ver

/-- The record that an issue writes, in a state. -/
def issueRecord (s : State) (c : Ctx) (st : Nat) : Bytes :=
  let e := c.entry
  let key := keyMatA s c
  let lim := byteAt e 0x38
  crdRecord st lim lim (byteAt e 0x39) (c.hour + leAt e 0x3C 2) (fingerprint (credIndex key (credId e))) (credId e)
    (credVerifier key (credId e) c.code)

/-- The credential body (R223). -/
def credBody (s : State) (c : Ctx) : Bytes :=
  let e := c.entry
  leBytes 1 1 ++ sub e 0x39 1 ++ sub e 0x38 1 ++ zeros 1 ++ leBytes 4 (devNo s) ++
  checkValue (useKey s c.keyA).typ (keyMatA s c) ++ zeros 1 ++ leBytes 4 (c.hour + leAt e 0x3C 2) ++ credId e ++
  sub c.src 0 32

/-- An entry of this id in any state but FREE: what makes an issue a reissue (R223). -/
def crdAny (fp id b : Bytes) : Bool := 1 ≤ byteAt b 0 && sub b 8 8 == fp && sub b 0x10 16 == id

/-- Candidate A of a credential. -/
def crdA (s : State) (c : Ctx) : Nat :=
  candA (credIndex (keyMatA s c) (credId c.entry)) (tableBuckets s c.slice tbCrd)

/-- The bucket that holds an id's record: a committed one before a staged one. -/
def crdBucket (s : State) (c : Ctx) : Option Nat :=
  let t := credIndex (keyMatA s c) (credId c.entry)
  let nb := tableBuckets s c.slice tbCrd
  match crdLookup s c with
  | some r => some r.1
  | none => (lookupTwo s c.slice tbCrd (candA t nb) (candB t nb) (crdAny (fingerprint t) (credId c.entry))).map (·.1)

/-- The probe of an issue: the bucket of the old record, or the better of the two; and the entry to stage. -/
def issueProbe (s : State) (c : Ctx) : List Nat :=
  let t := credIndex (keyMatA s c) (credId c.entry)
  let nb := tableBuckets s c.slice tbCrd
  let bucket := match crdBucket s c with
    | some q => some q
    | none => chooseBucket s c.slice tbCrd (candA t nb) (candB t nb) c.hour
  match bucket with
  | none => [0, candA t nb]
  | some q => match openCells s c.slice tbCrd q c.hour with
    | [] => [0, candA t nb]
    | i :: _ => [1, q, i]

/-- The probe of CRED_REDEEM and CRED_KILL. -/
def crdProbe (s : State) (c : Ctx) : List Nat :=
  match crdLookup s c with
  | some r => [1, r.1]
  | none => [0, crdA s c]

/-- The idle write of a credential command without a target: candidate A. -/
def crdIdle (s : State) (c : Ctx) : State := idleWrite s c.slice tbCrd (crdA s c)

/-- The record of the command's id in the bucket that its probe chose. -/
def crdHere (s : State) (c : Ctx) : Option (Nat × VEntry) :=
  (cellsOf s c.slice tbCrd (c.scratch.getD 1 0)).find? (fun y =>
    crdMatches (fingerprint (credIndex (keyMatA s c) (credId c.entry))) (credId c.entry) y.2.bytes)

/-- The staging write. -/
def issueStage (s : State) (c : Ctx) : State :=
  if c.scratch.headD 0 == 0 then crdIdle s c
  else
    let q := c.scratch.getD 1 0
    let fr := openCells s c.slice tbCrd q c.hour
    match (if fr.contains (c.scratch.getD 2 0) then some (c.scratch.getD 2 0) else fr.head?) with
    | none => idleWrite s c.slice tbCrd q
    | some i => putCell s c.slice tbCrd q i ⟨issueRecord s c crdStaged⟩

/-- The commit of an issue: the staged entry, or where it was taken the lowest open one, becomes LIVE, and the old
record's entry is freed in the same write, a committed record before a staged one (R221, R223). -/
def issueCommit (s : State) (n : Nat) (c : Ctx) (container : Bytes) : State :=
  let q := c.scratch.getD 1 0
  let cs := cellsOf s c.slice tbCrd q
  let st := issueRecord s c crdStaged
  let live := issueRecord s c crdLive
  let mine := (cs.find? (fun y => y.2.bytes == st)).map (·.1)
  let cell := match mine with
    | some i => some i
    | none => (openCells s c.slice tbCrd q c.hour).head?
  let other := fun (p : Bytes → Bool) => cs.find? (fun y => some y.1 != cell && p y.2.bytes)
  let old := match other (crdMatches (sub live 8 8) (credId c.entry)) with
    | some y => some y
    | none => other (crdAny (sub live 8 8) (credId c.entry))
  let oldHeld := cs.any (fun y => crdMatches (sub live 8 8) (credId c.entry) y.2.bytes)
  match c.scratch.headD 0, cell with
  | 1, some i =>
    let overRecord := match tfind cs i with
      | some y => 2 ≤ byteAt y.bytes 0
      | none => false
    if !oldHeld && !overRecord && limitHit s c.slice then
      putResult (idleWrite s c.slice tbCrd q) n c (resStatus stVaultFull)
    else
      let s1 := match old with
        | some y => clearCell s c.slice tbCrd q y.1
        | none => s
      let s2 := putCell s1 c.slice tbCrd q i ⟨live⟩
      let cleared := match old with
        | some y => y.1
        | none => 0xFF
      let s3 := placeRecord s2 c.slice jPut (placement16 tbCrd i cleared 0xFF q 0 ++ live) (some n)
      match getCtx s3 n with
      | some c3 => putResult s3 n c3 (resDest (padTo 16 c.code ++ credBody s c ++ container))
      | none => s3
  | 1, none => putResult (idleWrite s c.slice tbCrd q) n c (resStatus stVaultFull)
  | _, _ => putResult (crdIdle s c) n c (resStatus stVaultFull)

/-- Writes a credential record with a new state and count, and journals it (R224). -/
def crdRewrite (s : State) (n : Nat) (c : Ctx) (q cell : Nat) (old : Bytes) (st left : Nat) : State :=
  let b := leBytes 1 st ++ leBytes 1 left ++ old.drop 2
  placeRecord (putCell s c.slice tbCrd q cell ⟨b⟩) c.slice jPut (placement16 tbCrd cell 0xFF 0xFF q 0 ++ b) (some n)

/-- The result after a commit, over the context as it now stands. -/
def putResultAt (s : State) (n : Nat) (r : CmdResult) : State :=
  match getCtx s n with
  | some c => putResult s n c r
  | none => s

/-- The presented code is right: as long as the code digits, all decimal, and its verifier matches. -/
def codeRight (s : State) (c : Ctx) (b : Bytes) : Bool :=
  eLen c.entry == byteAt b 3 && (sub c.src 0 (eLen c.entry)).all (fun x => 48 ≤ x.toNat && x.toNat ≤ 57) &&
  credVerifier (keyMatA s c) (credId c.entry) (sub c.src 0 (eLen c.entry)) == sub b 0x20 16

/-- The commit of CRED_REDEEM (R224). -/
def redeemCommit (s : State) (n : Nat) (c : Ctx) : State :=
  let q := c.scratch.getD 1 0
  let idle := idleWrite s c.slice tbCrd q
  match crdHere s c with
  | none => putResult idle n c (resStatus stVaultMiss)
  | some r =>
    let b := r.2.bytes
    let st := byteAt b 0
    let left := byteAt b 1
    if leAt b 4 4 ≤ c.hour || st == crdKilled then putResult idle n c (resStatus stCredKilled)
    else if st == crdLocked then putResult idle n c (resStatus stCredLocked)
    else if codeRight s c b then
      putResultAt (crdRewrite s n c q r.1 b crdKilled left) n (resInline 1 [BitVec.ofNat 8 left])
    else
      let k := left - 1
      putResultAt (crdRewrite s n c q r.1 b (if k == 0 then crdLocked else crdLive) k) n
        { resStatus stAuthFail with inline := [BitVec.ofNat 8 k], len := 1 }

/-- The commit of CRED_KILL (R224). -/
def credKillCommit (s : State) (n : Nat) (c : Ctx) : State :=
  let q := c.scratch.getD 1 0
  let idle := idleWrite s c.slice tbCrd q
  match crdHere s c with
  | none => putResult idle n c (resStatus stVaultMiss)
  | some r =>
    let b := r.2.bytes
    if leAt b 4 4 ≤ c.hour || byteAt b 0 == crdKilled then putResult idle n c (resStatus stCredKilled)
    else putResultAt (crdRewrite s n c q r.1 b crdKilled (byteAt b 1)) n (resStatus stOk)

/-! ### Tombstones (R154, R218) -/

/-- The probe for a tombstone: whether it stands (1) or has room (2), its bucket; else candidate A. -/
def tombProbe (s : State) (ident : Bytes) : List Nat :=
  let nb := tableBuckets s 0 tbTmb
  let a := candA ident nb
  let b := candB ident nb
  match lookupTwo s 0 tbTmb a b (fun x => x == ident) with
  | some r => [1, r.1]
  | none => match chooseBucket s 0 tbTmb a b 0 with
    | none => [0, a]
    | some q => [2, q]

/-- The write of a tombstone in the bucket `q` that its probe chose, journalled in the domain chain. A full bucket leaves
the identity pending. -/
def tombWrite (s : State) (ident : Bytes) (q : Nat) (ctx : Option Nat) : State :=
  let drop := fun (s : State) => { s with tombPend := s.tombPend.erase ident }
  if tableBuckets s 0 tbTmb == 0 || ident.isEmpty then s
  else if (cellsOf s 0 tbTmb q).any (fun y => y.2.bytes == ident) then drop (idleWrite s 0 tbTmb q)
  else match openCells s 0 tbTmb q 0 with
    | [] => idleWrite s 0 tbTmb q
    | i :: _ =>
      if limitHit s 0 then idleWrite s 0 tbTmb q
      else drop (placeRecord (putCell s 0 tbTmb q i ⟨ident⟩) 128 jTomb ident ctx)

/-- The identity stands in the domain area. -/
def tombHeld (s : State) (ident : Bytes) : Bool :=
  let nb := tableBuckets s 0 tbTmb
  nb != 0 && (lookupTwo s 0 tbTmb (candA ident nb) (candB ident nb) (fun x => x == ident)).isSome

/-- The probe of KEY_KILL, for the identity of key A as it was named at admission. -/
def killProbe (s : State) (c : Ctx) : List Nat := c.scratch.headD 0 :: tombProbe s (killIdent c)

/-- The commit of KEY_KILL (R154). -/
def killCommit (s : State) (n : Nat) (c : Ctx) : State :=
  let s1 := tombWrite s (killIdent c) (c.scratch.getD 2 0) (some n)
  putResultAt s1 n (resStatus (if tombHeld s1 (killIdent c) then stOk else stVaultFull))

/-! ### What a slot reads (R187, R218, R219) -/

/-- The chain whose area a command's slots work on. -/
def slotChain (c : Ctx) : Nat := if eOp c.entry == opKeyKill || createsKey c.entry then 128 else c.slice

/-- The table and the index of a command with one index. -/
def slotTable (s : State) (c : Ctx) : Nat × Bytes :=
  let key := keyMatA s c
  let op := eOp c.entry
  if op == 0x10 then
    (tbTok, panIndex key (tokItem (sub c.src (32 * (c.slots / 3)) 32) true))
  else if op == opKeyKill then (tbTmb, killIdent c)
  else if op == 0x18 || op == 0x19 || op == 0x1A then (tbCrd, credIndex key (credId c.entry))
  else (tbGen, genIndex key (sub c.src 0 32))

/-- The panels of the two candidates. -/
def pairPanels (s : State) (slice table : Nat) (t : Bytes) : List Nat :=
  let nb := tableBuckets s slice table
  [bucketPanel s slice table (candA t nb), bucketPanel s slice table (candB t nb)]

/-- The bucket that a write slot works on: the probe's, or candidate A without a target. -/
def slotBucket (s : State) (c : Ctx) (live : Bool) : Nat :=
  let x := slotTable s c
  let a := candA x.2 (tableBuckets s (tableSlice c.slice x.1) x.1)
  let op := eOp c.entry
  if !live then a
  else if op == 0x10 then (if c.scratch.headD 0 == 0 then a else c.scratch.getD 1 0)
  else if op == opKeyKill then c.scratch.getD 2 0
  else c.scratch.getD 1 0

/-- The REV bucket of a TOKENIZE item's second slot. -/
def slotReverse (s : State) (c : Ctx) (live : Bool) : Nat :=
  let k := tokItem (sub c.src (32 * (c.slots / 3)) 32) true
  let ds := if live && c.scratch.headD 0 != 0 then c.scratch.drop 5 else k.digits
  candA (revIndex (keyMatA s c) k.d ds) (tableBuckets s c.slice tbRev)

/-- The bucket, cell and extent of a value slot. -/
def slotExtent (s : State) (c : Ctx) (live : Bool) : List Nat :=
  if live then c.scratch
  else
    let a := slotBucket s c false
    [0, a, 0, if eOp c.entry == 0x12 then idleExtent s c.slice a 0 else 1 - idleExtent s c.slice a 0]

/-- The panels that a slot reads. A key-creating command's are known once its key is made (R155). -/
def slotReads (s : State) (c : Ctx) (live : Bool) : List Nat × State :=
  let x := slotTable s c
  let op := eOp c.entry
  let sl := tableSlice c.slice x.1
  let one := [bucketPanel s sl x.1 (slotBucket s c live)]
  if op == 0x11 then detokReads s c
  else if op == 0x10 then
    (if c.slots % 3 == 0 then pairPanels s sl x.1 x.2
     else if c.slots % 3 == 1 then [bucketPanel s c.slice tbRev (slotReverse s c live)] else one, s)
  else if createsKey c.entry then ([], s)
  else if c.slots == 0 then (pairPanels s sl x.1 x.2, s)
  else if op == 0x13 || (op == 0x12 && c.slots + 1 != c.units) then ([valuePanel s c (slotExtent s c live)], s)
  else (one, s)

/-- The first failed check of a slot's reads. -/
def readFault (s : State) (ps : List Nat) : Option (Nat × Nat) := ps.findSome? (panelFault s.vault.tree)

/-- What a tombstone's slots do once their probe has read its panels: the write, or what a failed check does. -/
def tombstoneAfter (s : State) (ident : Bytes) (ctx : Option Nat) (fault : Option (Nat × Nat)) : State :=
  match fault with
  | some f => vaultIntegrity s 128 f.1 false f.2 none
  | none => tombWrite s ident ((tombProbe s ident).getD 1 0) ctx

/-- Writes a tombstone of the key store's own: its probe, then its write (R154). -/
def writeTombstone (s : State) (ident : Bytes) (ctx : Option Nat) : State :=
  tombstoneAfter s ident ctx (readFault s (pairPanels s 0 tbTmb ident))

/-- A slot of context `n` has met a failed check: the chain fails, a batch's item carries the status, and the command
ends with it (R95, R107, R207). -/
def slotFails (s : State) (n chain : Nat) (f : Nat × Nat) : State :=
  let s1 := vaultIntegrity s chain f.1 false f.2 (some n)
  match getCtx s1 n with
  | none => s1
  | some c =>
    let op := eOp c.entry
    let item := sub c.src (32 * (if op == 0x10 then c.slots / 3 else c.slots)) 32
    let s2 := if op == 0x10 || op == 0x11 then addItem s1 n 32 (tokOut stVaultIntegrity item []) else s1
    match getCtx s2 n with
    | none => s2
    | some c2 => if c2.fail.isSome then s2
      else setCtx s2 n { c2 with fail := some (stVaultIntegrity, if c.cls == clVault then c.slots else c.units) }

/-! ### Idle slots (R219) -/

/-- The slot of a command that fails, or whose item runs no more, once its reads have passed: a write slot writes
candidate A of its table back unchanged, or the inactive extent of candidate A's first cell; reads leave nothing. -/
def idleBody (s : State) (c : Ctx) : State :=
  let x := slotTable s c
  let op := eOp c.entry
  let write := idleWrite s (tableSlice c.slice x.1) x.1 (slotBucket s c false)
  if op == 0x10 then
    (if c.slots % 3 == 0 then s
     else if c.slots % 3 == 1 then idleWrite s c.slice tbRev (slotReverse s c false) else write)
  else if op == 0x11 || op == 0x13 || c.slots == 0 || createsKey c.entry then s
  else if op == 0x12 && c.slots + 1 != c.units then
    (if tableBuckets s c.slice tbGen == 0 then s else panelBack s (valuePanel s c (slotExtent s c false)))
  else write

/-- An idle slot: its reads, then its write. -/
def idleSlot (s : State) (c : Ctx) : State :=
  let r := slotReads s c false
  match readFault s r.1 with
  | some f => vaultIntegrity r.2 (slotChain c) f.1 false f.2 none
  | none => idleBody r.2 c

end Sys2Proof.Machine
end

