-- ==== Sys2Proof/Machine/Seam.lean ====
section
/-!
DEFINITION. Seam signatures (10_seam_signatures): the public key block, the container, signing with an assigned LMS
index (R233, R239, R240), and VERIFY_SEAM (R247–R249).
-/
namespace Sys2Proof.Machine
open Sys2Proof

/-! ### The public key block (R236) -/

/-- The block up to its key id, and the key id. -/
def pubBlockHead (set : Nat) (point hss : Bytes) : Bytes :=
  leBytes 1 1 ++ leBytes 1 set ++ zeros 2 ++ padTo 97 point ++ zeros 3 ++ padTo 52 hss

def pubBlock (set : Nat) (point hss : Bytes) : Bytes :=
  let h := pubBlockHead set point hss
  padTo 256 (h ++ sha256 h)

def pubSet (b : Bytes) : Nat := byteAt b 1
def pubPoint (b : Bytes) : Bytes := sub b 4 97
def pubHss (b : Bytes) : Bytes := sub b 0x68 52
def pubKeyId (b : Bytes) : Bytes := sub b 0x9C 32

/-- The checks of LOAD_PUBLIC (R237): version, set, zero fields, key id, the point. -/
def pubBlockOk (b : Bytes) : Bool :=
  b.length == 256 && byteAt b 0 == 1 && (pubSet b == 1 || pubSet b == 2) && allZero (sub b 2 2) &&
  allZero (sub b 0x65 3) && allZero (sub b 0xBC 68) && pubKeyId b == sha256 (b.take 0x9C) &&
  (ecDecode p384 (pubPoint b)).isSome

/-! ### The container (R233) -/

/-- The container header. -/
def sealHeader (set idx : Nat) (keyId : Bytes) : Bytes :=
  leBytes 1 1 ++ leBytes 1 set ++ leBytes 2 (containerLen set) ++ leBytes 8 idx ++ zeros 4 ++ keyId.take 16

/-- A container over a message: the ECDSA half with its nonce, the HSS half with its randomiser. -/
def sealContainer (p : SeamPair) (idx : Nat) (nonce c msg : Bytes) : Bytes :=
  let h := sealHeader p.set idx (pubKeyId p.pub)
  h ++ ecdsaSign p384 p.scalar nonce (sha384 (h ++ msg)) ++ hssSign p.set p.seed idx c (h ++ msg)

/-- A seam signature of a message by the pair in a system slot at an index; the nonce and the randomiser are drawn. -/
def seamSign (s : State) (who pair idx : Nat) (msg : Bytes) : Bytes × State :=
  match getPair s pair with
  | none => ([], s)
  | some p =>
    let d := drawFrom who 80 s
    (sealContainer p idx (d.1.take 56) (d.1.drop 56) msg, d.2)

/-- The composite of q values. -/
def seamIndex (set : Nat) (qs : List Nat) : Nat :=
  if set == 1 then qs.getD 0 0 * 2 ^ 30 + qs.getD 1 0 * 2 ^ 10 + qs.getD 2 0 else qs.getD 0 0 * 2 ^ 10 + qs.getD 1 0

/-- A container verifies for a message under a public key block: every condition of R249. -/
def containerOk (set : Nat) (pub msg cont : Bytes) : Bool :=
  let h := cont.take 32
  let r := hssVerify set (pubHss pub) (cont.drop 0x80) (h ++ msg)
  cont.length == containerLen set && byteAt h 0 == 1 && byteAt h 1 == set && leAt h 2 2 == containerLen set &&
  pubSet pub == set && sub h 0x10 16 == (pubKeyId pub).take 16 && leAt h 4 8 == seamIndex set r.2 && r.1 &&
  ecdsaVerify p384 (pubPoint pub) (sha384 (h ++ msg)) (sub cont 0x20 96)

/-! ### The commands -/

/-- The public key block that a seam reference holds. -/
def refPub (k : KeySlot) : Bytes := k.material.take 256

/-- VERIFY_SEAM (R110, R249): no result but the status. -/
def verifySeamResult (e pub src : Bytes) : CmdResult :=
  let m := vsMsgLen e
  resStatus (if containerOk (eSet e) pub (src.take m) (src.drop m) then stOk else stSigFail)

def workVerifySeam (s : State) (n : Nat) (c : Ctx) : State :=
  let pub := if c.code.isEmpty then refPub (useKey s c.keyA) else c.code.take 256
  putResult s n c (verifySeamResult c.entry pub c.src)

/-- A signature with the index assigned to the context; without one its purlin-ticks ran idle (R239). -/
def ctxSign (s : State) (c : Ctx) (msg : Bytes) : Bytes × State :=
  match c.lmsPair, c.lmsIndex with
  | some p, some i => seamSign s c.gid p i msg
  | _, _ => ([], s)

/-- SIGN_SEAM (R110, R240): the container, and the index inline. -/
def workSignSeam (s : State) (n : Nat) (c : Ctx) : State :=
  let r := ctxSign s c c.src
  putResult r.2 n c { resDest r.1 with inline := leBytes 8 (c.lmsIndex.getD 0) }

/-- The commit slot of CRED_ISSUE, with the container over the credential body (R223). -/
def issueSigned (s : State) (n : Nat) (c : Ctx) : State :=
  let r := ctxSign s c (credBody s c)
  issueCommit r.2 n c r.1

end Sys2Proof.Machine
end

