-- ==== Sys2Proof/Machine/Attest.lean ====
section
/-!
DEFINITION. What the device says of itself: the configuration record of a slice as bytes (13_slices R288, R289), the
device certificate and the attestation report (10_seam_signatures R250, R251).
-/
namespace Sys2Proof.Machine
open Sys2Proof

/-! ### The configuration record -/

def groupBytes (g : GroupCfg) : Bytes :=
  padTo 64 (leBytes 2 g.firstQ ++ leBytes 2 g.queues ++ leBytes 4 (g.pasid + b2n g.pasidEn * 2 ^ 20) ++ leBytes 2 g.ndl ++
    leBytes 1 g.pur ++ leBytes 1 g.hsh ++ leBytes 1 g.vlt ++ leBytes 1 g.av ++ leBytes 1 g.ah ++ leBytes 1 g.work ++
    leBytes 2 g.ctrl ++ leBytes 2 g.perTick ++ leBytes 2 g.ctxs ++ leBytes 2 g.linkIn ++ leBytes 2 g.linkOut)

/-- The record of a slice, as it was committed: its fields determine it, since every other byte is zero. -/
def cfgBytes (c : SliceCfg) : Bytes :=
  padTo 2304 (padTo 256 (leBytes 1 1 ++ leBytes 1 (b2n c.migratable) ++ leBytes 2 c.groups.length ++ leBytes 2 c.pairs ++
    leBytes 2 c.egress ++ leBytes 4 c.keyQuota ++ leBytes 4 c.vaultUnits ++ leBytes 4 c.recordLimit ++
    c.tableMap.flatMap (leBytes 2)) ++ c.groups.flatMap groupBytes)

/-! ### The device (R250, R482) -/

/-- `PG_ID` of page 0x001: the whole word, which carries the silicon revision (R482). -/
def siliconRevision : Nat := 0x01010000 + (if Config.siliconB0 then 0xB0 else 0xA1)

/-- The device id: the leftmost 16 bytes of the attestation pair's key id. -/
def deviceId (s : State) : Bytes :=
  match getPair s 128 with
  | some p => (pubKeyId p.pub).take 16
  | none => zeros 16

/-- Keys that every power-up derives from L1 (R250, notes/assumptions/6.md): the scalar and tree seed of the device
attestation pair, the SPDM identity scalar of slot 129, the officer agreement scalar of slot 154. -/
def attestScalar : Bytes := padTo 48 (Config.pk 22 [ascii "ATTEST"])
def attestSeed : Bytes := padTo 32 (Config.pk 22 [ascii "TREES"])
def identityScalar : Bytes := beBytes 48 (ecScalar p384 (Config.pk 22 [ascii "SPDM"]))
def agreementScalar : Bytes := beBytes 48 (ecScalar p384 (Config.pk 22 [ascii "OFFICERKEY"]))

/-- The public key block of the device attestation pair. -/
def attestPub : Bytes := pubBlock 2 (ecPublic p384 attestScalar) (hssPub 2 attestSeed)

/-- The 512-byte body of the device certificate; its ordering code is of the part (notes/assumptions/6.md). -/
def certBody : Bytes :=
  leBytes 4 1 ++ leBytes 4 siliconRevision ++ padTo 16 (Config.deviceSecret 0) ++ (pubKeyId attestPub).take 16 ++
  padTo 256 attestPub ++ padTo 97 (ecPublic p384 identityScalar) ++ padTo 97 (ecPublic p384 agreementScalar) ++ zeros 22

/-- The device certificate that Roskai wrote at manufacture: the body, and the container of Roskai's manufacturing key
over it, which the device holds and does not compute (notes/assumptions/6.md). -/
def deviceCert : Bytes := certBody ++ padTo 3420 (Config.deviceSecret 1)

/-- The public key block of Roskai's manufacturing seam key. -/
def roskaiPub : Bytes := padTo 256 (Config.deviceSecret 2)

/-! ### The report (R251) -/

/-- Bit 0 of the parameter word: SLICE scope. -/
def attSlice (e : Bytes) : Bool := bitAt (eParam e) 0

/-- Tamper loops whose mode in force is not OFF (DEDUCED: notes/assumptions/15.md). -/
def connectedLoops (s : State) : Nat :=
  s.thm.loops.foldl (fun n l => if l.2.mode == 0 then n else n + 2 ^ l.1) 0

/-- The key id of a slice's pair of a set; zeros where it holds none. -/
def pairKeyId (s : State) (slice set : Nat) : Bytes :=
  match s.lms.pairs.find? (fun p => 130 ≤ p.1 && p.2.slice == slice && p.2.set == set) with
  | some p => pubKeyId p.2.pub
  | none => zeros 32

/-- The slice part of the report, 0x088 and 0x090 to 0x137, as its two pieces. -/
def reportInfill (x : Slice) : Bytes :=
  match x.infill with
  | some i => leBytes 8 i.sv ++ padTo 48 i.hash
  | none => zeros 56

def reportSlice (s : State) (slice : Nat) : Bytes :=
  let x := getSlice s slice
  reportInfill x ++ sha384 (cfgBytes x.cfg) ++ padTo 32 (pairKeyId s slice 1) ++ padTo 32 (pairKeyId s slice 2) ++
    leBytes 8 x.exportSerial

/-- The 512-byte report. `EVAL` and `TIK_COUNT` are those of the admission kerf (R472). -/
def attReport (s : State) (c : Ctx) : Bytes :=
  let e := c.entry
  let head := leBytes 4 1 ++ leBytes 1 (b2n (attSlice e)) ++ leBytes 1 c.slice ++ leBytes 1 (lcyState s) ++
    leBytes 1 (b2n (approved s) + 2 * b2n (!flag s Reg.TIK_STAT_PACE_ACT) + 4 * c.scratch.headD 0) ++
    leBytes 4 siliconRevision ++ leBytes 4 (sillVal s 0) ++ deviceId s ++ padTo 24 (eCls e) ++
    leBytes 8 c.admitted ++ leBytes 8 s.thmTime ++ leBytes 4 (devNo s) ++ leBytes 4 (connectedLoops s) ++
    padTo 48 s.fw.hash ++ leBytes 8 s.fw.sv
  let mine := if attSlice e then reportSlice s c.slice else zeros 176
  padTo 512 (head ++ mine ++ leBytes 4 (getReg s Reg.FCL_FIRED).toNat ++ leBytes 1 (getF s Reg.FCL_STAT_MAX))

/-- ATTEST: the report and the set 2 container over it. -/
def workAttest (s : State) (n : Nat) (c : Ctx) : State :=
  let m := attReport s c
  let r := ctxSign s c m
  putResult r.2 n c (resDest (m ++ r.1))

end Sys2Proof.Machine
end

