-- ==== Sys2Proof/Machine/Journal.lean ====
section
/-!
DEFINITION. The records that the NV die keeps of itself (19_nonvolatile R407–R409, R411): the blocks and their erase counts,
the erase journal and the sill log, each a ring of blocks under an AES-CMAC; and the enrolment table (21_lifecycle_boot
R449).
-/
namespace Sys2Proof.Machine
open Sys2Proof

def setNv (s : State) (n : Nv) : State := { s with nv := n }

/-- AES-CMAC under a key derived from L1, a key for each kind of record (notes/assumptions/6.md). -/
def l1Mac (kind : String) (b : Bytes) : Bytes := cmac (padTo 32 (Config.pk 22 [ascii kind])) b

/-! ### Blocks and units (R400–R402, R409) -/

def getBlock (s : State) (b : Nat) : FBlock := tget FBlock.zero s.nv.blocks b
def setBlock (s : State) (b : Nat) (x : FBlock) : State :=
  setNv s { s.nv with blocks := tput FBlock.zero s.nv.blocks b x }

def getUnit (s : State) (u : Nat) : FUnit := tget FUnit.erased s.nv.units u
def setUnit (s : State) (u : Nat) (x : FUnit) : State := setNv s { s.nv with units := tput FUnit.erased s.nv.units u x }

/-- Units of a block return to erased. -/
def eraseUnits (s : State) (block : Nat) : State :=
  setNv s { s.nv with units := s.nv.units.filter (fun u => u.1 / 2048 != block) }

/-- Programs a byte string into erased flash from a block on. -/
def programBytes (s : State) (block : Nat) (b : Bytes) : State :=
  let us := chunks 32 b
  (List.range us.length).foldl (fun s i => setUnit s (block * 2048 + i) (.data (padTo 32 (us.getD i [])))) s

/-- FLS_INDET follows the blocks. -/
def indetSync (s : State) : State := setF s Reg.FLS_INDET_N (s.nv.blocks.filter (fun b => b.2.indet)).length

/-- FLS_WEAR with its detail. -/
def fireWear (s : State) (detail : Nat) : State :=
  event (fire s { FireArgs.plain srcFlsWear none with detail := detail }) Reg.FLS_EVT_WEAR

/-- An erase counts, and the wear points fire (R409). -/
def countErase (s : State) (block : Nat) : State :=
  let b := getBlock s block
  let c := b.erases + 1
  let s1 := setBlock s block { b with erases := c }
  let s2 := countReg s1 Reg.FLS_ERASE_CNT 1
  let s3 := if c == 90000 then fireWear s2 1 else if c == 100000 then fireWear s2 2 else s2
  if 90000 ≤ c then setFlag s3 Reg.FLS_STAT_WEAR true else s3

/-! ### The erase journal (R407) -/

/-- Bytes 0x00 to 0x17 of a record. -/
def eraseBytes (r : EraseRec) : Bytes :=
  leBytes 1 r.typ ++ leBytes 1 r.flag ++ leBytes 2 r.block ++ leBytes 4 r.count ++ leBytes 8 r.seq ++ leBytes 8 r.boot

def eraseMac (r : EraseRec) : Bytes := (l1Mac "ERASES" (eraseBytes r)).take 8

/-- A record at the head of the ring. -/
def journalRaw (s : State) (typ flag block count : Nat) : State :=
  let r : EraseRec := ⟨typ, flag, block, count, s.nv.jseq, sillVal s 0, []⟩
  setNv s { s.nv with journal := s.nv.journal ++ [{ r with mac := eraseMac r }], jseq := s.nv.jseq + 1 }

/-- The latest of a list of records that names a block. -/
def lastOf (l : List EraseRec) (block : Nat) : Option EraseRec := (l.filter (fun r => r.block == block)).getLast?

/-- The latest record of a block; one whose AES-CMAC fails is ignored. -/
def lastErase (s : State) (block : Nat) : Option EraseRec :=
  lastOf (s.nv.journal.filter (fun r => r.mac == eraseMac r)) block

/-- The record leaves its block indeterminate (R408). -/
def leavesOpen (r : EraseRec) : Bool := r.typ == 1 || (r.typ == 3 && r.flag == 1)

/-- The next record brings the head into the last of the ring's 16 blocks that is free; the oldest block is then erased
(DESIGN CHOICE: notes/assumptions/96.md). A block holds 2,048 records. -/
def journalTurns (s : State) : Bool :=
  match s.nv.journal.head? with
  | some h => h.seq / 2048 + 15 ≤ (s.nv.jseq + 1) / 2048
  | none => false

/-- The oldest block of the ring is erased: the latest record of every block that has it there is copied to the head, and
the erase has an OPEN and a DONE of its own. -/
def journalTurn (s : State) : State :=
  match s.nv.journal.head? with
  | none => s
  | some h =>
    let k := h.seq / 2048
    let old := s.nv.journal.filter (fun r => r.seq / 2048 == k && r.mac == eraseMac r)
    let rest := s.nv.journal.filter (fun r => r.seq / 2048 != k)
    let carried := old.filter (fun r => !rest.any (fun x => x.block == r.block) && lastOf old r.block == some r)
    let s1 := carried.foldl (fun s r => journalRaw s 3 (b2n (leavesOpen r)) r.block r.count) s
    let own := 1648 + k % 16
    let s2 := countErase s1 own
    let s3 := journalRaw s2 1 0 own (getBlock s2 own).erases
    journalRaw (setNv s3 { s3.nv with journal := s3.nv.journal.filter (fun r => r.seq / 2048 != k) }) 2 0 own (getBlock s3 own).erases

/-- A record is programmed and verified. -/
def journalPut (s : State) (typ block : Nat) : State :=
  let s1 := journalRaw s typ 0 block (getBlock s block).erases
  if journalTurns s then journalTurn s1 else s1

/-- The OPEN record: the erase counts (R407, R409). -/
def openErase (s : State) (block : Nat) : State := journalPut (countErase s block) 1 block

/-- The block verifies as erased, and has its DONE record. -/
def doneErase (s : State) (block : Nat) : State :=
  let s1 := eraseUnits s block
  journalPut (indetSync (setBlock s1 block { getBlock s1 block with indet := false })) 2 block

/-- One complete erase of the device's own. -/
def eraseNow (s : State) (block : Nat) : State := doneErase (openErase s block) block

/-- Erases a range of blocks, each once. -/
def countErases (s : State) (first count : Nat) : State :=
  (List.range count).foldl (fun s i => eraseNow s (first + i)) s

/-- A block as the reset scan finds it: its latest record holds its count, and whether it is indeterminate (R408, R409). -/
def scanBlock (s : State) (b : Nat × FBlock) : Nat × FBlock :=
  match lastErase s b.1 with
  | some r => (b.1, ⟨r.count, leavesOpen r⟩)
  | none => (b.1, { b.2 with indet := false })

/-! ### The sill log (R411) -/

/-- Bytes 0x00 to 0x17 of a record. -/
def sillBytes (r : SillRec) : Bytes :=
  leBytes 2 r.reg ++ zeros 2 ++ leBytes 4 r.value.toNat ++ leBytes 4 r.count ++ zeros 4 ++ leBytes 8 r.seq

def sillMac (r : SillRec) : Bytes := (l1Mac "SILLLOG" (sillBytes r)).take 8

def sillRaw (s : State) (reg : Nat) (v : Word) (count : Nat) : State :=
  let r : SillRec := ⟨reg, v, count, s.nv.silSeq, []⟩
  setNv s { s.nv with silLog := s.nv.silLog ++ [{ r with mac := sillMac r }], silSeq := s.nv.silSeq + 1 }

/-- The next record brings the head into the last of the ring's 128 blocks that is free. -/
def sillTurns (s : State) : Bool :=
  match s.nv.silLog.head? with
  | some h => h.seq / 2048 + 127 ≤ (s.nv.silSeq + 1) / 2048
  | none => false

/-- The block that follows the head is erased: the latest record of each register that has it there is copied forward with
its counter. -/
def sillTurn (s : State) : State :=
  match s.nv.silLog.head? with
  | none => s
  | some h =>
    let k := h.seq / 2048
    let old := s.nv.silLog.filter (fun r => r.seq / 2048 == k && r.mac == sillMac r)
    let rest := s.nv.silLog.filter (fun r => r.seq / 2048 != k)
    let last := fun (r : SillRec) => (old.filter (fun x => x.reg == r.reg)).getLast? == some r
    let carried := old.filter (fun r => !rest.any (fun x => x.reg == r.reg) && last r)
    let s1 := carried.foldl (fun s r => sillRaw s r.reg r.value r.count) s
    eraseNow (setNv s1 { s1.nv with silLog := s1.nv.silLog.filter (fun r => r.seq / 2048 != k) }) (1920 + k % 128)

/-- A persisted write has its record. -/
def sillPut (s : State) (reg : Nat) (v : Word) (count : Nat) : State :=
  let s1 := sillRaw s reg v count
  if sillTurns s then sillTurn s1 else s1

/-- The log is read: each register takes the value and the counter of its valid record with the highest sequence. -/
def sillRead (s : State) : State :=
  let l := s.nv.silLog.filter (fun r => r.mac == sillMac r)
  { s with
    sill := l.foldl (fun t r => tput 0#32 t r.reg r.value) []
    nv := { s.nv with silCnt := l.foldl (fun t r => tput 0 t r.reg r.count) [] } }

/-! ### The enrolment table (R449) -/

/-- The table under its AES-CMAC; the rules give it no layout beyond its records and its counter (DESIGN CHOICE:
notes/assumptions/96.md). -/
def tableBytes (f : Fw) : Bytes :=
  leBytes 4 f.tableCnt ++ f.table.flatMap (fun e => leBytes 1 e.1 ++ leBytes 8 e.2.2 ++ e.2.1)

def tableMac (f : Fw) : Bytes := l1Mac "INFILL" (tableBytes f)

/-- The table is intact, or none was ever written. -/
def tableOk (f : Fw) : Bool := f.tableMac.isEmpty || f.tableMac == tableMac f

/-- The table is rewritten, in the block of the two that does not hold it. -/
def putTable (s : State) (cnt : Nat) (tab : List (Nat × Bytes × Nat)) : State :=
  let f := { s.fw with tableCnt := cnt, table := tab, tableAt := 1 - s.fw.tableAt % 2 }
  let g := { f with tableMac := tableMac f }
  programBytes { eraseNow s (1534 + g.tableAt) with fw := g } (1534 + g.tableAt) (tableBytes g ++ g.tableMac)

/-- The entry of a slice that is destroyed or exported, and its floor, are cleared. -/
def dropEnrolment (s : State) (slice : Nat) : State :=
  if (tfind s.fw.table slice).isNone then s else putTable s s.fw.tableCnt (terase slice s.fw.table)

end Sys2Proof.Machine
end

