-- ==== Sys2Proof/Machine/Gates.lean ====
section
/-!
DEFINITION. The gates (16_gates R350–R361, R364–R366): the targets, the region tables, the check of an access, staging
and commit. Accesses themselves are in Machine/Bus.lean.
-/
namespace Sys2Proof.Machine
open Sys2Proof

def setGates (s : State) (g : Gates) : State := { s with gates := g }

/-! ### Initiators (R350) -/

def initHost (slice : Nat) : Nat := 352 + slice
def initChannel (c : Nat) : Nat := 32 + c
def initFlash : Nat := 339
def initLms : Nat := 340

/-- The bent of a post or shuttle channel. -/
def initBent (init : Nat) : Nat := if init < 32 then init / 4 else (init - 32) / 32

/-- A firmware channel as an initiator. -/
def isFwChannel (init : Nat) : Bool := 32 ≤ init && init < 288 && 24 ≤ (init - 32) % 32

/-- Plan channels, units and engine ports: their tables are kept by hardware (R353). -/
def isPort (init : Nat) : Bool := 32 ≤ init && init < 352 && !isFwChannel init

/-! ### Targets (R22, R351) -/

def inRange (a lo hi : Nat) : Bool := lo ≤ a && a ≤ hi

/-- The gate of an address for an initiator; 15 is the null target. -/
def gateOf (init a : Nat) : Nat :=
  if inRange a 0 0x000FFFFF then (if init < 288 then initBent init else 15)
  else if inRange a 0x01000000 0x017FFFFF then (a - 0x01000000) / 0x100000
  else if inRange a 0x02000000 0x02BFFFFF then 8
  else if inRange a 0x03000000 0x033FFFFF then 9
  else if inRange a 0x04000000 0x041FFFFF then 10
  else if inRange a 0x40000000 0x40FFFFFF then 11
  else if inRange a 0x10000000 0x1FFFFFFF then 12
  else if inRange a 0xFFFF0000 0xFFFFFFFF then 13
  else 15

/-- The bounds of the target that holds an address under the name it uses, for a table of an initiator. -/
def targetSpan (a : Nat) : Option (Nat × Nat) :=
  if inRange a 0 0x000FFFFF then some (0, 0x000FFFFF)
  else if inRange a 0x01000000 0x017FFFFF then
    let b := 0x01000000 + (a - 0x01000000) / 0x100000 * 0x100000
    some (b, b + 0xFFFFF)
  else [(0x02000000, 0x02BFFFFF), (0x03000000, 0x033FFFFF), (0x04000000, 0x041FFFFF), (0x10000000, 0x1FFFFFFF),
      (0x40000000, 0x40FFFFFF), (0xFFFF0000, 0xFFFFFFFF)].find? (fun x => inRange a x.1 x.2)

/-- Where the bytes of an address are kept: a bent store under its window name, the others under their own. -/
def memAddr (init a : Nat) : Nat := if a ≤ 0x000FFFFF then 0x01000000 + initBent init * 0x100000 + a else a

/-! ### Regions -/

def Region.valid (r : Region) : Bool := r.lo.getLsbD 0
def Region.r (r : Region) : Bool := r.lo.getLsbD 1
def Region.w (r : Region) : Bool := r.lo.getLsbD 2
def Region.x (r : Region) : Bool := r.lo.getLsbD 3
def Region.base (r : Region) : Nat := r.lo.toNat / 64 * 64 + r.hi.toNat * 2 ^ 32
/-- The last byte of the last granule. -/
def Region.last (r : Region) : Nat := r.llo.toNat / 64 * 64 + 63 + r.lhi.toNat * 2 ^ 32

/-- A valid region with the given attributes (R 2, W 4, X 8) over a range of the posts' map. -/
def mkRegion (attr base last : Nat) : Region :=
  ⟨BitVec.ofNat 32 (base / 64 * 64 + attr + 1), 0#32, BitVec.ofNat 32 (last / 64 * 64), 0#32⟩

/-- Management status pages that table 352 grants for reading at reset: those of R378. -/
def statusPages : List Nat := [0x001, 0x002, 0x003, 0x004, 0x005, 0x006]

/-- The regions of a post at reset (R355). -/
def postRegions : List Region :=
  (List.range 8).map (fun b => mkRegion 6 (0x01000000 + b * 0x100000) (0x010FFFFF + b * 0x100000)) ++
  [mkRegion 14 0 0x000FFFFF, mkRegion 6 0x02000000 0x02BFFFFF, mkRegion 6 0x03000000 0x033FFFFF,
   mkRegion 6 0x04000000 0x041FFFFF, mkRegion 6 0x40000000 0x40FFFFFF,
   mkRegion 10 0x10000000 0x15FFFFFF, mkRegion 10 0x18000000 0x19FFFFFF,
   mkRegion 2 0x16000000 0x17FFFFFF, mkRegion 2 0x1A000000 0x1FFFFFFF,
   mkRegion 10 0xFFFF0000 0xFFFFFFFF]

/-- A region of the tables at reset, by its key. -/
def resetRegion (key : Nat) : Region :=
  let t := key / 32
  let r := key % 32
  if t < 32 then postRegions.getD r Region.zero
  else if t == 352 then
    match statusPages[r]? with
    | some p => mkRegion 2 (0x40000000 + p * 0x1000) (0x40000FFF + p * 0x1000)
    | none => Region.zero
  else if 512 ≤ t && t < 640 && r == 0 then ⟨7#32, 0#32, 0xFFFFFFC0#32, 0xFFFFFFFF#32⟩
  else Region.zero

def getRegion (tab : List (Nat × Region)) (key : Nat) : Region := tget (resetRegion key) tab key
def putRegion (tab : List (Nat × Region)) (key : Nat) (r : Region) : List (Nat × Region) :=
  tput (resetRegion key) tab key r

/-- Tables whose shadow software may write (R353). -/
def tableWritable (t : Nat) : Bool := t < 32 || isFwChannel t || t == 352 || (512 ≤ t && t < 640)

/-! ### Fixed denials (R354) -/

/-- What a fixed denial refuses, whatever the regions say. Posts 0.2 and 0.3 do not reach the blocks of the privileged
channels, which R268 gives to posts 0.0 and 0.1 alone (DEDUCED where R285 names the posts of the bent:
notes/assumptions/92.md). -/
def fixedDenial (init a : Nat) : Bool :=
  (inRange a 0x01000000 0x017FFFFF && 0xFFC00 ≤ a % 0x100000) ||
  (inRange a 0x02800000 0x02BFFFFF && init != initLms) ||
  (inRange a 0x03000000 0x033FFFFF &&
    (let b := (a - 0x03000000) / 0x80000
     let o := a % 0x80000
     if o < 0x60000 then
       !((32 ≤ init && init < 288 && (init - 32) / 32 == b && !isFwChannel init) ||
         (288 ≤ init && init < 312 && (init - 288) / 3 == b) || init == 320 + b)
     else
       let u := (o - 0x60000) / 0x4000
       !((init < 32 && init / 4 == b) || init == 32 + 32 * b + 24 + u))) ||
  (inRange a 0x40040400 0x400407FF &&
    (let b := (a - 0x40040400) / 16 / 8
     !((if b == 0 then init < 2 else init < 32 && init / 4 == b) || init == 352))) ||
  (inRange a 0x40041400 0x40041FFF && !(init == (a - 0x40041400) / 96 || init < 2 || init == 352))

/-! ### The tables of ports (R270, R353) -/

/-- The regions of the ports whose reach the spec names: the plan channels, needles and hash engine of a bent reach its
plan area; plan channels also their bent store, the loft and context RAM, where commands' layouts lie; the LMS state block
its tree caches. Which regions hardware writes for these is not printed (DEDUCED: notes/assumptions/92.md). -/
def portRegions (init : Nat) : Option (List Region) :=
  let plan := fun (b : Nat) => mkRegion 6 (0x03000000 + b * 0x80000) (0x0305FFFF + b * 0x80000)
  if 32 ≤ init && init < 288 && !isFwChannel init then
    let b := initBent init
    some [plan b, mkRegion 6 (0x01000000 + b * 0x100000) (0x010FFFFF + b * 0x100000), mkRegion 6 0x02000000 0x027FFFFF,
      mkRegion 6 0x04000000 0x041FFFFF]
  else if 288 ≤ init && init < 312 then some [plan ((init - 288) / 3)]
  else if 320 ≤ init && init < 328 then some [plan (init - 320)]
  else if init == initLms then some [mkRegion 6 0x02800000 0x02BFFFFF]
  else none

/-! ### The check (R356) -/

/-- What an access is. -/
inductive Acc where
  | read | write | fetch
deriving DecidableEq, Repr

inductive GateRes where
  | allow | deny | double
deriving DecidableEq, Repr

def Region.grants (r : Region) : Acc → Bool
  | .read => r.r
  | .write => r.w
  | .fetch => r.x

/-- Regions of a table that cover an address. -/
def covering (tab : List (Nat × Region)) (t n a : Nat) : List Region :=
  ((List.range n).map (fun r => getRegion tab (t * 32 + r))).filter (fun r => r.valid && r.base ≤ a && a ≤ r.last)

def matchRegions (k : Acc) : List Region → GateRes
  | [] => .deny
  | [r] => if r.grants k then .allow else .deny
  | _ => .double

/-- The epoch is the one in force, or the one before it while the previous tables are held (R360). -/
def epochKnown (s : State) (epoch : Nat) : Bool :=
  let now := (getReg s Reg.GTE_EPOCH).toNat
  epoch == now || (s.gates.prev.isSome && (epoch + 1) % 2 ^ 32 == now)

/-- The tables of an epoch: the live ones, or the previous ones while they are held. -/
def tablesAt (s : State) (epoch : Nat) : List (Nat × Region) :=
  if epoch == (getReg s Reg.GTE_EPOCH).toNat then s.gates.live else s.gates.prev.getD s.gates.live

/-- The boot ROM once TIK_STAT.RUN is set: its service entries only (R446). How far the services' code extends from the
entries 0xFFFF_F000 and 0xFFFF_F010 is not printed; every address from 0xFFFF_F000 up stays executable (DESIGN CHOICE:
notes/assumptions/92.md). -/
def romClosed (s : State) (a : Nat) (k : Acc) : Bool :=
  running s && inRange a 0xFFFF0000 0xFFFFFFFF && !(k == .fetch && 0xFFFFF000 ≤ a)

/-- The flash window and the boot ROM take no writes (01_frame R22). -/
def readOnlyTarget (init a : Nat) (k : Acc) : Bool := k == .write && (gateOf init a == 12 || gateOf init a == 13)

/-- The result of an access to the posts' map. A port whose table the spec does not let one know is refused by nothing
but a fixed denial or the null target (notes/assumptions/92.md). -/
def gateCheck (s : State) (tab : List (Nat × Region)) (init a : Nat) (k : Acc) : GateRes :=
  if gateOf init a == 15 || fixedDenial init a || romClosed s a k || readOnlyTarget init a k then .deny
  else if 352 ≤ init && s.faults.safe && k == .write then (if a == 0x40002128 then .allow else .deny)
  else if 352 ≤ init && s.faults.safe && !((statusPages.any (fun p => inRange a (0x40000000 + p * 0x1000) (0x40000FFF + p * 0x1000)))) then .deny
  else if isPort init then
    (match portRegions init with
    | some rs => matchRegions k (rs.filter (fun r => r.base ≤ a && a ≤ r.last))
    | none => .allow)
  else matchRegions k (covering tab init 32 a)

/-- Gate 14: a host-memory access of a slice. -/
def linkCheck (s : State) (slice a : Nat) (k : Acc) : GateRes := matchRegions k (covering s.gates.live (512 + slice) 16 a)

/-- The code of an access in a fault record (R373). -/
def accCode (init : Nat) : Acc → Nat
  | .read => if 352 ≤ init then 6 else 1
  | .write => if 352 ≤ init then 6 else 2
  | .fetch => 3

/-- The slice an initiator acts for, where its identity names one. -/
def initSlice (init : Nat) : Option Nat := if 352 ≤ init then some (init - 352) else none

/-- A refusal raises GTE_DENY of its gate, or GTE_DOUBLE, and counts. -/
def refuseAccess (s : State) (gate init a acc : Nat) (imprecise : Bool) (slice : Option Nat) (res : GateRes) : State :=
  let src := if res == .double then srcGteDouble else srcGteDeny + gate
  let arg : FireArgs := ⟨src, slice, none, none, acc, init, a / 64 * 64, 0, imprecise⟩
  fire (countF s Reg.GTE_DENY_CNT_N 1) arg

/-- An access that is not posted: whether it is performed, and what a refusal leaves. -/
def access (s : State) (init a : Nat) (k : Acc) : Bool × State :=
  let r := gateCheck s s.gates.live init a k
  if r == .allow then (true, s)
  else (false, refuseAccess s (gateOf init a) init a (accCode init k) false (initSlice init) r)

/-- A host-memory access of a slice at gate 14. -/
def linkAccess (s : State) (slice a : Nat) (k : Acc) : Bool × State :=
  let r := linkCheck s slice a k
  if r == .allow then (true, s)
  else (false, refuseAccess s 14 337 a (if k == .read then 1 else 2) false (some slice) r)

/-- The imprecise notice of a dropped posted write (R364). -/
def notice (s : State) (init a epoch : Nat) (res : GateRes) : State :=
  let g := gateOf init a
  let s1 := refuseAccess s g init a 4 true (initSlice init) res
  let s2 := setF (setF (setF s1 Reg.GTE_NOTICE_INIT init) Reg.GTE_NOTICE_GATE g) Reg.GTE_NOTICE_EPOCH epoch
  event (countF (setReg s2 Reg.GTE_NOTICE_ADDR (BitVec.ofNat 32 (a / 64 * 64))) Reg.GTE_NOTICE_CNT_N 1) Reg.GTE_EVT_NOTICE

/-! ### Commit (R359, R360) -/

/-- Why a region of a table is refused: bits OVERLAP 1, SPAN 2, BADREG 4. -/
def regionBad (tab : List (Nat × Region)) (t r : Nat) : Nat :=
  let x := getRegion tab (t * 32 + r)
  let link := 512 ≤ t
  if !x.valid then 0
  else
    let lap := ((List.range 32).filter (fun i => i != r)).any (fun i =>
      let y := getRegion tab (t * 32 + i)
      y.valid && y.base ≤ x.last && x.base ≤ y.last)
    let span := x.last < x.base || (!link && (match targetSpan x.base with
      | some b => b.2 < x.last
      | none => true))
    let xBad := x.x && (link || !(inRange x.base 0 0x000FFFFF || inRange x.base 0x02000000 0x02BFFFFF ||
      (inRange x.base 0x10000000 0x1FFFFFFF && (x.last ≤ 0x15FFFFFF || (0x18000000 ≤ x.base && x.last ≤ 0x19FFFFFF))) ||
      inRange x.base 0xFFFF0000 0xFFFFFFFF))
    let bad := getBits x.lo 4 2 != 0 || getBits x.llo 0 6 != 0 || (!link && (x.hi != 0#32 || x.lhi != 0#32)) || xBad
    b2n lap + 2 * b2n span + 4 * b2n bad

/-- Tables that the shadow may hold otherwise than the live tables. -/
def shadowTables (g : Gates) : List Nat := (g.shadow.map (fun e => e.1 / 32)).eraseDups

/-- The first failing table and region of the shadow, with its causes. -/
def firstBad (g : Gates) : Option (Nat × Nat × Nat) :=
  ((shadowTables g).flatMap (fun t => (List.range 32).map (fun r => (t, r, regionBad g.shadow t r)))).find? (fun x => x.2.2 != 0)

/-- The regions of table 352 in a set of tables. -/
def table352 (tab : List (Nat × Region)) : List (Nat × Region) := tab.filter (fun e => e.1 / 32 == 352)

/-- Refusal flags, and the table and region that failed. -/
def gteFlags (s : State) (lap span bad guard : Bool) : State :=
  setFlag (setFlag (setFlag (setFlag s Reg.GTE_STAT_OVERLAP lap) Reg.GTE_STAT_SPAN span) Reg.GTE_STAT_BADREG bad)
    Reg.GTE_STAT_GUARD guard

def gteErr (s : State) (t r : Nat) : State :=
  setF (setFlag (setF s Reg.GTE_ERR_INFO_INIT (if 512 ≤ t then t - 512 else t)) Reg.GTE_ERR_INFO_LINK (512 ≤ t))
    Reg.GTE_ERR_INFO_REGION r

/-- The AES-CMAC of a stored table 352: each region's number and its four words (R516). -/
def tableMac352 (t : List (Nat × Region)) : Bytes :=
  l1Mac "TABLE352" (t.flatMap (fun e => leBytes 2 e.1 ++
    [e.2.lo, e.2.hi, e.2.llo, e.2.lhi].flatMap (fun w => leBytes 4 w.toNat)))

/-- Table 352 is committed: its record replaces the stored one (R516). -/
def keep352 (g : Gates) : Gates :=
  if table352 g.shadow == table352 g.live then g
  else { g with kept := some (table352 g.shadow, tableMac352 (table352 g.shadow)) }

/-- Step 4: the staged set is checked, and committed or refused as a whole. -/
def kerfGates (s : State) : State :=
  let g := s.gates
  match g.staged with
  | none => s
  | some h =>
    let s1 := setFlag (setGates s { g with staged := none }) Reg.GTE_STAT_STAGED false
    match firstBad g with
    | some (t, r, c) =>
      let s2 := gteErr (gteFlags s1 (c % 2 == 1) (c / 2 % 2 == 1) (c / 4 == 1) false) t r
      let s3 := if c % 4 != 0 then firePlain s2 srcGteOverlap none else s2
      event s3 Reg.GTE_EVT_REFUSED
    | none =>
      if !h && table352 g.shadow != table352 g.live then
        event (gteErr (gteFlags s1 false false false true) 352 0) Reg.GTE_EVT_REFUSED
      else
        let k := keep352 g
        event (setGates (gteFlags s1 false false false false)
          { k with live := g.shadow, prev := some g.live, staged := none, changed := true }) Reg.GTE_EVT_COMMIT

/-- The end of a kerf that committed a table change, of the regions or of a layout: the epoch advances, and the tables of the
epoch before it are held. -/
def kerfEpoch (s : State) : State :=
  if s.gates.changed then
    setReg (setGates s { s.gates with changed := false, prev := some (s.gates.prev.getD s.gates.live) }) Reg.GTE_EPOCH
      (getReg s Reg.GTE_EPOCH + 1#32)
  else s

/-- Stages the shadow; a write of GO while a set is staged is ignored. -/
def gteStage (s : State) (h : Bool) : State :=
  if s.gates.staged.isSome then s
  else setFlag (setGates s { s.gates with staged := some h }) Reg.GTE_STAT_STAGED true

/-- GTE_COMMIT_WRITE. -/
def execGteCommitWrite (v : Word) (s : State) : Host.Outcome State Fault Refusal :=
  .next (if v.getLsbD 0 && !s.faults.safe then gteStage s false else s)

/-- GTE_DISCARD_WRITE: the live tables are copied into the shadow; a staged set stays staged as it then stands. -/
def gteDiscard (s : State) : State := setGates s { s.gates with shadow := s.gates.live }

def execGteDiscardWrite (_v : Word) (s : State) : Host.Outcome State Fault Refusal :=
  .next (if s.faults.safe then s else gteDiscard s)

/-- The gates release the previous tables: by PREVIOUS_TABLES_RELEASE, or with the end of the tick after the commit
(R360). -/
def releasePrev (s : State) : State := setGates s { s.gates with prev := none }

/-- PREVIOUS_TABLES_RELEASE. -/
def execPreviousTablesRelease (s : State) : Host.Outcome State Fault Refusal := .next (releasePrev s)

/-- A new slice's link table is restored, live and shadow (R355). -/
def restoreLink (s : State) (slice : Nat) : State :=
  let keep := fun (t : List (Nat × Region)) => t.filter (fun e => e.1 / 32 != 512 + slice)
  setGates s { s.gates with live := keep s.gates.live, shadow := keep s.gates.shadow, changed := true }

/-! ### The window (R366) -/

/-- The table that GTE_SEL selects. -/
def selTable (s : State) : Nat :=
  if flag s Reg.GTE_SEL_LINK then 512 + getF s Reg.GTE_SEL_INIT % 128 else getF s Reg.GTE_SEL_INIT

/-- A word of the window: the shadow, or the live table. Tables of ports show free values (notes/assumptions/18.md). -/
def gteWindow (s : State) (off : Nat) : Word :=
  let t := selTable s
  let r := (off - 0x200) / 16
  if 512 ≤ t && 16 ≤ r then 0#32
  else if isPort t && (portRegions t).isNone then BitVec.ofNat 32 (Config.freeWide (t * 512 + off)).toNat
  else
    let x := match portRegions t with
      | some rs => rs.getD r Region.zero
      | none => getRegion (if flag s Reg.GTE_SEL_LIVE then s.gates.live else s.gates.shadow) (t * 32 + r)
    match off % 16 with
    | 0 => x.lo
    | 4 => x.hi
    | 8 => x.llo
    | _ => x.lhi

/-- A write of the window by an initiator: posts 0 and 1 write every writable table, slice 0 its own (R353). -/
def gteWindowWrite (s : State) (init off : Nat) (v : Word) : State :=
  let t := selTable s
  let r := (off - 0x200) / 16
  let may := init < 2 || (init == 352 && t == 352)
  if flag s Reg.GTE_SEL_LIVE || !tableWritable t || !may || (512 ≤ t && 16 ≤ r) then s
  else
    let k := t * 32 + r
    let x := getRegion s.gates.shadow k
    let y := match off % 16 with
      | 0 => { x with lo := v }
      | 4 => { x with hi := v }
      | 8 => { x with llo := v }
      | _ => { x with lhi := v }
    setGates s { s.gates with shadow := putRegion s.gates.shadow k y }

end Sys2Proof.Machine
end

