-- ==== Sys2Proof/Machine/Mlkem.lean ====
section
/-!
DEFINITION. ML-KEM-768 and ML-KEM-1024 (00_scope R8, 10_seam_signatures R226, R227), as FIPS 203 gives them (PRESUMED:
notes/assumptions/5.md). `set` is 1 or 2. A decapsulation key is its 64-byte seed, expanded on each use (06_keys R150).
-/
namespace Sys2Proof.Machine
open Sys2Proof

/-- Polynomials have 256 coefficients modulo 3,329. -/
def kemQ : Nat := 3329
def kemRank (set : Nat) : Nat := set + 2
def kemDu (set : Nat) : Nat := if set == 1 then 10 else 11
def kemDv (set : Nat) : Nat := if set == 1 then 4 else 5

def kemPow : (e : Nat) → Nat
  | 0 => 1
  | e + 1 => kemPow e * 17 % kemQ

def bitRev7 (i : Nat) : Nat := (List.range 7).foldl (fun a j => 2 * a + i / 2 ^ j % 2) 0

def polyAdd (f g : List Nat) : List Nat := List.zipWith (fun a b => (a + b) % kemQ) f g
def polySub (f g : List Nat) : List Nat := List.zipWith (fun a b => (a + kemQ - b) % kemQ) f g
def polyScale (z : Nat) (f : List Nat) : List Nat := f.map (fun a => z * a % kemQ)

/-- The butterfly of node `k` of the number-theoretic transform, and those below it. -/
def nttGo : (levels k : Nat) → List Nat → List Nat
  | 0, _, l => l
  | n + 1, k, l =>
    let h := l.length / 2
    let a := l.take h
    let t := polyScale (kemPow (bitRev7 k)) (l.drop h)
    nttGo n (2 * k) (polyAdd a t) ++ nttGo n (2 * k + 1) (polySub a t)

def ntt (f : List Nat) : List Nat := nttGo 7 1 f

def nttBack : (levels k : Nat) → List Nat → List Nat
  | 0, _, l => l
  | n + 1, k, l =>
    let h := l.length / 2
    let a := nttBack n (2 * k) (l.take h)
    let b := nttBack n (2 * k + 1) (l.drop h)
    polyAdd a b ++ polyScale (kemPow (256 - bitRev7 k)) (polySub a b)

def nttInv (f : List Nat) : List Nat := polyScale 3303 (nttBack 7 1 f)

/-- The product of two transformed polynomials, pair by pair. -/
def nttMul (f g : List Nat) : List Nat :=
  (List.range 128).flatMap (fun i =>
    let a := f.getD (2 * i) 0
    let b := f.getD (2 * i + 1) 0
    let c := g.getD (2 * i) 0
    let d := g.getD (2 * i + 1) 0
    [(a * c + b * d % kemQ * kemPow (2 * bitRev7 i + 1)) % kemQ, (a * d + b * c) % kemQ])

/-- The scalar product of two vectors of transformed polynomials. -/
def nttDot (u v : List (List Nat)) : List Nat :=
  (List.zipWith nttMul u v).foldl polyAdd (List.replicate 256 0)

/-- Coefficients below the modulus from a byte string, three bytes to two candidates. -/
def kemReject : List Byte → List Nat
  | a :: b :: c :: r =>
    let d1 := a.toNat + 256 * (b.toNat % 16)
    let d2 := b.toNat / 16 + 16 * c.toNat
    (if d1 < kemQ then [d1] else []) ++ (if d2 < kemQ then [d2] else []) ++ kemReject r
  | _ => []

/-- A uniform transformed polynomial; 1,344 squeezed bytes give 256 coefficients but with negligible probability. -/
def kemUniform (rho : Bytes) (j i : Nat) : List Nat :=
  let l := (kemReject (shake 168 1344 (rho ++ leBytes 1 j ++ leBytes 1 i))).take 256
  l ++ List.replicate (256 - l.length) 0

/-- A polynomial of the centred binomial distribution with parameter 2, from 128 bytes. -/
def kemCbd (s : Bytes) (n : Nat) : List Nat :=
  let x := leNat (shake 136 128 (s ++ leBytes 1 n))
  (List.range 256).map (fun i =>
    let v := x / 16 ^ i % 16
    (v % 2 + v / 2 % 2 + kemQ - v / 4 % 2 - v / 8) % kemQ)

def kemCompress (d x : Nat) : Nat := (2 ^ (d + 1) * x + kemQ) / (2 * kemQ) % 2 ^ d
def kemDecompress (d y : Nat) : Nat := (2 * kemQ * y + 2 ^ d) / 2 ^ (d + 1)

/-- 256 values of `d` bits in 32 d bytes. -/
def kemEncode (d : Nat) (f : List Nat) : Bytes := leBytes (32 * d) (f.foldr (fun x a => a * 2 ^ d + x) 0)
def kemDecode (d : Nat) (b : Bytes) : List Nat := let x := leNat b; (List.range 256).map (fun i => x / 2 ^ (d * i) % 2 ^ d)

/-- Entry (i, j) of the matrix. -/
def kemRow (set : Nat) (rho : Bytes) (i : Nat) : List (List Nat) :=
  (List.range (kemRank set)).map (fun j => kemUniform rho j i)
def kemCol (set : Nat) (rho : Bytes) (i : Nat) : List (List Nat) :=
  (List.range (kemRank set)).map (fun j => kemUniform rho i j)

/-- The secret vector, transformed, and the encapsulation key of a seed. -/
def kemExpand (set : Nat) (seed : Bytes) : List (List Nat) × Bytes :=
  let k := kemRank set
  let g := sha3 72 64 (seed.take 32 ++ leBytes 1 k)
  let rho := g.take 32
  let sigma := g.drop 32
  let s := (List.range k).map (fun i => ntt (kemCbd sigma i))
  let t := (List.range k).map (fun i => polyAdd (nttDot (kemRow set rho i) s) (ntt (kemCbd sigma (k + i))))
  (s, t.flatMap (kemEncode 12) ++ rho)

/-- The encapsulation key of a 64-byte seed. -/
def kemPublic (set : Nat) (seed : Bytes) : Bytes := (kemExpand set seed).2

/-- The modulus check of an encapsulation key. -/
def kemKeyOk (set : Nat) (ek : Bytes) : Bool :=
  let k := kemRank set
  ek.length == 384 * k + 32 && (chunks 384 (ek.take (384 * k))).all (fun b => (kemDecode 12 b).all (· < kemQ))

/-- The ciphertext of a message under randomness `r`. -/
def kemEncrypt (set : Nat) (ek m r : Bytes) : Bytes :=
  let k := kemRank set
  let rho := ek.drop (384 * k)
  let t := (chunks 384 (ek.take (384 * k))).map (kemDecode 12)
  let y := (List.range k).map (fun i => ntt (kemCbd r i))
  let u := (List.range k).map (fun i => polyAdd (nttInv (nttDot (kemCol set rho i) y)) (kemCbd r (k + i)))
  let v := polyAdd (polyAdd (nttInv (nttDot t y)) (kemCbd r (2 * k))) ((kemDecode 1 m).map (kemDecompress 1))
  u.flatMap (fun f => kemEncode (kemDu set) (f.map (kemCompress (kemDu set)))) ++
    kemEncode (kemDv set) (v.map (kemCompress (kemDv set)))

/-- The message that a ciphertext holds under a secret vector. -/
def kemDecrypt (set : Nat) (s : List (List Nat)) (c : Bytes) : Bytes :=
  let n := 32 * kemDu set
  let u := (List.range (kemRank set)).map (fun i => ntt ((kemDecode (kemDu set) (sub c (n * i) n)).map (kemDecompress (kemDu set))))
  let v := (kemDecode (kemDv set) (c.drop (n * kemRank set))).map (kemDecompress (kemDv set))
  kemEncode 1 ((polySub v (nttInv (nttDot s u))).map (kemCompress 1))

/-- Encapsulation: the shared secret and the ciphertext. -/
def kemEncaps (set : Nat) (ek m : Bytes) : Bytes × Bytes :=
  let g := sha3 72 64 (m ++ sha3 136 32 ek)
  (g.take 32, kemEncrypt set ek m (g.drop 32))

/-- Decapsulation with implicit rejection. -/
def kemDecaps (set : Nat) (seed c : Bytes) : Bytes :=
  let e := kemExpand set seed
  let m := kemDecrypt set e.1 c
  let g := sha3 72 64 (m ++ sha3 136 32 e.2)
  if kemEncrypt set e.2 m (g.drop 32) == c then g.take 32 else shake 136 32 (sub seed 32 32 ++ c)

end Sys2Proof.Machine
end

