-- ==== Sys2Proof/Machine/Keys.lean ====
section
/-!
DEFINITION. The commands that create and export keys (04_command_reference R110–R113, 06_keys R152–R162): the new
key's material, the tombstone look-up of its companion phase, the X9.143 key block, and KEY_EXPORT.
-/
namespace Sys2Proof.Machine
open Sys2Proof

/-! ### X9.143 key blocks, version D (R160) -/

/-- The hexadecimal digit of a character. -/
def hexVal (b : Byte) : Option Nat :=
  let x := b.toNat
  if 48 ≤ x && x ≤ 57 then some (x - 48) else if 65 ≤ x && x ≤ 70 then some (x - 55) else none

def hexChar (n : Nat) : Byte := BitVec.ofNat 8 (if n < 10 then 48 + n else 55 + n)

/-- The upper-case hexadecimal characters of bytes. -/
def toHex (b : Bytes) : Bytes := (nibbles b).map hexChar

/-- Bytes from an even count of hexadecimal characters. -/
def fromHex : Bytes → Option Bytes
  | [] => some []
  | [_] => none
  | a :: b :: r =>
    match hexVal a, hexVal b, fromHex r with
    | some x, some y, some t => some (BitVec.ofNat 8 (x * 16 + y) :: t)
    | _, _, _ => none

/-- The number of decimal characters. -/
def decVal (b : Bytes) : Option Nat :=
  if b.all (fun x => 48 ≤ x.toNat && x.toNat ≤ 57) then some (b.foldl (fun a x => a * 10 + (x.toNat - 48)) 0) else none

/-- The encryption (0) or MAC (1) key of a block under a protection key. -/
def x9Key (kek : Bytes) (use : Nat) : Bytes :=
  let l := kek.length
  let alg := if l == 16 then 2 else if l == 24 then 3 else 4
  ((List.range (ceilDiv l 16)).flatMap (fun i =>
    cmac kek (beBytes 1 (i + 1) ++ beBytes 2 use ++ [0] ++ beBytes 2 alg ++ beBytes 2 (8 * l)))).take l

/-- The optional blocks of a header: id and data; `none` where they do not parse. With the characters after them. -/
def x9Opts : (n : Nat) → Bytes → Option (List (Bytes × Bytes) × Bytes)
  | 0, r => some ([], r)
  | n + 1, r =>
    match fromHex (sub r 2 2) with
    | none => none
    | some lb =>
      let short := beNat lb
      let ext : Option (Nat × Nat) :=
        if short != 0 then some (short, 4)
        else match fromHex (sub r 4 2) with
          | none => none
          | some k => match fromHex (sub r 6 (2 * beNat k)) with
            | none => none
            | some v => some (beNat v, 6 + 2 * beNat k)
      match ext with
      | none => none
      | some (len, hd) =>
        if len < hd || r.length < len then none
        else match x9Opts n (r.drop len) with
          | none => none
          | some (o, t) => some ((r.take 2, (r.take len).drop hd) :: o, t)

/-- Use and mode bits of a mask, by bit number. -/
def bitsOf (l : List Nat) : Nat := l.foldl (fun a i => a + 2 ^ i) 0

/-- The mapping of a usage code: purpose (0 for the KEK's), use and mode bits, DUKPT, and the level where it is not
the KEK's plus one. -/
def x9Usage (u : Bytes) : Option (Nat × Nat × Bool × Nat) :=
  if u == ascii "B0" then some (pPin, bitsOf [uDerive], true, 0)
  else if u == ascii "41" then some (pPin, bitsOf [uDerive], true, 6)
  else if u == ascii "P0" then some (pPin, bitsOf [uEncrypt, uDecrypt, mPin], false, 0)
  else if u == ascii "K0" || u == ascii "K1" then some (0, bitsOf [uWrap, uUnwrap, mKw], false, 0)
  else if u == ascii "D0" then some (pData, bitsOf [uEncrypt, uDecrypt, mCbc, mCtr, mGcm], false, 0)
  else if u == ascii "M6" then some (pMac, bitsOf [uMacGen, uMacVer, mCmac], false, 0)
  else if u == ascii "90" then some (0, 0xFFFF00, false, 0)
  else none

/-- The use bits that a mode of use keeps; the mode bits stay. -/
def x9Mode (m : Bytes) : Option Nat :=
  let keep := fun l => some (0xFF0000 + bitsOf l)
  if m == ascii "B" then keep [uEncrypt, uDecrypt, uWrap, uUnwrap]
  else if m == ascii "E" then keep [uEncrypt, uWrap]
  else if m == ascii "D" then keep [uDecrypt, uUnwrap]
  else if m == ascii "C" then keep [uMacGen, uMacVer]
  else if m == ascii "G" then keep [uMacGen]
  else if m == ascii "V" then keep [uMacVer]
  else if m == ascii "X" then keep [uDerive]
  else if m == ascii "N" then some 0xFFFF00
  else none

def x9Export (m : Bytes) : Option Nat :=
  if m == ascii "E" then some 1 else if m == ascii "N" then some 0 else if m == ascii "S" then some 2 else none

/-- A new key before it enters its slot: the status of the run, and what the slot will hold. -/
structure NewKey where
  st : Nat
  typ : Nat
  attr : Nat
  budget : Nat
  material : Bytes
  ik : Bytes
  dest : Bytes
deriving DecidableEq, Repr

def NewKey.fail (st : Nat) : NewKey := ⟨st, 0, 0, 0, [], [], []⟩

/-- A key of material and attributes with its initial budget. -/
def NewKey.of (typ attr : Nat) (material dest : Bytes) : NewKey :=
  ⟨stOk, typ, attr, initialBudget typ attr, material, [], dest⟩

/-- The key type and material of a length under an algorithm; keying option 2 of TDES repeats K1 (R112). -/
def algKey (tdes : Bool) (k : Bytes) : Option (Nat × Bytes) :=
  if tdes then
    if k.length == 16 then some (4, k ++ k.take 8) else if k.length == 24 then some (4, k) else none
  else if k.length == 16 then some (1, k) else if k.length == 24 then some (2, k)
  else if k.length == 32 then some (3, k) else none

/-- The fields that the block's header and its `9R` block give: attribute block and carried budget. A block whose
attribute block has EXPORT code 3 or a reserved bit set (R150) fails (notes/assumptions/80.md). -/
def x9Attr (kek : KeySlot) (use mask ex : Nat) (row : Nat × Nat × Bool × Nat) (r9 : Option Bytes) : Option (Nat × Option Nat) :=
  let lvl := if row.2.2.2 == 0 then kek.level + 1 else row.2.2.2
  let pu := if row.1 == 0 then aPurpose kek.attr else row.1
  let bits := row.2.1 &&& mask
  let dk := b2n row.2.2.1 * 2 ^ 29
  match r9 with
  | none => if use == 0x90 then none else some (lvl + pu * 16 + bits + ex * 2 ^ 24 + dk, none)
  | some d =>
    let a := leAt d 0 8
    if aExport a == 3 || bitAt a 3 || bitsAt a 30 2 != 0 || bitsAt a 38 2 != 0 then none else
    let dk := if use == 0x90 then bitsAt a 29 1 * 2 ^ 29 else dk
    some (aLevel a + aPurpose a * 16 + (bits &&& a &&& 0xFFFF00) + min ex (aExport a) * 2 ^ 24 + aStore a * 2 ^ 26 +
      bitsAt a 28 1 * 2 ^ 28 + dk + bitsAt a 32 32 * 2 ^ 32, some (leAt d 8 6))

/-- An X9.143 block under a protection key: the key it carries, or the status of its failure (R160). An `IK` block whose
data is not the hexadecimal of 8 bytes breaks the table (DEDUCED, notes/assumptions/80.md). -/
def x9Import (kek : KeySlot) (src : Bytes) : NewKey :=
  let fail := NewKey.fail stAuthFail
  let head := src.take 16
  match decVal (sub head 1 4), x9Usage (sub head 5 2), x9Mode (sub head 8 1), x9Export (sub head 11 1),
      decVal (sub head 12 2) with
  | some len, some row, some mask, some ex, some nopt =>
    let alg := sub head 7 1
    if sub head 0 1 != ascii "D" || len != src.length || !(alg == ascii "A" || alg == ascii "T") then fail
    else match x9Opts nopt (src.drop 16) with
      | none => fail
      | some (opts, body) =>
        let hdr := src.take (src.length - body.length)
        match fromHex (body.take (body.length - 32)), fromHex (body.drop (body.length - 32)) with
        | some ct, some mac =>
          if ct.length == 0 || ct.length % 16 != 0 || mac.length != 16 then fail
          else
            let pt := cbcDec (x9Key kek.material 0) mac ct
            let bits := beNat (pt.take 2)
            let find := fun (id : String) => (opts.find? (fun o => o.1 == ascii id)).map (·.2)
            let r9 : Option (Option Bytes) := match find "9R" with
              | none => some none
              | some d => match fromHex d with
                | some b => if b.length == 14 then some (some b) else none
                | none => none
            let ik : Bytes := match find "IK" with
              | none => []
              | some d => (fromHex d).getD []
            let ikOk := ((opts.find? (fun o => o.1 == ascii "IK")).isNone || ik.length == 8)
            if !ikOk || cmac (x9Key kek.material 1) (hdr ++ pt) != mac || bits % 8 != 0 || pt.length < 2 + bits / 8 then fail
            else match algKey (alg == ascii "T") (sub pt 2 (bits / 8)), r9 with
              | some (typ, mat), some r9 =>
                match x9Attr kek (if sub head 5 2 == ascii "90" then 0x90 else 0) mask ex row r9 with
                | none => fail
                | some (a, carried) =>
                  if attrBad typ a then fail
                  else if !childOk kek a || aPurpose a == pJournal then NewKey.fail stKeyUsage
                  else
                    let a := limitAttr kek.attr a
                    let b := initialBudget typ a
                    ⟨stOk, typ, a, (match carried with | some x => min b x | none => b), mat, ik, []⟩
              | _, _ => fail
        | _, _ => fail
  | _, _, _, _, _ => fail

/-- A key's usage code: the row of the table that holds its purpose and every use and mode bit it has, else `90`. Of `K0`
and `K1`, whose mappings are equal, `K0` is written (DESIGN CHOICE, notes/assumptions/80.md). -/
def x9UsageOf (k : KeySlot) : Bytes :=
  let bits := k.attr &&& 0xFFFF00
  let inRow := fun (u : String) => match x9Usage (ascii u) with
    | some row => (row.1 == 0 || row.1 == aPurpose k.attr) && (bits ||| row.2.1) == row.2.1 && row.2.2.1 == aDukpt k.attr
    | none => false
  if bits == 0 then ascii "90"
  else if isInitialKey k && inRow "41" then ascii "41"
  else match ["B0", "P0", "K0", "D0", "M6"].find? inRow with
    | some u => ascii u
    | none => ascii "90"

/-- The mode of use that the use bits give. -/
def x9ModeOf (a : Nat) : Bytes :=
  let u := bitsAt a 8 8
  let only := fun l => u == bitsOf (l.map (· - 8))
  if only [uEncrypt] || only [uWrap] then ascii "E"
  else if only [uDecrypt] || only [uUnwrap] then ascii "D"
  else if only [uEncrypt, uDecrypt] || only [uWrap, uUnwrap] then ascii "B"
  else if only [uMacGen] then ascii "G"
  else if only [uMacVer] then ascii "V"
  else if only [uMacGen, uMacVer] then ascii "C"
  else if only [uDerive] then ascii "X"
  else ascii "N"

/-- The key bytes that leave in an export. -/
def exportKey (k : KeySlot) : Bytes := k.material.take (exportLen k)

/-- An X9.143 block of a key, with random padding. A remaining budget of 2^48, which 6 bytes do not hold, is written as
2^48 − 1 (DESIGN CHOICE, notes/assumptions/80.md). -/
def x9Build (kek k : KeySlot) (rand : Bytes) : Bytes :=
  let ik := isInitialKey k
  let r9 := ascii "9R" ++ ascii "20" ++ toHex (leBytes 8 k.attr ++ leBytes 6 (min k.budget (2 ^ 48 - 1)))
  let pb := ascii "PB" ++ ascii "0C" ++ (rand.take 8).map (fun b => hexChar (b.toNat % 16))
  let opts := if ik then ascii "IK" ++ ascii "14" ++ toHex (padTo 8 k.ik) ++ r9 ++ pb else r9
  let hdr := ascii "D" ++ asciiDigits 4 (x9Chars (exportLen k) ik) ++ x9UsageOf k ++
    (if typTdes k.typ then ascii "T" else ascii "A") ++ x9ModeOf k.attr ++ ascii "00" ++
    (if aExport k.attr == 2 then ascii "S" else ascii "E") ++ asciiDigits 2 (if ik then 3 else 1) ++ ascii "00" ++ opts
  let n := exportLen k
  let pt := (beBytes 2 (8 * n) ++ exportKey k ++ rand.drop 8).take (16 * ceilDiv (2 + n) 16)
  let mac := cmac (x9Key kek.material 1) (hdr ++ pt)
  hdr ++ toHex (cbcEnc (x9Key kek.material 0) mac pt) ++ toHex mac

/-! ### KEY_EXPORT (R112, R161) -/

/-- KEY_EXPORT: wraps key A under key B. -/
def workKeyExport (s : State) (n : Nat) (c : Ctx) : State :=
  let a := useKey s c.keyA
  let b := useKey s c.keyB
  let d := drawFrom c.gid 40 s
  let out := match xFormat c.entry with
    | 1 => x9Build b a d.1
    | 2 => kwWrap b.material (exportKey a)
    | _ => kwpWrap b.material (exportKey a)
  putResult d.2 n c (resDest out)

/-! ### New keys (R110–R113, R159, R162) -/

/-- Two halves of an XTS key are equal (R126). -/
def halvesEq (typ : Nat) (m : Bytes) : Bool := typXts typ && m.take (m.length / 2) == m.drop (m.length / 2)

/-- A key whose halves are equal is drawn again without end; after `fuel` draws the model takes the draw with one bit of
its first byte turned, so that no such key enters a slot (R126, notes/assumptions/73.md). -/
def unequal (typ : Nat) (m : Bytes) : Bytes :=
  if halvesEq typ m then BitVec.ofNat 8 (byteAt m 0 ^^^ 1) :: m.drop 1 else m

/-- Draws key bytes from a child; an XTS key whose halves are equal is drawn again (R111), which `fuel` bounds. -/
def drawKey (who : Nat) : (fuel : Nat) → (typ : Nat) → State → Bytes × State
  | 0, typ, s =>
    let d := drawFrom who (typBytes typ) s
    (unequal typ d.1, d.2)
  | fuel + 1, typ, s =>
    let d := drawFrom who (typBytes typ) s
    if halvesEq typ d.1 then drawKey who fuel typ d.2 else d

/-- KEY_GENERATE. -/
def newGenerated (s : State) (who : Nat) (e : Bytes) (attr : Nat) : NewKey × State :=
  let t := gType e
  if typSym t then
    let d := drawKey who 64 t s
    (NewKey.of t attr d.1 [], d.2)
  else if t == 0x10 || t == 0x11 then
    let c := curveOf (t - 0x0F)
    let d := drawFrom who (c.len + 8) s
    let k := beBytes c.len (ecScalar c d.1)
    (NewKey.of t attr k (ecPublic c k), d.2)
  else
    let d := drawFrom who 64 s
    (NewKey.of t attr d.1 (padTo (genOut t) (kemPublic (t - 0x1F) d.1)), d.2)

/-- KEM_ENCAPS, KEM_DECAPS and ECDH (R110, R227). -/
def newSecret (s : State) (c : Ctx) (attr : Nat) : NewKey × State :=
  let e := c.entry
  let t := newType e
  if eOp e == opKemEncaps then
    let d := drawFrom c.gid 32 s
    if kemKeyOk (eSet e) c.src then
      let k := kemEncaps (eSet e) c.src d.1
      (NewKey.of t attr (padTo 32 k.1) (padTo (kemCtLen (eSet e)) k.2), d.2)
    else (NewKey.fail stAuthFail, d.2)
  else if eOp e == opKemDecaps then
    (NewKey.of t attr (padTo 32 (kemDecaps (eSet e) (keyMatA s c) c.src)) [], s)
  else match ecdhSecret (curveOf (eSet e)) (keyMatA s c) c.src with
    | some x => (NewKey.of t attr x [], s)
    | none => (NewKey.fail stAuthFail, s)

/-- An unwrapped key of the declared TYPE: its length, and unequal XTS halves (R112). A TDES key of 24 bytes with K1 = K2
or K2 = K3, for which R137 names neither an option nor a status, is taken as one of keying option 1 (DESIGN CHOICE,
notes/assumptions/79.md). -/
def typedKey (typ attr : Nat) (k : Bytes) : NewKey :=
  let m := if typTdes typ && k.length == 16 then k ++ k.take 8 else k
  if m.length != typBytes typ || halvesEq typ m then NewKey.fail stAuthFail else NewKey.of typ attr m []

/-- KEY_IMPORT (R112, R160, R162). -/
def newImported (s : State) (c : Ctx) (attr : Nat) : NewKey :=
  let kek := useKey s c.keyA
  let t := xType c.entry
  let open_ := fun (r : Option Bytes) => match r with
    | some k => typedKey t attr k
    | none => NewKey.fail stAuthFail
  match xFormat c.entry with
  | 1 => x9Import kek c.src
  | 2 => open_ (kwUnwrap kek.material c.src)
  | 3 => open_ (kwpUnwrap kek.material c.src)
  | _ => open_ (rsaDecrypt kek.material c.src)

/-- KEY_DERIVE (R159): the label is the output attribute block as submitted. AES-CMAC takes an AES key; what function
0x01 gives of a TDES key or of the two keys of an XTS key no rule states, and it is a free value, the same for the same
parent, context and block (DESIGN CHOICE, notes/assumptions/78.md). -/
def newDerived (s : State) (c : Ctx) (attr : Nat) : NewKey :=
  let e := c.entry
  let t := vType e
  let n := typBytes t
  let a := keyMatA s c
  let ctx := sub e 0x28 16
  let label := sub e 0x38 8
  let m := match vFn e with
    | 0x10 => dukptDerive a 0x8001 (t - 1) (ctx.take 8)
    | 0x20 => kdf108 a bankLabel ctx n
    | 0x30 => kdf56c a label ctx n
    | 0x31 => kdf56c (a ++ keyMatB s c) label ctx n
    | _ => if typAes (useKey s c.keyA).typ then kdf108 a label ctx n
      else padTo n (Config.pk 37 [leBytes 1 (useKey s c.keyA).typ, a, label, ctx, leBytes 1 n])
  { NewKey.of t attr m [] with ik := if vFn e == 0x10 then ctx.take 8 else [] }

/-- The new key of a creating command, with the draws it makes. -/
def newKeyOf (s : State) (c : Ctx) (attr : Nat) : NewKey × State :=
  let o := eOp c.entry
  if o == opKeyGenerate then newGenerated s c.gid c.entry attr
  else if o == opKeyImport then (newImported s c attr, s)
  else if o == opKeyDerive then (newDerived s c attr, s)
  else newSecret s c attr

/-- A created key's inline result: the handle, then the check value of a symmetric key (R110, R111). -/
def newKeyResult (s : State) (slot : Nat) (k : NewKey) : CmdResult :=
  let h := leBytes 4 (mkHandle (getKey s slot).owner slot (getKey s slot).gen)
  let inl := if typSym k.typ then h ++ checkValue k.typ k.material else h
  if k.dest.isEmpty then resInline inl.length inl else { resDest k.dest with inline := inl }

/-- The companion slot of a creating command: the key enters its slot, and its identity is looked up in the
tombstones and the pending list (R153, R155). -/
def createSlot (s : State) (n : Nat) (c : Ctx) : State :=
  let a := c.newSlots.headD 0
  let r := newKeyOf s c (getKey s a).attr
  let k := r.1
  if k.st != stOk then putResult r.2 n c (resStatus k.st)
  else
    let ident := keyIdent r.2 k.typ k.material
    let slot := getKey r.2 a
    let s1 := setKey r.2 a { slot with
      typ := k.typ, attr := k.attr, level := aLevel k.attr, budget := k.budget, material := k.material, ik := k.ik
      ident := ident }
    match readFault s1 (pairPanels s1 0 tbTmb ident) with
    | some f => slotFails s1 n 128 f
    | none =>
      if tombstoned s1 ident then putResult s1 n c (resStatus stKeyKilled)
      else putResult s1 n c (newKeyResult s1 a k)

end Sys2Proof.Machine
end

