-- ==== Sys2Proof/Machine/Needle.lean ====
section
/-!
DEFINITION. The symmetric commands on the needles and hash engines (04_command_reference R98–R103, R114, 05_needles
R125, R128, R134): CIPHER, CIPHER_TRANSLATE, MAC_GEN, MAC_VERIFY, HASH, RANDOM and a slice's SELFTEST.
-/
namespace Sys2Proof.Machine
open Sys2Proof

/-- A mode run over a whole text: CBC, CTR or XTS. -/
def modeRun (mode : Nat) (dec : Bool) (key iv : Bytes) (w : Nat) (text : Bytes) : Bytes :=
  if mode == mdCbc then (if dec then cbcDec key iv text else cbcEnc key iv text)
  else if mode == mdCtr then ctrXor key iv w text
  else xts (!dec) key iv text

/-- A failed tag: the plaintext is in the destination, and the scrub covers it where it was asked for (R99, R134). -/
def resUntrusted (e : Bytes) (dest : Bytes) (len : Nat) : CmdResult :=
  ⟨stAuthFail, true, eScrub e, false, len, [], dest, 0⟩

/-- The result of CIPHER, given its key, the IV in force and its source (R98, R99). -/
def cipherResult (e key iv src : Bytes) : CmdResult :=
  let m := cMode e
  let t := cipherText e
  let inl := if cIvgen e then padTo 16 iv else []
  if m == mdGcm then
    let aad := sub src 0 (cAad e)
    let text := sub src (cAad e) t
    if cDecrypt e then
      let tag := sub src (cAad e + t) (cTagLen e)
      let r := gcmDec key (iv.take 12) aad text tag
      if r.2 then resDest r.1 else resUntrusted e r.1 t
    else
      let r := gcmEnc key (iv.take 12) aad text (cTagLen e)
      { resDest (r.1 ++ r.2) with inline := inl }
  else { resDest (modeRun m (cDecrypt e) key iv (ctrBits (cCtrw e)) (sub src 0 t)) with inline := inl }

/-- The IV of CIPHER: the entry's, or the one the device built (R128). -/
def cipherIv (c : Ctx) : Bytes := if cIvgen c.entry then c.iv else cIv c.entry

/-- CIPHER (R98, R99). -/
def workCipher (s : State) (n : Nat) (c : Ctx) : State :=
  putResult s n c (cipherResult c.entry (keyMatA s c) (cipherIv c) c.src)

/-- The result of CIPHER_TRANSLATE (R100): the plaintext stays inside; a failed input tag writes a zero output tag. Of
GCM input, the result length is the text length whatever the outcome (R134, notes/assumptions/74.md). -/
def translateResult (e keyA keyB ivOut src : Bytes) : CmdResult :=
  let t := translateText e
  let inGcm := tInMode e == mdGcm
  let outGcm := tOutMode e == mdGcm
  let aad := if inGcm then sub src 0 (cAad e) else []
  let ct := sub src (if inGcm then cAad e else 0) t
  let pt : Bytes × Bool :=
    if inGcm then gcmDec keyA ((cIv e).take 12) aad ct (sub src (cAad e + t) (tInTag e))
    else (modeRun (tInMode e) true keyA (cIv e) (ctrBits (tInCtrw e)) ct, true)
  let dest :=
    if outGcm then
      let r := gcmEnc keyB (ivOut.take 12) aad pt.1 (tOutTag e)
      aad ++ r.1 ++ (if pt.2 then r.2 else zeros (tOutTag e))
    else modeRun (tOutMode e) false keyB ivOut 32 pt.1
  let r := if pt.2 then resDest dest else resUntrusted e dest t
  { r with inline := if pt.2 then padTo 16 ivOut else [], len := if inGcm then t else r.len }

/-- CIPHER_TRANSLATE (R100, R128). -/
def workTranslate (s : State) (n : Nat) (c : Ctx) : State :=
  putResult s n c (translateResult c.entry (keyMatA s c) (keyMatB s c) c.iv c.src)

/-- The result of MAC_GEN (R101): the leftmost MACLEN bytes, inline. -/
def macGenResult (e key src : Bytes) : CmdResult := resInline (macLen e) ((cmac key src).take (macLen e))

/-- MAC_GEN (R101). -/
def workMacGen (s : State) (n : Nat) (c : Ctx) : State := putResult s n c (macGenResult c.entry (keyMatA s c) c.src)

/-- The result of MAC_VERIFY (R101): the comparison covers the full declared length. -/
def macVerifyResult (e key src : Bytes) : CmdResult :=
  let t := eLen e - macLen e
  if (cmac key (sub src 0 t)).take (macLen e) == sub src t (macLen e) then resStatus stOk else resStatus stAuthFail

/-- MAC_VERIFY (R101). -/
def workMacVerify (s : State) (n : Nat) (c : Ctx) : State :=
  putResult s n c (macVerifyResult c.entry (keyMatA s c) c.src)

/-- HASH (R102). -/
def workHash (s : State) (n : Nat) (c : Ctx) : State :=
  putResult s n c (resDest (hashAlg (bitsAt (eParam c.entry) 0 4) c.src))

/-- RANDOM (R103, R263): the Generate function of the group's child. -/
def workRandom (s : State) (n : Nat) (c : Ctx) : State :=
  let d := drawFrom c.gid (eCap c.entry) s
  putResult d.2 n c (resDest d.1)

/-- The result of a slice's SELFTEST (R114): the failing needle, or 0xFF. -/
def selftestResult (failed : Option Nat) : CmdResult :=
  match failed with
  | none => resInline 1 [0xFF]
  | some k => { resStatus stSelftestFail with inline := [BitVec.ofNat 8 k] }

end Sys2Proof.Machine
end

