-- ==== Sys2Proof/Machine/Run.lean ====
section
/-!
DEFINITION. A command's work tick by tick (02_tick R40, 04_command_reference R96, R97, 12_shuttle R271, R511): which of
its units, items and vault slots have run by a tick, what source they need, and the running of them.
-/
namespace Sys2Proof.Machine
open Sys2Proof

/-! ### Vault slots of a command (R91, R218) -/

/-- Companion units in the vault class. -/
def compUnits (e : Bytes) : Nat := if eOp e == opCredIssue then 3 else if createsKey e then 1 else 0

/-- Vault slots that have run by the end of tick `t`: its charged slots, or its companion phase, which starts in the
tick after the charged work and takes `k − 1` ticks (R87, R88). -/
def slotsThrough (c : Ctx) (t : Nat) : Nat :=
  let u := compUnits c.entry
  if c.cls == clVault then unitsThrough c t
  else if u == 0 || t ≤ c.lastTick then 0
  else min u ((t - c.lastTick) * c.vltAt.length)

/-- The source of a vault command's slot has arrived: of the item it works on, or the whole of it (R96, R271). -/
def slotFed (c : Ctx) : Bool :=
  let e := c.entry
  if eOp e == opTokenize && kVaulted e then 32 * (c.slots / 3 + 1) ≤ c.src.length
  else if eOp e == opDetokenize && kVaulted e then 32 * (c.slots + 1) ≤ c.src.length
  else srcDone c

/-- One vault slot of a command, by its opcode and number (R218). -/
def vaultSlot (s : State) (n : Nat) (c : Ctx) : State :=
  match eOp c.entry with
  | 0x10 => tokSlot s n c
  | 0x11 => detokSlot s n c
  | 0x12 => vaultPutSlot s n c
  | 0x13 => vaultGetSlot s n c
  | 0x14 => vaultDeleteSlot s n c
  | 0x18 =>
    if c.slots == 0 then setScratch s n (issueProbe s c) else if c.slots == 1 then issueStage s c else issueSigned s n c
  | 0x19 => if c.slots == 0 then setScratch s n (crdProbe s c) else redeemCommit s n c
  | 0x1A => if c.slots == 0 then setScratch s n (crdProbe s c) else credKillCommit s n c
  | 0x2C => if c.slots == 0 then setScratch s n (killProbe s c) else killCommit s n c
  | _ => createSlot s n c

/-- A slot that runs: what it reads is verified first (R187). -/
def liveSlot (s : State) (n : Nat) (c : Ctx) : State :=
  let r := slotReads s c true
  match readFault s r.1 with
  | some f => slotFails r.2 n (slotChain c) f
  | none => vaultSlot r.2 n c

/-- A command that has failed still runs its vault slots, in their idle form (R39, R219). -/
def idling (c : Ctx) : Bool :=
  c.phase == .running && !c.refused && !working c && (c.cls == clVault || compUnits c.entry != 0)

/-- Runs vault slots one after another. -/
def runSlots : (todo : Nat) → State → (n : Nat) → State
  | 0, s, _ => s
  | todo + 1, s, n =>
    match getCtx s n with
    | none => s
    | some c =>
      let live := if c.cls == clVault then liveUnit c c.slots else working c
      let s1 := if live then liveSlot s n c else idleSlot s c
      let s2 := match getCtx s1 n with
        | some c1 => setCtx s1 n { c1 with slots := c1.slots + 1 }
        | none => s1
      runSlots todo s2 n

/-! ### The work that ends in one result -/

/-- Commands without vault slots or batches, whose result is ready when their last unit has run. -/
def wholeWork (s : State) (n : Nat) (c : Ctx) : State :=
  match eOp c.entry with
  | 0x01 => workCipher s n c
  | 0x02 => workTranslate s n c
  | 0x03 => workMacGen s n c
  | 0x04 => workMacVerify s n c
  | 0x05 => workHash s n c
  | 0x09 => workPinVerify s n c
  | 0x20 => workSignSeam s n c
  | 0x21 => workVerifySeam s n c
  | 0x2A => workKeyExport s n c
  | 0x30 => workRandom s n c
  | 0x31 => workAttest s n c
  | _ => s

/-- A CBC IV that the device builds is drawn when the first block runs (R128). -/
def drawsIv (e : Bytes) : Bool :=
  (eOp e == opCipher && cIvgen e && cMode e == mdCbc) || (eOp e == opTranslate && tOutMode e == mdCbc)

def ensureIv (s : State) (n : Nat) (c : Ctx) : State × Ctx :=
  if drawsIv c.entry && c.iv.isEmpty then
    let d := drawFrom c.gid 16 s
    let c1 := { c with iv := d.1 }
    (setCtx d.2 n c1, c1)
  else (s, c)

/-- The input tag of a GCM decryption is compared once the last text stitch has run (R134). -/
def tagKnown (c : Ctx) (t : Nat) : Bool :=
  let e := c.entry
  let n := if eOp e == opTranslate then
      sideBlocks (tInMode e) (translateText e) (cAad e) + sideBlocks (tOutMode e) (translateText e) (cAad e)
    else sideBlocks (cMode e) (cipherText e) (cAad e)
  (eOp e == opCipher || eOp e == opTranslate) && ceilDiv n 16 ≤ unitsThrough c t

/-- The vault slots of a context that have run by the end of tick `t`, as far as their source has come. -/
def advanceSlots : (todo : Nat) → State → (n t : Nat) → State
  | 0, s, _, _ => s
  | todo + 1, s, n, t =>
    match getCtx s n with
    | none => s
    | some c =>
      if c.slots < slotsThrough c t && (slotFed c || idling c) then advanceSlots todo (runSlots 1 s n) n t else s

/-- Runs everything of a context that has run by the end of tick `t`. What ran before a failure stands (R96, R265,
R374). -/
def advance (s : State) (n t : Nat) : State :=
  match getCtx s n with
  | none => s
  | some c0 =>
    let op := eOp c0.entry
    if !begunBy c0 t || c0.refused || c0.phase != .running then s
    else if c0.cls == clVault || compUnits c0.entry != 0 then
      advanceSlots (slotsThrough c0 t - c0.slots) s n t
    else if c0.status != 0 || c0.adminDone.isSome then s
    else
      let i := ensureIv s n c0
      let s := i.1
      let c := i.2
      let u := realThrough c t
      if op == opPinTranslate then workPinTranslate s n c u
      else if op == opDukpt then workDukpt s n c u
      else if op == opTokenize || op == opDetokenize then workDerived s n c (op == opDetokenize) u
      else if working c && c.result.isNone && srcDone c && (workDone c t || tagKnown c t) then wholeWork s n c
      else s

/-- The last tick whose stitches have begun: the counted one inside its span, the one before it between a kerf and
the next tick's start. -/
def begunTick (s : State) : Nat := if s.tick.span then s.tick.count else s.tick.count - 1

/-- The row of a data-path opcode for a context: its work up to the tick begun. Nothing happens for a context that
does not hold such a command, or has none left to run. -/
def runRow (op n : Nat) (s : State) : State :=
  match getCtx s n with
  | none => s
  | some c => if eOp c.entry == op && n < 4032 then advance s n (begunTick s) else s

/-! ### Source bytes (R511) -/

/-- Source bytes of one side: `b` block operations over fixed blocks, AAD and text, with the bytes that follow the
text read beside its last block. -/
def sideNeed (b fixed aad text tail : Nat) : Nat :=
  let aadB := ceilDiv aad 16
  let k := b - fixed
  if k < aadB then min aad (16 * k)
  else
    let t := min text (16 * (k - aadB))
    aad + t + (if t == text then tail else 0)

/-- Source bytes that the first `u` units of a command need. -/
def srcNeed (c : Ctx) (u : Nat) : Nat :=
  let e := c.entry
  let l := eLen e
  let b := 16 * u
  if u == 0 then 0
  else if u ≥ c.units then l
  else match eOp e with
    | 0x01 =>
      if cMode e == mdGcm then min l (sideNeed b 2 (cAad e) (cipherText e) (l - cAad e - cipherText e))
      else if cMode e == mdXts then min l (16 * (b - 1)) else min l (16 * b)
    | 0x02 =>
      let t := translateText e
      let fi := if tInMode e == mdGcm then 2 + ceilDiv (cAad e) 16 else 0
      let fo := if tOutMode e == mdGcm then 2 + ceilDiv (cAad e) 16 else 0
      let aad := if tInMode e == mdGcm then cAad e else 0
      if b ≤ fi + fo then min aad (16 * (b - 2))
      else
        let x := min t (16 * ceilDiv (b - fi - fo) 2)
        min l (aad + x + (if x == t then l - aad - t else 0))
    | 0x03 => min l (16 * b)
    | 0x04 => min l (sideNeed b 0 0 (l - macLen e) (macLen e))
    | 0x05 => min l (4 * u * (match bitsAt (eParam e) 0 4 with | 1 => 64 | 2 => 128 | 3 => 128 | 4 => 136 | 5 => 104 | _ => 72))
    | 0x08 => min l (48 * ceilDiv (128 * u) (fmtGrains (pInFmt e) + fmtGrains (pOutFmt e)))
    | 0x0A => min l (64 * ceilDiv (128 * u) (dukptGrains e))
    | 0x10 => min l (32 * (if kVaulted e then ceilDiv u 3 else if c.serial then ceilDiv b 30 else b))
    | 0x11 => min l (32 * (if kVaulted e then u else if c.serial then ceilDiv b 30 else b))
    | _ => l

/-- The units of a command whose source has arrived. -/
def unitsFed (c : Ctx) : Nat :=
  ((List.range (c.units + 1)).reverse.find? (fun u => srcNeed c u ≤ c.src.length)).getD 0

/-! ### Output bytes (R96, R134, R271) -/

/-- Output bytes of CIPHER after `b` block operations; bytes past its output are the zeros of a scrub. -/
def cipherOut (e : Bytes) (b : Nat) (failed : Bool) : Nat :=
  let m := cMode e
  let t := cipherText e
  let n := sideBlocks m t (cAad e)
  let fixed := if m == mdGcm then 2 + ceilDiv (cAad e) 16 else if m == mdXts then 1 else 0
  let enc := m == mdGcm && !cDecrypt e
  if ceilDiv b 16 < ceilDiv n 16 || b < n then min t (16 * (b - fixed))
  else
    t + (if enc then cTagLen e else 0) +
      (if failed && eScrub e then min t (256 * (ceilDiv b 16 - ceilDiv n 16)) else 0)

/-- Output bytes of CIPHER_TRANSLATE after `b` block operations. A GCM output begins with the copied AAD. -/
def translateOut (e : Bytes) (b : Nat) (failed : Bool) : Nat :=
  let t := translateText e
  let fi := if tInMode e == mdGcm then 2 + ceilDiv (cAad e) 16 else 0
  let fo := if tOutMode e == mdGcm then 2 + ceilDiv (cAad e) 16 else 0
  let n := sideBlocks (tInMode e) t (cAad e) + sideBlocks (tOutMode e) t (cAad e)
  let aad := if tOutMode e == mdGcm then cAad e else 0
  if b < n then
    if b ≤ fi + fo then min aad (16 * (b - fi - 2)) else aad + min t (16 * ((b - fi - fo) / 2))
  else
    aad + t + (if tOutMode e == mdGcm then tOutTag e else 0) +
      (if failed && eScrub e then min t (256 * (ceilDiv b 16 - ceilDiv n 16)) else 0)

/-- The tag of a command's input failed. -/
def tagFailed (c : Ctx) : Bool :=
  match c.result with
  | some r => r.status == stAuthFail
  | none => false

/-- Bytes of the destination that the drains up to tick `t` have written, scrub zeros counted after the output. -/
def drainTarget (c : Ctx) (t : Nat) : Nat :=
  let e := c.entry
  let u0 := if t == 0 then 0 else unitsThrough c (t - 1)
  let u := match c.fail with
    | some f => min u0 f.2
    | none => u0
  let batch := match c.result with
    | some r => if r.itemLen == 0 then 0 else r.dest.length
    | none => 0
  if c.refused || c.status != 0 then 0
  else match eOp e with
    | 0x01 => cipherOut e (16 * u) (tagFailed c)
    | 0x02 => translateOut e (16 * u) (tagFailed c)
    | 0x08 => batch
    | 0x0A => batch
    | 0x10 => batch
    | 0x11 => batch
    | _ => match c.result, c.fail with
      | some r, none => if c.release ≤ t then r.dest.length else 0
      | _, _ => 0

/-- The destination bytes as far as they can be computed: a cipher's output over the source that has arrived. -/
def outBytes (s : State) (c : Ctx) : Bytes :=
  match c.result with
  | some r => r.dest
  | none => match eOp c.entry with
    | 0x01 => (cipherResult c.entry (keyMatA s c) (cipherIv c)
        (padTo (eLen c.entry) c.src)).dest
    | 0x02 => (translateResult c.entry (keyMatA s c) (keyMatB s c) c.iv (padTo (eLen c.entry) c.src)).dest
    | _ => []

/-- Where a scrub's zeros begin in the destination. -/
def scrubBase (e : Bytes) : Nat := if eOp e == opTranslate && tOutMode e == mdGcm then cAad e else 0

/-- Bytes of a host access, from its start, whose pieces gate 14 allows (R272, R357): all of them, or those below the
first refused piece. -/
def linkPrefix (s : State) (slice : Nat) (k : Acc) : (fuel : Nat) → (a n : Nat) → Nat
  | 0, _, _ => 0
  | fuel + 1, a, n =>
    let m := min n (64 - a % 64)
    if n == 0 then 0
    else if linkCheck s slice a k != .allow then 0
    else m + linkPrefix s slice k fuel (a + m) (n - m)

/-- The failure of a command's plan-channel piece, in the shuttle's registers (R273). -/
def planFault (s : State) (slice bent status off : Nat) : State :=
  let s1 := setF (setF (setF (setFlag s Reg.SHT_FAULT_INFO_PLAN true) Reg.SHT_FAULT_INFO_CH (32 * bent))
    Reg.SHT_FAULT_INFO_STATUS status) Reg.SHT_FAULT_INFO_SLICE slice
  event (setF s1 Reg.SHT_FAULT_OFF_OFF off) Reg.SHT_EVT_FAULT

/-- The bent whose plan channels serve a command: that of the place of its first unit. -/
def ctxBent (c : Ctx) : Nat :=
  match c.place.head? with
  | some x => if c.cls == clNeedle then x / 3 else if c.cls == clPost then x / 4 else x % 8
  | none => 0

/-- A command fails with a status unless it has failed before; its units up to tick `t` have run. -/
def stopDst (c : Ctx) (status t : Nat) : Ctx :=
  if c.fail.isSome then c else { c with fail := some (status, unitsThrough c t) }

/-- Sends destination bytes of a context up to the first piece that gate 14 refuses; with `limit`, only those that find a
data link slot in this tick (R272). -/
def drainBytes (s : State) (n : Nat) (c : Ctx) (t off base : Nat) (limit : Bool) (b : Bytes) : State :=
  let a := base + off
  let fit := if limit then roomBytes (roomOut s c.gid) a b.length else b.length
  let m := linkPrefix s c.slice .write (fit / 64 + 2) a fit
  let k := pieceCount a m
  let s1 := if m == 0 then s else
    sentByBent (useOut (countPiece (sendHost s c.slice (pasidOf s c.slice c.queue) a (b.take m)) (8 + ctxBent c) 0 k) c.gid k)
      (ctxBent c)
  let c1 := { c with drained := c.drained + m, drainFrom := if m == 0 then c.drainFrom else c.drained }
  if m == fit then setCtx (shortPieces s1 (pieceCount a b.length - pieceCount a fit)) n c1
  else
    let s2 := countF (planFault (linkAccess s1 c.slice (a + m) .write).2 c.slice (ctxBent c) 3 (off + m)) Reg.SHT_GATE_CNT_N 1
    setCtx s2 n (stopDst { c1 with dstStop := true } stGate t)

/-- The host rejected the last destination write of a context: what it wrote does not count, and no further destination
byte is written (R77, R273, R458). The completion of a command released meanwhile says so. -/
def dstFails (n : Nat) (s : State) : State :=
  match getCtx s n with
  | none => s
  | some c =>
    if 4032 ≤ n || c.dstStop || c.drained == 0 || c.phase == .written then s
    else
      let s1 := countF (planFault s c.slice (ctxBent c) 5 c.drainFrom) Reg.SHT_HOST_CNT_N 1
      let c1 := { c with drained := c.drainFrom, dstStop := true }
      let s2 := setCtx (countReg s1 Reg.HQ_HOSTERR 1) n (stopDst c1 stHostAccess s.tick.count)
      { s2 with compls := s2.compls.map (fun e => if e.ctx == some n then
          { e with status := stHostAccess, partialOut := c1.drained != 0, len := c1.drained } else e) }

/-- Writes the destination bytes that are due by tick `t`. -/
def drainCtx (limit : Bool) (s : State) (n t : Nat) : State :=
  match getCtx s n with
  | none => s
  | some c =>
    let want := drainTarget c t
    if c.phase != .running || want ≤ c.drained || c.dstStop then s
    else
      let full := outBytes s c
      let s1 := if c.drained < min want full.length then
          drainBytes s n c t c.drained (eDst c.entry) limit ((full.take want).drop c.drained)
        else s
      match getCtx s1 n with
      | none => s1
      | some c1 =>
        if c1.drained < min want full.length || want ≤ full.length then s1
        else
          let z := c1.drained - full.length
          drainBytes s1 n c1 t z (eDst c.entry + scrubBase c.entry) limit (zeros (want - full.length - z))

/-- The prefix of the destination that has been written. -/
def writtenPrefix (s : State) (c : Ctx) : Nat :=
  min c.drained (if c.result.isSome then (outBytes s c).length else c.drained)

end Sys2Proof.Machine
end

