-- ==== Sys2Proof/Machine/Entropy.lean ====
section
/-!
DEFINITION. The entropy block (11_entropy): the health tests, start-up and first seeding, the root and child DRBGs,
mask seeds, and reads of RNG_DATA. The raw bits of the cells are free values (notes/assumptions/4.md).
-/
namespace Sys2Proof.Machine
open Sys2Proof

def setRng (s : State) (r : Rng) : State := { s with rng := r }

/-! ### Mask seeds and children (R133, R262) -/

/-- The mask flags of the needle, legacy TDES and purlin pages; one that falls sets the page's event. -/
def maskSync (s : State) : State :=
  let put := fun (s : State) (f e : Fld) =>
    let s1 := setFlag s f s.rng.masks
    if flag s f && !s.rng.masks then event s1 e else s1
  put (put (put s Reg.NDL_STAT_MASK_OK Reg.NDL_EVT_MASK_LOST) Reg.LDU_STAT_MASK_OK Reg.LDU_EVT_MASK_LOST)
    Reg.PUR_STAT_MASK_OK Reg.PUR_EVT_MASK_LOST

/-- The conditioner's output over an input (R256). -/
def conditioned (raw : Bytes) : Bytes := sha256 raw

/-- Every 8 ticks the conditioner has gathered 256 bits of each cell, none of them after a health failure; the two latest
inputs are kept, and condensed when a seed needs them (R256, R259; the gathering ticks: notes/assumptions/91.md). -/
def gatherRaw (s : State) : State :=
  if s.rng.failTick.isSome || s.tick.count % 8 != 7 || s.tick.count < 1536 then s
  else
    let d := drawBytes 128 s
    setRng d.2 { d.2.rng with raw := (d.1 :: s.rng.raw).take 2 }

/-- The seeds of a list of children: one that stands is reseeded, another instantiated. -/
def seedEach (ds : List (Nat × Drbg)) : List (Nat × Bytes) → List (Nat × Drbg)
  | [] => ds
  | (who, seed) :: rest =>
    seedEach (tinsert who (match tfind ds who with
      | some d => drbgUpdate d seed
      | none => drbgNew seed) ds) rest

/-- The children that a kerf's four seeds go to: the service children, then groups that wait in order of their global
number, then the round robin over all that live. -/
def seedChildren (r : Rng) (seeds : List Bytes) : Rng :=
  let first := if r.services then [] else [childVault, childLms, childPosts]
  let new := r.wanting.take (4 - first.length)
  let live := r.children ++ [childVault, childLms, childPosts]
  let again := 4 - first.length - new.length
  let turns := (List.range again).map (fun i => live.getD ((r.turn + i) % live.length) childVault)
  { r with services := true, children := r.children ++ new, wanting := r.wanting.drop new.length
           drbgs := seedEach (r.drbgs.filter (fun d => !new.contains d.1 && !first.contains d.1)) ((first ++ new ++ turns).zip seeds)
           turn := (r.turn + again) % live.length }

/-- A tick's Generate request of the root, 93 blocks: 40 mask seeds, 4 child seeds, 4 words for RNG_DATA (R261). -/
def rootGenerate (r : Rng) : Rng :=
  let g := drbgGenerate r.root 1488
  let seeds := (List.range 4).map (fun i => sub g.1 (1280 + 48 * i) 48)
  { seedChildren r seeds with
    root := g.2, masks := true, maskSeeds := chunks 32 (g.1.take 1280)
    words := (List.range 4).map (fun i => BitVec.ofNat 32 (leAt g.1 (1472 + 4 * i) 4)) }

/-- Step 8: the conditioner's part of the tick; then mask seeds and child seeds, from a root that is seeded and healthy. -/
def kerfReseed (s0 : State) : State :=
  let s := gatherRaw s0
  if s.rng.seeded && s.rng.failTick.isNone then childSync (maskSync (setRng s (rootGenerate s.rng)))
  else childSync (maskSync (setRng s { s.rng with masks := false, maskSeeds := [], words := [] }))

/-! ### A health failure (R258, R265) -/

/-- The last tick of the work of a command that needs masks, vault slots or a child. -/
def entropyEnd (c : Ctx) : Nat := if compUnits c.entry != 0 then endTick c else c.lastTick

/-- A command that still holds such work after the tick of the failure ends with ST_ENTROPY_FAILED, and so does a
SELFTEST whose suite has not ended. -/
def entropyCut (s : State) (n : Nat) (c : Ctx) : State :=
  let t := s.tick.count
  let suite := match s.tick.fence with
    | some f => f.ctx == n
    | none => false
  if n < 4032 && working c && needsEntropy c.entry && (suite || t < entropyEnd c) then
    setCtx s n { c with fail := some (stEntropyFailed, unitsThrough c t) }
  else s

/-- A shuttle channel that reads RNG_DATA has its word. -/
def chanAnswered (s : State) (init : Nat) (w : Word) : State :=
  match tfind s.rng.chanReads init with
  | some _ => setRng s { s.rng with chanReads := tinsert init (some w) s.rng.chanReads }
  | none => s

/-- The value of a held read of RNG_DATA reaches its initiator: for a post the register that the read loads, for a shuttle
channel its read piece. -/
def replyRng (s : State) (init : Nat) (w : Word) : State :=
  let s1 := emit (chanAnswered s init w) (.readReply init Reg.RNG_DATA w)
  let x := tget (Post.reset init) s1.posts init
  match x.held with
  | none => s1
  | some rd =>
    let y := { x with held := none, g := if rd % 32 == 0 then x.g else tput 0#32 x.g (rd % 32) w }
    { s1 with posts := tput (Post.reset init) s1.posts init y }

/-- Every reader that waits on RNG_DATA gets zero. -/
def answerWaiting (s : State) : State :=
  let r := s.rng.waiting.foldl (fun s i => replyRng s i 0#32) s
  setRng r { r.rng with waiting := [], fifo := [], words := [] }

/-- A health failure: output stops, the failure is recorded, and what the failure cuts off ends. -/
def healthFailed (s : State) (cells cause : Nat) : State :=
  if s.rng.failTick.isSome then s
  else
    let s1 := answerWaiting s
    let s2 := setFlag (setFlag (setFlag s1 Reg.RNG_STAT_ERR true) Reg.RNG_STAT_FAILED true) Reg.RNG_STAT_READY false
    let s3 := setF (setF (setFlag s2 Reg.RNG_FAIL_STARTUP (!s.rng.seeded)) Reg.RNG_FAIL_CELLS cells) Reg.RNG_FAIL_CAUSE cause
    let s4 := event (setReg s3 Reg.RNG_FAIL_TICK (BitVec.ofNat 32 s.tick.count)) Reg.RNG_EVT_FAIL
    let s5 := setRng s4 { s4.rng with failTick := some s.tick.count }
    s5.ctxs.foldl (fun s c => entropyCut s c.1 c.2) s5

/-- A health failure that the entropy block finds: RNG_HEALTH fires, once. -/
def healthFailure (s : State) (cells cause : Nat) : State :=
  if s.rng.failTick.isSome then s else firePlain (healthFailed s cells cause) srcRngHealth none

/-- Cells of a window whose measure is out of bounds, as a mask. -/
def failMask (ok : Nat × Nat → Bool) (m : List (Nat × Nat)) : Nat :=
  (List.range 4).foldl (fun n i => match m[i]? with
    | some x => if ok x then n else n + 2 ^ i
    | none => n) 0

def aliveOk (x : Nat × Nat) : Bool := 1792 ≤ x.1 && x.1 ≤ 2304
def lockOk (x : Nat × Nat) : Bool := 4 ≤ x.1 && 2 ≤ x.2
def aptOk (x : Nat × Nat) : Bool := x.1 < 832

/-- What a window leaves in a cell's last readings. -/
def cellMeasure (kind : Nat) (c : Cell) (x : Nat × Nat) : Cell :=
  if kind == 0 then { c with trans := x.1 % 8192, run := min x.2 255 }
  else if kind == 1 then { c with phaseVals := min x.1 64 }
  else { c with apt := max c.apt (min x.1 2047) }

/-- A window that every cell passed is counted towards start-up. -/
def windowPassed (r : Rng) (kind : Nat) : Rng := { r with windows := bumpAt r.windows kind 1 }

/-- HEALTH_TEST_WINDOW: windows of one kind end on the four cells: 0 alive (transitions, longest run), 1 not locked
(distinct beat counts, their span), 2 adaptive proportion (count). Cells that settle are not tested; the tests go on after
a failure. -/
def healthWindowEffect (kind : Nat) (m : List (Nat × Nat)) (s : State) : State :=
  if s.tick.count < 512 || s.faults.safe || 2 < kind then s
  else
    let cells := (List.range 4).foldl (fun cs i => match m[i]? with
      | some x => tinsert i (cellMeasure kind (tget Cell.zero cs i) x) cs
      | none => cs) s.rng.cells
    let bad := failMask (if kind == 0 then aliveOk else if kind == 1 then lockOk else aptOk) m
    let s1 := setRng s { s.rng with cells := cells }
    if bad == 0 then (if 4 ≤ m.length then setRng s1 (windowPassed s1.rng kind) else s1)
    else healthFailure s1 bad (if kind == 2 then 4 else kind + 1)

def execHealthTestWindow (kind : Nat) (m : List (Nat × Nat)) (s : State) : Host.Outcome State Fault Refusal :=
  .next (healthWindowEffect kind m s)

/-- REPETITION_COUNT_FAILURE: cells, as a mask, reach 81 equal bits in a row. -/
def repetitionEffect (cells : Nat) (s : State) : State :=
  if s.tick.count < 512 || s.faults.safe || cells % 16 == 0 then s else healthFailure s (cells % 16) 3

def execRepetitionCountFailure (cells : Nat) (s : State) : Host.Outcome State Fault Refusal :=
  .next (repetitionEffect cells s)

/-! ### Start-up (R259) -/

/-- Every test has passed on 32,768 samples of each cell: 8 windows of 4,096 samples, 32 of 1,024 (R259). -/
def startupPassed (r : Rng) : Bool :=
  8 ≤ tget 0 r.windows 0 && 8 ≤ tget 0 r.windows 1 && 32 ≤ tget 0 r.windows 2 && r.raw.length == 2

/-- The silicon serial that fuses hold (notes/assumptions/6.md). -/
def siliconSerial : Bytes := padTo 16 (Config.deviceSecret 6)

/-- The root's first state: entropy input, nonce and personalisation string through the derivation function (R260). -/
def rootInstance (r : Rng) : Drbg :=
  drbgNew (drbgDf (conditioned (r.raw.getD 1 []) ++ (conditioned (r.raw.headD [])).take 16 ++ siliconSerial))

/-- The root is instantiated: the first mask seeds and the service children, READY. -/
def firstSeed (s : State) : State :=
  let s1 := setFlag (setFlag (setFlag s Reg.RNG_STAT_READY true) Reg.RNG_STAT_ERR false) Reg.RNG_STAT_STARTUP false
  let s2 := event (setRng s1 { s1.rng with seeded := true, root := rootInstance s1.rng }) Reg.RNG_EVT_READY
  childSync (maskSync (setRng s2 (rootGenerate s2.rng)))

/-- RNG_FIRST_SEEDING: the known-answer tests of the conditioner and the root DRBG end. A failure is a health failure, at
start-up and later. Where they pass and the cells have passed theirs, the root is seeded in the kerf of tick 1,551. -/
def firstSeedingEffect (katOk : Bool) (s : State) : State :=
  if s.faults.safe || s.boot.held then s
  else if !katOk then (if 1536 ≤ s.tick.count then healthFailure s 0 5 else s)
  else inKerf (fun s =>
    if s.rng.seeded || s.rng.failTick.isSome || s.tick.count != 1551 || !startupPassed s.rng then s else firstSeed s) s

def execRngFirstSeeding (katOk : Bool) (s : State) : Host.Outcome State Fault Refusal :=
  .next (firstSeedingEffect katOk s)

/-- A reseed of the root from a fresh conditioner output; an output serves one seed. -/
def rootReseeded (r : Rng) : Rng :=
  { r with root := drbgUpdate r.root (drbgDf (conditioned (r.raw.headD []))), raw := r.raw.drop 1 }

/-- ROOT_RESEED: in the kerf of a tick of 2^10 − 1 modulo 2^10, once. -/
def rootReseedEffect (s : State) : State :=
  let n := (getReg s Reg.RNG_RESEEDS).toNat
  if s.rng.seeded && s.rng.failTick.isNone && s.tick.count % 1024 == 1023 && n + 1 < (s.tick.count + 1) / 1024 then
    countReg (setRng s (rootReseeded s.rng)) Reg.RNG_RESEEDS 1
  else s

def execRootReseed (s : State) : Host.Outcome State Fault Refusal := .next (inKerf rootReseedEffect s)

/-! ### RNG_DATA and RNG_RAW (R264, R267) -/

def rngErr (s : State) : Bool := flag s Reg.RNG_STAT_ERR

/-- Serves held reads from the FIFO, in arrival order. -/
def serveReads : (n : Nat) → State → State
  | 0, s => s
  | n + 1, s =>
    match s.rng.waiting, s.rng.fifo with
    | i :: is, w :: ws =>
      serveReads n (replyRng (setRng s { s.rng with waiting := is, fifo := ws }) i w)
    | _, _ => s

/-- The root refills the FIFO of 16 words with the four words of the last kerf's Generate request. -/
def refillRng (s : State) : State :=
  if rngErr s || !s.rng.seeded then s
  else serveReads 16 (setRng s { s.rng with fifo := (s.rng.fifo ++ s.rng.words).take 16, words := [] })

/-- RNG_DATA_READ: a read that the gates allow (R264). -/
def rngReadEffect (init : Nat) (s0 : State) : State :=
  let g := access s0 init (regAddr Reg.RNG_DATA) .read
  let s := g.2
  if !g.1 then s
  else if rngErr s then emit s (.readReply init Reg.RNG_DATA 0#32)
  else serveReads 1 (setRng s { s.rng with waiting := s.rng.waiting ++ [init] })

def execRngDataRead (init : Nat) (s : State) : Host.Outcome State Fault Refusal := .next (rngReadEffect init s)

/-- RNG_DATA_TIMEOUT: the oldest held read returns zero. -/
def rngTimeoutEffect (s : State) : State :=
  match s.rng.waiting with
  | [] => s
  | i :: is =>
    let s1 := replyRng (setRng s { s.rng with waiting := is }) i 0#32
    event (countF s1 Reg.RNG_UNDER_N 1) Reg.RNG_EVT_UNDER

def execRngDataTimeout (s : State) : Host.Outcome State Fault Refusal := .next (rngTimeoutEffect s)

/-- RNG_RAW_READ: 32 new samples of the tapped cell, zero with the tap off. -/
def rngRawEffect (init : Nat) (bits : Word) (s : State) : State :=
  emit s (.readReply init Reg.RNG_RAW (if flag s Reg.RNG_RAW_SEL_EN then bits else 0#32))

def execRngRawRead (init : Nat) (bits : Word) (s : State) : Host.Outcome State Fault Refusal :=
  .next (rngRawEffect init bits s)

/-- The selected cell's words; a read of RNG_CELL1 starts a new largest proportion. -/
def rngCell (s : State) : Cell := tget Cell.zero s.rng.cells (getF s Reg.RNG_CELL_SEL_CELL)
def rngCell0View (s : State) : Word := BitVec.ofNat 32 ((rngCell s).trans + (rngCell s).phaseVals * 2 ^ 16)
def rngCell1View (s : State) : Word := BitVec.ofNat 32 ((rngCell s).run + (rngCell s).apt * 2 ^ 16)
def rngCell1Read (s : State) : State :=
  setRng s { s.rng with cells := tinsert (getF s Reg.RNG_CELL_SEL_CELL) { rngCell s with apt := 0 } s.rng.cells }

end Sys2Proof.Machine
end

