-- ==== Sys2Proof/Machine/Sill.lean ====
section
/-!
DEFINITION. The sill registers (19_nonvolatile R411–R415, R417): the queue of writes, its two batches, the write
counters and their limit.
-/
namespace Sys2Proof.Machine
open Sys2Proof

/-- The write counter of a register. -/
def silCount (s : State) (n : Nat) : Nat := tget 0 s.nv.silCnt n

/-- A register at its limit is read-only (R414). -/
def silLimit : Nat := 1000000

/-- A bank of the NV die by number. -/
def getBank (s : State) (b : Nat) : FBank := if b == 0 then s.nv.bank0 else s.nv.bank1
def setBank (s : State) (b : Nat) (x : FBank) : State :=
  if b == 0 then setNv s { s.nv with bank0 := x } else setNv s { s.nv with bank1 := x }

/-- FLS_BANK and FLS_STAT follow what the banks do. A sill batch is a program on bank 0. -/
def flashSync (s : State) : State :=
  let b0 := s.nv.bank0
  let b1 := s.nv.bank1
  let sil := !s.nv.silProg.isEmpty
  let op0 := if sil then 1 else b0.op
  let busy := fun (o : Nat) => b2n (o == 1 || o == 2)
  let s1 := setF (setF s Reg.FLS_BANK_OP0 op0) Reg.FLS_BANK_BLK0 b0.block
  let s2 := setF (setF s1 Reg.FLS_BANK_OP1 b1.op) Reg.FLS_BANK_BLK1 b1.block
  let s3 := setF s2 Reg.FLS_STAT_BUSY (busy op0 + 2 * busy b1.op)
  setF s3 Reg.FLS_STAT_SUSP (b2n (b0.op == 3 || b0.saved.isSome) + 2 * b2n (b1.op == 3 || b1.saved.isSome))

/-- A class 1 or 2 request suspends an erase of its bank (R404); the suspension ends at once in the model
(notes/assumptions/11.md). -/
def autoSuspend (s : State) (b : Nat) : State :=
  let x := getBank s b
  if x.op == 2 then event (flashSync (setBank s b { x with op := 3, auto := true })) Reg.FLS_EVT_SUSPENDED else s

/-- The erase that the controller itself suspended resumes. -/
def autoResume (s : State) (b : Nat) : State :=
  let x := getBank s b
  if x.op == 3 && x.auto then flashSync (setBank s b { x with op := 2, auto := false }) else s

/-- A program of class 1 or 2 on a bank: an erase that runs there is suspended for it and resumes (R131, R404). -/
def programNow (b : Nat) (f : State → State) (s : State) : State := autoResume (f (autoSuspend s b)) b

/-- SIL_STAT follows the queue. -/
def silSync (s : State) : State :=
  let q := s.nv.silWait.length + s.nv.silProg.length
  setFlag (setF s Reg.SIL_STAT_QUEUED q) Reg.SIL_STAT_FULL (s.nv.silWait.length ≥ 8)

/-- The waiting batch becomes the programming batch when bank 0 can be programmed. -/
def silStart (s : State) : State :=
  if s.nv.silProg.isEmpty && !s.nv.silWait.isEmpty && s.nv.bank0.op != 1 && !s.faults.flashHalted then
    let s1 := autoSuspend s 0
    flashSync (silSync (setNv s1 { s1.nv with silProg := s1.nv.silWait, silWait := [] }))
  else silSync s

/-- A dropped write (R412). -/
def silDrop (s : State) : State := event (countF s Reg.SIL_DROP_N 1) Reg.SIL_EVT_FULL

/-- SIL_LIMIT with the register's index in the record's address (R414). -/
def fireSilLimit (s : State) (n : Nat) : State :=
  fire s { FireArgs.plain srcSilLimit none with addr := n }

/-- A write to a register from its owner: queued, replacing a value not yet begun, or dropped. -/
def silStore (s : State) (n : Nat) (v : Word) : State :=
  let nv := s.nv
  if !flag s Reg.SIL_STAT_READY then silDrop s
  else if silCount s n ≥ silLimit then
    let s1 := silDrop s
    if nv.silTold.contains n then s1
    else fireSilLimit (setNv s1 { s1.nv with silTold := n :: s1.nv.silTold }) n
  else if nv.silWait.any (fun x => x.1 == n) then
    setNv s { nv with silWait := nv.silWait.map (fun x => if x.1 == n then (n, v) else x) }
  else if nv.silWait.length ≥ 8 then silDrop s
  else silStart (setNv s { nv with
    silWait := nv.silWait ++ [(n, v)]
    silAt := if (tfind nv.silAt n).isSome then nv.silAt else tinsert n s.tick.count nv.silAt })

/-- Registers at their limit (SIL_LIMIT_CNT). -/
def silLimited (s : State) : Nat := (s.nv.silCnt.filter (fun x => x.2 ≥ silLimit)).length

/-- One record programmed and verified: the new value and counter, and the limit. Register 1 holds the IV counter's reservation, at
whose limit device-built IVs end (R129, R142). -/
def silPersist (s : State) (x : Nat × Word) : State :=
  let c := silCount s x.1 + 1
  let s1 := { s with sill := tput (0#32) s.sill x.1 x.2 }
  let s2 := sillPut (setNv s1 { s1.nv with silCnt := tput 0 s1.nv.silCnt x.1 c, silAt := terase x.1 s1.nv.silAt }) x.1 x.2 c
  let s3 := if x.1 == 1 then event s2 Reg.NDL_EVT_IV_RSV else s2
  if c ≥ silLimit then
    let s4 := if x.1 == 1 then setFlag s3 Reg.NDL_STAT_IV_OK false else s3
    fireSilLimit (event (setFlag s4 Reg.SIL_STAT_LIMIT true) Reg.SIL_EVT_LIMIT) x.1
  else s3

/-- A batch is programmed and verified: its registers take their values, the next batch starts, or the erase it
suspended resumes. -/
def silBatchDone (s : State) : State :=
  if s.nv.silProg.isEmpty then s
  else
    let batch := s.nv.silProg
    let s1 := batch.foldl silPersist (setNv s { s.nv with silProg := [] })
    let s2 := silStart s1
    if s2.nv.silProg.isEmpty then autoResume (flashSync s2) 0 else s2

/-- A write of the programming batch was accepted 157 ticks ago or more: 200 µs at the fastest step (R412). -/
def silOverdue (s : State) : Bool := s.nv.silProg.any (fun x =>
  match tfind s.nv.silAt x.1 with
  | some t => t + 157 ≤ s.tick.count
  | none => false)

/-- A batch whose completion is due ends by itself in the kerf, and the next one after it. -/
def kerfSill (s : State) : State :=
  let s1 := if silOverdue s then silBatchDone s else s
  if silOverdue s1 then silBatchDone s1 else s1

/-- Whether a write of the register is pending (SIL_PEND). -/
def silPending (s : State) (n : Nat) : Bool :=
  s.nv.silWait.any (fun x => x.1 == n) || s.nv.silProg.any (fun x => x.1 == n)

/-- SILL_WRITE: a store to SIL_REGn. Registers 0–15 belong to the device (R415). -/
def sillWriteEffect (reg : Nat) (v : Word) (s : State) : State :=
  if reg ≥ 512 then s else if reg < 16 then silDrop s else silStore s reg v

def execSillWrite (reg : Nat) (v : Word) (s : State) : Host.Outcome State Fault Refusal :=
  .next (sillWriteEffect reg v s)

/-- SILL_BATCH_DONE. -/
def execSillBatchDone (s : State) : Host.Outcome State Fault Refusal := .next (silBatchDone s)

end Sys2Proof.Machine
end

