-- ==== Sys2Proof/Machine/Flash.lean ====
section
/-!
DEFINITION. The flash controller (19_nonvolatile R400–R410, R416): partitions, units, FLS_CMD, the reset scan, reads of
the flash window, and what a power loss, a reset and the safe state leave. The log
partitions are kept by their owners; their bytes in the window are free values (notes/assumptions/19.md).
-/
namespace Sys2Proof.Machine
open Sys2Proof

/-! ### Blocks and partitions (R400, R401) -/

/-- The partition code of a block. -/
def flashPart (block : Nat) : Nat :=
  if block < 512 then 0
  else if block < 1536 then 2
  else if block < 1648 then 9
  else if block < 1664 then 8
  else if block < 1920 then 7
  else if block < 2048 then 6
  else if block < 2560 then 1
  else if block < 3584 then 3
  else if block < 3840 then 4
  else 5

def bankOf (block : Nat) : Nat := block / 2048

/-- The image that register 5 of the sill selects (R445): 0 A, 1 B. -/
def activeImage (s : State) : Nat := sillVal s 5 % 2

/-- FLS_CMD may write the partition of a block. -/
def flsWritable (s : State) (block : Nat) : Bool :=
  let p := flashPart block
  p == 2 || (p == 0 && activeImage s != 0) || (p == 1 && activeImage s != 1) || (p == 9 && lcyState s == 1)

/-! ### What a block is doing -/

/-- An erase is suspended on the block. -/
def blockSuspended (s : State) (block : Nat) : Bool :=
  let b := getBank s (bankOf block)
  (b.op == 3 && b.block == block) || (match b.saved with | some x => x.1 == block | none => false)

def blockErasing (s : State) (block : Nat) : Bool :=
  let b := getBank s (bankOf block)
  b.op == 2 && b.block == block

/-- A program runs on the bank; a sill batch is one on bank 0. -/
def bankProgramming (s : State) (bank : Nat) : Bool :=
  (getBank s bank).op == 1 || (bank == 0 && !s.nv.silProg.isEmpty)

/-! ### Reads of the window (R405, R406) -/

/-- The block lies in the execute-only range. -/
def blockXo (s : State) (block : Nat) : Bool :=
  flag s Reg.FLS_XO_EN && getF s Reg.FLS_XO_FIRST ≤ block && block ≤ getF s Reg.FLS_XO_LAST

/-- The kind of the status word that a read of a flash offset receives; none where it receives data. -/
def flashKind (s : State) (off : Nat) (fetch : Bool) : Option Nat :=
  let block := off / 65536 % 4096
  let bank := bankOf block
  if bankProgramming s bank then some 1
  else if (getBank s bank).op == 2 then some 2
  else if blockSuspended s block then some 3
  else if (getBlock s block).indet then some 4
  else if blockXo s block && !fetch then some 5
  else if getUnit s (off / 32) == .torn then some 6
  else none

/-- The status word (R405). -/
def statusWord (off kind : Nat) : Word :=
  let block := off / 65536 % 4096
  BitVec.ofNat 32 (0xFB * 2 ^ 24 + kind * 2 ^ 20 + bankOf block * 2 ^ 16 + block)

/-- A torn unit was read. -/
def countUe (s : State) (kind : Nat) : State :=
  if kind == 6 then event (countF s Reg.FLS_ECC_UE_N 1) Reg.FLS_EVT_ECC_UE else s

/-- Partitions whose bytes the model does not keep. -/
def partAbstract (p : Nat) : Bool := 3 ≤ p && p ≤ 8

/-- `n` bytes of data at an offset, within one unit. -/
def unitBytes (s : State) (off n : Nat) : Bytes × State :=
  let p := flashPart (off / 65536 % 4096)
  match getUnit s (off / 32) with
  | .data b => (sub b (off % 32) n, s)
  | .zeroed => (zeros n, s)
  | .torn => drawBytes n s
  | .erased => if partAbstract p || p == 9 then drawBytes n s else (List.replicate n 0xFF, s)

/-- `n` bytes from an offset, unit by unit; `fuel` bounds the units. -/
def flashBytes : (fuel : Nat) → State → (off n : Nat) → Bytes × State
  | 0, s, _, _ => ([], s)
  | fuel + 1, s, off, n =>
    if n == 0 then ([], s)
    else
      let k := min n (32 - off % 32)
      let a := unitBytes s off k
      let b := flashBytes fuel a.2 (off + k) (n - k)
      (a.1 ++ b.1, b.2)

/-! ### FLS_CMD (R403, R404) -/

/-- A request reached DONE or ERROR. -/
def flsEnd (s : State) (err : Nat) : State :=
  let s1 := setF (setF s Reg.FLS_CMD_STAT_STATE (if err == 0 then 2 else 3)) Reg.FLS_CMD_STAT_ERR err
  raiseMgmt (event s1 Reg.FLS_EVT_CMD_DONE) 3

def flsBusy (s : State) : Bool := getF s Reg.FLS_CMD_STAT_STATE == 1
def flsSetBusy (s : State) : State := setF (setF s Reg.FLS_CMD_STAT_STATE 1) Reg.FLS_CMD_STAT_ERR 0

def flsOff (s : State) : Nat := getF s Reg.FLS_ADDR_OFF
def flsSrc (s : State) : Nat := (getReg s Reg.FLS_SRC).toNat

/-- The on-chip source: the controller reads memories, each granule at its gate. -/
def srcRefused (s : State) (n : Nat) : Option Nat :=
  ((List.range (ceilDiv (flsSrc s % 64 + n) 64)).map (fun i => flsSrc s / 64 * 64 + 64 * i)).find? (fun a =>
    gateOf initFlash a > 10 || fixedDenial initFlash a)

/-- A program starts on its bank, ahead of an erase suspended there. -/
def startProgram (s : State) (block : Nat) (units : List (Nat × FUnit)) : State :=
  let b := getBank s (bankOf block)
  let saved := if b.op == 3 then some (b.block, b.cmd, b.auto, b.attempts) else none
  flashSync (setBank s (bankOf block) ⟨1, block, units, true, false, 0, saved⟩)

def startErase (s : State) (block : Nat) : State :=
  flashSync (setBank (openErase s block) (bankOf block) ⟨2, block, [], true, false, 1, none⟩)

/-- A request starts, or waits for its bank: a program while one or an erase runs, an erase while anything does. -/
def flsIssue (s : State) (block : Nat) (units : List (Nat × FUnit)) (erase : Bool) : State :=
  let b := getBank s (bankOf block)
  let held := bankProgramming s (bankOf block) || b.op == 2 || (erase && b.op != 0)
  if held then setNv s { s.nv with wait := some (block, units, erase) }
  else if erase then startErase s block
  else startProgram s block units

/-- The request that waited starts where its bank is free. -/
def flsNext (s : State) : State :=
  match s.nv.wait with
  | none => s
  | some (block, units, erase) => flsIssue (setNv s { s.nv with wait := none }) block units erase

/-- Units of a program request with what they take: data of the source, or zeros. -/
def flsUnits (s : State) (op : Nat) : List (Nat × FUnit) :=
  (List.range (if op == 1 then 8 else 1)).map (fun i =>
    (flsOff s / 32 + i, if op == 6 then FUnit.zeroed else FUnit.data (memRead s (memAddr initFlash (flsSrc s) + 32 * i) 32)))

/-- Every unit that a request covers is in the state it needs. -/
def flsTargetOk (s : State) (op : Nat) : Bool :=
  (flsUnits s op).all (fun u => match getUnit s u.1 with
    | .erased => op != 6
    | .data _ => op == 6
    | _ => false)

/-- The error of a program or erase request; 0 where it has none. -/
def flsError (s : State) (op : Nat) : Nat :=
  let off := flsOff s
  let block := off / 65536
  if (op == 1 && off % 256 != 0) || (op != 3 && off % 32 != 0) then 4
  else if !flsWritable s block then 1
  else if blockSuspended s block || blockErasing s block || (op != 3 && (getBlock s block).indet) then 2
  else if op != 3 && !flsTargetOk s op then 3
  else if (op == 1 || op == 2) && (srcRefused s (if op == 1 then 256 else 32)).isSome then 5
  else 0

/-- A refused source read raises the gate's own source. -/
def flsRefuse (s : State) (op : Nat) : State :=
  match srcRefused s (if op == 1 then 256 else 32) with
  | some a => flsEnd (refuseAccess s (gateOf initFlash a) initFlash a 1 false none .deny) 5
  | none => flsEnd s 5

/-- A program, zeroing or erase request. -/
def flsRequest (s : State) (op : Nat) : State :=
  let e := flsError s op
  if e == 5 then flsRefuse s op
  else if e != 0 then flsEnd s e
  else flsIssue (flsSetBusy s) (flsOff s / 65536) (if op == 3 then [] else flsUnits s op) (op == 3)

/-- The bank with an FLS_CMD erase that runs, or that was suspended on request. -/
def eraseBank (s : State) (op : Nat) : Option Nat :=
  [0, 1].find? (fun k => (getBank s k).op == op && (getBank s k).cmd && !(getBank s k).auto)

/-- SUSPEND: the request ends, and the erase waits for RESUME (notes/assumptions/20.md). -/
def flsSuspend (s : State) : State :=
  match eraseBank s 2 with
  | some k => flsEnd (event (flashSync (setBank s k { getBank s k with op := 3 })) Reg.FLS_EVT_SUSPENDED) 0
  | none => if flsBusy s then s else flsEnd s 7

/-- RESUME: the erase runs on, and the request ends with it. -/
def flsResume (s : State) : State :=
  if flsBusy s then s
  else match eraseBank s 3 with
    | some k => if bankProgramming s k then flsEnd s 7 else flsSetBusy (flashSync (setBank s k { getBank s k with op := 2 }))
    | none => flsEnd s 7

/-- A write of GO. A halted controller refuses, with an error code that no rule gives (notes/assumptions/4.md). -/
def flsGo (s0 : State) (op : Nat) : State :=
  let s := setF s0 Reg.FLS_CMD_OP op
  if s.faults.safe then s0
  else if op == 4 && flag s Reg.FLS_STAT_READY then flsSuspend s
  else if flsBusy s then s0
  else if s.faults.flashHalted then
    let d := drawBelow 16 s
    setF (flsEnd d.2 1) Reg.FLS_CMD_STAT_ERR d.1
  else if !flag s Reg.FLS_STAT_READY then flsSetBusy s
  else if op == 5 then flsResume s
  else if op == 0 || 6 < op then flsEnd s 8
  else flsRequest s op

def execProgramPage (s : State) : Host.Outcome State Fault Refusal := .next (flsGo s 1)
def execProgramUnit (s : State) : Host.Outcome State Fault Refusal := .next (flsGo s 2)
def execErase (s : State) : Host.Outcome State Fault Refusal := .next (flsGo s 3)
def execSuspend (s : State) : Host.Outcome State Fault Refusal := .next (flsGo s 4)
def execResume (s : State) : Host.Outcome State Fault Refusal := .next (flsGo s 5)
def execZeroUnit (s : State) : Host.Outcome State Fault Refusal := .next (flsGo s 6)

/-! ### Ends of operations -/

/-- The bank is free: a suspended erase shows again, sill writes that wait go first, then the waiting request, then
an erase that the controller suspended. -/
def bankFree (s : State) (k : Nat) : State :=
  let b := getBank s k
  let s1 := flashSync (setBank s k (match b.saved with
    | some (blk, cmd, auto, n) => ⟨3, blk, [], cmd, auto, n, none⟩
    | none => FBank.idle))
  let s2 := if k == 0 then silStart s1 else s1
  if k == 0 && !s2.nv.silProg.isEmpty then s2 else autoResume (flsNext s2) k

/-- FLASH_PROGRAM_DONE: the units take what was programmed; a program that verifies badly leaves units that no rule
fixes. -/
def flashProgramDoneEffect (k : Nat) (ok : Bool) (s : State) : State :=
  let b := getBank s k
  if b.op != 1 || 1 < k then s
  else
    let s1 := b.units.foldl (fun s u =>
      if ok then setUnit s u.1 u.2
      else
        let d := drawBytes 32 s
        setUnit d.2 u.1 (.data d.1)) s
    bankFree (if b.cmd then flsEnd s1 (if ok then 0 else 6) else s1) k

def execFlashProgramDone (bank : Nat) (ok : Bool) (s : State) : Host.Outcome State Fault Refusal :=
  .next (flashProgramDoneEffect bank ok s)

/-- FLASH_ERASE_DONE: an attempt ends; the third that verifies badly leaves the block indeterminate (R409). -/
def flashEraseDoneEffect (k : Nat) (ok : Bool) (s : State) : State :=
  let b := getBank s k
  if b.op != 2 || 1 < k then s
  else
    if ok then
      let s1 := doneErase s b.block
      bankFree (if b.cmd then flsEnd s1 0 else s1) k
    else if b.attempts < 3 then setBank s k { b with attempts := b.attempts + 1 }
    else
      let s1 := fireWear (indetSync (setBlock s b.block { getBlock s b.block with indet := true })) 3
      bankFree (if b.cmd then flsEnd s1 6 else s1) k

def execFlashEraseDone (bank : Nat) (ok : Bool) (s : State) : Host.Outcome State Fault Refusal :=
  .next (flashEraseDoneEffect bank ok s)

/-! ### The reset scan (R408) -/

/-- RESET_SCAN_DONE: each block is as its latest record in the journal has it; the controller is ready. -/
def resetScanEffect (s : State) : State :=
  if flag s Reg.FLS_STAT_READY || s.boot.held then s
  else
    let bs := s.nv.blocks.map (scanBlock s)
    let s1 := indetSync (setNv s { s.nv with blocks := bs })
    let s2 := setFlag s1 Reg.FLS_STAT_READY true
    let s3 := setFlag s2 Reg.FLS_STAT_WEAR (bs.any (fun b => 90000 ≤ b.2.erases))
    let s4 := if getF s3 Reg.FLS_INDET_N != 0 then event s3 Reg.FLS_EVT_INDET else s3
    if flsBusy s4 then flsGo (setF s4 Reg.FLS_CMD_STAT_STATE 0) (getF s4 Reg.FLS_CMD_OP) else s4

def execResetScanDone (s : State) : Host.Outcome State Fault Refusal := .next (resetScanEffect s)

/-! ### Power loss, resets, the safe state (R410, R413) -/

/-- A free bit decides what chance decides. -/
def drawBit (s : State) : Bool × State := let d := drawBelow 2 s; (d.1 == 1, d.2)

/-- Programs that run stop at once: their units are programmed or torn, and sill writes under way take the old or the
new value. -/
def programsCut (s : State) : State :=
  let cut := fun (s : State) (k : Nat) =>
    let b := getBank s k
    if b.op == 1 then b.units.foldl (fun s u =>
      let d := drawBit s
      setUnit d.2 u.1 (if d.1 then u.2 else .torn)) s
    else s
  let s1 := cut (cut s 0) 1
  let s2 := s1.nv.silProg.foldl (fun s x =>
    let d := drawBit s
    if d.1 then silPersist d.2 x else d.2) s1
  setNv s2 { s2.nv with bank0 := FBank.idle, bank1 := FBank.idle, wait := none, silProg := [] }

/-- A power loss: what waits is lost with it. -/
def nvPowerLoss (s : State) : State :=
  let s1 := programsCut s
  setNv s1 { s1.nv with silWait := [], silAt := [] }

/-- FLS_INTEGRITY: the controller stops at once, with what a power loss leaves of programs and erases; a request of
FLS_CMD ends with an error code that no rule gives (notes/assumptions/4.md). -/
def nvHalt (s : State) : State :=
  let s1 := flashSync (silSync (programsCut { s with faults := { s.faults with flashHalted := true } }))
  if flsBusy s1 then
    let d := drawBelow 16 s1
    setF (flsEnd d.2 1) Reg.FLS_CMD_STAT_ERR d.1
  else s1

/-- A running program completes. -/
def programsEnd (s : State) : State :=
  let fin := fun (s : State) (k : Nat) =>
    let b := getBank s k
    if b.op == 1 then b.units.foldl (fun s u => setUnit s u.1 u.2) s else s
  fin (fin s 0) 1

/-- Every queued sill write completes; a halted controller takes none. -/
def sillEnd (s : State) : State :=
  let s1 := if s.faults.flashHalted then s else (s.nv.silProg ++ s.nv.silWait).foldl silPersist s
  setNv s1 { s1.nv with silProg := [], silWait := [], silAt := [] }

/-- PERST_N, CRST_N, a cold reset: programs and class 1 and 2 requests complete, erases are abandoned. -/
def nvReset (s : State) : State :=
  let s1 := sillEnd (programsEnd s)
  setNv s1 { s1.nv with bank0 := FBank.idle, bank1 := FBank.idle, wait := none, silWait := [], silTold := [] }

/-- The safe state: programs and class 1 requests complete, an erase is suspended and not resumed. -/
def nvSafe (s : State) : State :=
  let stop := fun (b : FBank) => if b.op == 2 || b.op == 3 then { b with op := 3, auto := false } else
    match b.saved with
    | some (blk, cmd, _, n) => ⟨3, blk, [], cmd, false, n, none⟩
    | none => FBank.idle
  let s1 := sillEnd (programsEnd s)
  flashSync (silSync (setNv s1 { s1.nv with bank0 := stop s1.nv.bank0, bank1 := stop s1.nv.bank1, wait := none }))

/-! ### Views (R416, R417) -/

/-- FLS_BLKINFO of the selected block. -/
def blkInfoView (s : State) : Word :=
  let b := getF s Reg.FLS_SEL_BLOCK
  let x := getBlock s b
  let st := if blockErasing s b then 1 else if blockSuspended s b then 3 else if x.indet then 2 else 0
  BitVec.ofNat 32 (st + flashPart b * 2 ^ 4 + min x.erases 131071 * 2 ^ 12)

/-- FLS_MAXERASE: the highest count and the lowest block that holds it. -/
def maxEraseView (s : State) : Word :=
  let m := s.nv.blocks.foldl (fun m b => if m.2 < b.2.erases then (b.1, b.2.erases) else m) (0, 0)
  BitVec.ofNat 32 (min m.2 131071 + m.1 * 2 ^ 20)

def silRegView (s : State) (n : Nat) : Word := if flag s Reg.SIL_STAT_READY then tget 0#32 s.sill n else 0#32

def silCntView (s : State) : Word :=
  let n := silCount s (getF s Reg.SIL_SEL_REG)
  BitVec.ofNat 32 (min n silLimit + b2n (silLimit ≤ n) * 2 ^ 31)

def silPendView (s : State) (i : Nat) : Word :=
  BitVec.ofNat 32 ((List.range 32).foldl (fun a b => a + b2n (silPending s (32 * i + b)) * 2 ^ b) 0)

end Sys2Proof.Machine
end

