-- ==== Sys2Proof/Machine/Release.lean ====
section
/-!
DEFINITION. How a command ends (02_tick R41, R46, 04_command_reference R93–R97, 06_keys R157, 17_faults R374): its
completion, its refunds, and its new keys, at its formula tick or earlier.
-/
namespace Sys2Proof.Machine
open Sys2Proof

/-! ### Refunds (R93, R96) -/

/-- Blocks of key A or key B that the first `u` units have run, for a command counted in blocks. -/
def blocksRun (c : Ctx) (isB : Bool) (u : Nat) : Nat :=
  let e := c.entry
  if eOp e == opTranslate then
    let fi := if tInMode e == mdGcm then 2 + ceilDiv (cAad e) 16 else 0
    let fo := if tOutMode e == mdGcm then 2 + ceilDiv (cAad e) 16 else 0
    let k := 16 * u - (fi + fo)
    if isB then fo + k / 2 else fi + ceilDiv k 2
  else 16 * u

/-- The command's use of a key is counted over its items. -/
def batchUse (e : Bytes) : Bool :=
  let o := eOp e
  o == opPinTranslate || o == opDukpt || o == opTokenize || o == opDetokenize

def batchItems (e : Bytes) : Nat :=
  let o := eOp e
  if o == opPinTranslate then items e 48 else if o == opDukpt then items e 64 else items e 32

/-- Use that never ran: uncommitted items; after an abort or a squash also the blocks of unrun units, or the whole
invocation where no unit has run. -/
def unusedUse (s : State) (c : Ctx) (u : KeyUse) (isB early : Bool) (units : Nat) : Nat :=
  let e := c.entry
  if batchUse e then
    let m := max 1 (batchItems e)
    let done := match c.result with
      | some r => if r.itemLen == 0 then 0 else c.drained / r.itemLen
      | none => 0
    u.deducted - u.deducted / m * min m done
  else if !early || u.noRefund then 0
  else if c.cls == clNeedle && rowBlocks (budgetRow (getKey s u.slot).typ (getKey s u.slot).attr) then
    u.deducted - min u.deducted (blocksRun c isB units)
  else if units == 0 && c.slots == 0 then u.deducted
  else 0

def refundUse (s : State) (c : Ctx) (u : Option KeyUse) (isB early : Bool) (units : Nat) : State :=
  match u with
  | none => s
  | some k => refundKey s k.slot (unusedUse s c k isB early units)

/-! ### New keys (R157) -/

/-- The slot of the command's new key was retired by an ancestor while it was being created. -/
def ancestorEnded (s : State) (c : Ctx) : Bool :=
  match c.newSlots with
  | [] => false
  | a :: _ => (getKey s a).st == .retired || (getKey s a).st == .killed

/-- At release a new key becomes ACTIVE, and is to be recorded where it is stored; or its slots become EMPTY. -/
def settleNew (s : State) (c : Ctx) (ok : Bool) : State :=
  match c.newSlots with
  | [] => s
  | a :: _ =>
    if ok then
      let s1 := activateKey s a
      if aStore (getKey s1 a).attr != 0 then { s1 with recordDue := s1.recordDue ++ [(a, s1.tick.count)] } else s1
    else emptyKey s a

/-! ### The completion -/

/-- The result that a context ends with at its formula tick. -/
def formulaResult (s : State) (c : Ctx) : CmdResult :=
  if c.status != 0 then resStatus c.status
  else match c.fail with
    | some f => let w := writtenPrefix s c
                { resStatus f.1 with partialOut := w != 0, len := w }
    | none =>
      if ancestorEnded s c then resStatus stKeyKilled
      else match c.result with
        | some r => r
        | none => if eOp c.entry == opSelftest && c.slice != 0 then selftestResult none else resStatus stOk

/-- The result of a command that a change of the machine ends early. -/
def earlyResult (s : State) (c : Ctx) (status : Nat) : CmdResult :=
  let w := writtenPrefix s c
  { resStatus status with partialOut := w != 0, len := w }

/-- Releases a context with a result: its completion entry waits for its link slot. -/
def complete (s : State) (n : Nat) (c : Ctx) (r : CmdResult) : State :=
  let e : Completion :=
    { slice := c.slice, queue := c.queue, cmdId := eId c.entry, status := r.status, untrusted := r.untrusted
      partialOut := r.partialOut, scrubbed := r.scrubbed, late := c.late != 0 && c.formula < s.tick.count, len := r.len
      rtick := s.tick.count % 2 ^ 32, inline := r.inline, noirq := eNoIrq c.entry, ctx := some n, gid := c.gid
      order := c.order, fetchNo := c.fetchNo, held := false }
  { setCtx s n { c with phase := .released, result := some r, release := s.tick.count } with compls := s.compls ++ [e] }

/-- An aborted command whose planned vault slots still run idle (R41, R219). -/
def keepGhost (s : State) (c : Ctx) : State :=
  if !c.refused && s.tick.count < endTick c && (c.cls == clVault || compUnits c.entry != 0) then
    { s with ghosts := s.ghosts ++ [c] }
  else s

/-- A context ends at its formula tick: its last output drains, its completion is made. -/
def releaseCtx (s : State) (n : Nat) : State :=
  match getCtx s n with
  | none => s
  | some c0 =>
    let s := drainCtx false s n s.tick.count
    let c := (getCtx s n).getD c0
    let r := formulaResult s c
    let s1 := settleNew s c (r.status == stOk)
    let s2 := if c.fail.isSome then
        refundUse (refundUse s1 c c.keyA false false c.units) c c.keyB true false c.units
      else s1
    complete s2 n c r

/-- A context ends early with a status, in this kerf: unrun use returns to its keys (R93). -/
def endEarly (s : State) (n status : Nat) : State :=
  match getCtx s n with
  | none => s
  | some c =>
    if c.phase != .running then s
    else
      let u := unitsThrough c s.tick.count
      let s1 := settleNew s c false
      let s2 := refundUse (refundUse s1 c c.keyA false true u) c c.keyB true true u
      complete s2 n c (earlyResult s c status)

/-- A fetched entry that was not admitted completes with a status; its context number is none. -/
def completeFetched (s : State) (f : Fetched) (status : Nat) : State :=
  let g := match groupOfQueue s f.slice f.queue with
    | some g => gidOf f.slice g
    | none => 4096
  let e : Completion :=
    { slice := f.slice, queue := f.queue, cmdId := eId f.entry, status := status, untrusted := false
      partialOut := false, scrubbed := false, late := false, len := 0, rtick := s.tick.count % 2 ^ 32, inline := []
      noirq := eNoIrq f.entry, ctx := none, gid := g, order := s.ctxOrder, fetchNo := f.order, held := false }
  { s with fetched := s.fetched.filter (fun x => x.order != f.order), compls := s.compls ++ [e] }

/-- The running contexts of a slice, data-path ones, in admission order. -/
def sliceCtxs (s : State) (slice : Nat) : List (Nat × Ctx) :=
  s.ctxs.filter (fun c => c.2.slice == slice && c.1 < 4032 && c.2.phase == .running)

/-- Every running data-path command of a slice ends with ST_SQUASHED (R81, R296). -/
def squashSlice (s : State) (slice : Nat) : State :=
  (sliceCtxs s slice).foldl (fun s c => endEarly s c.1 stSquashed) s

/-- Every fetched and unadmitted entry of a slice's data queues completes with ST_SQUASHED (R81). -/
def squashFetched (s : State) (slice : Nat) : State :=
  (s.fetched.filter (fun f => f.slice == slice && f.queue != adminQ)).foldl (fun s f => completeFetched s f stSquashed) s

/-! ### Step 2: releases (R29) -/

/-- Contexts whose release tick is the tick that ends, in admission order. -/
def releaseDue (s : State) : List Nat :=
  (s.ctxs.filter (fun c => c.2.phase == .running && c.2.release ≤ s.tick.count && c.1 < 4032)).map (·.1)

/-- Puts the due releases in order of admission. -/
def insertByOrder (s : State) (n : Nat) : List Nat → List Nat
  | [] => [n]
  | m :: r =>
    let o := fun k => ((getCtx s k).map (·.order)).getD 0
    if o n < o m then n :: m :: r else m :: insertByOrder s n r

def byAdmission (s : State) (l : List Nat) : List Nat := l.foldr (insertByOrder s) []

/-- An admin command that the posts have finished is released, with its reason code (R292, R294). -/
def releaseAdmin (s : State) : State :=
  s.ctxs.foldl (fun s c =>
    match c.2.adminDone with
    | some r => if c.2.phase == .running then complete s c.1 c.2 r else s
    | none =>
      if 4032 ≤ c.1 && c.2.refused && c.2.phase == .running && c.2.release ≤ s.tick.count
      then complete s c.1 c.2 (resStatus c.2.status) else s) s

/-- Refused contexts release like any other, at `a + 2` (R37). -/
def kerfRelease (s : State) : State :=
  releaseAdmin ((byAdmission s (releaseDue s)).foldl releaseCtx s)

/-- RETIRED and KILLED slots that no command holds become EMPTY (R157). -/
def zeroiseSweep (s : State) : State :=
  (s.keys.filter (fun k => (k.2.st == .retired || k.2.st == .killed) && k.2.extOf == none)).foldl
    (fun s k => zeroiseSlot s k.1) s

/-! ### Step 3: aborts (R46, R115) -/

/-- Step 4 of this kerf ends the slice's data commands: a staged change that has not committed, and for those in
contexts one with SQUASH. It then governs what an abort of the same kerf names (R46, R296). -/
def changeGoverns (s : State) (slice q : Nat) (admitted : Bool) : Bool :=
  q != adminQ && (match (getSlice s slice).change with
    | some c => c.committed.isNone && (c.squash || !admitted)
    | none => false)

/-- The status of an ABORT of a command of queue `q` with an id, and the state after it. An admin command that the
management posts have taken runs on (R292). -/
def resolveAbort (s : State) (slice q id : Nat) : State × Nat :=
  if !queueHeld s slice q then (s, stGate)
  else match s.fetched.find? (fun f => f.slice == slice && f.queue == q && eId f.entry == id && eOp f.entry != opAbort) with
    | some f => (if changeGoverns s slice q false then s else completeFetched s f stAborted, stOk)
    | none =>
      match s.ctxs.find? (fun c => c.2.slice == slice && c.2.queue == q && eId c.2.entry == id) with
      | some c =>
        if c.2.phase != .running || q == adminQ then (s, stAbortLate)
        else if changeGoverns s slice q true then (s, stOk)
        else (endEarly (keepGhost s c.2) c.1 stAborted, stOk)
      | none => (s, stAbortLate)

/-- One ABORT entry: its format status, or its resolution; it completes in this kerf. -/
def abortEntry (s : State) (f : Fetched) : State :=
  let e := f.entry
  let i := infoAbort e
  if lcyState s == lcyTampered then completeFetched s f stTampered
  else if dupId s f then completeFetched s f stDupId
  else if i.badField then completeFetched s f stBadField
  else if i.badLength then completeFetched s f stBadLength
  else
    let r := resolveAbort s f.slice (bitsAt (eParam e) 16 9) (bitsAt (eParam e) 0 16)
    completeFetched r.1 f r.2

/-- Step 3: every ABORT that arrived (R46). -/
def kerfAborts (s : State) : State :=
  (s.fetched.filter (fun f => eOp f.entry == opAbort)).foldl abortEntry s

end Sys2Proof.Machine
end

