-- ==== Sys2Proof/Machine/KeyStore.lean ====
section
/-!
DEFINITION. Stored keys and what the key store does by itself (05_needles R129, R131, 06_keys R154, R157, R163–R167):
reservations, stored records, restoring, tombstones, the IV counter.
-/
namespace Sys2Proof.Machine
open Sys2Proof

/-! ### Consumption and reservations (R131) -/

/-- Budget units of a use whose work has not begun when `units` units of its command have run. -/
def unrunUnits (s : State) (c : Ctx) (u : KeyUse) (isB : Bool) (units : Nat) : Nat :=
  let k := getKey s u.slot
  if batchUse c.entry then
    let m := max 1 (batchItems c.entry)
    u.deducted - u.deducted / m * min m (if c.units == 0 then m else ceilDiv (m * units) c.units)
  else if c.cls == clNeedle && rowBlocks (budgetRow k.typ k.attr) then
    u.deducted - min u.deducted (blocksRun c isB units)
  else if units == 0 then u.deducted
  else 0

/-- Budget units of a use whose work has not begun by the end of tick `t`. -/
def unrunUse (s : State) (c : Ctx) (u : KeyUse) (isB : Bool) (t : Nat) : Nat := unrunUnits s c u isB (unitsThrough c t)

/-- The uses that running commands make of a slot. -/
def slotUses (s : State) (slot : Nat) : List (Ctx × KeyUse × Bool) :=
  s.ctxs.flatMap (fun e =>
    if e.2.phase != .running then []
    else
      (match e.2.keyA with | some u => if u.slot == slot then [(e.2, u, false)] else [] | none => []) ++
      (match e.2.keyB with | some u => if u.slot == slot then [(e.2, u, true)] else [] | none => []))

/-- The budget that consumption has left by the end of tick `t`: what no command deducted, and what has not run. -/
def unconsumed (s : State) (slot t : Nat) : Nat :=
  (slotUses s slot).foldl (fun n x => n + unrunUse s x.1 x.2.1 x.2.2 t) (getKey s slot).budget

/-- A chunk of 2^20 reservation units, in budget units. -/
def chunkOf (k : KeySlot) : Nat := 2 ^ 20 * rowUnit (budgetRow k.typ k.attr)

/-- A first reservation is two chunks; a later one is the next chunk. -/
def reserveNext (k : KeySlot) : KeySlot :=
  { k with reserved := if k.recorded then k.reserved - chunkOf k else k.budget - 2 * chunkOf k, recorded := true }

/-- Consumption has entered the second reserved chunk of a stored key. -/
def needsChunk (s : State) (slot t : Nat) : Bool :=
  let k := getKey s slot
  k.recorded && k.reserved != 0 && unconsumed s slot t < k.reserved + chunkOf k

/-- The key that wraps the material of a stored record: the slice master key; L2 for a slice master key, and for L2 a key
from L1 and the thimble key (R163, notes/assumptions/6.md). -/
def recordKek (s : State) (slot owner : Nat) : Bytes :=
  if slot == 0 then padTo 32 (Config.pk 22 [ascii "L2", s.thm.key])
  else if slot < 128 then (getKey s 0).material
  else (getKey s owner).material

/-- A stored record's bytes under its AES-CMAC. -/
def recordBytes (r : KeyRecord) : Bytes :=
  leBytes 2 r.slot ++ leBytes 2 r.gen ++ leBytes 1 r.owner ++
    leBytes 1 (r.level + 8 * b2n r.inVault + 16 * b2n (!r.ik.isEmpty)) ++ leBytes 1 r.typ ++ leBytes 1 r.ext ++
    leBytes 2 r.parent ++ leBytes 8 r.attr ++ padTo 16 r.ident ++ leBytes 8 r.budgetEnd ++ padTo 8 r.ik ++ r.wrapped

/-- The AES-CMAC of a stored record, under a key derived from L1 (notes/assumptions/6.md). -/
def recordMac (r : KeyRecord) : Bytes := l1Mac "STORED" (recordBytes r)

/-- The stored record of a slot, with the reservation as it stands (R163). -/
def recordOf (s : State) (slot : Nat) : KeyRecord :=
  let k := getKey s slot
  let r : KeyRecord :=
    { slot := slot, gen := k.gen, owner := k.owner, level := k.level, typ := k.typ, parent := k.parent, ext := k.ext,
      attr := k.attr, ident := k.ident, budgetEnd := k.reserved, ik := k.ik, inVault := aStore k.attr == 2,
      wrapped := kwpWrap (recordKek s slot k.owner) k.material, mac := [], gone := false }
  { r with mac := recordMac r }

/-- A stored record from its bytes and its AES-CMAC. -/
def parseRecord (b : Bytes) : KeyRecord :=
  let f := byteAt b 5
  { slot := leAt b 0 2, gen := leAt b 2 2, owner := byteAt b 4, level := f % 8, typ := byteAt b 6, ext := byteAt b 7
    parent := leAt b 8 2, attr := leAt b 10 8, ident := sub b 18 16, budgetEnd := leAt b 34 8
    ik := if bitAt f 4 then sub b 42 8 else [], inVault := bitAt f 3, wrapped := (b.take (b.length - 16)).drop 50
    mac := b.drop (b.length - 16), gone := false }

/-- A VAULT record as its slice's journal carries it: under table code 0, which no table of R214 has, with its part and
the count of parts, in pieces of 1,024 bytes (DESIGN CHOICE, notes/assumptions/85.md). A count of 0 is a deletion
marker. -/
def keyForm (slot part total : Nat) (b : Bytes) : Bytes :=
  [0] ++ leBytes 1 part ++ leBytes 1 total ++ [0] ++ leBytes 2 slot ++ zeros 10 ++ b

/-- Places a VAULT record in its slice's journal. -/
def placeKeyRecord (typ : Nat) (s : State) (r : KeyRecord) : State :=
  let b := recordBytes r ++ r.mac
  let n := ceilDiv b.length 1024
  (List.range n).foldl (fun s i => placeRecord s r.owner typ (keyForm r.slot i n (sub b (1024 * i) 1024)) none) s

/-- The vault that takes a key's record is in service; a FLASH record needs none. -/
def vaultTakes (s : State) (slot : Nat) : Bool :=
  aStore (getKey s slot).attr != 2 || (getChain s (getKey s slot).owner).st == .ready

/-- The material that a stored record gives back; none where its AES-CMAC or its wrapping fails. -/
def openStored (s : State) (r : KeyRecord) : Option Bytes :=
  if r.mac == recordMac r then kwpUnwrap (recordKek s r.slot r.owner) r.wrapped else none

/-- A record that fails is skipped and counted (R165). -/
def skipRecord (s : State) : State := event (countF s Reg.KST_REC_BAD_N 1) Reg.KST_EVT_REC_BAD

/-- Writes or replaces a stored record. -/
def putRecord (s : State) (r : KeyRecord) : State :=
  { s with records := s.records.filter (fun x => x.slot != r.slot) ++ [r] }

/-- NDL_RSV_CNT, NDL_RSV_LAT and the event for a reservation that fell due `late` ticks ago (R142). -/
def countReservation (s : State) (late : Nat) : State :=
  let s1 := countReg s Reg.NDL_RSV_CNT 1
  let s2 := if late > getF s1 Reg.NDL_RSV_LAT_TICKS then setF s1 Reg.NDL_RSV_LAT_TICKS (min late 0xFFFF) else s1
  if late > 128 then event s2 Reg.NDL_EVT_RSV_SLOW else s2

/-- A reservation record is written: for a new key with its stored record, for a restored or running one alone. -/
def writeReservation (s : State) (slot : Nat) : State :=
  let due := ((s.reserveDue ++ s.recordDue).find? (fun x => x.1 == slot)).map (·.2)
  let s1 := setKey s slot (reserveNext (getKey s slot))
  let s2 := putRecord s1 (recordOf s1 slot)
  countReservation { s2 with reserveDue := s2.reserveDue.filter (fun x => x.1 != slot) }
    (s.tick.count - due.getD s.tick.count)

/-- In each kerf, keys whose consumption has entered their second chunk fall due. -/
def kerfReservations (s : State) : State :=
  let t := s.tick.count
  let due := (s.keys.filter (fun k => 256 ≤ k.1 && k.2.recorded && needsChunk s k.1 t &&
    !s.reserveDue.any (fun x => x.1 == k.1))).map (fun k => (k.1, t))
  { s with reserveDue := s.reserveDue ++ due }

/-- The budget that consumption leaves of a slot when context `n` has run `u` of its units, the contexts admitted before
it have run theirs of tick `t`, and those after it none of that tick. -/
def unconsumedAt (s : State) (slot n u t : Nat) : Nat :=
  let me := getCtx s n
  (slotUses s slot).foldl (fun b x =>
    let here := me == some x.1
    let before := match me with
      | some c => x.1.order < c.order
      | none => false
    b + (if here then unrunUnits s x.1 x.2.1 x.2.2 u
      else unrunUse s x.1 x.2.1 x.2.2 (if before || t == 0 then t else t - 1))) (getKey s slot).budget

/-- The first `u` units of context `n` consume beyond the reserved chunks of a key that it names. -/
def beyondChunks (s : State) (n : Nat) (c : Ctx) (u t : Nat) : Bool :=
  let past := fun (x : Option KeyUse) => match x with
    | some k => (getKey s k.slot).recorded && unconsumedAt s k.slot n u t < (getKey s k.slot).reserved
    | none => false
  past c.keyA || past c.keyB

/-- A stitch that would consume beyond the reserved chunks runs idle: its command ends with ST_KEY_SPENT. The order of
consumption within a tick is that of admission (notes/assumptions/75.md). -/
def overReserved (s : State) (n : Nat) : State :=
  match getCtx s n with
  | none => s
  | some c =>
    let t := s.tick.count
    let a := (unitsIn c t).1
    let b := (unitsIn c t).2
    if c.phase == .running && c.status == 0 && c.fail.isNone && a < b && beyondChunks s n c b t then
      let k := ((List.range (b - a)).reverse.find? (fun i => !beyondChunks s n c (a + i) t)).getD 0
      setCtx s n { c with fail := some (stKeySpent, a + k) }
    else s

/-! ### Restoring (R165) -/

/-- A stored record goes back into its slot with its generation, LOADED; its reservation falls due. A seam
reference has no budget to reserve (R235). -/
def restoreRecord (s : State) (r : KeyRecord) : State :=
  if (getKey s r.slot).st != .empty || r.mac.isEmpty then s
  else match openStored s r with
    | none => skipRecord s
    | some m =>
      let s1 := loadSlots s r.slot (r.ext + 1) r.owner r.level r.parent r.attr r.typ
      let s2 := setKey s1 r.slot { getKey s1 r.slot with
        gen := r.gen, ident := r.ident, budget := r.budgetEnd, reserved := r.budgetEnd, material := m
        ik := r.ik, recorded := typSeam r.typ }
      if typSeam r.typ then s2 else { s2 with reserveDue := s2.reserveDue ++ [(r.slot, s2.tick.count)] }

/-- A slice master key, or L2 in slot 0, returns from its record to an empty slot. -/
def restoreMaster (s : State) (slot : Nat) : State :=
  match s.records.find? (fun r => r.slot == slot) with
  | none => s
  | some r =>
    let k := getKey s slot
    if k.st != .empty || (slot != 0 && !flag s Reg.KST_STAT_DOMAIN) then s
    else match openStored s r with
      | none => skipRecord s
      | some m => setKey s slot { k with st := .active, level := r.level, owner := r.owner, parent := r.parent,
                                         attr := r.attr, typ := r.typ, ident := r.ident, material := m, recorded := true }

/-- The FLASH records, or the VAULT records, of a slice. While L2 is not unwrapped none can be opened (R166). -/
def restoreSlice (s : State) (slice : Nat) (vault : Bool) : State :=
  if !flag s Reg.KST_STAT_DOMAIN then s
  else (s.records.filter (fun r => r.owner == slice && r.inVault == vault && 256 ≤ r.slot)).foldl restoreRecord s

/-- Step 4: a restored key whose reservation is written becomes ACTIVE (R157). -/
def activateRestored (s : State) : State :=
  (s.keys.filter (fun k => 256 ≤ k.1 && k.2.st == .loaded && k.2.recorded && k.2.extOf == none)).foldl
    (fun s k => activateKey s k.1) s

/-- KST_STAT.RESTORING and READY. -/
def kstSync (s : State) : State :=
  let r := s.reserveDue.any (fun x => (getKey s x.1).st == .loaded)
  let s1 := setFlag s Reg.KST_STAT_RESTORING r
  if !r && s.boot.restored then setFlag s1 Reg.KST_STAT_READY true else s1

/-- Zeroises every slot of a slice (R166); a key that ended loses its record (R165). -/
def zeroiseSliceKeys (s : State) (slice : Nat) : State :=
  (s.keys.filter (fun k => 256 ≤ k.1 && k.2.st != .empty && k.2.owner == slice && k.2.extOf == none)).foldl
    (fun s k => if doomed k.2 then dropRecord (emptyKey s k.1) k.1 else emptyKey s k.1) { s with
      recordDue := s.recordDue.filter (fun x => (getKey s x.1).owner != slice)
      reserveDue := s.reserveDue.filter (fun x => (getKey s x.1).owner != slice) }

/-- Deletes every stored record of a slice. -/
def dropSliceRecords (s : State) (slice : Nat) : State :=
  { s with records := s.records.filter (fun r => r.owner != slice) }

/-! ### The rows -/

/-- BUDGET_RESERVATION: the record for a slot whose reservation is due. A VAULT record goes to the journal again. -/
def budgetReservationEffect (slot : Nat) (s : State) : State :=
  if s.reserveDue.any (fun x => x.1 == slot) && !s.faults.flashHalted && vaultTakes s slot then
    let s1 := programNow 1 (fun s => writeReservation s slot) s
    if aStore (getKey s1 slot).attr == 2 then placeKeyRecord jPut s1 (recordOf s1 slot) else s1
  else s

def execBudgetReservation (slot : Nat) (s : State) : Host.Outcome State Fault Refusal :=
  .next (budgetReservationEffect slot s)

/-- KST_RESERVE: a reservation still unwritten 256 ticks after it fell due. -/
def kstReserveEffect (slot : Nat) (s : State) : State :=
  match (s.reserveDue ++ s.recordDue).find? (fun x => x.1 == slot) with
  | none => s
  | some x => if x.2 + 256 < s.tick.count then firePlain s srcKstReserve (some (getKey s slot).owner) else s

def execKstReserve (slot : Nat) (s : State) : Host.Outcome State Fault Refusal := .next (kstReserveEffect slot s)

/-- STORED_RECORD_WRITE: a new stored key's record and first reservation (R164). A VAULT record goes to the slice's
vault and its journal, once the vault is in service. -/
def storedRecordWriteEffect (slot : Nat) (s : State) : State :=
  if s.recordDue.any (fun x => x.1 == slot) && !s.faults.flashHalted && vaultTakes s slot then
    let s0 := programNow 1 (fun s => writeReservation s slot) s
    let s1 := { s0 with recordDue := s0.recordDue.filter (fun x => x.1 != slot) }
    if aStore (getKey s1 slot).attr == 2 then placeKeyRecord jPut s1 (recordOf s1 slot) else s1
  else s

def execStoredRecordWrite (slot : Nat) (s : State) : Host.Outcome State Fault Refusal :=
  .next (storedRecordWriteEffect slot s)

/-- KEY_SLOT_ZEROISE: a RETIRED or KILLED slot that no earlier command holds becomes EMPTY (R157). -/
def execKeySlotZeroise (slot : Nat) (s : State) : Host.Outcome State Fault Refusal := .next (zeroiseSlot s slot)

/-- A running KEY_KILL will commit this identity itself. -/
def killRuns (s : State) (ident : Bytes) : Bool :=
  s.ctxs.any (fun c => eOp c.2.entry == opKeyKill && c.2.phase == .running && c.2.status == 0 && c.2.result.isNone &&
    killIdent c.2 == ident)

/-- Deletion markers of VAULT records go to the journals of the slices whose vaults are in service (R165). -/
def kerfMarkers (s : State) : State :=
  let due := s.records.filter (fun r => r.gone && (getChain s r.owner).st == .ready)
  due.foldl (fun s r => placeRecord { s with records := s.records.filter (fun x => x.slot != r.slot) } r.owner jPut
    (keyForm r.slot 0 0 []) none) s

/-- The key store's own bounds in a kerf (R131, R164): a record or reservation that no row has written is written 256
ticks after it fell due; one that cannot be raises KST_RESERVE. -/
def kerfRecords (s : State) : State :=
  let t := s.tick.count
  let s1 := (s.recordDue.filter (fun x => x.2 + 256 ≤ t)).foldl (fun s x => storedRecordWriteEffect x.1 s) s
  let s2 := (s1.reserveDue.filter (fun x => x.2 + 256 ≤ t)).foldl (fun s x => budgetReservationEffect x.1 s) s1
  kerfMarkers (((s2.reserveDue ++ s2.recordDue).filter (fun x => x.2 + 257 == t)).foldl (fun s x => kstReserveEffect x.1 s) s2)

/-- TOMBSTONE_COMMIT: the key store commits the first pending identity that no KEY_KILL will (R154). -/
def tombstoneCommitEffect (s : State) : State :=
  match s.tombPend.find? (fun i => !killRuns s i) with
  | some i => writeTombstone s i none
  | none => s

/-- In each kerf the key store commits up to 16 pending identities that no KEY_KILL will, so that a full list of 256 is
committed within 16 ticks (R154); the two slots of R189 are taken to serve them all (notes/assumptions/86.md). They wait
while the domain chain is not in service. -/
def kerfTombs (s : State) : State :=
  if !tombReady s then s
  else ((s.tombPend.filter (fun i => !killRuns s i)).take 16).foldl (fun s i => writeTombstone s i none) s

def execTombstoneCommit (s : State) : Host.Outcome State Fault Refusal := .next (tombstoneCommitEffect s)

/-! ### The IV counter (R129) -/

/-- Writes a value of the IV counter's sill register, which at its limit ends device-built IVs. -/
def ivPersist (s : State) (v : Nat) : State :=
  let s1 := silStore s 1 (BitVec.ofNat 32 (v % 2 ^ 24))
  if silCount s 1 ≥ silLimit then setFlag s1 Reg.NDL_STAT_IV_OK false else s1

/-- IV_RESERVATION: the counter's low bits have passed 2^39, and the next persisted value is not yet written. -/
def ivReservationEffect (s : State) : State :=
  let hi := s.ivCtr / 2 ^ 40 % 2 ^ 24
  if s.ivCtr % 2 ^ 40 > 2 ^ 39 && sillVal s 1 % 2 ^ 24 == hi && !silPending s 1 then
    ivPersist s (hi + 1)
  else s

def execIvReservation (s : State) : Host.Outcome State Fault Refusal := .next (ivReservationEffect s)

end Sys2Proof.Machine
end

