-- ==== Sys2Proof/Machine/AdminRun.lean ====
section
/-!
DEFINITION. How the management posts work an admin command (13_slices R292–R294): the context that holds it, its source
from host memory, its end with a status and a reason code.
-/
namespace Sys2Proof.Machine
open Sys2Proof

/-- The running admin command of a context, of a given opcode, that has not ended. -/
def adminCtx (s : State) (n op : Nat) : Option Ctx :=
  match getCtx s n with
  | some c => if 4032 ≤ n && c.phase == .running && !c.refused && c.adminDone.isNone && eOp c.entry == op then some c
    else none
  | none => none

/-- Ends an admin command with a result; its completion is made in step 2 or 4 of the kerf. -/
def adminEnd (s : State) (n : Nat) (r : CmdResult) : State :=
  match getCtx s n with
  | some c => setCtx s n { c with adminDone := some r }
  | none => s

def adminOk (s : State) (n : Nat) (inline : Bytes) : State := adminEnd s n (resInline inline.length inline)

/-- Marks a command as taken in hand: what follows happens in a kerf. -/
def adminTaken (s : State) (n stage : Nat) : State :=
  match getCtx s n with
  | some c => setCtx s n { c with done := stage }
  | none => s

/-- The status of a reason code of the slices chapter (R294). -/
def reasonStatus (r : Nat) : Nat :=
  if r == 10 || r == 11 || r == 15 then stAuthFail
  else if r == 16 then stSigFail
  else if r == 17 then stBadLength
  else stBadField

/-- A failure with a reason: the code inline at 0x10 and in SLC_ADM (R294). `extra` follows at 0x18. -/
def sliceFail (s : State) (n reason : Nat) (extra : Bytes) : State :=
  let op := match getCtx s n with
    | some c => eOp c.entry
    | none => 0
  let s1 := setF (setF s Reg.SLC_ADM_OPCODE op) Reg.SLC_ADM_REASON reason
  adminEnd s1 n { resStatus (reasonStatus reason) with inline := leBytes 8 reason ++ extra }

/-- Works a command once its source has arrived: the posts ask for it first; a read that failed at the link ends the
command. -/
def withSource (s : State) (n : Nat) (c : Ctx) (work : State → Ctx → State) : State :=
  let l := eLen c.entry
  if c.srcFail then adminEnd s n (resStatus stHostAccess)
  else if l ≤ c.src.length then work s c
  else if c.asked == 0 then emit (setCtx s n { c with asked := l }) (.hostRead 0 none (eSrc c.entry) l)
  else s

/-- SLC_ADM.RUNNING. -/
def admSync (s : State) : State := setF s Reg.SLC_ADM_RUNNING (min 2 (adminRunning s).length)

/-- The device serves slices: lifecycle OPERATIONAL and a domain installed (R294 reason 8). -/
def slicesServed (s : State) : Bool := lcyState s == lcyOperational && flag s Reg.KST_STAT_DOMAIN

end Sys2Proof.Machine
end

