-- ==== Sys2Proof/Machine/VaultStore.lean ====
section
/-!
DEFINITION. The vault store (08_vault_store): the population, regions and their clearing, the journal rings, anchors,
rebases, the re-key sweep, reloads, and what a DDR error does.
-/
namespace Sys2Proof.Machine
open Sys2Proof

/-! ### The population (R182, R209) -/

/-- Vault slots per tick for the channels in use and the data rate code. -/
def popSlots (mask rate : Nat) : Nat :=
  let c := if mask == 0xF then 4 else if mask == 3 then 2 else if mask == 1 then 1 else 0
  if rate ≥ 2 then 24 * c else 18 * c

/-- The largest population formed from the trained channels. -/
def popOf (mask : Nat) : Nat :=
  if mask % 16 == 0xF then 0xF else if mask % 4 == 3 then 3 else if mask % 2 == 1 then 1 else 0

/-- DIMM size in GiB. -/
def dimmGiB (code : Nat) : Nat := ([16, 24, 32, 48, 64] : List Nat).getD code 0

/-- Region units of a population: 14 for each 4 GiB-channel quarter of the DIMM size, 3.5 D for four channels. -/
def popUnits (mask dimm : Nat) : Nat :=
  let c := if mask == 0xF then 4 else if mask == 3 then 2 else if mask == 1 then 1 else 0
  7 * c * dimmGiB dimm / 2

/-- Vault slots that may be scheduled: all but the 18 reserved ones. -/
def vaultSchedulable (s : State) : Nat := getF s Reg.VLT_STAT_SLOTS - 18

/-! ### The journal ring (R195, R198, R210) -/

def ringSize (c : Chain) : Nat := 2 ^ c.ringLog

/-- Entries in use; the ring is full when one entry is left (DEDUCED: notes/assumptions/12.md). -/
def ringUsed (c : Chain) : Nat := (c.tail + ringSize c - c.head) % ringSize c

/-- Entries of PAD before a record of `n` entries. -/
def ringPad (c : Chain) (n : Nat) : Nat := if c.tail + n ≤ ringSize c then 0 else ringSize c - c.tail

/-- The ring has room for a record of `n` entries and the PAD before it. -/
def ringRoom (c : Chain) (n : Nat) : Bool := c.ringEn && ringUsed c + ringPad c n + n < ringSize c

/-- A PAD record of `n` entries: its type and length only. -/
def padRecord (n : Nat) : Bytes := padTo (64 * n) (leBytes 1 jPad ++ leBytes 1 n)

/-- PAD records hold at most 20 entries each (R196). -/
def padRun : (fuel : Nat) → Nat → Bytes
  | 0, _ => []
  | f + 1, n => if n == 0 then [] else padRecord (min n 20) ++ padRun f (n - min n 20)

/-- JOURNAL_RECORD_WRITE: the first waiting record of a chain goes to its ring in a tick after the one it was placed
in; without room it waits in the holding area, which RING_HOLD tells as it begins. -/
def journalWriteEffect (chain : Nat) (s : State) : State :=
  let c := getChain s chain
  match c.waiting with
  | [] => s
  | r :: rest =>
    if s.tick.count ≤ r.placed then s
    else
      let n := r.bytes.length / 64
      if !ringRoom c n then (if s.tick.count == r.placed + 1 then event s Reg.VLT_EVT_RING_HOLD else s)
      else
        let pad := ringPad c n
        let s1 := if pad == 0 then s
          else emit s (.hostWrite 0 none (c.ringBase + 64 * c.tail) (padRun pad pad))
        let at_ := if pad == 0 then c.tail else 0
        let s2 := emit s1 (.hostWrite 0 none (c.ringBase + 64 * at_) r.bytes)
        setChain s2 chain { c with waiting := rest, tail := (at_ + n) % ringSize c, writtenSeq := r.seq
                                   writtenTag := r.bytes.drop (r.bytes.length - 16) }

def execJournalRecordWrite (chain : Nat) (s : State) : Host.Outcome State Fault Refusal :=
  .next (journalWriteEffect chain s)

/-- The records of every chain that were placed before this tick are written, in order, as far as their rings have room
(R198). -/
def kerfRings (s : State) : State :=
  s.vault.chains.foldl (fun s x => x.2.waiting.foldl (fun s _ => journalWriteEffect x.1 s) s) s

/-- The chain that VLT_JSEL selects. -/
def selChain (s : State) : Nat := getF s Reg.VLT_JSEL_CHAIN

/-- VLT_JHEAD_WRITE: the host's head moves forward, not past the tail. -/
def jheadWriteEffect (v : Word) (s : State) : State :=
  let n := selChain s
  let c := getChain s n
  let h := getBits v 0 24
  if h < ringSize c && (h + ringSize c - c.head) % ringSize c ≤ ringUsed c then setChain s n { c with head := h } else s

def execVltJheadWrite (v : Word) (s : State) : Host.Outcome State Fault Refusal := .next (jheadWriteEffect v s)

/-! ### Rebases (R201) -/

/-- A walk of some slice runs. -/
def walkRuns (s : State) : Bool :=
  s.vault.chains.any (fun c => match c.2.rebase with
    | some (some _) => true
    | _ => false)

/-- Queues a rebase of a slice. -/
def queueRebase (s : State) (slice : Nat) : State :=
  let c := getChain s slice
  if c.rebase.isSome then s else setChain s slice { c with rebase := some none }

/-- Panels of the walk's slice. -/
def walkPanels (s : State) (slice : Nat) : Nat :=
  let x := getSlice s slice
  (x.cfg.vaultUnits - (if slice == 0 then x.cfg.tableMap.getD 4 0 else 0)) * 2 ^ 20

/-- REBASE_START: the record carries the next epoch, which every later record carries too; the walk begins.
The first rebase of a chain is empty: its walk has nothing to pass (R201). -/
def rebaseStartEffect (slice : Nat) (s : State) : State :=
  let c := getChain s slice
  if c.rebase == some none && c.st == .ready && !walkRuns s && s.vault.sweep.isNone then
    let s1 := setChain s slice { c with epoch := c.epoch + 1, rebase := some (some (if c.epoch == 0 then walkPanels s slice else 0)) }
    placeRecord s1 slice jRebaseStart [] none
  else s

def execRebaseStart (slice : Nat) (s : State) : Host.Outcome State Fault Refusal := .next (rebaseStartEffect slice s)

/-- A live record's stored form (R217): none for reverse entries, tombstones, and credentials not yet committed. -/
def baseForm (s : State) (slice table num cell : Nat) (e : VEntry) : Option Bytes :=
  if table == tbTok then
    some (placement16 tbTok cell 0xFF (byteAt e.bytes 0x1C) num (leAt e.bytes 0x18 4) ++ e.bytes)
  else if table == tbGen then some (placement16 tbGen cell 0xFF 0xFF num 0 ++ e.bytes ++ genValue s slice num cell e.bytes)
  else if table == tbCrd && 2 ≤ byteAt e.bytes 0 then some (placement16 tbCrd cell 0xFF 0xFF num 0 ++ e.bytes)
  else none

/-- BASE records for the live records of one bucket. -/
def baseBucket (s : State) (slice : Nat) (b : Bucket) : State :=
  b.cells.foldl (fun s c => match baseForm s slice b.table b.num c.1 c.2 with
    | some p => placeRecord s slice jBase p none
    | none => s) s

/-- BASE_END, when the walk has passed the last panel; an anchor follows (R200). -/
def baseEndEffect (slice : Nat) (s : State) : State :=
  let c := getChain s slice
  match c.rebase with
  | some (some p) =>
    if walkPanels s slice ≤ p then
      let s1 := placeRecord (setChain s slice { c with rebase := none, doneEpoch := c.epoch, doneSeq := c.rebaseSeq })
        slice jBaseEnd [] none
      setVault s1 { s1.vault with anchorWanted := true }
    else s
  | _ => s

def execBaseEnd (slice : Nat) (s : State) : Host.Outcome State Fault Refusal := .next (baseEndEffect slice s)

/-- BASE records for the stored records of a slice's VAULT keys, which begin the walk (notes/assumptions/85.md). -/
def baseKeys (s : State) (slice : Nat) : State :=
  (s.records.filter (fun r => r.owner == slice && r.inVault && !r.mac.isEmpty)).foldl (placeKeyRecord jBase) s

/-- The 4 panels from panel `p` of a slice's region, which stand from panel `base` on: their entries become BASE records. -/
def walkStep (s : State) (slice base p : Nat) : State :=
  let s0 := if p == 0 then baseKeys s slice else s
  let hit := s0.vault.buckets.filter (fun b => b.slice == slice && b.table != tbTmb &&
    (let q := bucketPanel s0 b.slice b.table b.num - base
     p ≤ q && q < p + 4))
  let s1 := hit.foldl (fun s b => baseBucket s slice b) s0
  baseEndEffect slice (setChain s1 slice { getChain s1 slice with rebase := some (some (p + 4)) })

/-- A tick of the walk once its panels have been checked. A failed check ends it (R207). -/
def walkAfter (s : State) (slice base p : Nat) (fault : Option (Nat × Nat)) : State :=
  match fault with
  | some f => vaultIntegrity s slice f.1 false f.2 none
  | none => walkStep s slice base p

/-- One tick of the walk: 4 panels, in panel order, while no sweep runs. -/
def walkTick (s : State) (slice : Nat) : State :=
  match (getChain s slice).rebase with
  | some (some p) =>
    if s.vault.sweep.isSome then s
    else
      let base := (getSlice s slice).vaultFirst * 2 ^ 20
      walkAfter s slice base p (readFault s ((List.range 4).map (fun i => base + p + i)))
  | _ => s

/-- In each kerf the running walk advances, or a queued one starts: the one of the lowest chain number (DESIGN CHOICE,
notes/assumptions/87.md). -/
def kerfRebase (s : State) : State :=
  let s1 := (s.vault.chains.map (·.1)).foldl walkTick s
  if walkRuns s1 then s1
  else match s1.vault.chains.find? (fun c => c.2.rebase == some none && c.2.st == .ready) with
    | some c => rebaseStartEffect c.1 s1
    | none => s1

/-! ### Becoming READY (R193, R201) -/

/-- A slice's vault is READY; the first time, its rebase of epoch 1 runs. -/
def vaultReady (s : State) (slice : Nat) : State :=
  let c := getChain s slice
  let s1 := setChain s slice { c with st := .ready, held := true, wasReady := true }
  if c.wasReady then s1 else queueRebase s1 slice

/-- A slice with a region gains its journal key, or has none any more (R193). -/
def kerfJournalKeys (s : State) : State :=
  s.slices.foldl (fun s x =>
    let c := getChain s x.1
    let region := x.2.cfg.vaultUnits != 0
    if x.2.st == .none || flag s Reg.DDR_STAT_SREF then s
    else if c.st == .none then (if region && hasJournalKey s x.1 then vaultReady s x.1 else s)
    else if !(region && ownsJournalKey s x.1) then
      setChain s x.1 { c with st := .none, reload := none, rebase := none }
    else s) s

/-! ### Anchors (R199, R200) -/

/-- An anchor's fields under its AES-CMAC (R199). -/
def anchorBytes (a : Anchor) : Bytes :=
  leBytes 8 a.number ++ leBytes 8 a.tick ++ leBytes 8 a.thimble ++ a.entries.flatMap (fun e =>
    leBytes 2 (chainCode e.chain) ++ leBytes 2 e.flags ++ leBytes 4 e.epoch ++ leBytes 8 e.rebaseSeq ++ leBytes 8 e.seq ++
    padTo 8 e.tag)

/-- The AES-CMAC of an anchor, under a key derived from L1 (notes/assumptions/6.md). -/
def anchorMac (a : Anchor) : Bytes := l1Mac "ANCHOR" (anchorBytes a)

/-- The anchor that stands: the latest one whose AES-CMAC verifies (R199). -/
def lastAnchor (s : State) : Option Anchor := s.vault.anchors.find? (fun a => a.mac == anchorMac a)

/-- The latest anchor's entry for a chain that has not been discarded since (R208). -/
def anchoredEntry (s : State) (chain : Nat) : Option AnchorEntry :=
  match lastAnchor s with
  | none => none
  | some a =>
    if a.number ≤ tget 0 s.vault.discarded chain then none
    else a.entries.find? (fun e => e.chain == chain)

/-- The latest anchor holds an entry for the domain chain (R205). -/
def domainAnchored (s : State) : Bool :=
  match lastAnchor s with
  | some a => a.entries.any (fun x => x.chain == 128)
  | none => false

/-- A chain's entry, its flags zero: from the chain where its state is held, else carried from the anchor before. -/
def anchorEntry (s : State) (n : Nat) (c : Chain) : Option AnchorEntry :=
  if c.held && c.seq != 0 then some ⟨n, 0, c.doneEpoch, c.doneSeq, c.writtenSeq, c.writtenTag.take 8⟩
  else anchoredEntry s n

/-- An anchor may be captured: 2^20 ticks after the last one since reset, and none is being programmed. Whether the
spacing holds across a reset no rule says; here a reset ends it (DESIGN CHOICE, notes/assumptions/87.md). -/
def anchorAllowed (s : State) : Bool :=
  s.vault.pendingAnchor.isNone && match s.vault.anchorTick with
    | none => true
    | some t => t + 2 ^ 20 ≤ s.tick.count

/-- ANCHOR_CAPTURE, at its periodic tick where a chain has advanced, or on a cause. Without a vault there is no anchor, and
a VAULT_ANCHOR waits for one without end (DESIGN CHOICE, notes/assumptions/87.md). -/
def anchorCaptureEffect (s : State) : State :=
  let v := s.vault
  let periodic := s.tick.count % 2 ^ 20 == 2 ^ 20 - 1 && v.advanced
  if anchorAllowed s && (periodic || v.anchorWanted) && flag s Reg.VLT_STAT_PRESENT then
    let num := match lastAnchor s with
      | some a => a.number + 1
      | none => 1
    let a : Anchor := ⟨num, s.tick.count, s.thmTime, [], v.chains.filterMap (fun c => anchorEntry s c.1 c.2)⟩
    setVault s { v with pendingAnchor := some { a with mac := anchorMac a }, anchorWanted := false, advanced := false
                        anchorTick := some s.tick.count }
  else s

def execAnchorCapture (s : State) : Host.Outcome State Fault Refusal := .next (anchorCaptureEffect s)

/-- ANCHOR_PROGRAMMED: the captured anchor stands; the VAULT_ANCHOR commands that waited for it end. -/
def anchorProgrammedEffect (s : State) : State :=
  match s.vault.pendingAnchor with
  | none => s
  | some a =>
    if s.faults.flashHalted then s
    else
      let v := s.vault
      let s1 := setVault s { v with pendingAnchor := none, anchors := (a :: v.anchors).take 3840, anchorCtxs := [] }
      let s2 := setReg (setReg s1 Reg.VLT_ANCHOR_NUM (BitVec.ofNat 32 a.number)) Reg.VLT_ANCHOR_TICK
        (BitVec.ofNat 32 a.tick)
      let s3 := v.anchorCtxs.foldl (fun s n => adminOk s n (leBytes 4 a.number)) s2
      event (tombSync s3) Reg.VLT_EVT_ANCHOR

def execAnchorProgrammed (s : State) : Host.Outcome State Fault Refusal := .next (anchorProgrammedEffect s)

/-- An anchor that no row has programmed is programmed 2^12 ticks after its capture (R199). -/
def kerfAnchor (s : State) : State :=
  match s.vault.pendingAnchor with
  | some a => if a.tick + 2 ^ 12 ≤ s.tick.count then anchorProgrammedEffect s else s
  | none => s

/-- VAULT_ANCHOR (R206). A command that comes while an anchor is being programmed waits for the next one. -/
def vaultAnchorEffect (n : Nat) (s : State) : State :=
  match adminCtx s n opVaultAnchor with
  | none => s
  | some c =>
    let p := eParam c.entry
    let slice := bitsAt p 0 8
    if c.done != 0 || s.vault.pendingAnchor.isSome then s
    else if bitAt p 8 && (getChain s slice).st != .ready then adminEnd s n (resStatus stNotReady)
    else
      let s1 := if bitAt p 8 then queueRebase s slice else s
      let v := s1.vault
      adminTaken (setVault s1 { v with anchorWanted := true, anchorCtxs := v.anchorCtxs ++ [n] }) n 1

def execVaultAnchor (ctx : Nat) (s : State) : Host.Outcome State Fault Refusal := .next (vaultAnchorEffect ctx s)

/-! ### The re-key sweep and re-encryption (R186, R191) -/

/-- Panels of the data region. -/
def totalPanels (s : State) : Nat := getF s Reg.VLT_CAP_UNITS * 2 ^ 20

/-- REKEY_SWEEP_START: the current generation has encrypted 2^35 panels, and the next one's key is drawn. -/
def sweepStartEffect (s : State) : State :=
  let v := s.vault
  let g := (v.gen + 1) % 4
  if v.sweep.isNone && tget 0 v.genUse v.gen ≥ 2 ^ 35 && (tfind v.tree.keys g).isNone then
    let d := drawFrom childVault 80 s
    let s1 := setVault d.2 { v with oldGen := some v.gen, gen := g, sweep := some 0, genUse := tput 0 v.genUse g 0
                                    tree := { v.tree with keys := tinsert g d.1 v.tree.keys } }
    event (setF (setFlag s1 Reg.VLT_STAT_SWEEP true) Reg.VLT_STAT_GEN g) Reg.VLT_EVT_SWEEP_START
  else s

def execRekeySweepStart (s : State) : Host.Outcome State Fault Refusal := .next (sweepStartEffect s)

/-- REKEY_SWEEP_END: the sweep has passed the last page, nothing is sealed under the old generation any more, and that is
zeroised. -/
def sweepEndEffect (s : State) : State :=
  let v := s.vault
  match v.sweep with
  | some p =>
    if totalPanels s ≤ p && v.tree.seals.all (fun x => some x.2.gen != v.oldGen) then
      let s1 := setVault s { v with
        sweep := none, oldGen := none
        tree := { v.tree with keys := v.tree.keys.filter (fun x => some x.1 != v.oldGen) }
        genUse := match v.oldGen with
          | some g => tput 0 v.genUse g 0
          | none => v.genUse }
      event (setF (setFlag s1 Reg.VLT_STAT_SWEEP false) Reg.VLT_SWEEP_DONE 0) Reg.VLT_EVT_SWEEP_END
    else s
  | none => s

def execRekeySweepEnd (s : State) : Host.Outcome State Fault Refusal := .next (sweepEndEffect s)

/-- What the sweep does with a written panel `p` once it has been checked under the chain it belongs to. -/
def sweepAfter (s : State) (p : Nat) (fault : Option (Nat × Nat)) (chain : Option Nat) : State :=
  match fault, chain with
  | some f, some n => vaultIntegrity s n f.1 false f.2 none
  | some _, none => s
  | none, _ => panelBack s p

/-- A panel that the sweep passes: a written one is verified, opened under the generation it was sealed under, and written
back under the new one. -/
def sweepPanel (s : State) (p : Nat) : State :=
  if treeCtr s.vault.tree (ctrKey 0 p) == 0 then s
  else sweepAfter s p (panelFault s.vault.tree p) (chainOfPanel s p)

/-- The page that 12 panels from `p` end, where they end one, records the new generation. -/
def switchPage (s : State) (p : Nat) : State :=
  if (p + 12) / 16 == p / 16 || (tfind s.vault.pageGen (p / 16)).isNone then s
  else setVault s { s.vault with pageGen := tinsert (p / 16) s.vault.gen s.vault.pageGen }

/-- One tick of the sweep: 12 panels. -/
def sweepTick (s : State) : State :=
  match s.vault.sweep with
  | none => s
  | some p =>
    let s1 := switchPage ((List.range 12).foldl (fun s i => sweepPanel s (p + i)) s) p
    let s2 := setVault s1 { s1.vault with sweep := some (p + 12) }
    let tot := max 1 (totalPanels s)
    sweepEndEffect (setF s2 Reg.VLT_SWEEP_DONE (min 65535 ((p + 12) * 65536 / tot)))

/-- A child of a node whose tag does not verify. -/
def renewFault (t : Tree) (q : Nat) : Option Nat :=
  ((List.range 16).map (childKey q)).find? (fun k => treeCtr t k != 0 && !sealOk t k)

/-- The renewal of the children of node `q`, once they have been checked under the chain their panels belong to. -/
def renewAfter (s : State) (q : Nat) (fault : Option Nat) (chain : Option Nat) : State :=
  match fault, chain with
  | some k, some n => vaultIntegrity s n (keyLevel k) false (keyIndex k) none
  | some _, none => s
  | none, _ =>
    let v := s.vault
    if (tfind v.tree.keys v.gen).isNone then s
    else setVault s { v with
      tree := treeRenew v.tree v.gen q
      genUse := if keyLevel q == 1 then tput 0 v.genUse v.gen (tget 0 v.genUse v.gen + 16) else v.genUse }

/-- REENCRYPTION: the page or node at the head of the queue takes a new major counter, its children minor counter 1. A
page's panels count against the generation (R191). -/
def reencryptionEffect (s : State) : State :=
  match s.vault.tree.queue with
  | [] => s
  | q :: _ => renewAfter s q (renewFault s.vault.tree q) (chainOfPanel s (keyIndex q * 16 ^ keyLevel q))

/-- The two upkeep slots of a tick renew a node's 16 children in 8 ticks (R189). -/
def kerfUpkeep (s : State) : State := if s.tick.count % 8 == 0 then reencryptionEffect s else s

def execReencryption (s : State) : Host.Outcome State Fault Refusal := .next (reencryptionEffect s)

/-! ### Reloads (R202–R205) -/

/-- A record of an image. -/
structure JRec where
  typ : Nat
  chain : Nat
  epoch : Nat
  seq : Nat
  dev : Nat
  boot : Nat
  period : Nat
  plen : Nat
  link : Bytes
  header : Bytes
  cipher : Bytes
  tag : Bytes
deriving DecidableEq, Repr

/-- The records of an image, PADs dropped; none where a length is out of range or passes the end. -/
def imageRecords : (fuel : Nat) → Bytes → Option (List JRec)
  | 0, _ => some []
  | f + 1, b =>
    if b.isEmpty then some []
    else
      let n := byteAt b 1
      let r := b.take (64 * n)
      if n == 0 || n > 20 || r.length != 64 * n then none
      else match imageRecords f (b.drop (64 * n)) with
        | none => none
        | some rest =>
          if byteAt r 0 == jPad then some rest
          else
            let x : JRec :=
              { typ := byteAt r 0, chain := leAt r 2 2, epoch := leAt r 4 4, seq := leAt r 8 8, dev := leAt r 0x10 4
                boot := leAt r 0x14 4, period := leAt r 0x18 4, plen := leAt r 0x1C 4, link := sub r 0x20 16
                header := r.take 48, cipher := (r.take (64 * n - 16)).drop 48, tag := r.drop (64 * n - 16) }
            some (x :: rest)

/-- A record's payload, where its tag verifies under its seal key (reason 1). -/
def openRecord (s : State) (chain : Nat) (r : JRec) : Option Bytes :=
  let key := sealKey s chain r.epoch r.dev r.boot r.period
  let padded := 64 * jEntries r.plen - 64
  if r.plen > 1168 || r.cipher.length != padded then none
  else
    let ct := r.cipher.take r.plen
    let d := gcmDec key (jIv r.seq) r.header ct r.tag
    if d.2 && allZero (r.cipher.drop r.plen) then some d.1 else none

/-- A record of a table in its stored form goes to its own bucket and cell; a token record also gives its reverse entry.
`none` where it does not fit (R217, R225). -/
def replayEntry (s : State) (chain : Nat) (p : Bytes) : Option State :=
  let table := byteAt p 0
  let cell := byteAt p 1
  let num := leAt p 4 4
  let slice := tableSlice chain table
  let e := sub p 16 (entrySize table)
  if (chain == 128) != (table == tbTmb) || table == 0 || tbTmb < table || cell ≥ bucketCap table ||
      num ≥ tableBuckets s slice table ||
      (table == tbTok && byteAt p 3 < 15 && leAt p 8 4 ≥ tableBuckets s slice tbRev) then none
  else
    let cs0 := if byteAt p 2 == 0xFF then s else clearCell s slice table num (byteAt p 2)
    let cs1 := if table == tbGen then writeValue cs0 slice num cell (byteAt e 1) (sub p 64 (leAt e 2 2)) else cs0
    let s1 := putCell cs1 slice table num cell ⟨e⟩
    let s2 := if table == tbTok && byteAt p 3 < 15 then
        putCell s1 slice tbRev (leAt p 8 4) (byteAt p 3) ⟨sub e 0x28 8 ++ leBytes 4 num ++ leBytes 1 cell ++ zeros 3⟩
      else s1
    if regionRecords s2 slice > (getSlice s2 slice).cfg.recordLimit then none else some s2

/-- A DELETE clears the cell of its key. -/
def replayDelete (s : State) (chain : Nat) (rk : Bytes) : State :=
  match s.vault.buckets.find? (fun b => b.slice == chain && b.table == tbGen &&
      b.cells.any (fun c => sub c.2.bytes 0x10 32 == rk)) with
  | none => s
  | some b => match b.cells.find? (fun c => sub c.2.bytes 0x10 32 == rk) with
    | some c => clearCell s chain tbGen b.num c.1
    | none => s

/-- A TOMB record gives its identity to the domain area; one that is held is skipped. -/
def replayTomb (s : State) (id : Bytes) : Option State :=
  if tableBuckets s 0 tbTmb == 0 then none
  else
    let x := tombProbe s id
    let q := x.getD 1 0
    if x.headD 0 == 1 then some s
    else if x.headD 0 == 0 || limitHit s 0 then none
    else some (putCell s 0 tbTmb q ((openCells s 0 tbTmb q 0).headD 0) ⟨id⟩)

/-- The whole of a VAULT key's record, or its deletion marker, takes the place of what stood for its slot (R163). -/
def replayKey (s : State) (chain : Nat) (p b : Bytes) : State :=
  let slot := leAt p 4 2
  let r := { parseRecord b with slot := slot, owner := chain, inVault := true }
  if s.records.any (fun x => x.slot == slot && (x.gone || !x.inVault || x.owner != chain)) then s
  else if byteAt p 2 == 0 then { s with records := s.records.filter (fun x => x.slot != slot) }
  else if byteAt p 1 + 1 == byteAt p 2 then putRecord s r
  else s

/-- Places one replayed record, with the pieces of a key's record that have come so far; `none` where it does not fit. -/
def replayRecord (s : State) (chain : Nat) (r : JRec) (p part : Bytes) : Option State :=
  if r.typ == jPut || r.typ == jBase then
    (if byteAt p 0 == 0 && chain != 128 then some (replayKey s chain p part) else replayEntry s chain p)
  else if r.typ == jDelete then some (replayDelete s chain (p.take 32))
  else if r.typ == jTomb && chain == 128 then replayTomb s (p.take 16)
  else some s

/-- The pieces of a key's record after one more journal record. -/
def keyPieces (l : Reload) (r : JRec) (p : Bytes) : Bytes :=
  if (r.typ == jPut || r.typ == jBase) && byteAt p 0 == 0 then
    (if byteAt p 1 == 0 then [] else l.keyPart) ++ p.drop 16
  else []

/-- A reload before its first record. -/
def newReload (foreign : Bool) : Reload := ⟨foreign, 0, [], 0, 0, none, false, 0, 0, 0, []⟩

/-- The chain's reference sequence and tag: the device-held ones, else the latest anchor's (reasons 3 and 6). -/
def reloadRef (s : State) (chain : Nat) : Option (Nat × Bytes) :=
  let c := getChain s chain
  if c.held && c.seq != 0 then some (c.seq, c.link) else (anchoredEntry s chain).map (fun e => (e.seq, e.tag))

/-- An image may not begin with this record (reason 4). -/
def startBad (s : State) (chain : Nat) (r : JRec) : Bool :=
  r.typ != jRebaseStart || r.chain != chainCode chain || (match anchoredEntry s chain with
    | some e => r.epoch < e.epoch
    | none => false)

/-- The record holds the reference sequence under another tag (reason 6). -/
def refClash (s : State) (chain : Nat) (r : JRec) : Bool :=
  match reloadRef s chain with
  | some f => r.seq == f.1 && f.2 != r.tag.take f.2.length
  | none => false

/-- The reload once a record has passed its checks. -/
def reloadNext (l : Reload) (r : JRec) : Reload :=
  let start := if r.typ == jRebaseStart then r.seq else l.startSeq
  let fst := l.first.getD r.epoch
  let ends := r.typ == jBaseEnd
  { l with seq := r.seq, link := r.tag, epoch := r.epoch, startSeq := start, first := some fst
           baseEnd := l.baseEnd || (ends && r.epoch == fst)
           doneEpoch := if ends then r.epoch else l.doneEpoch
           doneSeq := if ends then start else l.doneSeq
           applied := l.applied + 1 }

/-- Runs the records of a part. The answer is the state, the reload as it stands, and a reason or status where a check
failed: reason 0 with ST_VAULT_FULL where a record does not fit. -/
def reloadRun (chain : Nat) : List JRec → State → Reload → State × Reload × Option (Nat × Nat)
  | [], s, l => (s, l, none)
  | r :: rest, s, l =>
    match openRecord s chain r with
    | none => (s, l, some (1, stAuthFail))
    | some p =>
      if l.first.isSome && (r.seq != l.seq + 1 || r.link != l.link) then (s, l, some (2, stAuthFail))
      else if l.first.isNone && !l.foreign && startBad s chain r then (s, l, some (4, stAuthFail))
      else if !l.foreign && refClash s chain r then (s, l, some (6, stAuthFail))
      else
        let part := keyPieces l r p
        match replayRecord s chain r p part with
        | none => (s, l, some (0, stVaultFull))
        | some s1 => reloadRun chain rest s1 { reloadNext l r with keyPart := part }

/-- The final checks of a LAST part: reasons 3 and 5. -/
def reloadLast (s : State) (chain : Nat) (l : Reload) (overr permitted : Bool) : Option (Nat × Nat) :=
  let short := match reloadRef s chain with
    | some f => l.seq < f.1
    | none => false
  if l.foreign then none
  else if short && !(overr && permitted) then some (3, stAuthFail)
  else if !l.baseEnd then some (5, stAuthFail)
  else none

/-- What the end of a part leaves in the registers. -/
def reloadInfo (s : State) (chain applied reason : Nat) (overr : Bool) : State :=
  let s1 := setF (setF (setF s Reg.VLT_RLD_INFO_REASON reason) Reg.VLT_RLD_INFO_CHAIN chain)
    Reg.VLT_RLD_INFO_OVERRIDDEN (b2n overr)
  setReg s1 Reg.VLT_RLD_CNT (BitVec.ofNat 32 applied)

/-- A part of a reload, with its image. While the channels rest in self-refresh none is taken: a reload needs a reset first
(R208, notes/assumptions/87.md). -/
def reloadPart (n : Nat) (c : Ctx) (s : State) : State :=
  let p := eParam c.entry
  let chain := bitsAt p 0 8
  let firstP := bitAt p 8
  let lastP := bitAt p 9
  let overr := bitAt p 10
  let permitted := flag s Reg.VLT_RBOK_ARM && getF s Reg.VLT_RBOK_SLICE == chain
  let ch := getChain s chain
  match imageRecords (c.src.length / 64 + 1) c.src with
  | none => adminEnd s n (resStatus stBadField)
  | some recs =>
    let foreign := if firstP then chain == 128 && (match recs.head? with | some r => r.dev != devNo s | none => false)
      else match ch.reload with
        | some l => l.foreign
        | none => false
    let stateOk :=
      if ch.st == .none then false
      else if foreign then ch.st != .reloading && (firstP || ch.reload.isSome)
      else if firstP then ch.st == .unloaded || ch.st == .failed
      else ch.st == .reloading
    if !stateOk then adminEnd s n (resStatus stBadField)
    else if flag s Reg.DDR_STAT_SREF then adminEnd s n (resStatus stNotReady)
    else
      let s0 := if firstP && !foreign then setChain (clearChain s chain) chain { ch with st := .reloading } else s
      let l0 := if firstP then newReload foreign else { ch.reload.getD (newReload foreign) with applied := 0 }
      let r := reloadRun chain recs s0 l0
      let l := r.2.1
      let bad := match r.2.2 with
        | some x => some x
        | none => match (if lastP then reloadLast r.1 chain l overr permitted else none) with
          | some x => some x
          | none => if overr && !permitted then some (7, stAuthFail) else none
      match bad with
      | some x =>
        let s1 := reloadInfo r.1 chain l.applied x.1 false
        let s2 := if foreign then setChain s1 chain { getChain s1 chain with reload := none }
          else setChain (clearChain s1 chain) chain { getChain s1 chain with st := .failed, reload := none }
        adminEnd (event (tombSync s2) Reg.VLT_EVT_RELOAD_DONE) n (resStatus x.2)
      | none =>
        let inl := leBytes 8 l.applied ++ leBytes 8 l.seq
        if !lastP then
          adminOk (reloadInfo (setChain r.1 chain { getChain r.1 chain with reload := some l }) chain l.applied 0 false)
            n inl
        else if foreign then
          let c1 := getChain r.1 chain
          let s1 := setChain r.1 chain { c1 with reload := none, period := c1.period + 1, sealedCount := 0 }
          let s2 := setVault s1 { s1.vault with anchorWanted := true }
          adminOk (event (reloadInfo s2 chain l.applied 0 false) Reg.VLT_EVT_RELOAD_DONE) n inl
        else
          let used := overr && permitted
          let c1 := getChain r.1 chain
          let s1 := setChain r.1 chain { c1 with
            st := .ready, seq := l.seq, link := l.link, held := true, epoch := l.epoch, rebaseSeq := l.startSeq
            doneEpoch := l.doneEpoch, doneSeq := l.doneSeq, period := c1.period + 1, sealedCount := 0, writtenSeq := l.seq, writtenTag := l.link, wasReady := true
            reload := none }
          let s2 := if used then
              event (setFlag s1 Reg.VLT_RBOK_ARM false) Reg.VLT_EVT_ROLLBACK
            else s1
          let s3 := if chain < 128 then restoreSlice s2 chain true else s2
          let s4 := setVault s3 { s3.vault with anchorWanted := true }
          adminOk (event (tombSync (reloadInfo s4 chain l.applied 0 used)) Reg.VLT_EVT_RELOAD_DONE) n inl

/-- VAULT_RELOAD. An image that cannot be read at the link ends the reload (R203). -/
def vaultReloadEffect (n : Nat) (s : State) : State :=
  match adminCtx s n opVaultReload with
  | none => s
  | some c =>
    if c.srcFail then
      let chain := bitsAt (eParam c.entry) 0 8
      let ch := getChain s chain
      let own := if bitAt (eParam c.entry) 8 then ch.st == .unloaded || ch.st == .failed else ch.st == .reloading
      if own then
        let s1 := setChain (clearChain (reloadInfo s chain 0 0 false) chain) chain { ch with st := .failed, reload := none }
        adminEnd (event (tombSync s1) Reg.VLT_EVT_RELOAD_DONE) n (resStatus stHostAccess)
      else if chain == 128 && ch.st != .none && ch.st != .reloading then
        adminEnd (event (reloadInfo s chain 0 0 false) Reg.VLT_EVT_RELOAD_DONE) n (resStatus stHostAccess)
      else adminEnd s n (resStatus stBadField)
    else withSource s n c (fun s c => reloadPart n c s)

def execVaultReload (ctx : Nat) (s : State) : Host.Outcome State Fault Refusal := .next (vaultReloadEffect ctx s)

/-! ### The memory controllers (R182, R207–R209) -/

/-- VLT_STAT.READY: channels trained, and generation 0 drawn after the first seeding (R190, R208); an absent vault is ready
too. -/
def vltReadySync (s : State) : State :=
  if !flag s Reg.VLT_STAT_PRESENT || !s.rng.seeded then s
  else if !s.vault.tree.keys.isEmpty || flag s Reg.DDR_STAT_SREF then setFlag s Reg.VLT_STAT_READY true
  else
    let d := drawFrom childVault 80 s
    setFlag (setTree d.2 { s.vault.tree with keys := [(0, d.1)] }) Reg.VLT_STAT_READY true

/-- The needle slots of the vault engine's own allotment: the lowest needles, the lowest schedulable slots (R182). -/
def engineSlots (stitches : Nat) : List (Nat × Nat) :=
  let sched := (List.range 128).filter (fun i => i ≥ 2 && !(i % 21 == 1 && i ≥ 22))
  ((List.range 24).flatMap (fun n => sched.map (fun i => (n, i)))).take stitches

/-- DDR_TRAINING_DONE: the channels populated and those that trained, the rate the DIMMs allow, their size and ranks. The
rate cap is DDR_CTRL.MAXRATE as it stood at the reset (R209). -/
def ddrTrainedEffect (populated trained rate dimm ranks : Nat) (s : State) : State :=
  let ok := populated == 0xF || populated == 3 || populated == 1
  let failed := populated - (populated &&& trained)
  let mask := if ok then popOf (populated &&& trained) else 0
  let r := min rate s.boot.rateCap
  let s1 := if ok && failed != 0 then
      event (fire s { FireArgs.plain srcDdrTrain none with detail := failed }) Reg.DDR_EVT_TRAIN_FAIL
    else s
  let s2 := setF s1 Reg.DDR_STAT_TRAINED (populated &&& trained)
  if mask == 0 then
    setFlag (setFlag (setF s2 Reg.DDR_CFG_CHMASK 0) Reg.VLT_STAT_PRESENT false) Reg.VLT_STAT_READY true
  else
    let s3 := setF (setF (setF (setF s2 Reg.DDR_CFG_CHMASK mask) Reg.DDR_CFG_RATE r) Reg.DDR_CFG_DIMM dimm)
      Reg.DDR_CFG_RANKS ranks
    let s4 := setF (setF (setFlag s3 Reg.VLT_STAT_PRESENT true) Reg.VLT_STAT_SLOTS (popSlots mask r))
      Reg.VLT_CAP_UNITS (popUnits mask dimm)
    vltReadySync { s4 with devNdl := engineSlots (9 * popSlots mask r) }

def execDdrTrainingDone (populated trained rate dimm ranks : Nat) (s : State) : Host.Outcome State Fault Refusal :=
  .next (ddrTrainedEffect populated trained rate dimm ranks s)

/-- DDR_ERROR: a correctable error is counted and its data used; an uncorrectable one in a slice's region is an
integrity failure of its chain. -/
def ddrErrorEffect (ch sub_ : Nat) (ue : Bool) (chain : Option Nat) (panel : Nat) (ctx : Option Nat) (s : State) : State :=
  let s1 := setF (setF (setF s Reg.DDR_ERR_INFO_CH ch) Reg.DDR_ERR_INFO_SUB sub_) Reg.DDR_ERR_INFO_UE (b2n ue)
  if ue then
    let s2 := event (countF s1 { Reg.DDR_UE_N with key := Reg.DDR_UE + 4 * (ch % 4) } 1) Reg.DDR_EVT_UE
    match chain with
    | some n => vaultIntegrity s2 n 0 true panel ctx
    | none => s2
  else event (countReg s1 (Reg.DDR_CE + 4 * (ch % 4)) 1) Reg.DDR_EVT_CE

def execDdrError (ch sub_ : Nat) (ue : Bool) (chain : Option Nat) (panel : Nat) (ctx : Option Nat) (s : State) :
    Host.Outcome State Fault Refusal := .next (ddrErrorEffect ch sub_ ue chain panel ctx s)

/-- DDR_THERMAL: the hottest DIMM, and whether twice the refresh rate is in force. -/
def ddrThermalEffect (deg : Byte) (hot : Bool) (s : State) : State :=
  let rise := hot && !flag s Reg.DDR_STAT_HOT
  let s1 := setFlag (setF s Reg.DDR_TEMP_DEG deg.toNat) Reg.DDR_STAT_HOT hot
  if rise then event (firePlain s1 srcDdrThermal none) Reg.DDR_EVT_HOT else s1

def execDdrThermal (deg : Byte) (hot : Bool) (s : State) : Host.Outcome State Fault Refusal :=
  .next (ddrThermalEffect deg hot s)

/-- The vault's own work in a kerf: journal keys, ring writes, anchors, upkeep, the sweep or the walk (R189). -/
def kerfVault (s : State) : State :=
  let s1 := anchorCaptureEffect (kerfAnchor (kerfRings (kerfJournalKeys s)))
  tombSync (kerfRebase (sweepTick (sweepStartEffect (kerfUpkeep s1))))

end Sys2Proof.Machine
end

