-- ==== Sys2Proof/Machine/Layouts.lean ====
section
/-!
DEFINITION. The configuration record of a slice and the placement of its layout (13_slices R288–R291, 02_tick R30,
R45): reading and writing the record, the sums across slices, the free capacity, and the units each group takes.
-/
namespace Sys2Proof.Machine
open Sys2Proof

/-! ### The record (R288, R289) -/

/-- A group entry of 64 bytes; none where a byte or field is out of its range, or its own fields disagree. -/
def parseGroup (b : Bytes) : Option GroupCfg :=
  let p := leAt b 4 4
  let g : GroupCfg :=
    { firstQ := leAt b 0 2, queues := leAt b 2 2, pasid := bitsAt p 0 20, pasidEn := bitAt p 20
      ndl := leAt b 8 2, pur := byteAt b 0x0A, hsh := byteAt b 0x0B, vlt := byteAt b 0x0C, av := byteAt b 0x0D
      ah := byteAt b 0x0E, work := byteAt b 0x0F, ctrl := byteAt b 0x10, perTick := leAt b 0x12 2, ctxs := leAt b 0x14 2
      linkIn := leAt b 0x16 2, linkOut := leAt b 0x18 2 }
  if g.firstQ ≤ 255 && 1 ≤ g.queues && g.queues ≤ 256 && p < 2 ^ 21 && g.ndl ≤ 2880 && g.pur ≤ 127 && g.hsh ≤ 12 &&
      g.vlt ≤ 78 && g.av ≤ 78 && g.ah ≤ 12 && g.work ≤ 30 && g.ctrl ≤ 30 && byteAt b 0x11 == 0 && 1 ≤ g.perTick &&
      g.perTick ≤ 256 && 1 ≤ g.ctxs && g.ctxs ≤ 4032 && g.linkIn ≤ 2048 && g.linkOut ≤ 2048 && allZero (sub b 0x1A 38) &&
      16 * g.work ≤ g.ndl && g.hsh + g.ah ≤ 12 then some g else none

/-- Every entry of a list, where each is some. -/
def allSome {α : Type} : List (Option α) → Option (List α)
  | [] => some []
  | none :: _ => none
  | some x :: r => match allSome r with
    | some y => some (x :: y)
    | none => none

/-- A record of 2,304 bytes; none where it is malformed (R294 reason 2). -/
def parseCfg (b : Bytes) : Option SliceCfg :=
  let n := byteAt b 2
  let c : SliceCfg :=
    { migratable := byteAt b 1 == 1, pairs := leAt b 4 2, egress := byteAt b 6, keyQuota := leAt b 8 2
      vaultUnits := leAt b 0x0C 2, recordLimit := leAt b 0x10 4
      tableMap := (List.range 5).map (fun i => leAt b (0x14 + 2 * i) 2), groups := [] }
  if b.length == 2304 && byteAt b 0 == 1 && byteAt b 1 ≤ 1 && n ≤ 32 && byteAt b 3 == 0 && c.pairs ≤ 256 &&
      1 ≤ c.egress && c.egress ≤ 32 && byteAt b 7 == 0 && c.keyQuota ≤ 16128 && allZero (sub b 0x0A 2) &&
      c.vaultUnits ≤ 896 && allZero (sub b 0x0E 2) && c.recordLimit ≤ 2 ^ 30 && allZero (sub b 0x1E 226) &&
      allZero (b.drop (0x100 + 64 * n)) then
    match allSome ((List.range n).map (fun g => parseGroup (sub b (0x100 + 64 * g) 64))) with
    | some gs => some { c with groups := gs }
    | none => none
  else none

/-! ### Free capacity (R30, R45, R182, R230) -/

/-- What is taken: stitch slots per needle, posts, positions per purlin and vault slots as bit masks, and shares per
hash engine. -/
structure Pool where
  ndl : List Nat
  posts : Nat
  pur : List Nat
  hsh : List Nat
  vlt : Nat
deriving DecidableEq, Repr

/-- Sets bit `i` of entry `n`. -/
def markAt (l : List Nat) (n i : Nat) : List Nat := l.set n ((l.getD n 0) ||| 2 ^ i)
def addAt (l : List Nat) (n k : Nat) : List Nat := l.set n (l.getD n 0 + k)

def takeNdl (p : Pool) (xs : List (Nat × Nat)) : Pool := { p with ndl := xs.foldl (fun l x => markAt l x.1 x.2) p.ndl }
def takePur (p : Pool) (xs : List (Nat × Nat)) : Pool := { p with pur := xs.foldl (fun l x => markAt l x.1 x.2) p.pur }
def takePosts (p : Pool) (xs : List Nat) : Pool := { p with posts := xs.foldl (fun m x => m ||| 2 ^ x) p.posts }
def takeVlt (p : Pool) (xs : List Nat) : Pool := { p with vlt := xs.foldl (fun m x => m ||| 2 ^ x) p.vlt }
def takeHsh (p : Pool) (e k : Nat) : Pool := { p with hsh := addAt p.hsh e k }

def takeLayout (p : Pool) (l : Layout) (g : GroupCfg) : Pool :=
  let p1 := takePosts (takeNdl (takeNdl p l.ndl) l.lanes) (l.work ++ l.ctrl)
  let p2 := takeVlt (takePur p1 l.pur) (l.vlt ++ l.av)
  match l.hsh with
  | some e => takeHsh p2 e (g.hsh + g.ah)
  | none => p2

def takeReturning (p : Pool) (r : Returning) : Pool :=
  let p1 := takeVlt (takePur (takePosts (takeNdl p r.ndl) r.posts) r.pur) r.vlt
  match r.hsh with
  | some x => takeHsh p1 x.1 x.2
  | none => p1

/-- What is taken by every slice but one, by capacity still returning, and by the device's own allotments. -/
def usedPool (s : State) (skip : Option Nat) : Pool :=
  let p0 : Pool := ⟨List.replicate 24 0, 3, List.replicate 8 0, List.replicate 8 0, 0⟩
  let p1 := takeNdl p0 s.devNdl
  let p2 := if s.upkeep then { takePur p1 [(0, 0)] with hsh := List.replicate 8 4 } else p1
  let p3 := s.slices.foldl (fun p x =>
    if some x.1 == skip then p
    else (x.2.layouts.zip x.2.cfg.groups).foldl (fun p y => takeLayout p y.1 y.2) p) p2
  (s.returning.filter (fun r => s.tick.count < r.until_)).foldl takeReturning p3

/-- Free schedulable slots of a needle, lowest first. -/
def freeNdl (s : State) (p : Pool) (n : Nat) : List Nat :=
  if needleHalted s n then [] else (List.range 128).filter (fun i => schedSlot i && !(p.ndl.getD n 0).testBit i)

def freePosts (s : State) (p : Pool) : List Nat :=
  (List.range 32).filter (fun i => 2 ≤ i && !p.posts.testBit i && !postHalted s i)

def freePur (s : State) (p : Pool) (n : Nat) : List Nat :=
  if purlinHalted s n then [] else (List.range 16).filter (fun i => !(p.pur.getD n 0).testBit i)

def freeHsh (s : State) (p : Pool) (e : Nat) : Nat := if hashHalted s e then 0 else 16 - p.hsh.getD e 0

def freeVlt (s : State) (p : Pool) : List Nat :=
  (List.range (vaultSchedulable s)).filter (fun i => !p.vlt.testBit i)

/-! ### What TIK_FREE_NDL and TIK_FREE_SHR show (R54) -/

def countBits (m n : Nat) : Nat := ((List.range n).filter (fun i => m.testBit i)).length

def freeNdlCount (s : State) : Nat :=
  2880 - (usedPool s none).ndl.foldl (fun n m => n + countBits m 128) 0

def freePurCount (s : State) : Nat := 128 - (usedPool s none).pur.foldl (fun n m => n + countBits m 16) 0
def freeHshCount (s : State) : Nat := 128 - (usedPool s none).hsh.foldl (· + ·) 0

/-- Before the population is known the schedulable vault slots are those of R30. -/
def freeVltCount (s : State) : Nat :=
  (if flag s Reg.VLT_STAT_READY then vaultSchedulable s else 78) - countBits (usedPool s none).vlt 96

def freePostCount (s : State) : Nat := 32 - countBits (usedPool s none).posts 32

/-! ### Placement (R291) -/

/-- The lowest needle that can hold the serial slots, and the slots. -/
def serialPlace (s : State) (p : Pool) (n : Nat) : Option (Nat × List Nat) :=
  (List.range 24).findSome? (fun k => (firstApart (freeNdl s p k) n).map (fun l => (k, l)))

/-- The lowest `n` free slots over the needles in order. -/
def lowestSlots (s : State) (p : Pool) : List Nat → (n : Nat) → List (Nat × Nat)
  | [], _ => []
  | k :: r, n =>
    let fs := (freeNdl s p k).take n
    fs.map (fun i => (k, i)) ++ (if fs.length == n then [] else lowestSlots s p r (n - fs.length))

/-- A lane for a work post: the 16 lowest free slots of the lowest needle of its bent that has 16 free. -/
def laneFor (s : State) (p : Pool) (post : Nat) : Option (List (Nat × Nat)) :=
  (List.range 3).findSome? (fun j =>
    let k := 3 * (post / 4) + j
    let fs := freeNdl s p k
    if fs.length ≥ 16 then some ((fs.take 16).map (fun i => (k, i))) else none)

/-- Lanes for work posts, one after another. -/
def lanesFor (s : State) : List Nat → Pool → Option (List (Nat × Nat) × Pool)
  | [], p => some ([], p)
  | w :: r, p => match laneFor s p w with
    | none => none
    | some l => match lanesFor s r (takeNdl p l) with
      | none => none
      | some x => some (l ++ x.1, x.2)

/-- The first position of a free list at or after `x` mod 16, wrapping. -/
def atOrAfter (free : List Nat) (x : Nat) : Option Nat :=
  (List.range 16).findSome? (fun i => if free.contains ((x + i) % 16) then some ((x + i) % 16) else none)

/-- `n` shares on a purlin, spread from its lowest free position `f0`: share `j` at or after `f0 + ⌊16 j ÷ n⌋`. -/
def spread (f0 n : Nat) : (todo : Nat) → (free : List Nat) → List Nat
  | 0, _ => []
  | t + 1, free =>
    match atOrAfter free (f0 + 16 * (n - (t + 1)) / n) with
    | none => []
    | some x => x :: spread f0 n t (free.erase x)

/-- `n` purlin shares over the purlins in order. -/
def purPlace (s : State) (p : Pool) : List Nat → (n : Nat) → List (Nat × Nat)
  | [], _ => []
  | k :: r, n =>
    let free := freePur s p k
    let m := min n free.length
    (spread (free.headD 0) m m free).map (fun i => (k, i)) ++ (if m == n then [] else purPlace s p r (n - m))

/-- Pairs in ascending order of needle and slot, or of purlin and position. -/
def insertPair (x : Nat × Nat) : List (Nat × Nat) → List (Nat × Nat)
  | [] => [x]
  | y :: r => if x.1 < y.1 || (x.1 == y.1 && x.2 ≤ y.2) then x :: y :: r else y :: insertPair x r

def sortPairs (l : List (Nat × Nat)) : List (Nat × Nat) := l.foldr insertPair []

def insertNat (x : Nat) : List Nat → List Nat
  | [] => [x]
  | y :: r => if x ≤ y then x :: y :: r else y :: insertNat x r

def sortNats (l : List Nat) : List Nat := l.foldr insertNat []

/-- What a resized group keeps of its layout: every unit the new layout still needs, on units that are not halted. -/
structure Kept where
  serial : Option Nat
  serialSlots : List (Nat × Nat)
  ndl : List (Nat × Nat)
  work : List Nat
  lanes : List (Nat × Nat)
  ctrl : List Nat
  hsh : Option Nat
  pur : List (Nat × Nat)
  vlt : List Nat
  av : List Nat
deriving DecidableEq, Repr

def Kept.none : Kept := ⟨Option.none, [], [], [], [], [], Option.none, [], [], []⟩

/-- The kept serial slots of a group: those of its serial needle, with new ones beside them where it needs more. -/
def keepSerial (s : State) (p : Pool) (old : Layout) (m : Nat) : Option (Nat × List (Nat × Nat)) :=
  match old.serialNow with
  | Option.none => Option.none
  | some k =>
    let mine := (old.ndl.filter (fun x => x.1 == k)).map (·.2)
    let free := freeNdl s p k
    let all := (List.range 128).filter (fun i => free.contains i)
    let pick := match firstApart (mine.filter (fun i => free.contains i)) m with
      | some l => some l
      | Option.none => firstApart all m
    if m == 0 || needleHalted s k then Option.none else pick.map (fun l => (k, l.map (fun i => (k, i))))

/-- The pool here already excludes the slice's own units, so that kept ones count as free until they are taken. -/
def keepGroup (s : State) (p : Pool) (old : Layout) (g : GroupCfg) : Kept :=
  let a := g.ndl - 16 * g.work
  let ser := keepSerial s p old (min a 3)
  let serSlots := match ser with
    | some x => x.2
    | Option.none => []
  let alive := old.ndl.filter (fun x => !needleHalted s x.1 && !serSlots.contains x)
  let posts := old.work.filter (fun w => !postHalted s w)
  let withLane := posts.filter (fun w => (postLane old w).length == 16 && !(postLane old w).any (fun x => needleHalted s x.1))
  let work := withLane.take g.work
  let lanes := work.flatMap (postLane old)
  let ctrlOld := old.ctrl.filter (fun w => !postHalted s w) ++ posts.filter (fun w => !work.contains w)
  { serial := ser.map (·.1), serialSlots := serSlots, ndl := alive.take (a - serSlots.length), work := work
    lanes := lanes, ctrl := ctrlOld.take g.ctrl
    hsh := match old.hsh with
      | some e => if hashHalted s e then Option.none else some e
      | Option.none => Option.none
    pur := (old.pur.filter (fun x => !purlinHalted s x.1)).take g.pur
    vlt := old.vlt.take g.vlt, av := old.av.take g.av }

/-- Work posts in ascending order, each with its lane of 16 slots (R512). -/
def sortLanes (work : List Nat) (lanes : List (Nat × Nat)) : List Nat × List (Nat × Nat) :=
  let ws := sortNats work
  (ws, ws.flatMap (fun w => (lanes.drop (16 * (work.findIdx (· == w)))).take 16))

def takeKept (p : Pool) (k : Kept) : Pool :=
  takeVlt (takePur (takePosts (takeNdl p (k.serialSlots ++ k.ndl ++ k.lanes)) (k.work ++ k.ctrl)) k.pur) (k.vlt ++ k.av)

/-- Places what a group takes newly beside what it keeps; `none` where it cannot be placed. The pool holds the kept
units of every group of the slice. -/
def placeGroup (s : State) (p : Pool) (g : GroupCfg) (k : Kept) : Option (Layout × Pool) :=
  let a := g.ndl - 16 * g.work
  let m := min a 3
  let ser := if m == 0 then some (0, ([] : List (Nat × Nat)))
    else match k.serial with
      | some n => some (n, [])
      | Option.none => (serialPlace s p m).map (fun x => (x.1, x.2.map (fun i => (x.1, i))))
  match ser with
  | Option.none => Option.none
  | some (n, newSer) =>
    let p1 := takeNdl p newSer
    let newWork := (freePosts s p1).take (g.work - k.work.length)
    let p2 := takePosts p1 newWork
    let newCtrl := (freePosts s p2).take (g.ctrl - k.ctrl.length)
    let p3 := takePosts p2 newCtrl
    match lanesFor s newWork p3 with
    | Option.none => Option.none
    | some (newLanes, p4) =>
      let have_ := k.serialSlots.length + newSer.length + k.ndl.length
      let newNdl := lowestSlots s p4 (List.range 24) (a - have_)
      let p5 := takeNdl p4 newNdl
      let h := g.hsh + g.ah
      let eng := if h == 0 then some Option.none
        else match k.hsh with
          | some e => if freeHsh s p5 e ≥ h then some (some e)
            else ((List.range 8).find? (fun e => freeHsh s p5 e ≥ h)).map some
          | Option.none => ((List.range 8).find? (fun e => freeHsh s p5 e ≥ h)).map some
      match eng with
      | Option.none => Option.none
      | some e =>
        let p6 := match e with
          | some x => takeHsh p5 x h
          | Option.none => p5
        let newPur := purPlace s p6 (List.range 8) (g.pur - k.pur.length)
        let p7 := takePur p6 newPur
        let newVlt := (freeVlt s p7).take (g.vlt - k.vlt.length)
        let p8 := takeVlt p7 newVlt
        let newAv := (freeVlt s p8).take (g.av - k.av.length)
        let p9 := takeVlt p8 newAv
        let ws := sortLanes (k.work ++ newWork) (k.lanes ++ newLanes)
        let l : Layout :=
          { serial := if m == 0 then Option.none else some n, serialNow := if m == 0 then Option.none else some n
            ndl := sortPairs (k.serialSlots ++ newSer ++ k.ndl ++ newNdl), lanes := ws.2
            work := ws.1, ctrl := sortNats (k.ctrl ++ newCtrl), hsh := e, pur := sortPairs (k.pur ++ newPur)
            vlt := sortNats (k.vlt ++ newVlt), av := sortNats (k.av ++ newAv) }
        if l.ndl.length == a && l.work.length == g.work && l.ctrl.length == g.ctrl && l.lanes.length == 16 * g.work &&
            l.pur.length == g.pur && l.vlt.length == g.vlt && l.av.length == g.av then some (l, p9) else Option.none

/-- Places the groups of a slice one after another. -/
def placeGroups (s : State) : List (GroupCfg × Kept) → Pool → Option (List Layout)
  | [], _ => some []
  | (g, k) :: r, p => match placeGroup s p g k with
    | Option.none => Option.none
    | some x => (placeGroups s r x.2).map (fun l => x.1 :: l)

/-- The layout of a slice's record, keeping what its groups hold. -/
def placeSlice (s : State) (slice : Nat) (cfg : SliceCfg) : Option (List Layout) :=
  let x := getSlice s slice
  let p0 := usedPool s (some slice)
  let keeps := (List.range cfg.groups.length).map (fun i =>
    match cfg.groups[i]?, x.layouts[i]? with
    | some g, some l => keepGroup s p0 l g
    | _, _ => Kept.none)
  placeGroups s (cfg.groups.zip keeps) (keeps.foldl takeKept p0)

/-! ### The checks of a record (R290, R294) -/

/-- The queue ranges are disjoint and together cover the ids below the pair count. -/
def queuesOk (c : SliceCfg) : Bool :=
  (List.range c.pairs).all (fun q =>
    (c.groups.filter (fun g => g.firstQ ≤ q && q < g.firstQ + g.queues)).length == 1) &&
  c.groups.all (fun g => g.firstQ + g.queues ≤ c.pairs)

/-- A sum over the groups of every slice but one, and of a record in its place. -/
def sumGroups (s : State) (slice : Nat) (c : SliceCfg) (f : GroupCfg → Nat) : Nat :=
  s.slices.foldl (fun n x => if x.1 == slice then n else x.2.cfg.groups.foldl (fun m g => m + f g) n)
    (c.groups.foldl (fun m g => m + f g) 0)

def sumSlices (s : State) (slice : Nat) (c : SliceCfg) (f : SliceCfg → Nat) : Nat :=
  s.slices.foldl (fun n x => if x.1 == slice then n else n + f x.2.cfg) (f c)

/-- The capacity sums of R290. -/
def sumsOk (s : State) (slice : Nat) (c : SliceCfg) : Bool :=
  let f := sumGroups s slice c
  f (·.ndl) + s.devNdl.length ≤ 2880 && f (·.pur) + b2n s.upkeep ≤ 128 &&
  f (fun g => g.hsh + g.ah) + 32 * b2n s.upkeep ≤ 128 && f (fun g => g.vlt + g.av) ≤ vaultSchedulable s &&
  f (fun g => g.work + g.ctrl) ≤ 30 && f (·.ctxs) ≤ 4032 && sumSlices s slice c (·.egress) ≤ 512 &&
  sumSlices s slice c (·.pairs) ≤ 4096 && f (fun _ => 1) ≤ 1024 && sumSlices s slice c (·.keyQuota) ≤ 16128 &&
  f (·.linkIn) ≤ linkSlots s && f (·.linkOut) ≤ linkSlots s

/-- The first free run of `n` region units, leaving out a slice's own (R192). -/
def findUnits (s : State) (slice n : Nat) : Option Nat :=
  let taken := fun (u : Nat) => s.slices.any (fun x => x.1 != slice && x.2.cfg.vaultUnits != 0 &&
    x.2.vaultFirst ≤ u && u < x.2.vaultFirst + x.2.cfg.vaultUnits)
  let ends := 0 :: s.slices.map (fun x => x.2.vaultFirst + x.2.cfg.vaultUnits)
  (sortNats ends).find? (fun a => a + n ≤ getF s Reg.VLT_CAP_UNITS &&
    !(s.slices.any (fun x => x.1 != slice && x.2.cfg.vaultUnits != 0 && a < x.2.vaultFirst + x.2.cfg.vaultUnits &&
      x.2.vaultFirst < a + n)) && (n == 0 || !taken a))

/-- The table map meets R214: its sum is the region, TMB only in slice 0, REV at least half of TOK. -/
def tableMapOk (slice : Nat) (c : SliceCfg) : Bool :=
  let m := fun i => c.tableMap.getD i 0
  c.tableMap.foldl (· + ·) 0 == c.vaultUnits && (slice == 0 || m 4 == 0) && ceilDiv (m 0) 2 ≤ m 1

/-- The region as it stands is kept where neither its units nor its table map change. -/
def sameRegion (s : State) (slice : Nat) (c : SliceCfg) : Bool :=
  let o := (getSlice s slice).cfg
  o.vaultUnits == c.vaultUnits && o.tableMap == c.tableMap

/-- The first region unit of a record; none where its vault fields fail (reason 6). -/
def regionFirst (s : State) (slice : Nat) (c : SliceCfg) : Option Nat :=
  let held := regionRecords s slice
  if !tableMapOk slice c || c.recordLimit < held || (!sameRegion s slice c && held != 0) then Option.none
  else if sameRegion s slice c && c.vaultUnits != 0 then some (getSlice s slice).vaultFirst
  else if c.vaultUnits == 0 then some 0
  else findUnits s slice c.vaultUnits

/-- Queue `q` belongs to the same group, with the same range and PASID, in both records. -/
def sameQueue (o c : SliceCfg) (q : Nat) : Bool :=
  let at_ := fun (x : SliceCfg) => (List.range x.groups.length).findSome? (fun i => match x.groups[i]? with
    | some g => if g.firstQ ≤ q && q < g.firstQ + g.queues then some (i, g.firstQ, g.queues, g.pasid, g.pasidEn)
      else Option.none
    | Option.none => Option.none)
  at_ o == at_ c

/-- A queue is DISABLED and holds no command (R295). -/
def queueIdle (s : State) (slice q : Nat) : Bool :=
  (getQueue s slice q).st == .disabled && !s.ctxs.any (fun c => c.2.slice == slice && c.2.queue == q) &&
  !s.fetched.any (fun f => f.slice == slice && f.queue == q) &&
  !s.compls.any (fun c => c.slice == slice && c.queue == q)

/-- The queues that a resize adds, removes or moves are not all idle (reason 7). -/
def queuesBusy (s : State) (slice : Nat) (c : SliceCfg) : Bool :=
  let o := (getSlice s slice).cfg
  (List.range (max o.pairs c.pairs)).any (fun q => !sameQueue o c q && !queueIdle s slice q)

/-- The reason with which a record fails; 0 where it passes. -/
def recordReason (s : State) (slice : Nat) (c : SliceCfg) : Nat :=
  if !queuesOk c then 3
  else if !sumsOk s slice c then 4
  else if c.keyQuota < heldSlots s slice then 5
  else if (regionFirst s slice c).isNone then 6
  else if queuesBusy s slice c then 7
  else 0

end Sys2Proof.Machine
end

