-- ==== Sys2Proof/Machine/Lms.lean ====
section
/-!
DEFINITION. The LMS state block (10_seam_signatures R237–R246, R254): requests, pairs and references, reservation and
its log, the tree caches, and the assignment of indices.
-/
namespace Sys2Proof.Machine
open Sys2Proof

def setLms (s : State) (l : Lms) : State := { s with lms := l }

/-! ### What LMS_STAT shows -/

/-- Tree records of a set (R242). -/
def treeRecords (set : Nat) : Nat := if set == 1 then 3 else 1

/-- A pair has no available index while its next block is unbuilt (LAG). -/
def pairLags (p : SeamPair) : Bool := p.st == .ready && availIndices p == 0 && p.builtTo * 1024 ≤ p.next

/-- LMS_STAT follows the pairs; LAG's rise sets its event. -/
def lmsSync (s : State) : State :=
  let ps := s.lms.pairs.map (·.2)
  let lag := ps.any pairLags
  let s1 := setFlag s Reg.LMS_STAT_READY (s.lms.booted && ps.all (fun p => p.cached || p.st == .building))
  let s2 := setFlag s1 Reg.LMS_STAT_LOG_OK (s.lms.booted && !srcPending s srcLmsLog)
  let s3 := if lag && !flag s2 Reg.LMS_STAT_LAG then event s2 Reg.LMS_EVT_LAG else s2
  let s4 := setF (setFlag s3 Reg.LMS_STAT_LAG lag) Reg.LMS_STAT_PAIRS (ps.filter (fun p => p.st != .building)).length
  setF s4 Reg.LMS_STAT_TREES (64 - s.lms.trees)

/-! ### The log ring (R242) -/

def lrCreate : Nat := 1
def lrReserve : Nat := 2
def lrCarry : Nat := 3
def lrRetire : Nat := 4

/-- A record of 32 bytes; its key is derived from L1 (notes/assumptions/6.md). -/
def lmsRecord (typ set pair serial block seq : Nat) : Bytes :=
  let b := leBytes 1 typ ++ leBytes 1 set ++ leBytes 1 (pair - 128) ++ zeros 1 ++ leBytes 4 serial ++ leBytes 8 block ++
    leBytes 8 seq
  b ++ (l1Mac "LMSLOG" b).take 8

/-- Records that the ring holds. -/
def ringRecords : Nat := 393216

def pushRecord (s : State) (typ set pair serial block : Nat) : State :=
  setLms s { s.lms with log := lmsRecord typ set pair serial block s.lms.logSeq :: s.lms.log
                        logSeq := s.lms.logSeq + 1 }

/-- The latest record of a pair in a list that runs newest first. -/
def latestFor (log : List Bytes) (pair serial : Nat) : Option Bytes :=
  log.find? (fun r => byteAt r 2 + 128 == pair && leAt r 4 4 == serial)

/-- Before the oldest ring block of 2,048 records is erased, latest records in it are carried to the head. -/
def eraseOldest (s : State) : State :=
  let keep := s.lms.log.take (s.lms.log.length - 2048)
  let old := s.lms.log.drop (s.lms.log.length - 2048)
  s.lms.pairs.foldl (fun s p =>
    match latestFor keep p.1 p.2.serial, latestFor old p.1 p.2.serial with
    | none, some r => pushRecord s lrCarry (byteAt r 1) p.1 p.2.serial (leAt r 8 8)
    | _, _ => s) (setLms s { s.lms with log := keep })

/-- Writes a record at the head of the ring. -/
def writeLog (s : State) (typ set pair serial block : Nat) : State :=
  let s1 := if s.lms.log.length ≥ ringRecords then eraseOldest s else s
  pushRecord s1 typ set pair serial block

/-! ### Requests (R237, R254) -/

/-- A request ends: DONE, or ERROR with its code. -/
def reqEnd (s : State) (err : Nat) : State :=
  event (setF (setF s Reg.LMS_REQ_STAT_STATE (if err == 0 then 2 else 3)) Reg.LMS_REQ_STAT_ERR err) Reg.LMS_EVT_REQ_DONE

def reqBusy (s : State) : Bool := getF s Reg.LMS_REQ_STAT_STATE == 1

def reqStart (s : State) : State := setF (setF s Reg.LMS_REQ_STAT_STATE 1) Reg.LMS_REQ_STAT_ERR 0

/-- The host buffer of requests. -/
def reqAddr (s : State) : Nat := (getReg s Reg.LMS_REQ_ADDR_LO).toNat + (getReg s Reg.LMS_REQ_ADDR_HI).toNat * 2 ^ 32

/-- The lifecycle and L2 allow requests. -/
def lmsServed (s : State) : Bool :=
  (lcyState s == lcyProvisioned || lcyState s == lcyOperational) && flag s Reg.KST_STAT_DOMAIN

/-- The quota and the pool have room for a reference. -/
def refRoom (s : State) (slice : Nat) : Bool :=
  heldSlots s slice + 3 ≤ (getSlice s slice).cfg.keyQuota && (chooseSlots s 3).isSome

/-- Creates a reference in the slice's range: its block, and the system slot of a pair. Its identity is computed over
the block (R510). It is stored, so that it survives resets with its generation (R165). -/
def createRef (s : State) (slice typ : Nat) (pub : Bytes) (pair : Nat) : State × Nat :=
  match chooseSlots s 3 with
  | none => (s, 0)
  | some a =>
    let s1 := loadSlots s a 3 slice 4 slice (4 + 2 ^ 26) typ
    let k := getKey s1 a
    let s2 := setKey s1 a { k with material := pub ++ (if typ == 0x40 then leBytes 2 pair else [])
                                   ident := keyIdent s1 typ pub, recorded := true }
    let s3 := activateKey s2 a
    (putRecord s3 (recordOf s3 a), a)

def refHandle (s : State) (a : Nat) : Word := BitVec.ofNat 32 (mkHandle (getKey s a).owner a (getKey s a).gen)

/-- The lowest free slot of 130–153. -/
def freePair (s : State) : Option Nat :=
  ((List.range 24).map (· + 130)).find? (fun n => (getPair s n).isNone)

/-- The pair of a set that a slice holds. -/
def pairOf (s : State) (slice set : Nat) : Option (Nat × SeamPair) :=
  s.lms.pairs.find? (fun p => 130 ≤ p.1 && p.2.slice == slice && p.2.set == set && !p.2.retiring)

/-- The error of a GENERATE; the order of its checks is the model's (notes/assumptions/13.md). -/
def generateErr (s : State) (set slice : Nat) : Nat :=
  if !lmsServed s then 8
  else if (set != 1 && set != 2) || reqAddr s % 256 != 0 then 6
  else if (getSlice s slice).st != .active then 1
  else if (pairOf s slice set).isSome then 2
  else if (freePair s).isNone then 3
  else if s.lms.trees + treeRecords set > 64 then 4
  else if !refRoom s slice then 5
  else 0

/-- A pair with its drawn secrets, before its reference and records. -/
def newPair (st : PairSt) (set slice serial : Nat) (scalar seed : Bytes) : SeamPair :=
  { st := st, set := set, slice := slice, serial := serial, scalar := scalar, seed := seed
    pub := pubBlock set (ecPublic p384 scalar) (hssPub set seed), refSlot := none, next := 0, reservedTo := 0
    builtTo := 0, capturing := false, capTick := 0, failed := false, skip := 0, cached := false, retiring := false }

/-- GENERATE is accepted: its slot is taken, its scalar and seed are drawn. -/
def generateStart (s : State) (set slice : Nat) : State :=
  let e := generateErr s set slice
  if e != 0 then reqEnd s e
  else match freePair s with
    | none => s
    | some n =>
      let d := drawFrom childLms 88 s
      let p := newPair .building set slice 0 (beBytes 48 (ecScalar p384 (d.1.take 56))) (d.1.drop 56)
      let s1 := setPair (reqStart d.2) n p
      lmsSync (setLms s1 { s1.lms with trees := s1.lms.trees + treeRecords set, generating := some n
                                       genStart := s.tick.count })

/-- Ticks that a generation takes at least. -/
def genTicks (set : Nat) : Nat := if set == 1 then 12917000 else 6462000

/-- A pair leaves its slot: its tree records return. -/
def removePair (s : State) (n : Nat) : State :=
  match getPair s n with
  | none => s
  | some p => lmsSync (setLms s { s.lms with pairs := terase n s.lms.pairs, trees := s.lms.trees - treeRecords p.set })

/-- The next pair serial, from sill register 2 (R242). -/
def nextSerial (s : State) : Nat × State :=
  let v := (sillVal s 2 + 1) % 2 ^ 32
  (v, silStore s 2 (BitVec.ofNat 32 v))

/-- A pair becomes live in a slot with its reference: serial, CREATE record, first block to be reserved (R237, R241). -/
def pairLive (s : State) (n : Nat) (p : SeamPair) (ref : Nat) (block : Nat) : State :=
  let v := nextSerial s
  let s1 := setPair v.2 n { p with st := .ready, serial := v.1, refSlot := some ref, next := block * 1024
                                   reservedTo := block, builtTo := block + 1, cached := true }
  writeLog s1 lrCreate p.set n v.1 block

/-- The slice of a generation that runs has gone: the request fails, and nothing is created (R237). -/
def dropGeneration (s : State) (n : Nat) : State :=
  reqEnd (removePair (setLms s { s.lms with generating := none }) n) 1

/-- GENERATE_DONE: the trees are built. The block goes to the host, the reference and the CREATE record are made. -/
def generateDoneEffect (linkOk : Bool) (s : State) : State :=
  match s.lms.generating with
  | none => s
  | some n =>
    match getPair s n with
    | none => s
    | some p =>
      let s0 := setLms s { s.lms with generating := none }
      let fail := fun (e : Nat) => reqEnd (removePair s0 n) e
      if s.tick.count < s.lms.genStart + genTicks p.set then s
      else if !lmsServed s then fail 8
      else if (getSlice s p.slice).st != .active then fail 1
      else if !refRoom s p.slice then fail 5
      else if !linkOk then fail 7
      else
        let r := createRef (emit s0 (.hostWrite 0 none (reqAddr s) p.pub)) p.slice 0x40 p.pub n
        let s1 := pairLive r.1 n p r.2 0
        lmsSync (reqEnd (setReg s1 Reg.LMS_REQ_HANDLE (refHandle s1 r.2)) 0)

def execGenerateDone (linkOk : Bool) (s : State) : Host.Outcome State Fault Refusal :=
  .next (generateDoneEffect linkOk s)

/-- LOAD_PUBLIC is accepted: the block is read from the host. -/
def loadPublicStart (s : State) (slice : Nat) : State :=
  if !lmsServed s then reqEnd s 8
  else if reqAddr s % 256 != 0 then reqEnd s 6
  else if (getSlice s slice).st != .active then reqEnd s 1
  else
    let s1 := reqStart s
    emit (setLms s1 { s1.lms with loadWait := true }) (.hostRead 0 none (reqAddr s) 256)

/-- The block of a LOAD_PUBLIC arrives, or its read fails. -/
def loadPublicData (s : State) (r : ReadResult) : State :=
  if !s.lms.loadWait then s
  else
    let s0 := setLms s { s.lms with loadWait := false }
    let slice := getF s Reg.LMS_REQ_SLICE
    match r with
    | .error => reqEnd s0 7
    | .data b =>
      if !pubBlockOk b then reqEnd s0 6
      else if (getSlice s slice).st != .active then reqEnd s0 1
      else if !refRoom s slice then reqEnd s0 5
      else
        let x := createRef s0 slice 0x41 b 0
        reqEnd (setReg x.1 Reg.LMS_REQ_HANDLE (refHandle x.1 x.2)) 0

/-- A pair's reference has ended and no command holds it: the pair is zeroised and a RETIRE record is written. -/
def destroyPair (s : State) (n : Nat) : State :=
  match getPair s n with
  | none => s
  | some p => removePair (writeLog s lrRetire p.set n p.serial p.reservedTo) n

/-- DESTROY is accepted: the reference becomes RETIRED; a kerf ends it (notes/assumptions/13.md). -/
def destroyStart (s : State) : State :=
  let h := (getReg s Reg.LMS_REQ_HANDLE).toNat
  let a := hSlot h
  let k := getKey s a
  if !lmsServed s then reqEnd s 8
  else if !(handleOk s (hSlice h) h && typSeam k.typ && k.st == .active) then reqEnd s 2
  else
    let s1 := endKey s a .retired
    let s2 := if k.typ == 0x40 then
        let n := leAt k.material 256 2
        match getPair s1 n with
        | some p => setPair s1 n { p with retiring := true }
        | none => s1
      else s1
    reqStart (setLms s2 { s2.lms with destroying := some a })

/-- A public-key reference becomes EMPTY at once; a VERIFY_SEAM that names it keeps the block it was admitted with. -/
def emptyPublic (s : State) (a : Nat) : State :=
  let pub := (getKey s a).material
  let s1 := s.ctxs.foldl (fun s c =>
    if c.2.keyA.map (·.slot) == some a && eOp c.2.entry == opVerifySeam then setCtx s c.1 { c.2 with code := pub } else s) s
  dropRecord (emptyKey s1 a) a

/-- In a kerf, a DESTROY whose reference is EMPTY ends, with its pair. That of a public key is EMPTY in the next kerf. -/
def kerfDestroy (s0 : State) : State :=
  match s0.lms.destroying with
  | none => s0
  | some a =>
    let s := if (getKey s0 a).typ == 0x41 && (getKey s0 a).st == .retired then emptyPublic s0 a else s0
    if (getKey s a).st != .empty then s
    else
      let s1 := (s.lms.pairs.filter (fun p => p.2.retiring && p.2.refSlot == some a)).foldl
        (fun s p => destroyPair s p.1) s
      reqEnd (setLms s1 { s1.lms with destroying := none }) 0

/-- A write of LMS_REQ: its fields are stored; GO starts a request unless one runs. -/
def lmsReqWrite (s0 : State) (v : Word) : State :=
  let s := raiseMgmt s0 5
  if reqBusy s then (if v.getLsbD 31 then s else setReg s Reg.LMS_REQ (v &&& 0x00007F3F#32))
  else
    let s1 := setReg s Reg.LMS_REQ (v &&& 0x00007F3F#32)
    if !v.getLsbD 31 then s1
    else match getF s1 Reg.LMS_REQ_OP with
      | 1 => generateStart s1 (getF s1 Reg.LMS_REQ_SET) (getF s1 Reg.LMS_REQ_SLICE)
      | 2 => loadPublicStart s1 (getF s1 Reg.LMS_REQ_SLICE)
      | 3 => destroyStart s1
      | _ => reqEnd s1 6

/-- The word that a request writes to LMS_REQ. -/
def lmsReqWord (op set slice : Nat) : Word := BitVec.ofNat 32 (op + set % 4 * 2 ^ 4 + slice % 128 * 2 ^ 8 + 2 ^ 31)

def execLmsGenerate (set slice : Nat) (s : State) : Host.Outcome State Fault Refusal :=
  .next (lmsReqWrite s (lmsReqWord 1 set slice))

def execLmsLoadPublic (slice : Nat) (s : State) : Host.Outcome State Fault Refusal :=
  .next (lmsReqWrite s (lmsReqWord 2 0 slice))

def execLmsDestroy (s : State) : Host.Outcome State Fault Refusal := .next (lmsReqWrite s (lmsReqWord 3 0 0))

/-! ### Trees and reservation (R241, R244) -/

/-- A pair whose next block's bottom tree the upkeep has to build; the cache holds the current block's tree and the next
one's (R246). -/
def treeDue (p : SeamPair) : Bool :=
  p.st == .ready && p.cached && p.builtTo < p.next / 1024 + 2 && p.builtTo * 1024 < pairIndices p.set

/-- The pair that the upkeep serves: fewest available indices, then lowest slot (R244). -/
def servedPair (s : State) : Option (Nat × SeamPair) :=
  (s.lms.pairs.filter (fun p => treeDue p.2)).foldl (fun b p => match b with
    | none => some p
    | some x => if availIndices p.2 < availIndices x.2 then some p else b) none

/-- Hash engines in service: each gives the upkeep 4 shares, 16 compressions per tick (R230). -/
def liveHash (s : State) : List Nat := (List.range 8).filter (fun e => !hashHalted s e)

/-- Compressions of a bottom tree with its root's signature, and the ticks they take at least (R244). -/
def treeWork : Nat := 806910 + 768
def treeTicks (s : State) : Nat := ceilDiv treeWork (16 * (liveHash s).length)

/-- The upkeep's compressions, spread evenly over the engines in service. -/
def upkeepHash (s : State) (n : Nat) : State :=
  (liveHash s).foldl (fun s e => { s with opCounts := bumpAt s.opCounts (16 + e) (n / (liveHash s).length) }) s

/-- BOTTOM_TREE_BUILT: the upkeep has built the bottom tree of a pair's next block and signed its root: the pair is the
one it serves, and its shares have had the ticks that a tree takes. -/
def bottomTreeBuiltEffect (pair : Nat) (s : State) : State :=
  match servedPair s with
  | none => s
  | some (n, p) =>
    if n == pair && !(liveHash s).isEmpty && s.lms.workEnd + treeTicks s ≤ s.tick.count then
      let s1 := setPair s pair { p with builtTo := p.builtTo + 1 }
      lmsSync (upkeepHash (setLms s1 { s1.lms with workEnd := s1.tick.count }) treeWork)
    else s

def execBottomTreeBuilt (pair : Nat) (s : State) : Host.Outcome State Fault Refusal :=
  .next (bottomTreeBuiltEffect pair s)

/-- The next block's RESERVE record is due: its tree is built, and the block before it has at most 512 unassigned
indices. -/
def captureDue (p : SeamPair) : Bool :=
  p.st == .ready && p.cached && !p.capturing && p.reservedTo < p.builtTo && p.reservedTo * 1024 < pairIndices p.set &&
  p.reservedTo * 1024 ≤ p.next + 512

/-- RESERVE_CAPTURE of a pair. -/
def reserveCaptureEffect (pair : Nat) (s : State) : State :=
  match getPair s pair with
  | none => s
  | some p => if captureDue p then setPair s pair { p with capturing := true, capTick := s.tick.count } else s

def execReserveCapture (pair : Nat) (s : State) : Host.Outcome State Fault Refusal :=
  .next (reserveCaptureEffect pair s)

/-- RESERVE_PROGRAMMED: the captured record's programming ends. A failure raises LMS_LOG; the pair's indices then end
with the last block until a later record succeeds. -/
def reserveProgrammedEffect (pair : Nat) (ok : Bool) (s : State) : State :=
  match getPair s pair with
  | none => s
  | some p =>
    if !p.capturing then s
    else if ok then
      let s1 := writeLog s lrReserve p.set pair p.serial p.reservedTo
      lmsSync (setPair s1 pair { p with capturing := false, failed := false, reservedTo := p.reservedTo + 1 })
    else
      let s1 := setPair s pair { p with capturing := false, failed := true }
      lmsSync (firePlain (event s1 Reg.LMS_EVT_LOG_FAIL) srcLmsLog none)

def execReserveProgrammed (pair : Nat) (ok : Bool) (s : State) : Host.Outcome State Fault Refusal :=
  .next (reserveProgrammedEffect pair ok s)

/-- In each kerf, a record captured 256 ticks ago is programmed (R241), and every record that is due is captured. -/
def kerfCapture (s : State) : State :=
  let s1 := s.lms.pairs.foldl (fun s p =>
    if p.2.capturing && p.2.capTick + 256 ≤ s.tick.count then reserveProgrammedEffect p.1 true s else s) s
  s1.lms.pairs.foldl (fun s p => if p.2.failed then s else reserveCaptureEffect p.1 s) s1

/-- CACHE_REBUILT: the upkeep has rebuilt a pair's cache after boot or import, one pair at a time in slot order, with `bad`
tree records that failed their CMAC (R246). The tree of the block at which the pair resumes is built with it. -/
def cacheRebuiltEffect (pair bad : Nat) (s : State) : State :=
  match getPair s pair with
  | none => s
  | some p =>
    if p.cached || p.st == .building || !running s ||
        s.lms.pairs.any (fun x => x.1 < pair && !x.2.cached && x.2.st != .building) then s
    else
      let s1 := setPair s pair { p with cached := true, builtTo := max p.builtTo (p.next / 1024 + 1) }
      lmsSync (countF s1 Reg.LMS_TREE_BAD_N (min bad (treeRecords p.set)))

def execCacheRebuilt (pair bad : Nat) (s : State) : Host.Outcome State Fault Refusal :=
  .next (cacheRebuiltEffect pair bad s)

/-! ### Boot (R243, R250) -/

/-- A record of the ring whose CMAC is good; one that was torn is ignored. -/
def ringRecordOk (r : Bytes) : Bool :=
  r.length == 32 && sub r 24 8 == (l1Mac "LMSLOG" (r.take 24)).take 8

/-- The first block that the ring records no reservation for: the block after the highest of a pair's RESERVE and CARRY
records; CREATE names the first block that is not yet reserved (DEDUCED: notes/assumptions/90.md). -/
def ringBlock (log : List Bytes) (pair serial : Nat) : Nat :=
  (log.filter (fun r => ringRecordOk r && byteAt r 2 + 128 == pair && leAt r 4 4 == serial && byteAt r 0 != lrRetire)).foldl
    (fun m r => max m (leAt r 8 8 + (if byteAt r 0 == lrCreate then 0 else 1))) 0

/-- A live pair resumes at the block after the highest recorded for it; the indices it skips are counted. -/
def resumePair (log : List Bytes) (slot : Nat) (p : SeamPair) : SeamPair :=
  let b := ringBlock log slot p.serial
  let n := b * 1024
  { p with st := if p.st == .ready && pairIndices p.set ≤ n then .exhausted else p.st
           next := max p.next n, skip := min (p.skip + (n - p.next)) 0xFFFFFFFF, reservedTo := b, builtTo := b
           cached := false, capturing := false, failed := false }

/-- The device attestation pair, derived from L1 (notes/assumptions/6.md). -/
def devicePair : SeamPair :=
  { newPair .ready 2 0 0 attestScalar attestSeed with
    builtTo := 1 }

/-- The LMS state block reads the ring: generations cut off are gone, pairs resume, the device pair is derived. -/
def lmsBoot (s : State) : State :=
  let live := s.lms.pairs.filter (fun p => p.2.st != .building)
  let ps := live.map (fun p => (p.1, resumePair s.lms.log p.1 p.2))
  let gone := (s.lms.pairs.filter (fun p => p.2.st == .building)).foldl (fun n p => n + treeRecords p.2.set) 0
  let l := { s.lms with pairs := ps, trees := s.lms.trees - gone, generating := none, loadWait := false
                        destroying := none, booted := true, workEnd := s.tick.count }
  let dev := (tfind ps 128).isSome
  let left := fun (p : SeamPair) => pairIndices p.set - p.next
  let low := live.any (fun p => 2 ^ 20 ≤ left p.2 && left (resumePair s.lms.log p.1 p.2) < 2 ^ 20)
  lmsSync (setLms (if low then event s Reg.LMS_EVT_LOW else s)
    (if dev then l else { l with pairs := tinsert 128 { devicePair with cached := false } ps, trees := l.trees + 1 }))

/-! ### Assignment (R239) -/

/-- The next index of a command's pair. -/
def assignIndex (s : State) (n : Nat) (c : Ctx) : State :=
  match c.lmsPair with
  | none => s
  | some q =>
    match getPair s q with
    | none => s
    | some p =>
      let left := pairIndices p.set - (p.next + 1)
      let s1 := setPair s q { p with next := p.next + 1, st := if left == 0 then .exhausted else p.st }
      let s2 := if left + 1 == 2 ^ 20 then event s1 Reg.LMS_EVT_LOW else s1
      lmsSync (setCtx s2 n { c with lmsIndex := some p.next })

/-- Running commands whose first purlin-tick is the coming tick. One whose failure was decided at admission, or that
holds ST_ENTROPY_FAILED, is assigned no index. -/
def assignDue (s : State) (p : Nat) : List (Nat × Ctx) :=
  let t := s.tick.count
  s.ctxs.filter (fun c => c.2.cls == clPurlin + p && c.2.lmsPair.isSome && c.2.lmsIndex.isNone &&
    c.2.phase == .running && !c.2.refused && c.2.status == 0 && c.2.adminDone.isNone &&
    c.2.fail.map (·.1) != some stEntropyFailed && unitsThrough c.2 t == 0 && unitsThrough c.2 (t + 1) != 0)

/-- Step 6: indices are assigned, in ascending purlin index. -/
def kerfAssign (s : State) : State :=
  (List.range 8).foldl (fun s p => (assignDue s p).foldl (fun s c => assignIndex s c.1 c.2) s) s

end Sys2Proof.Machine
end

