-- ==== Sys2Proof/Machine/Slices.lean ====
section
/-!
DEFINITION. Slices (13_slices R286–R304, R81): creation, resizing, quiesce, resume, reset, destruction, the functions
that enable them, and the dirty-page logs. A change is staged by its command and commits in step 4 of a kerf.
-/
namespace Sys2Proof.Machine
open Sys2Proof

/-! ### A slice's queues, plans and groups -/

/-- Data queue ids of a slice. -/
def dataQueues (s : State) (slice : Nat) : List Nat := List.range (getSlice s slice).cfg.pairs

/-- Every data queue of a slice that is in one state goes to another. -/
def moveQueues (s : State) (slice : Nat) (a b : QState) : State :=
  (dataQueues s slice).foldl (fun s q =>
    let x := getQueue s slice q
    if x.st == a then setQueue s slice q { x with st := b } else s) s

/-- Every data queue of a slice takes its reset values: DISABLED (R81, R298). -/
def resetQueues (s : State) (slice : Nat) : State :=
  { s with queues := s.queues.filter (fun q => q.1 / 512 != slice || q.1 % 512 == adminQ) }

/-- The slice's plan entries are withdrawn (R25, R296). -/
def withdrawPlans (s : State) (slice : Nat) : State :=
  { s with plans := s.plans.filter (fun p => p.1 / 16 / 32 != slice)
           ghosts := s.ghosts.filter (fun c => c.slice != slice)
           ctrlUse := s.ctrlUse.filter (fun p => p.1 % 4096 / 32 != slice)
           compEnd := s.compEnd.filter (fun p => p.1 / 2 / 32 != slice) }

/-- Global queue-group numbers of a slice. -/
def sliceGids (s : State) (slice : Nat) : List Nat :=
  (List.range (getSlice s slice).cfg.groups.length).map (gidOf slice)

/-- The slice's children end, and wait for instantiation again (R262). -/
def renewChildren (s : State) (slice : Nat) : State :=
  let gs := sliceGids s slice
  let mine := fun (g : Nat) => g / 32 == slice
  childSync { s with rng := { s.rng with children := s.rng.children.filter (fun g => !mine g)
                                         drbgs := s.rng.drbgs.filter (fun d => !mine d.1 || 4096 ≤ d.1)
                                         wanting := sortNats (s.rng.wanting.filter (fun g => !mine g) ++ gs) } }

/-! ### Committing a layout (R45, R291, R295) -/

/-- What a group gives up of one class, until the last tick `t` planned under its old layout; `key` is the plan. -/
def gaveUp (t key : Nat) (ndl : List (Nat × Nat)) (posts : List Nat) (pur : List (Nat × Nat)) (hsh : Option (Nat × Nat))
    (vlt : List Nat) : List Returning :=
  if ndl.isEmpty && posts.isEmpty && pur.isEmpty && vlt.isEmpty && (match hsh with | some x => x.2 == 0 | none => true)
  then [] else [⟨t, key, ndl, posts, pur, hsh, vlt⟩]

/-- The plan of a class counts as planned under an earlier allotment from now on (`f` of R40). -/
def pushPlan (s : State) (gid cls : Nat) : State :=
  let p := getPlan s gid cls
  if p.last == 0 && p.f == 0 then s else setPlan s gid cls ⟨max p.f p.last, max p.f p.last, 0⟩

/-- The last tick that a group's plan of a class, or its companion phases, reach. -/
def planEnd (s : State) (gid cls : Nat) : Nat := let p := getPlan s gid cls; max p.f p.last

/-- The last tick in which a control share of a group is taken. -/
def ctrlEnd (s : State) (gid : Nat) : Nat :=
  s.ctrlUse.foldl (fun m e => if e.1 % 4096 == gid then max m (e.1 / 4096) else m) 0

/-- Hash shares that a layout and its entry hold. -/
def hashHeld (l : Layout) (g : GroupCfg) : Option (Nat × Nat) :=
  match l.hsh with
  | some e => some (e, g.hsh + g.ah)
  | none => none

/-- Hash shares given up. -/
def hashLost (o n : Option (Nat × Nat)) : Option (Nat × Nat) :=
  match o, n with
  | some a, some b => if a.1 == b.1 then (if b.2 < a.2 then some (a.1, a.2 - b.2) else none) else some a
  | some a, none => some a
  | none, _ => none

def Layout.empty : Layout := ⟨none, none, [], [], [], [], none, [], [], []⟩

/-- One group changes its layout: the classes whose units change start a new allotment, and what it gives up
returns once the old plan has run. -/
def regroup (s : State) (gid : Nat) (o n : Layout) (og ng : GroupCfg) : State :=
  let classes := (if o.ndl == n.ndl && o.serial == n.serial then [] else [clNeedle]) ++
    (if o.work == n.work && o.lanes == n.lanes then [] else [clPost]) ++
    (if o.hsh == n.hsh && og.hsh == ng.hsh then [] else [clHash]) ++
    (if o.vlt == n.vlt then [] else [clVault]) ++
    ((List.range 8).filter (fun p => o.pur.filter (·.1 == p) != n.pur.filter (·.1 == p))).map (clPurlin + ·)
  let s1 := classes.foldl (fun s c => pushPlan s gid c) s
  let lost := fun (a b : List (Nat × Nat)) => a.filter (fun x => !b.contains x)
  let lostN := fun (a b : List Nat) => a.filter (fun x => !b.contains x)
  let held := n.work ++ n.ctrl
  let key := planKey gid
  let back :=
    gaveUp (planEnd s1 gid clNeedle) (key clNeedle) (lost o.ndl n.ndl) [] [] none [] ++
    gaveUp (planEnd s1 gid clPost) (key clPost) (lost o.lanes n.lanes) (lostN o.work held) [] none [] ++
    gaveUp (ctrlEnd s1 gid) (key clNone) [] (lostN o.ctrl held) [] none [] ++
    gaveUp (max (planEnd s1 gid clHash) (tget 0 s1.compEnd (2 * gid + 1))) (key clHash) [] [] []
      (hashLost (hashHeld o og) (hashHeld n ng)) [] ++
    gaveUp (planEnd s1 gid clVault) (key clVault) [] [] [] none (lostN o.vlt (n.vlt ++ n.av)) ++
    gaveUp (tget 0 s1.compEnd (2 * gid)) (key clNone) [] [] [] none (lostN o.av (n.vlt ++ n.av)) ++
    (List.range 8).flatMap (fun p =>
      gaveUp (planEnd s1 gid (clPurlin + p)) (key (clPurlin + p)) [] [] (lost (o.pur.filter (·.1 == p)) n.pur) none [])
  { s1 with returning := s1.returning.filter (fun r => s1.tick.count < r.until_) ++
      back.filter (fun r => s1.tick.count < r.until_) }

/-- Group indices that one of two records names. -/
def groupSpan (a b : SliceCfg) : List Nat := List.range (max a.groups.length b.groups.length)

/-- A record and its layout commit: every group's change, the children of new and removed groups, the region. -/
def commitCfg (s : State) (slice : Nat) (cfg : SliceCfg) (ls : List Layout) (first : Nat) : State :=
  let x := getSlice s slice
  let s := { s with gates := { s.gates with changed := true } }
  let s1 := (groupSpan x.cfg cfg).foldl (fun s g =>
    regroup s (gidOf slice g) (x.layouts.getD g Layout.empty) (ls.getD g Layout.empty)
      (x.cfg.groups.getD g GroupCfg.zero) (cfg.groups.getD g GroupCfg.zero)) s
  let new := ((List.range cfg.groups.length).filter (fun g => x.cfg.groups.length ≤ g)).map (gidOf slice)
  let gone := ((List.range x.cfg.groups.length).filter (fun g => cfg.groups.length ≤ g)).map (gidOf slice)
  let s2 := childSync { s1 with rng := { s1.rng with
    children := s1.rng.children.filter (fun g => !gone.contains g)
    drbgs := s1.rng.drbgs.filter (fun d => !gone.contains d.1)
    wanting := sortNats (s1.rng.wanting.filter (fun g => !gone.contains g) ++ new) } }
  let s3 := setSlice s2 slice { x with cfg := cfg, layouts := ls, vaultFirst := first, stagedCfg := none }
  if cfg.vaultUnits == 0 && (getChain s3 slice).st != .none then setChainSt s3 slice .none else s3

/-- What a creation draws and resets (R295): the slice master key in slot n, its record, the slice identity. -/
def newSlice (s : State) (slice : Nat) : State :=
  let d := drawFrom childPosts 48 (restoreLink s slice)
  let key := d.1.take 32
  let s1 := setKey d.2 slice { KeySlot.empty with
    st := .active, level := 3, owner := slice, parent := 0, attr := 3, typ := 3, material := key
    ident := keyIdent d.2 3 key, gen := (getKey d.2 slice).gen, recorded := true }
  let s2 := putRecord s1 (recordOf s1 slice)
  let x := getSlice s2 slice
  setSlice s2 slice { x with identity := d.1.drop 32, exportSerial := 0, hourOffset := 0 }

/-- ACTIVE where the device runs and the function is enabled, DORMANT otherwise (R287). -/
def restSt (s : State) (slice : Nat) : SliceSt :=
  if running s && (getSlice s slice).fnEn then .active else .dormant

/-- A staged creation or resize in step 4 of a kerf: it commits, waits for returning capacity, or fails. -/
def commitStaged (s : State) (slice : Nat) : State :=
  let x := getSlice s slice
  match x.stagedCfg with
  | none => s
  | some (cfg, n) =>
    let drop := setSlice s slice { x with stagedCfg := none }
    let r := recordReason s slice cfg
    if r != 0 then sliceFail drop n r []
    else match placeSlice s slice cfg, regionFirst s slice cfg with
      | some ls, some first =>
        let s1 := if x.st == .none then newSlice s slice else s
        let s2 := commitCfg s1 slice cfg ls first
        let s3 := if x.st == .none then setSlice s2 slice { (getSlice s2 slice) with st := restSt s2 slice } else s2
        adminOk (event s3 Reg.SLC_EVT_COMMIT) n (leBytes 2 first)
      | _, _ =>
        if s.returning.any (fun t => s.tick.count < t.until_) then s else sliceFail drop n 4 []

/-! ### Staging (R81, R296–R301) -/

/-- Stages a change. Its commit is in step 4 of the next kerf. -/
def stageChange (s : State) (slice : Nat) (kind : SliceChange) (squash : Bool) (ctx : Option Nat)
    (byFlr toDormant : Bool) : State :=
  let c : StagedChange :=
    { kind := kind, squash := squash, ctx := ctx, committed := none, byFault := false, byFlr := byFlr
      toDormant := toDormant }
  setSlice s slice { (getSlice s slice) with change := some c }

/-- The commit of a staged change: unadmitted entries end, and under SQUASH every admitted command. -/
def commitChange (s : State) (slice : Nat) : State :=
  let x := getSlice s slice
  match x.change with
  | none => s
  | some c =>
    let c1 := { c with committed := some s.tick.count }
    let s1 := if c.committed.isSome then s
      else setSlice s slice { x with change := some c1, st := if c.kind == .quiesce then x.st else .changing }
    let s2 := squashFetched s1 slice
    if c.squash && c.committed.isNone then withdrawPlans (squashSlice s2 slice) slice else s2

/-- No command of the slice's data queues holds a context. -/
def noCtx (s : State) (slice : Nat) : Bool := s.ctxs.all (fun c => c.2.slice != slice || 4032 ≤ c.1)

/-- No completion of its data queues waits. -/
def noCompl (s : State) (slice : Nat) : Bool := s.compls.all (fun c => c.slice != slice || c.queue == adminQ)

/-- The admin command of a change ends with a result. -/
def endChangeCtx (s : State) (c : StagedChange) (r : CmdResult) : State :=
  match c.ctx with
  | some n => adminEnd s n r
  | none => s

/-- The result that a change gives its command: an export's was set when its package was written. -/
def changeResult (s : State) (c : StagedChange) : CmdResult :=
  match c.ctx with
  | some n => match getCtx s n with
    | some x => x.result.getD (resStatus stOk)
    | none => resStatus stOk
  | none => resStatus stOk

/-- A quiesce ends: QUIESCED, the queues HELD. -/
def endQuiesce (s : State) (slice : Nat) (c : StagedChange) : State :=
  let x := getSlice s slice
  let s1 := setSlice s slice { x with st := .quiesced, change := none
                                      cause := if x.quiesceSources.isEmpty then .command else .fault }
  endChangeCtx (moveQueues s1 slice .enabled .held) c (resStatus stOk)

/-- The slice's vault at a reset (R208): cleared, the chain held, UNLOADED. -/
def vaultReset (s : State) (slice : Nat) : State :=
  let c := getChain s slice
  if c.st == .none then s
  else setChain (clearChain s slice) slice { c with st := .unloaded, reload := none, rebase := none }

/-- The slice's vault at a destruction or export: cleared, the chain discarded and dropped from later anchors. The entry
that a standing anchor has for it names no chain any more (R208). -/
def vaultGone (s : State) (slice : Nat) : State :=
  let s1 := clearChain s slice
  let num := match lastAnchor s1 with
    | some a => a.number
    | none => 0
  { s1 with vault := { s1.vault with
    chains := terase slice s1.vault.chains
    discarded := if num == 0 then s1.vault.discarded else tinsert slice num s1.vault.discarded } }

/-- The slice master key and its record go. -/
def dropMaster (s : State) (slice : Nat) : State :=
  let k := getKey s slice
  let s1 := setKey s slice { KeySlot.empty with gen := nextGen k.gen }
  { s1 with records := s1.records.filter (fun r => r.slot != slice) }

/-- The children of a slice that is destroyed end. -/
def dropChildren (s : State) (slice : Nat) : State :=
  childSync { s with rng := { s.rng with
    children := s.rng.children.filter (fun g => g / 32 != slice)
    drbgs := s.rng.drbgs.filter (fun d => d.1 / 32 != slice || 4096 ≤ d.1)
    wanting := s.rng.wanting.filter (fun g => g / 32 != slice) } }

/-- A destruction's or export's end: the slice is NONE. -/
def sliceGone (s : State) (slice : Nat) : State :=
  let s1 := dropMaster (dropSliceRecords (zeroiseSliceKeys s slice) slice) slice
  let s2 := (s1.lms.pairs.filter (fun p => 130 ≤ p.1 && p.2.slice == slice)).foldl (fun s p =>
    if p.2.st == .building then dropGeneration s p.1 else destroyPair s p.1) s1
  let s3 := dropEnrolment (dropChildren (vaultGone s2 slice) slice) slice
  setSlice s3 slice { Slice.none with fnEn := (getSlice s slice).fnEn, busOff := (getSlice s slice).busOff }

/-- The slice's stored keys return, its master key first, unless a ZEROISE response still holds the key store; the
clear then restores them (R165, R371). -/
def returnKeys (s : State) (slice : Nat) (vault : Bool) : State :=
  let s1 := { s with faults := { s.faults with zeroSlices := s.faults.zeroSlices.filter (· != slice) } }
  if s1.faults.zeroised.isEmpty then
    let s2 := restoreSlice (restoreMaster s1 slice) slice false
    if vault then restoreSlice s2 slice true else s2
  else s1

/-- A reset's end: keys restored, layout placed again, children again, ACTIVE or DORMANT. -/
def sliceRenewed (s : State) (slice : Nat) (toDormant : Bool) : State :=
  let s1 := returnKeys (zeroiseSliceKeys s slice) slice false
  let s2 := renewChildren (vaultReset s1 slice) slice
  setSlice s2 slice { (getSlice s2 slice) with
    st := if toDormant then .dormant else restSt s2 slice
    cause := .none, change := none, quiesceSources := [], resumeStaged := none, unacked := 0 }

/-- A reset, destruction or export completes (R298). -/
def endReset (s : State) (slice : Nat) (c : StagedChange) : State :=
  let s1 := withdrawPlans (resetQueues s slice) slice
  let s2 := if c.kind == .reset then sliceRenewed s1 slice c.toDormant else sliceGone s1 slice
  let s3 := event s2 Reg.SLC_EVT_RESET_DONE
  let s4 := if c.byFlr then event (event s3 Reg.SLC_EVT_FLR) Reg.HLK_EVT_FLR else s3
  endChangeCtx s4 c (changeResult s c)

/-- How far a committed change has come: a quiesce once no context is held; the others once completions are written
too and the zero-length read behind the last host write is acknowledged (R274, R298, R299). -/
def progressChange (s : State) (slice : Nat) : State :=
  let x := getSlice s slice
  match x.change with
  | none => s
  | some c =>
    if c.committed.isNone || !noCtx s slice || c.kind == .importing then s
    else if c.kind == .quiesce then endQuiesce s slice c
    else if !noCompl s slice then s
    else if x.unacked == 0 then
      emit (setSlice s slice { x with unacked := 1 }) (.hostRead slice none 0 0)
    else if x.unacked == 1 then s
    else endReset s slice c

/-! ### Function-level resets and function enables (R287, R300, R301) -/

/-- An admin command whose effect has not committed ends with ST_SQUASHED. -/
def squashAdmin (s : State) (ctx : Option Nat) : State :=
  match ctx with
  | some n => adminEnd s n (resStatus stSquashed)
  | none => s

/-- A function-level reset, or a function disable, meets the slice as R301 lays down. -/
def flrMeets (s : State) (slice : Nat) (toDormant : Bool) : State :=
  let x := getSlice s slice
  let s1 := match x.stagedCfg with
    | some (_, n) => if x.st == .none then s
      else squashAdmin (setSlice s slice { x with stagedCfg := none }) (some n)
    | none => s
  let s2 := match x.resumeStaged with
    | some n => squashAdmin (setSlice s1 slice { (getSlice s1 slice) with resumeStaged := none }) (some n)
    | none => s1
  let y := getSlice s2 slice
  let busy := y.st == .none && y.stagedCfg.isSome
  match y.change with
  | none =>
    if busy then setSlice s2 slice { y with flr := some toDormant }
    else if y.st == .none then (if toDormant then s2 else event (event s2 Reg.SLC_EVT_FLR) Reg.HLK_EVT_FLR)
    else stageChange s2 slice .reset true none (!toDormant) toDormant
  | some c =>
    if c.kind == .quiesce then stageChange (squashAdmin s2 c.ctx) slice .reset true none (!toDormant) toDormant
    else if c.kind == .reset then
      let c1 := { c with squash := true, byFlr := c.byFlr || !toDormant, toDormant := c.toDormant || toDormant }
      let s3 := setSlice s2 slice { y with change := some c1 }
      if c.committed.isSome && !c.squash then withdrawPlans (squashSlice s3 slice) slice else s3
    else setSlice s2 slice { y with flr := some toDormant }

/-- A reset that waited for the slice's change. -/
def flrDue (s : State) (slice : Nat) : State :=
  let x := getSlice s slice
  match x.flr with
  | none => s
  | some d =>
    if x.change.isSome || (x.st == .none && x.stagedCfg.isSome) then s
    else flrMeets (setSlice s slice { x with flr := none }) slice d

/-- A function's own registers return to their defaults: its MSI-X table and pending bits, and its Bus Master Enable,
which PCIe clears (R453, R462, notes/assumptions/9.md). -/
def functionDefaults (s : State) (slice : Nat) : State :=
  let s := setSlice s slice { (getSlice s slice) with busOff := true }
  { s with msixTab := s.msixTab.filter (fun e => e.1 / 65536 != slice)
           msixPba := s.msixPba.filter (fun e => e.1 / 2048 != slice) }

/-- VF_FLR. -/
def vfFlrEffect (slice : Nat) (s : State) : State :=
  if slice == 0 || 127 < slice || s.faults.safe then s
  else flrMeets (functionDefaults (countF s Reg.HLK_RST_VF_FLR 1) slice) slice false

def execVfFlr (slice : Nat) (s : State) : Host.Outcome State Fault Refusal := .next (vfFlrEffect slice s)

/-- A function is disabled: its slice ends DORMANT. -/
def disableFn (s : State) (slice : Nat) : State :=
  let x := getSlice s slice
  if !x.fnEn || s.faults.safe then s
  else
    let s1 := functionDefaults (setSlice s slice { x with fnEn := false }) slice
    if x.st == .none && x.change.isNone then s1 else flrMeets s1 slice true

/-- VF_ENABLE_CLEAR: the virtual functions above a number are disabled (0 where VF Enable is cleared). -/
def vfEnableClearEffect (numVfs : Nat) (s : State) : State :=
  ((List.range 128).filter (fun k => 1 ≤ k && numVfs < k)).foldl disableFn s

def execVfEnableClear (numVfs : Nat) (s : State) : Host.Outcome State Fault Refusal :=
  .next (vfEnableClearEffect numVfs s)

/-- VF_ENABLE_SET: the virtual functions up to a number are enabled; their DORMANT slices become ACTIVE in the next
kerf. -/
def vfEnableSetEffect (numVfs : Nat) (s : State) : State :=
  ((List.range 128).filter (fun k => 1 ≤ k && k ≤ numVfs)).foldl (fun s k =>
    setSlice s k { (getSlice s k) with fnEn := true }) s

def execVfEnableSet (numVfs : Nat) (s : State) : Host.Outcome State Fault Refusal := .next (vfEnableSetEffect numVfs s)

/-- FLR_TIMEOUT: 100 ms after an FLR, what holds the reset is abandoned (R300): the host write, and completions that
cannot be written to a full or stopped queue (notes/assumptions/14.md). -/
def flrTimeoutEffect (slice : Nat) (s : State) : State :=
  let x := getSlice s slice
  match x.change with
  | none => s
  | some c =>
    if !(c.byFlr && c.kind == .reset && c.committed.isSome) then s
    else
      let mine := fun (e : Completion) => e.slice == slice && e.queue != adminQ
      let s1 := { s with
        compls := s.compls.filter (fun e => !mine e)
        ctxs := s.ctxs.filter (fun e => !(e.2.slice == slice && e.1 < 4032 && e.2.phase != .running)) }
      let s2 := if x.unacked == 1 then countF s1 Reg.SHT_HOST_CNT_N 1 else s1
      setSlice s2 slice { (getSlice s2 slice) with unacked := 2 }

def execFlrTimeout (slice : Nat) (s : State) : Host.Outcome State Fault Refusal := .next (flrTimeoutEffect slice s)

/-- The zero-length read is answered; one that fails is counted, and the reset still completes (R274). -/
def flushData (s : State) (slice : Nat) (r : ReadResult) : State :=
  let x := getSlice s slice
  if x.unacked != 1 then s
  else
    let s1 := match r with
      | .error => countF s Reg.SHT_HOST_CNT_N 1
      | .data _ => s
    setSlice s1 slice { (getSlice s1 slice) with unacked := 2 }

/-! ### Step 4 of the kerf -/

/-- A DORMANT slice whose function is enabled becomes ACTIVE while the device runs. -/
def activateSlice (s : State) (slice : Nat) : State :=
  let x := getSlice s slice
  if x.st == .dormant && x.fnEn && running s && x.change.isNone then setSlice s slice { x with st := .active } else s

/-- A RESUME takes effect: the queues return to ENABLED, and keys that a ZEROISE response took return (R371). -/
def commitResume (s : State) (slice : Nat) : State :=
  let x := getSlice s slice
  match x.resumeStaged with
  | none => s
  | some n =>
    let s1 := setSlice s slice { x with st := .active, cause := .none, resumeStaged := none, quiesceSources := [] }
    let s2 := if s1.faults.zeroSlices.contains slice then returnKeys s1 slice true else s1
    adminOk (moveQueues s2 slice .held .enabled) n []

/-- One slice in step 4. -/
def kerfSlice (s : State) (slice : Nat) : State :=
  activateSlice (flrDue (progressChange (commitChange (commitResume (commitStaged s slice) slice) slice) slice) slice)
    slice

/-- Slice numbers that hold anything. -/
def sliceNums (s : State) : List Nat := s.slices.map (·.1)

/-! ### The admin commands (R293–R299) -/

def cSlice (c : Ctx) : Nat := bitsAt (eParam c.entry) 0 7

/-- The record of a creation or resize is checked and staged. -/
def stageRecord (s : State) (n slice : Nat) (c : Ctx) (repeats : Bool) : State :=
  match parseCfg c.src with
  | none => sliceFail s n 2 []
  | some cfg =>
    let x := getSlice s slice
    if repeats && cfg.migratable != x.cfg.migratable then sliceFail s n 2 []
    else
      let r := recordReason s slice cfg
      if r != 0 then sliceFail s n r []
      else adminTaken (setSlice s slice { x with stagedCfg := some (cfg, n) }) n 1

/-- SLICE_CREATE. -/
def sliceCreateEffect (n : Nat) (s : State) : State :=
  match adminCtx s n opSliceCreate with
  | none => s
  | some c =>
    let k := cSlice c
    if c.done != 0 then s
    else if !slicesServed s then sliceFail s n 8 []
    else if k == 0 || (getSlice s k).st != .none then sliceFail s n 1 []
    else withSource s n c (fun s c => stageRecord s n k c false)

def execSliceCreate (ctx : Nat) (s : State) : Host.Outcome State Fault Refusal := .next (sliceCreateEffect ctx s)

/-- SLICE_RESIZE. -/
def sliceResizeEffect (n : Nat) (s : State) : State :=
  match adminCtx s n opSliceResize with
  | none => s
  | some c =>
    let k := cSlice c
    let st := (getSlice s k).st
    if c.done != 0 then s
    else if !slicesServed s then sliceFail s n 8 []
    else if st == .none || st == .changing then sliceFail s n 1 []
    else withSource s n c (fun s c => stageRecord s n k c true)

def execSliceResize (ctx : Nat) (s : State) : Host.Outcome State Fault Refusal := .next (sliceResizeEffect ctx s)

/-- SLICE_QUIESCE. While another change of the slice runs, it waits (R301). -/
def sliceQuiesceEffect (n : Nat) (s : State) : State :=
  match adminCtx s n opSliceQuiesce with
  | none => s
  | some c =>
    let k := cSlice c
    let x := getSlice s k
    if c.done != 0 || aResume c.entry then s
    else if !slicesServed s then sliceFail s n 8 []
    else if x.change.isSome then s
    else if x.st == .quiesced then adminOk s n []
    else if x.st != .active then sliceFail s n 1 []
    else adminTaken (stageChange s k .quiesce (aSquash c.entry) (some n) false false) n 1

def execSliceQuiesce (ctx : Nat) (s : State) : Host.Outcome State Fault Refusal := .next (sliceQuiesceEffect ctx s)

/-- SLICE_QUIESCE with RESUME. -/
def sliceResumeEffect (n : Nat) (s : State) : State :=
  match adminCtx s n opSliceQuiesce with
  | none => s
  | some c =>
    let k := cSlice c
    let x := getSlice s k
    if c.done != 0 || !aResume c.entry then s
    else if !slicesServed s then sliceFail s n 8 []
    else if x.change.isSome then s
    else if x.st != .quiesced then sliceFail s n 1 []
    else if x.quiesceSources.any (srcPending s) then sliceFail s n 18 []
    else adminTaken (setSlice s k { x with resumeStaged := some n }) n 1

def execSliceResume (ctx : Nat) (s : State) : Host.Outcome State Fault Refusal := .next (sliceResumeEffect ctx s)

/-- SLICE_RESET and SLICE_DESTROY. -/
def stageEnd (s : State) (n op : Nat) (kind : SliceChange) : State :=
  match adminCtx s n op with
  | none => s
  | some c =>
    let k := cSlice c
    let x := getSlice s k
    if c.done != 0 then s
    else if !slicesServed s then sliceFail s n 8 []
    else if k == 0 then sliceFail s n 1 []
    else if x.change.isSome then s
    else if x.st == .none || x.st == .changing then sliceFail s n 1 []
    else adminTaken (stageChange s k kind (aSquash c.entry) (some n) false false) n 1

def execSliceReset (ctx : Nat) (s : State) : Host.Outcome State Fault Refusal :=
  .next (stageEnd s ctx opSliceReset .reset)

def execSliceDestroy (ctx : Nat) (s : State) : Host.Outcome State Fault Refusal :=
  .next (stageEnd s ctx opSliceDestroy .destroy)

/-- SLICE_CHANGE_COMPLETE: the row of a kerf's own completion of a slice's change. -/
def execSliceChangeComplete (slice : Nat) (s : State) : Host.Outcome State Fault Refusal :=
  .next (inKerf (fun s => progressChange s slice) s)

/-! ### Dirty-page logs (R302, R304) -/

/-- Bytes of a bitmap of a window. -/
def bitmapBytes (len : Nat) : Nat := ceilDiv len (2 ^ 15)

/-- The log that a START describes. -/
def startLog (e : Bytes) : DirtyLog :=
  { base := leAt e 0x28 8, len := leAt e 0x30 8, pasid := bitsAt (leAt e 0x38 4) 0 20
    pasidEn := bitAt (leAt e 0x38 4) 20, mapA := eSrc e, mapB := eDst e, onB := false, bits := [] }

/-- The window or the bitmaps of a START are bad (reason 14). -/
def logBad (d : DirtyLog) : Bool :=
  d.base % 4096 != 0 || d.len % 4096 != 0 || d.len == 0 || 2 ^ 42 < d.len || 2 ^ 64 < d.base + d.len ||
  (d.mapA < d.mapB + bitmapBytes d.len && d.mapB < d.mapA + bitmapBytes d.len)

/-- A DIRTY_LOG of one action is checked and staged for the next kerf. -/
def stageLog (s : State) (n action : Nat) : State :=
  match adminCtx s n opDirtyLog with
  | none => s
  | some c =>
    let k := cSlice c
    let x := getSlice s k
    let l := tfind x.logs (aLogIndex c.entry)
    if c.done != 0 || aLogAction c.entry != action then s
    else if x.st == .none then sliceFail s n 1 []
    else if (if action == 0 then l.isSome || logBad (startLog c.entry) else l.isNone) then sliceFail s n 14 []
    else adminTaken s n 1

/-- The inline result of a retired bitmap: which bitmap is active now, and the bits set in the retired one. -/
def retired (active count : Nat) : Bytes := leBytes 4 active ++ leBytes 4 count

/-- The commit of a staged DIRTY_LOG in step 4. -/
def commitLog (s : State) (n : Nat) (c : Ctx) : State :=
  let k := cSlice c
  let i := aLogIndex c.entry
  let x := getSlice s k
  let put := fun (d : DirtyLog) => setSlice s k { x with logs := tinsert i d x.logs }
  match aLogAction c.entry, tfind x.logs i with
  | 0, none => if x.st == .none then sliceFail s n 1 [] else adminOk (put (startLog c.entry)) n []
  | 1, some d =>
    let r := adminEnd (put { d with onB := !d.onB, bits := [] }) n (resInline 8 (retired (b2n (!d.onB)) d.bits.length))
    event r Reg.SLC_EVT_FLIP
  | 2, some d =>
    let r := adminEnd (setSlice s k { x with logs := terase i x.logs }) n (resInline 8 (retired 2 d.bits.length))
    event r Reg.SLC_EVT_FLIP
  | _, _ => sliceFail s n 14 []

/-- Every staged DIRTY_LOG commits. -/
def kerfLogs (s : State) : State :=
  s.ctxs.foldl (fun s c =>
    if 4032 ≤ c.1 && eOp c.2.entry == opDirtyLog && c.2.done == 1 && c.2.adminDone.isNone && c.2.phase == .running
    then commitLog s c.1 c.2 else s) s

def execDirtyLogStart (ctx : Nat) (s : State) : Host.Outcome State Fault Refusal := .next (stageLog s ctx 0)
def execDirtyLogFlip (ctx : Nat) (s : State) : Host.Outcome State Fault Refusal := .next (stageLog s ctx 1)
def execDirtyLogStop (ctx : Nat) (s : State) : Host.Outcome State Fault Refusal := .next (stageLog s ctx 2)

/-- Step 4 for the slices: logs first, then each slice; the logs of a slice that has ended are gone with it. -/
def kerfSlices (s : State) : State :=
  let s1 := kerfLogs s
  admSync ((sliceNums s1).foldl kerfSlice s1)

end Sys2Proof.Machine
end

