-- ==== Sys2Proof/Machine/Migration.lean ====
section
/-!
DEFINITION. Migration (13_slices R305–R307): the offer, the export of a slice into a package, and the import of a
package. Offsets within the STATE, KEY and PAIR sections that no rule prints are the model's
(notes/assumptions/16.md).
-/
namespace Sys2Proof.Machine
open Sys2Proof

/-! ### Keys and signatures of a migration -/

/-- The domain tag over an offer or package head: AES-CMAC under a key derived from L2 (notes/assumptions/6.md). -/
def domainTag (s : State) (b : Bytes) : Bytes := cmac (padTo 32 (Config.pk 27 [(getKey s 0).material])) b

/-- The package key: SP 800-56C over both secrets, with the nonce as context; its label is not printed. -/
def packageKey (ecdh kem nonce : Bytes) : Bytes := kdf56c (ecdh ++ kem) (padTo 8 (Config.pk 29 [])) nonce 32

/-- Purlin work of admin commands has no capacity (R292). -/
def noPurlin (s : State) : Bool := freePurCount s == 0

/-- The status that keeps the device pair from signing now: exhausted, or none; `none` where it must wait. -/
def deviceSigns (s : State) : Option Nat :=
  match getPair s 128 with
  | none => none
  | some p =>
    if lastIndex p - p.next ≤ claims s 128 then some stLmsExhausted
    else if !pairUsable p || !s.faults.zeroised.isEmpty || availIndices p ≤ claims s 128 then none
    else some stOk

/-- The device pair signs with its next index. -/
def deviceSign (s : State) (msg : Bytes) : Bytes × State :=
  match getPair s 128 with
  | none => ([], s)
  | some p =>
    let r := seamSign s childPosts 128 p.next msg
    let left := pairIndices p.set - (p.next + 1)
    let s1 := if left + 1 == 2 ^ 20 then event r.2 Reg.LMS_EVT_LOW else r.2
    (r.1, lmsSync (setPair (ownPurlin s1) 128 { p with next := p.next + 1, st := if left == 0 then .exhausted else p.st }))

/-- Runs work that needs purlins and a device signature, or ends or delays the command. -/
def withDevice (s : State) (n : Nat) (work : State → State) : State :=
  if noPurlin s then adminEnd s n (resStatus stGate)
  else match deviceSigns s with
    | none => s
    | some st => if st == stOk then work s else adminEnd s n (resStatus st)

/-! ### The offer (R305) -/

/-- The offer up to its domain tag. -/
def offerHead (s : State) (nonce point ek : Bytes) : Bytes :=
  leBytes 4 1 ++ leBytes 4 9084 ++ nonce ++ deviceId s ++ leBytes 4 (devNo s) ++ zeros 4 ++ padTo 97 point ++ zeros 3 ++
    padTo 1568 ek

def oNonce (o : Bytes) : Bytes := sub o 8 16
def oPoint (o : Bytes) : Bytes := sub o 0x30 97
def oEk (o : Bytes) : Bytes := sub o 0x94 1568
def oTag (o : Bytes) : Bytes := sub o 0x6B4 16
def oCert (o : Bytes) : Bytes := sub o 0x6C4 3932

/-- SLICE_IMPORT with PHASE = OFFER. -/
def makeOffer (s : State) (n k : Nat) (c : Ctx) : State :=
  let d := drawFrom childPosts 136 s
  let nonce := d.1.take 16
  let scalar := beBytes 48 (ecScalar p384 (sub d.1 16 56))
  let seed := d.1.drop 72
  let head := offerHead s nonce (ecPublic p384 scalar) (kemPublic 2 seed)
  let body := head ++ domainTag s head ++ deviceCert
  let r := deviceSign d.2 body
  let o := body ++ padTo 3420 r.1
  let s1 := sendHost r.2 0 none (eDst c.entry) o
  let s2 := setSlice s1 k { (getSlice s1 k) with offer := some ⟨nonce, scalar, seed⟩ }
  adminEnd s2 n { resInline 9084 (leBytes 4 9084) with len := 9084 }

def sliceImportOfferEffect (n : Nat) (s : State) : State :=
  match adminCtx s n opSliceImport with
  | none => s
  | some c =>
    let k := cSlice c
    if aPhase c.entry != 0 then s
    else if !slicesServed s then sliceFail s n 8 []
    else if k == 0 || (getSlice s k).st != .none then sliceFail s n 1 []
    else withDevice s n (fun s => makeOffer s n k c)

def execSliceImportOffer (ctx : Nat) (s : State) : Host.Outcome State Fault Refusal :=
  .next (sliceImportOfferEffect ctx s)

/-! ### The package (R306) -/

def pkHeadLen : Nat := 0x6C4
def pkBodyAt : Nat := 0x1630

/-- A section: type, length, content. -/
def section_ (typ : Nat) (b : Bytes) : Bytes := leBytes 4 typ ++ leBytes 4 b.length ++ b

/-- The keys that a slice carries, in slot order: every live key but the references of its own pairs. -/
def carriedKeys (s : State) (k : Nat) : List (Nat × KeySlot) :=
  s.keys.filter (fun e => 256 ≤ e.1 && e.2.owner == k && e.2.extOf == none && e.2.typ != 0x40 &&
    (e.2.st == .active || e.2.st == .spent || e.2.st == .loaded))

def slotHandle (s : State) (a : Nat) : Nat := mkHandle (getKey s a).owner a (getKey s a).gen

/-- A KEY section's content: a header of 128 bytes, then the material. The budget carried is less the unused part of
the reserved chunks (R166). -/
def keySection (s : State) (e : Nat × KeySlot) : Bytes :=
  let k := e.2
  let b := if k.recorded then k.reserved else k.budget
  padTo 128 (leBytes 4 (slotHandle s e.1) ++ leBytes 4 (slotHandle s k.parent) ++ leBytes 1 k.level ++ leBytes 1 k.typ ++
    leBytes 2 k.ext ++ leBytes 4 0 ++ leBytes 8 k.attr ++ leBytes 8 b ++ padTo 16 k.ident ++ leBytes 8 k.ik.length ++
    padTo 8 k.ik ++ leBytes 8 k.material.length) ++ padTo (80 + 128 * k.ext) k.material

/-- A PAIR section's content. -/
def pairSection (s : State) (p : SeamPair) : Bytes :=
  padTo 384 (leBytes 4 p.set ++ leBytes 4 (slotHandle s (p.refSlot.getD 0)) ++ padTo 48 p.scalar ++ padTo 32 p.seed ++
    leBytes 4 p.serial ++ leBytes 4 0 ++ leBytes 8 p.reservedTo)

/-- The handle of the slice's live journal key; zero where it has none. -/
def journalHandle (s : State) (k : Nat) : Nat :=
  match s.keys.find? (fun e => 256 ≤ e.1 && e.2.owner == k && aPurpose e.2.attr == pJournal && e.2.st != .empty) with
  | some e => slotHandle s e.1
  | none => 0

/-- The STATE section's content. -/
def stateSection (s : State) (k : Nat) (serial : Nat) : Bytes :=
  let x := getSlice s k
  let c := getChain s k
  padTo 256 (padTo 16 x.identity ++ leBytes 8 serial ++ leBytes 8 (sliceHour s k) ++ padTo 32 (getKey s k).material ++
    leBytes 4 (journalHandle s k) ++ leBytes 4 c.epoch ++ leBytes 8 c.seq ++ padTo 16 c.link ++
    leBytes 4 (regionRecords s k) ++ leBytes 4 (b2n (c.st != .none)) ++ leBytes 8 c.rebaseSeq ++
    leBytes 8 c.doneEpoch ++ leBytes 8 c.doneSeq)

def slicePairs (s : State) (k : Nat) : List (Nat × SeamPair) :=
  s.lms.pairs.filter (fun p => 130 ≤ p.1 && p.2.slice == k && p.2.st != .building)

/-- The body of a package. -/
def packageBody (s : State) (k serial : Nat) : Bytes :=
  section_ 1 (cfgBytes (getSlice s k).cfg) ++ section_ 2 (stateSection s k serial) ++
  (carriedKeys s k).flatMap (fun e => section_ 3 (keySection s e)) ++
  (slicePairs s k).flatMap (fun p => section_ 4 (pairSection s p.2))

/-- The length of a package: header, body, tag, container. -/
def packageLen (s : State) (k : Nat) : Nat := pkBodyAt + (packageBody s k 0).length + 16 + 3420

/-- The checks of an offer by the source (R306): 16 certificate, container or keys; 15 domain tag; 0 where it passes. -/
def offerReason (s : State) (o : Bytes) : Nat :=
  let body := (oCert o).take 512
  if !(containerOk 2 roskaiPub body ((oCert o).drop 512) &&
      containerOk 2 (sub body 0x28 256) (o.take 0x1620) (o.drop 0x1620)) then 16
  else if domainTag s (o.take 0x6B4) != oTag o then 15
  else if (ecDecode p384 (oPoint o)).isNone || !kemKeyOk 2 (oEk o) then 16
  else 0

/-- The export serial advances and is persisted with the record; the package is written; an anchor is wanted (R200);
the slice's end is staged. -/
def writePackage (s : State) (n k : Nat) (c : Ctx) (o : Bytes) : State :=
  let x := getSlice s k
  let serial := x.exportSerial + 1
  let s0 := setSlice s k { x with exportSerial := serial }
  let d := drawFrom childPosts 88 s0
  let scalar := beBytes 48 (ecScalar p384 (d.1.take 56))
  let rand := d.1.drop 56
  let len := packageLen s k
  let ecdh := (ecdhSecret p384 scalar (oPoint o)).getD []
  let kem := padTo 32 (kemEncaps 2 (oEk o) rand).1
  let key := packageKey ecdh kem (oNonce o)
  let head := leBytes 4 1 ++ leBytes 4 len ++ padTo 16 x.identity ++ leBytes 8 serial ++ deviceId s ++ oNonce o ++
    padTo 97 (ecPublic p384 scalar) ++ zeros 3 ++ padTo 1568 (kemEncaps 2 (oEk o) rand).2
  let aad := head ++ domainTag s head ++ deviceCert
  let g := gcmEnc key (zeros 12) aad (packageBody d.2 k serial) 16
  let all := aad ++ g.1 ++ g.2
  let r := deviceSign d.2 all
  let s1 := sendHost r.2 0 none (eDst c.entry) (all ++ padTo 3420 r.1)
  let s2 := stageChange (setVault s1 { s1.vault with anchorWanted := true }) k .exporting true (some n) false false
  adminTaken (setCtx s2 n { c with result := some { resInline len (leBytes 8 serial ++ leBytes 4 len) with len := len } })
    n 1

/-- SLICE_EXPORT. -/
def sliceExportEffect (n : Nat) (s : State) : State :=
  match adminCtx s n opSliceExport with
  | none => s
  | some c0 =>
    let k := cSlice c0
    let x := getSlice s k
    if c0.done != 0 then s
    else if !slicesServed s then sliceFail s n 8 []
    else if k == 0 then sliceFail s n 1 []
    else if x.change.isSome then s
    else if x.st != .quiesced then sliceFail s n 1 []
    else if !x.cfg.migratable then sliceFail s n 9 []
    else withSource s n c0 (fun s c =>
      let o := c.src.take 9084
      let r := offerReason s o
      if noPurlin s then adminEnd s n (resStatus stGate)
      else if r != 0 then sliceFail s n r []
      else if eCap c.entry < packageLen s k then sliceFail s n 17 (leBytes 4 (packageLen s k))
      else withDevice s n (fun s => writePackage s n k c o))

def execSliceExport (ctx : Nat) (s : State) : Host.Outcome State Fault Refusal := .next (sliceExportEffect ctx s)

/-! ### Import (R307) -/

/-- The sections of a body: type and content. -/
def readSections : (fuel : Nat) → Bytes → List (Nat × Bytes)
  | 0, _ => []
  | f + 1, b =>
    if b.length < 8 then []
    else
      let n := leAt b 4 4
      (leAt b 0 4, sub b 8 n) :: readSections f (b.drop (8 + n))

/-- The body of a package, opened with the live offer's secrets; none where its tag fails. -/
def openPackage (o : Offer) (b : Bytes) : Option Bytes :=
  let ecdh := (ecdhSecret p384 o.scalar (sub b 0x40 97)).getD []
  let kem := padTo 32 (kemDecaps 2 o.kemSeed (sub b 0xA4 1568))
  let n := b.length - 3420
  let ct := sub b pkBodyAt (n - 16 - pkBodyAt)
  let r := gcmDec (packageKey ecdh kem o.nonce) (zeros 12) (b.take pkBodyAt) ct (sub b (n - 16) 16)
  if r.2 then some r.1 else none

/-- The serial that the ledger holds for an identity. -/
def ledgerSerial (s : State) (id : Bytes) : Option Nat :=
  (s.ledger.find? (fun e => e.1 == id)).map (·.2)

def setLedger (s : State) (id : Bytes) (serial : Nat) : State :=
  let s1 := { s with ledger := s.ledger.filter (fun e => e.1 != id) ++ [(id, serial)] }
  setF s1 Reg.SLC_LEDGER_N s1.ledger.length

/-- The checks of a package by tags and signatures, in the order of reasons 10, 16, 15 and 11. -/
def packageReason (s : State) (k : Nat) (b : Bytes) : Nat :=
  match (getSlice s k).offer with
  | none => 10
  | some o =>
    let cert := sub b 0x6D4 3932
    let n := b.length - 3420
    if sub b 0x30 16 != o.nonce then 10
    else if !(b.length ≥ pkBodyAt + 16 + 3420 && leAt b 0 4 == 1 && leAt b 4 4 == b.length &&
        containerOk 2 roskaiPub (cert.take 512) (cert.drop 512) &&
        containerOk 2 (sub cert 0x28 256) (b.take n) (b.drop n)) then 16
    else if domainTag s (b.take pkHeadLen) != sub b pkHeadLen 16 || (openPackage o b).isNone then 15
    else match ledgerSerial s (sub b 8 16) with
      | some v => if leAt b 0x18 8 ≤ v then 11 else 0
      | none => 0

/-- Places one carried key in a new slot; gives its old and new handle. Its parent is set once every key has its slot. -/
def placeKey (k : Nat) (sec : Bytes) (x : State × List (Nat × Nat)) : State × List (Nat × Nat) :=
  let s := x.1
  let n := leAt sec 10 2 + 1
  match chooseSlots s n with
  | none => x
  | some a =>
    let s1 := loadSlots s a n k (byteAt sec 8) (leAt sec 4 4) (leAt sec 0x10 8) (byteAt sec 9)
    let b := leAt sec 0x18 8
    let y := getKey s1 a
    let s2 := setKey s1 a { y with
      budget := b, reserved := b, ident := sub sec 0x20 16, ik := sub sec 0x38 (leAt sec 0x30 8)
      material := sub sec 128 (leAt sec 0x40 8), recorded := false }
    let s3 := activateKey s2 a
    let s4 := if b == 0 && !typSeam y.typ then setKey s3 a { (getKey s3 a) with st := .spent } else s3
    (s4, x.2 ++ [(leAt sec 0 4, slotHandle s4 a)])

/-- Sets the parent of a placed key: the slice master key, or the key that took the parent's place; and writes the
stored record of a stored one. -/
def placeParent (k : Nat) (map : List (Nat × Nat)) (s : State) (m : Nat × Nat) : State :=
  let a := hSlot m.2
  let x := getKey s a
  let p := match map.find? (fun e => e.1 == x.parent) with
    | some e => hSlot e.2
    | none => k
  let s1 := setKey s a { x with parent := p, recorded := typSeam x.typ }
  if typSeam x.typ then putRecord s1 (recordOf s1 a)
  else if aStore x.attr == 0 then s1 else writeReservation s1 a

/-- Creates one carried pair with its reference. -/
def placePair (k : Nat) (sec : Bytes) (x : State × List (Nat × Nat)) : State × List (Nat × Nat) :=
  let s := x.1
  match freePair s with
  | none => x
  | some n =>
    let set := leAt sec 0 4
    let p := newPair .ready set k 0 (sub sec 8 48) (sub sec 0x38 32)
    let r := createRef s k 0x40 p.pub n
    let s1 := pairLive r.1 n p r.2 (leAt sec 0x60 8)
    let s2 := match getPair s1 n with
      | some q => setPair s1 n { q with cached := false, builtTo := q.reservedTo }
      | none => s1
    (lmsSync (setLms s2 { s2.lms with trees := s2.lms.trees + treeRecords set }), x.2 ++ [(leAt sec 4 4, slotHandle s2 r.2)])

/-- The resource reasons of an import: 3 to 6 of its record, 12, 13. -/
def importReason (s : State) (k : Nat) (id : Bytes) (cfg : SliceCfg) (pairs : List Bytes) : Nat :=
  let r := recordReason s k cfg
  if r != 0 then r
  else if (ledgerSerial s id).isNone && s.ledger.length ≥ 65536 then 12
  else if 24 < (s.lms.pairs.filter (fun p => 130 ≤ p.1)).length + pairs.length ||
      64 < s.lms.trees + pairs.foldl (fun n p => n + treeRecords (leAt p 0 4)) 0 then 13
  else 0

/-- An import ends with a reason: the slice is NONE again. -/
def importFail (s : State) (n k reason : Nat) : State :=
  let x := getSlice s k
  let s1 := if x.change.isSome then setSlice s k { x with st := .none, change := none } else s
  sliceFail (event s1 Reg.SLC_EVT_IMPORT_REFUSED) n reason []

/-- The placed slice: its key in slot k, its chain, its hour, its ledger entry. -/
def importState (s : State) (k : Nat) (st : Bytes) : State :=
  let id := st.take 16
  let key := sub st 32 32
  let s1 := setKey s k { KeySlot.empty with
    st := .active, level := 3, owner := k, parent := 0, attr := 3, typ := 3, material := key
    ident := keyIdent s 3 key, gen := (getKey s k).gen, recorded := true }
  let s2 := putRecord s1 (recordOf s1 k)
  let hour : Int := leAt st 24 8
  let s3 := setSlice s2 k { (getSlice s2 k) with
    identity := id, exportSerial := leAt st 16 8, hourOffset := (hour - s2.thmTime / 117964800) * 117964800, offer := none }
  setLedger s3 id (leAt st 16 8)

/-- The imported chain: held, UNLOADED, where the slice has a region and a journal key. Its records were written by
the source. -/
def importChain (s : State) (k : Nat) (st : Bytes) : State :=
  let x := getSlice s k
  if x.cfg.vaultUnits != 0 && hasJournalKey s k then
    setChain s k { Chain.none with
      st := .unloaded, epoch := leAt st 68 4, seq := leAt st 72 8, link := sub st 80 16, held := true
      rebaseSeq := leAt st 104 8, doneEpoch := leAt st 112 8, doneSeq := leAt st 120 8
      writtenSeq := leAt st 72 8, writtenTag := sub st 80 16, wasReady := leAt st 100 4 == 1 }
  else s

/-- The commit of an import whose package has passed its checks, in step 4 of a kerf. -/
def commitImport (s : State) (n k : Nat) (c : Ctx) : State :=
  let x := getSlice s k
  match x.offer with
  | none => importFail s n k 10
  | some o =>
    match openPackage o c.src with
    | none => importFail s n k 15
    | some body =>
      let secs := readSections body.length body
      let one := fun t => ((secs.find? (fun e => e.1 == t)).map (·.2)).getD []
      let keys := (secs.filter (fun e => e.1 == 3)).map (·.2)
      let pairs := (secs.filter (fun e => e.1 == 4)).map (·.2)
      match parseCfg (one 1) with
      | none => importFail s n k 2
      | some cfg =>
        let r := importReason s k (sub c.src 8 16) cfg pairs
        if r != 0 then importFail s n k r
        else match placeSlice s k cfg, regionFirst s k cfg with
          | some ls, some first =>
            let s1 := importState (commitCfg s k cfg ls first) k (one 2)
            let a := keys.foldl (fun x sec => placeKey k sec x) (s1, [])
            let s2 := a.2.foldl (placeParent k a.2) a.1
            let b := pairs.foldl (fun x sec => placePair k sec x) (s2, a.2)
            let s3 := importChain b.1 k (one 2)
            let s4 := setSlice s3 k { (getSlice s3 k) with st := restSt s3 k, change := none, offer := none }
            let map := b.2.flatMap (fun e => leBytes 4 e.1 ++ leBytes 4 e.2)
            adminEnd (sendHost s4 0 none (eDst c.entry) map) n
              { resInline map.length (leBytes 4 b.2.length) with len := map.length }
          | _, _ =>
            if s.returning.any (fun t => s.tick.count < t.until_) then s else importFail s n k 4

/-- SLICE_IMPORT with PHASE = IMPORT: the checks, and the staging of the placement. -/
def sliceImportEffect (n : Nat) (s : State) : State :=
  match adminCtx s n opSliceImport with
  | none => s
  | some c0 =>
    let k := cSlice c0
    if aPhase c0.entry != 1 || c0.done != 0 then s
    else if !slicesServed s then sliceFail s n 8 []
    else if k == 0 || (getSlice s k).st != .none then sliceFail s n 1 []
    else withSource s n c0 (fun s c =>
      let r := packageReason s k c.src
      if noPurlin s then adminEnd s n (resStatus stGate)
      else if r != 0 then importFail s n k r
      else
        let s1 := setSlice (stageChange s k .importing false (some n) false false) k
          { (getSlice (stageChange s k .importing false (some n) false false) k) with st := .changing }
        adminTaken s1 n 1)

def execSliceImport (ctx : Nat) (s : State) : Host.Outcome State Fault Refusal := .next (sliceImportEffect ctx s)

/-- Step 4: every staged import commits. -/
def kerfImports (s : State) : State :=
  s.ctxs.foldl (fun s c =>
    if 4032 ≤ c.1 && eOp c.2.entry == opSliceImport && aPhase c.2.entry == 1 && c.2.done == 1 && c.2.adminDone.isNone &&
      c.2.phase == .running then commitImport s c.1 (cSlice c.2) c.2 else s) s

end Sys2Proof.Machine
end

