-- ==== Sys2Proof/Machine/Thimble.lean ====
section
/-!
DEFINITION. The thimble domain (18_tamper R382–R391, R517): time, loops and switches, arming, alarms, the log, and
the backup cell. Each row carries the thimble cycles that have passed since the row before it.
-/
namespace Sys2Proof.Machine
open Sys2Proof

def setThm (s : State) (t : Thm) : State := { s with thm := t }

def getLoop (s : State) (n : Nat) : ThmLoop := tget ThmLoop.zero s.thm.loops n
def setLoop (s : State) (n : Nat) (l : ThmLoop) : State :=
  setThm s { s.thm with loops := tput ThmLoop.zero s.thm.loops n l }
def getSwitch (s : State) (n : Nat) : ThmSwitch := tget ThmSwitch.zero s.thm.switches n
def setSwitch (s : State) (n : Nat) (l : ThmSwitch) : State :=
  setThm s { s.thm with switches := tput ThmSwitch.zero s.thm.switches n l }

/-- Thimble time advances; 48 bits (R383). -/
def thmAdvance (s : State) (cycles : Nat) : State := { s with thmTime := (s.thmTime + cycles) % 2 ^ 48 }

/-! ### The key and the latch (R382) -/

/-- The domain clears both copies of the key. -/
def thmErase (s : State) : State := setFlag (setThm s { s.thm with key := [] }) Reg.THM_STAT_KEY_VALID false

/-- Sets a bit of THM_LATCH; the first latched alarm also notes the absence of main power. -/
def thmLatch (s : State) (bit : Nat) : State :=
  let first := getReg s Reg.THM_LATCH == 0#32
  let s1 := orReg s Reg.THM_LATCH (2 ^ bit)
  let s2 := if first && !s.thm.main then setFlag s1 Reg.THM_LATCH_MAINOFF true else s1
  setFlag s2 Reg.THM_STAT_LATCHED true

/-- Writes a log entry; the latest 16 stand, and those overwritten are counted (R389). -/
def thmLog (s : State) (e : ThmEntry) : State :=
  let s1 := if s.thm.log.length ≥ 16 then countF s Reg.THM_LOG_CNT_LOST 1 else s
  let s2 := setThm s1 { s1.thm with log := (e :: s1.thm.log).take 16 }
  setF s2 Reg.THM_LOG_CNT_COUNT s2.thm.log.length

/-! ### The tamper response (R388, R389) -/

/-- The tamper response's effect on the lifecycle, in step 4 of a kerf. -/
def tamperLifecycle (s : State) : State :=
  if !s.thm.lifeDue then s
  else
    let s1 := setThm s { s.thm with lifeDue := false }
    if lcyState s1 == 4 then silStore (event (setF s1 Reg.LCY_STAT_STATE 5) Reg.LCY_EVT_STATE_CHANGE) 6 0xFFFFFFFF#32
    else if lcyState s1 == 3 then setFlag s1 Reg.KST_STAT_DOMAIN false
    else s1

/-- The key is erased and the cause latched; with main power the lifecycle changes in the next kerf and the safe state
is entered whatever level is configured. -/
def tamperResponse (s : State) (bit : Nat) : State :=
  let s1 := thmErase (thmLatch s bit)
  if s1.thm.main then
    { setThm s1 { s1.thm with lifeDue := true } with faults := { s1.faults with safeDue := true } }
  else s1

/-- An alarm source fires, with the detectors as its detail; in ERASE mode its response is SAFE. -/
def fireAlarm (s : State) (src detail : Nat) (erase : Bool) : State :=
  if !s.thm.main then s
  else
    let a := { FireArgs.plain src none with detail := detail }
    let d := drawBelow 2048 s
    fireLevel d.2 a d.1 (if erase then 6 else appliedLevel s src none)

/-- An alarm of a loop (kind 1) or switch (kind 2) in its mode in force. -/
def thmAlarm (s : State) (kind unit mode : Nat) (detA detB : Bool) : State :=
  let erase := mode == 2
  let e : ThmEntry := ⟨kind, unit, detA, detB, !s.thm.main, erase, s.thmTime⟩
  let s1 := event (thmLog s e) Reg.THM_EVT_ALARM
  let s2 := if erase then tamperResponse s1 (if kind == 1 then unit else 8 + unit) else s1
  fireAlarm (if s.thm.main && !s.boot.held then loseVault s2 else s2) ((if kind == 1 then srcThmLoop else srcThmSwitch) + unit) (b2n detA + 2 * b2n detB) erase

/-! ### Loops (R385, R386) -/

/-- Detector B alarms: outside 100 Ω–100 kΩ, or more than 25 % from the reference. -/
def ohmBad (ref ohm : Nat) : Bool := ohm < 100 || 100000 < ohm || 4 * ohm < 3 * ref || 5 * ref < 4 * ohm

/-- The 64-cycle window of a loop's alarm ends: with one detector only, the alarm is a disagreement. -/
def closeWindow (s : State) (n : Nat) : State :=
  let l := getLoop s n
  match l.window with
  | none => s
  | some t =>
    let s1 := setLoop s n { l with window := none }
    match s.thm.log.find? (fun e => e.kind == 1 && e.unit == n && e.time == t) with
    | none => s1
    | some e =>
      if e.detA && e.detB then s1
      else event (orReg s1 Reg.THM_DISAGREE (2 ^ n)) Reg.THM_EVT_DISAGREE

/-- The window has passed at the present time. -/
def windowOver (s : State) (t : Nat) : Bool := 64 ≤ (s.thmTime + 2 ^ 48 - t) % 2 ^ 48

/-- The second detector's result goes into the entry of the first detection. -/
def noteSecond (s : State) (n t : Nat) (detB : Bool) : State :=
  setThm s { s.thm with log := s.thm.log.map (fun e =>
    if e.kind == 1 && e.unit == n && e.time == t then
      { e with detA := e.detA || !detB, detB := e.detB || detB }
    else e) }

/-- One check of an armed loop by one detector. An alarm that goes on makes no new entry (notes/assumptions/15.md),
unless the loop is in ERASE and has not been latched in it. -/
def loopCheck (s : State) (n : Nat) (detB same : Bool) (ohm : Nat) : State :=
  let s0 := match (getLoop s n).window with
    | some t => if windowOver s t then closeWindow s n else s
    | none => s
  let l := getLoop s0 n
  if l.mode == 0 then s0
  else
    let bad := if detB then ohmBad l.ref ohm else !same
    let standing := (l.a || l.b) && (l.mode != 2 || (getReg s0 Reg.THM_LATCH).getLsbD n)
    let l1 := if detB then { l with b := bad, ohm := ohm } else { l with a := bad }
    if !bad then setLoop s0 n l1
    else match l.window with
      | some t => noteSecond (setLoop s0 n l1) n t detB
      | none =>
        if standing then setLoop s0 n l1
        else thmAlarm (setLoop s0 n { l1 with window := some s0.thmTime }) 1 n l.mode (!detB) detB

/-- THIMBLE_LOOP_CHECK: detector A's sampled bit, or detector B's resistance in ohms. -/
def thimbleLoopCheckEffect (cycles loop : Nat) (detB same : Bool) (ohm : Nat) (s : State) : State :=
  if loop < 8 then loopCheck (thmAdvance s cycles) loop detB same ohm else s

def execThimbleLoopCheck (cycles loop : Nat) (detB same : Bool) (ohm : Nat) (s : State) :
    Host.Outcome State Fault Refusal :=
  .next (thimbleLoopCheckEffect cycles loop detB same ohm s)

/-- DISAGREEMENT_WINDOW_END. -/
def disagreementWindowEndEffect (cycles loop : Nat) (s : State) : State :=
  let s1 := thmAdvance s cycles
  match (getLoop s1 loop).window with
  | some t => if windowOver s1 t then closeWindow s1 loop else s1
  | none => s1

def execDisagreementWindowEnd (cycles loop : Nat) (s : State) : Host.Outcome State Fault Refusal :=
  .next (disagreementWindowEndEffect cycles loop s)

/-! ### Switches (R387) -/

/-- SWITCH_SAMPLE: an alarm at the second consecutive sample in the alarm state. -/
def switchSampleEffect (cycles sw : Nat) (closed : Bool) (s : State) : State :=
  let s1 := thmAdvance s cycles
  let x := getSwitch s1 sw
  if 4 ≤ sw || x.mode == 0 then s1
  else
    let run := if closed == x.closed then min (x.run + 1) 3 else 0
    let s2 := setSwitch s1 sw { x with run := run }
    let fresh := run == 2 || (2 < run && x.mode == 2 && !(getReg s2 Reg.THM_LATCH).getLsbD (8 + sw))
    if fresh then thmAlarm s2 2 sw x.mode true false else s2

def execSwitchSample (cycles sw : Nat) (closed : Bool) (s : State) : Host.Outcome State Fault Refusal :=
  .next (switchSampleEffect cycles sw closed s)

/-! ### Arming (R386) -/

/-- The change is sent to the domain; the old modes govern until it acknowledges (step 4 of the commit kerf). -/
def armCommit (s : State) (w : Word) : State :=
  setFlag (setThm (setReg s Reg.THM_ARM w) { s.thm with arming := some w }) Reg.THM_STAT_ARM_PEND true

/-- The median of the eight calibration runs: the lower of the middle two (notes/assumptions/15.md). -/
def insertSorted (x : Nat) : List Nat → List Nat
  | [] => [x]
  | y :: r => if x ≤ y then x :: y :: r else y :: insertSorted x r

def median (l : List Nat) : Nat := (l.foldr insertSorted []).getD ((l.length - 1) / 2) 0

/-- One loop takes its new mode, calibrated where it leaves OFF. A failed calibration leaves it OFF. -/
def armLoop (s : State) (n mode : Nat) (runs : List Nat) (mismatch : Bool) : State :=
  let l := getLoop s n
  if mode == 0 then setLoop s n { l with mode := 0, a := false, b := false, window := none }
  else if l.mode != 0 then setLoop s n { l with mode := mode }
  else
    let r := median runs
    if r < 100 || 100000 < r || mismatch then setFlag s Reg.THM_STAT_CAL_FAIL true
    else
      let d := drawBelow (2 ^ 63) s
      setLoop d.2 n { l with mode := mode, ref := r, ohm := r, seq := d.1, a := false, b := false }

/-- ARM_DONE: the domain has calibrated and acknowledges. `runs` holds the eight resistances of each loop in order,
`mism` the loops with a detector-A mismatch. -/
def armDoneEffect (cycles : Nat) (runs : List (List Nat)) (mism : Nat) (s0 : State) : State :=
  let s := thmAdvance s0 cycles
  match s.thm.arming with
  | none => s
  | some w =>
    let s1 := setFlag (setThm s { s.thm with arming := none }) Reg.THM_STAT_CAL_FAIL false
    let s2 := (List.range 8).foldl (fun s n =>
      armLoop s n (getBits w (2 * n) 2) (runs.getD n []) (bitAt mism n)) s1
    let s3 := (List.range 4).foldl (fun s n =>
      let x := getSwitch s n
      let y : ThmSwitch := { mode := getBits w (16 + 2 * n) 2, closed := w.getLsbD (24 + n), run := 0 }
      setSwitch s n (if x.mode == 0 || y.mode == 0 || x.closed != y.closed then y else { x with mode := y.mode })) s2
    event (setFlag s3 Reg.THM_STAT_ARM_PEND false) Reg.THM_EVT_ARM_DONE

def execArmDone (cycles : Nat) (runs : List (List Nat)) (mism : Nat) (s : State) : Host.Outcome State Fault Refusal :=
  .next (armDoneEffect cycles runs mism s)

/-! ### The erase on command (R517) -/

/-- A committed write of THM_ERASE, in step 4 of its kerf. -/
def thmEraseCommit (s : State) : State :=
  let e : ThmEntry := ⟨4, 0, false, false, false, true, s.thmTime⟩
  tamperLifecycle (tamperResponse (thmLog s e) 13)

/-! ### Time, power and the cell (R383, R384, R391) -/

/-- XTAL_FAIL: the domain counts on from its own oscillator. -/
def xtalFailEffect (s : State) : State :=
  let s1 := if flag s Reg.THM_STAT_XTAL_FAIL then s
    else event (setFlag s Reg.THM_STAT_XTAL_FAIL true) Reg.THM_EVT_XTAL
  if s1.thm.main then fire s1 { FireArgs.plain srcThmBatt none with detail := 2 } else s1

def execXtalFail (s : State) : Host.Outcome State Fault Refusal := .next (xtalFailEffect s)

/-- The registers of the thimble domain (R398). -/
def thmKeys : List Nat :=
  [Reg.THM_STAT, Reg.THM_LATCH, Reg.THM_ARM, Reg.THM_LOG_CNT, Reg.THM_VBAT, Reg.THM_DISAGREE]

/-- THIMBLE_POWER_ON: with main power absent, the domain loses its state. -/
def thimblePowerOnEffect (s : State) : State :=
  if s.thm.main then s
  else
    let s1 := thmKeys.foldl (fun s k => setReg s k (regReset k)) s
    { s1 with thmTime := 0, thm := { Thm.reset with main := false } }

def execThimblePowerOn (s : State) : Host.Outcome State Fault Refusal := .next (thimblePowerOnEffect s)

/-- VBAT_MEASURE, in millivolts; 0 when the cell is absent. -/
def vbatMeasureEffect (mv : Nat) (s : State) : State :=
  if !s.thm.main then s
  else
    let s1 := setF s Reg.THM_VBAT_MV mv
    if mv < 2500 then
      let s2 := if flag s1 Reg.THM_STAT_BATT_LOW then s1
        else event (setFlag s1 Reg.THM_STAT_BATT_LOW true) Reg.THM_EVT_BATT_LOW
      fire s2 { FireArgs.plain srcThmBatt none with detail := 1 }
    else if 2600 ≤ mv then setFlag s1 Reg.THM_STAT_BATT_LOW false
    else s1

def execVbatMeasure (mv : Nat) (s : State) : Host.Outcome State Fault Refusal := .next (vbatMeasureEffect mv s)

/-! ### Views (R398) -/

def ohmUnits (n : Nat) : Nat := min (n / 2) 0xFFFF

/-- THM_LOOP and THM_CAL of the selected loop. -/
def thmLoopView (s : State) : Word :=
  let l := getLoop s (getF s Reg.THM_SEL_LOOP)
  BitVec.ofNat 32 (b2n l.a + 2 * b2n l.b + 4 * l.mode + ohmUnits l.ohm * 2 ^ 16)

def thmCalView (s : State) : Word := BitVec.ofNat 32 (ohmUnits (getLoop s (getF s Reg.THM_SEL_LOOP)).ref)

/-- THM_LOG0 to THM_LOG2 of the selected entry. -/
def thmLogView (s : State) (i : Nat) : Word :=
  match s.thm.log[getF s Reg.THM_LOG_SEL_AGE]? with
  | none => 0#32
  | some e => BitVec.ofNat 32 (match i with
    | 0 => e.kind + e.unit * 2 ^ 4 + b2n e.detA * 2 ^ 8 + b2n e.detB * 2 ^ 9 + b2n e.mainOff * 2 ^ 10 +
        b2n e.erased * 2 ^ 11 + 2 ^ 31
    | 1 => e.time % 2 ^ 32
    | _ => e.time / 2 ^ 32)

end Sys2Proof.Machine
end

