-- ==== Sys2Proof/Machine/Lifecycle.lean ====
section
/-!
DEFINITION. The lifecycle and firmware (21_lifecycle_boot): the states and their changes, termination, the frame and
infill images and their checks, and the admin commands of R447.
-/
namespace Sys2Proof.Machine
open Sys2Proof

/-! ### States (R436, R437) -/

/-- The value of sill register 6 for a state. -/
def lifeSill (code : Nat) : Word :=
  if code == 3 then 0x00FF00FF#32 else if code == 4 then 0xFF00FF00#32 else if code == 5 then 0xFFFFFFFF#32 else 0#32

/-- The state that fuses and sill register 6 spell; false beside it where the encoding is invalid. -/
def lifeOf (fuse sill : Word) : Nat × Bool :=
  if fuse.getLsbD 1 then (if fuse.getLsbD 2 then (7, true) else (6, true))
  else if !fuse.getLsbD 0 then (1, true)
  else if sill == 0#32 then (2, true)
  else if sill == 0x00FF00FF#32 then (3, true)
  else if sill == 0xFF00FF00#32 then (4, true)
  else (5, sill == 0xFFFFFFFF#32)

/-- The lifecycle shows a state, and STATE_CHANGE is set. -/
def showLife (s : State) (code : Nat) : State := event (setF s Reg.LCY_STAT_STATE code) Reg.LCY_EVT_STATE_CHANGE

/-- A change that writes sill register 6. -/
def setLife (s : State) (code : Nat) : State := silStore (showLife s code) 6 (lifeSill code)

/-- OFC_STAT.BYPASS: FACTORY and BLANK (R426). -/
def bypassSync (s : State) : State := setFlag s Reg.OFC_STAT_BYPASS (lcyState s == lcyFactory || lcyState s == lcyBlank)

/-- A value of LCY_REQ that R437 allows now. -/
def lifeAllowed (s : State) (target : Nat) : Bool :=
  let l := lcyState s
  (l == lcyFactory && target == lcyBlank) ||
  (l == lcyProvisioned && target == lcyOperational && flag s Reg.KST_STAT_DOMAIN && !flag s Reg.LCY_STAT_FW_TRIAL) ||
  (l != lcyDiagnostic && target == lcyTerminated)

/-! ### Termination (R438) -/

/-- The blocks of a range that are not erased, in which a unit holds something or which are indeterminate, are erased. -/
def eraseBlocks (s : State) (first count : Nat) : State :=
  let bs := (s.nv.units.map (fun u => u.1 / 2048)) ++ (s.nv.blocks.filter (fun b => b.2.indet)).map (·.1)
  ((bs.eraseDups).filter (fun b => first ≤ b && b < first + count)).foldl eraseNow s

/-- Step 2: every volatile key, the vault memory key and the thimble key. -/
def zeroiseAll (s : State) : State :=
  thmErase (setFlag (loseVault (zeroiseSram (zeroiseStore s))) Reg.KST_STAT_DOMAIN false)

/-- Step 3: the wrapped key store, the infill store, the vault anchor log, the slice pairs' records. The device pair's
records and the device certificate stay. -/
def eraseStores (s : State) : State :=
  let s1 := { s with
    records := [], slotTable := [], slotBase := 0, ledger := [], tombPend := []
    gates := { s.gates with kept := none }
    boot := { s.boot with saved := [], devNo := 0 }
    fw := { s.fw with tableCnt := 0, table := [], tableMac := [], freeing := [] }
    vault := { s.vault with anchors := [], discarded := [], pendingAnchor := none, chains := [] }
    lms := { s.lms with pairs := s.lms.pairs.filter (fun p => p.1 < 130)
                        log := s.lms.log.filter (fun r => byteAt r 2 < 2), trees := 1 }
    ofc := { s.ofc with officers := [], stored := [], version := 0 }
    slices := s.slices.map (fun x => (x.1, { x.2 with infill := none, infillFloor := 0 })) }
  setFlag (setF (eraseBlocks s1 512 1024) Reg.OFC_STAT_OFFICERS 0) Reg.LCY_STAT_ERASED true

/-- Termination in step 4 of a kerf; the device resets itself 2^10 ticks later (R437). -/
def terminate (s : State) : State :=
  let s1 := showLife (setFlag s Reg.LCY_FUSE_TERM true) lcyTerminated
  let s2 := eraseStores (zeroiseAll s1)
  { s2 with boot := { s2.boot with selfReset := some (s.tick.count + 2 ^ 10) } }

/-- A committed write of LCY_REQ takes effect. -/
def lifeRequest (s : State) (target : Nat) : State :=
  if target == lcyTerminated then bypassSync (terminate s)
  else if target == lcyBlank then bypassSync (showLife (setFlag s Reg.LCY_FUSE_FACTORY_DONE true) lcyBlank)
  else setLife s lcyOperational

/-- The domain chain begins: its REBASE_START of epoch 1 and, since no tombstone is yet held, its BASE_END (R205). -/
def beginDomainChain (s : State) : State :=
  let s1 := setChain s 128 { getChain s 128 with st := .ready, epoch := 1, rebase := none, reload := none }
  let s2 := placeRecord s1 128 jRebaseStart [] none
  let c := getChain s2 128
  let s3 := placeRecord (setChain s2 128 { c with doneEpoch := 1, doneSeq := c.rebaseSeq }) 128 jBaseEnd [] none
  tombSync { s3 with vault := { s3.vault with anchorWanted := true } }

/-- A domain ceremony ends (R433, R437): a new thimble key, L2 sealed under it and installed, the device number set,
THM_LATCH cleared with the recorded disagreements, PROVISIONED. The domain chain begins; one that an anchor already
holds goes on from its own records (notes/assumptions/54.md). Stored keys return where they had been unrecoverable. -/
def installDomain (s : State) (l2 : Bytes) (dev : Nat) : State :=
  let d := drawFrom childPosts 32 s
  let s1 := setFlag (setThm d.2 { d.2.thm with key := d.1 }) Reg.THM_STAT_KEY_VALID true
  let s2 := setKey s1 0 { KeySlot.empty with
    st := .active, level := 2, attr := 2, typ := 3, material := l2, gen := (getKey s1 0).gen, recorded := true }
  let s3 := setKey s2 0 { getKey s2 0 with ident := keyIdent s2 3 l2 }
  let s4 := setFlag (putRecord s3 (recordOf s3 0)) Reg.KST_STAT_DOMAIN true
  let s5 := setF { s4 with boot := { s4.boot with devNo := dev } } Reg.NDL_IVFIX_DEVNO dev
  let s6 := setFlag (setReg (setReg s5 Reg.THM_LATCH 0#32) Reg.THM_DISAGREE 0#32) Reg.THM_STAT_LATCHED false
  let s7 := if domainAnchored s6 then
      (if (getChain s6 128).st == .none then tombSync (setChainSt s6 128 .unloaded) else s6)
    else beginDomainChain s6
  let s8 := bypassSync (setLife s7 lcyProvisioned)
  (s8.slices.map (·.1)).foldl (fun s k => returnKeys s k false) s8

/-! ### Images (R444, R448) -/

/-- A seam container of set 2. -/
def cont2 : Nat := 3420

/-- Where the code with its padding ends: the next 256-byte boundary of the image. -/
def codeEnd (c : Nat) : Nat := 256 * ceilDiv (256 + c) 256

def imgCode (b : Bytes) : Nat := leAt b 0x10 4
def imgSv (b : Bytes) : Nat := leAt b 8 8
def imgHash (b : Bytes) : Bytes := sub b 0x28 48
def imgEntries (b : Bytes) : Nat := leAt b 0x58 2

/-- The header of a frame image. -/
def frameHeadOk (b : Bytes) : Bool :=
  let c := imgCode b
  leAt b 0 4 == 0x4D524653 && leAt b 4 4 == 1 && 4 ≤ c && c ≤ 2 ^ 25 - 4096 && c % 4 == 0 &&
  leAt b 0x14 4 % 4 == 0 && leAt b 0x14 4 < c && allZero (sub b 0x58 168)

/-- The header of an infill package. -/
def infillHeadOk (b : Bytes) : Bool :=
  let c := imgCode b
  leAt b 0 4 == 0x4C464E49 && leAt b 4 4 == 1 && 4 ≤ c && c ≤ 2 ^ 23 && c % 4 == 0 &&
  leAt b 0x14 4 % 4 == 0 && leAt b 0x14 4 < c && 1 ≤ imgEntries b && imgEntries b ≤ 4096 && 4 * imgEntries b ≤ c &&
  allZero (sub b 0x5A 166)

/-- The padding after the code is zero, and the length is exact. -/
def bodyOk (b : Bytes) (extra : Nat) : Bool :=
  let e := codeEnd (imgCode b)
  b.length == e + cont2 + extra && allZero (sub b (256 + imgCode b) (e - 256 - imgCode b))

def imgContainer (b : Bytes) : Bytes := sub b (codeEnd (imgCode b)) cont2

/-- The container and the code hash. -/
def imgSigned (pub b : Bytes) : Bool :=
  containerOk 2 pub (b.take 256) (imgContainer b) && sha384 (sub b 256 (imgCode b)) == imgHash b

/-- The frame signers that the two fuse fields name, where their revocation fuse is not blown; their public key blocks
are silicon's (notes/assumptions/6.md). -/
def frameSigners (s : State) : List Bytes :=
  ((List.range 2).filter (fun k => !bitAt (getF s Reg.LCY_FUSE_REVOKED) k)).map
    (fun k => padTo 256 (Config.deviceSecret (3 + k)))

/-- The frame floor: sill registers 3 and 4. -/
def frameFloor (s : State) : Nat := sillVal s 3 + sillVal s 4 * 2 ^ 32

/-- The first reason for which a frame image is not acceptable; 0 where it is. -/
def frameReason (s : State) (b : Bytes) : Nat :=
  if !(frameHeadOk b && bodyOk b 0) then 1
  else if !(frameSigners s).any (fun p => sub (imgContainer b) 0x10 16 == (pubKeyId p).take 16 && imgSigned p b) then 2
  else if imgSv b < frameFloor s then 3
  else 0

/-- Compressions that an image's verification takes: its SHA-384 hash and its set 2 container (R229, R231). -/
def imageComps (b : Bytes) : Nat :=
  ceilDiv (imgCode b + 17) 128 + kindCost ⟨24, 20, 4, 51, 4⟩ + kindCost ⟨24, 10, 4, 51, 4⟩

/-- A hash engine verifies an image whose header stands: the lowest one in service counts its compressions (DESIGN CHOICE:
notes/assumptions/88.md). -/
def chargeImage (s : State) (b : Bytes) (extra : Nat) : State :=
  if !((frameHeadOk b || infillHeadOk b) && bodyOk b extra) then s
  else match (liveHash s).head? with
    | none => s
    | some e => { s with opCounts := bumpAt s.opCounts (16 + e) (imageComps b) }

/-- The first block of an image partition: A 0, B 1. -/
def partBlock (p : Nat) : Nat := if p == 0 then 0 else 2048

/-- The image that stands in a partition, as the flash reads. -/
def partImage (s : State) (p : Nat) : Bytes × State :=
  let h := flashBytes 10 s (partBlock p * 65536) 256
  let n := min (codeEnd (imgCode h.1) + cont2) (2 ^ 25)
  flashBytes (2 ^ 20 + 2) h.2 (partBlock p * 65536) n

/-! ### Selection and verification (R442, R445) -/

/-- The value a sill register takes once its queued writes are programmed. -/
def sillNext (s : State) (n : Nat) : Nat :=
  match s.nv.silWait.find? (fun x => x.1 == n), s.nv.silProg.find? (fun x => x.1 == n) with
  | some x, _ => x.2.toNat
  | none, some x => x.2.toNat
  | none, none => sillVal s n

/-- The ROM selects the image by sill register 5. -/
def selectImage (s : State) : State :=
  let r := sillVal s 5
  let act := r % 2
  let pick := fun (s : State) (p : Nat) (t : Bool) =>
    setF { s with boot := { s.boot with chosen := some (p, t) } } Reg.LCY_STAT_STAGE 1
  if !bitAt r 1 then pick s act false
  else if !bitAt r 2 then pick (silStore s 5 (BitVec.ofNat 32 (act + 2 + 4))) (1 - act) true
  else pick (event (silStore s 5 (BitVec.ofNat 32 act)) Reg.LCY_EVT_FALLBACK) act false

/-- A hash engine and a purlin can verify (R442). -/
def verifierLeft (s : State) : Bool :=
  (List.range 8).any (fun e => !hashHalted s e) && (List.range 8).any (fun p => !purlinHalted s p)

/-- Frame firmware is entered from an image. -/
def enterFrame (s : State) (p : Nat) (trial : Bool) (b : Bytes) : State :=
  let s1 := setF (setF s Reg.LCY_STAT_STAGE 2) Reg.LCY_STAT_IMAGE p
  let s2 := setFlag s1 Reg.LCY_STAT_FW_TRIAL trial
  let s3 := setReg (setReg s2 Reg.LCY_SVN_LO (BitVec.ofNat 32 (imgSv b))) Reg.LCY_SVN_HI
    (BitVec.ofNat 32 (imgSv b / 2 ^ 32))
  { s3 with fw := { s3.fw with running := p, hash := imgHash b, sv := imgSv b }
            boot := { s3.boot with frameTick := some s3.tick.count } }

/-- A boot that cannot go on (R442): the safe state. -/
def bootDead (s : State) (f : Fld) : State :=
  { setFlag s f true with boot := { s.boot with dead := true }, faults := { s.faults with safeDue := true } }

/-- The ROM tries a partition, and answers whether it was entered. -/
def tryImage (s : State) (p : Nat) (trial : Bool) : Bool × State :=
  let r := partImage s p
  let i := (r.1, chargeImage r.2 r.1 0)
  if frameReason i.2 i.1 == 0 then (true, enterFrame i.2 p trial i.1) else (false, i.2)

/-- The verification of the selected image, and of what is tried after it. -/
def verifyImage (s : State) (p : Nat) (trial : Bool) : State :=
  if !verifierLeft s then bootDead s Reg.LCY_POST_VERIFIER
  else
    let a := tryImage s p trial
    if a.1 then a.2
    else
      let act := if trial then 1 - p else p
      let s1 := if trial then silStore a.2 5 (BitVec.ofNat 32 act) else a.2
      let b := if trial then tryImage s1 act false else (false, s1)
      if b.1 then b.2
      else
        let c := if trial then (false, b.2) else tryImage b.2 (1 - act) false
        if c.1 then event c.2 Reg.LCY_EVT_FALLBACK else setFlag c.2 Reg.LCY_STAT_RECOVERY true

/-! ### Admin commands (R447) -/

def fwStatus (r : Nat) : Nat :=
  if r == 1 then stBadLength else if r == 2 then stSigFail else if r == 3 || r == 5 then stAuthFail else stBadField

/-- A failure with its reason, inline and in LCY_STAGE. -/
def fwFail (s : State) (n r : Nat) (staging : Bool) : State :=
  let s1 := setF s Reg.LCY_STAGE_REASON r
  let s2 := if staging then event (setF s1 Reg.LCY_STAGE_STATE 3) Reg.LCY_EVT_STAGE_DONE else s1
  adminEnd s2 n { resStatus (fwStatus r) with inline := leBytes 8 r }

/-- A staging ends well. -/
def fwDone (s : State) : State :=
  event (setF (setF (setF s Reg.LCY_STAGE_STATE 2) Reg.LCY_STAGE_REASON 0) Reg.LCY_STAGE_PROGRESS 0xFFFF)
    Reg.LCY_EVT_STAGE_DONE

def fwBegin (s : State) : State :=
  setF (setF (setF s Reg.LCY_STAGE_STATE 1) Reg.LCY_STAGE_REASON 0) Reg.LCY_STAGE_PROGRESS 0

/-- The device resets itself as soon as it can. -/
def askReset (s : State) : State := { s with boot := { s.boot with selfReset := some s.tick.count } }

/-- FW_STAGE of a frame image: `flashOk` says whether the erases and programs succeeded. In recovery the image becomes
ACTIVE and the device resets (R445). -/
def fwStageFrameEffect (n : Nat) (flashOk : Bool) (s : State) : State :=
  match adminCtx s n opFwStage with
  | none => s
  | some c =>
    let part := 1 - sillNext s 5 % 2
    if bitAt (eParam c.entry) 0 then s
    else if bitAt (sillNext s 5) 1 then fwFail s n 4 true
    else if eLen c.entry > 2 ^ 25 || eLen c.entry < codeEnd 4 + cont2 then fwFail s n 1 true
    else withSource (fwBegin s) n c (fun s c =>
      let b := c.src.take (eLen c.entry)
      let s := chargeImage s b 0
      let r := frameReason s b
      if r != 0 then fwFail s n r true
      else if !flashOk then
        fwFail { countErases s (partBlock part) 512 with fw := { s.fw with staged := false } } n 7 true
      else
        let s1 := programBytes (countErases s (partBlock part) 512) (partBlock part) b
        let s2 := fwDone { s1 with fw := { s1.fw with staged := true } }
        let s3 := if flag s2 Reg.LCY_STAT_RECOVERY then askReset (silStore s2 5 (BitVec.ofNat 32 part)) else s2
        adminOk s3 n (leBytes 1 part))

def execFwStageFrame (ctx : Nat) (flashOk : Bool) (s : State) : Host.Outcome State Fault Refusal :=
  .next (fwStageFrameEffect ctx flashOk s)

/-- FW_ACTIVATE without CONFIRM. -/
def fwActivateEffect (n : Nat) (s : State) : State :=
  match adminCtx s n opFwActivate with
  | none => s
  | some c =>
    let r := sillNext s 5
    if bitAt (eParam c.entry) 0 then s
    else if bitAt r 1 || !s.fw.staged then fwFail s n 4 false
    else adminOk (silStore s 5 (BitVec.ofNat 32 (r % 2 + 2))) n (leBytes 8 (frameFloor s))

def execFwActivate (ctx : Nat) (s : State) : Host.Outcome State Fault Refusal := .next (fwActivateEffect ctx s)

/-- FW_ACTIVATE with CONFIRM: the running trial image becomes ACTIVE and the floor rises. -/
def fwActivateConfirmEffect (n : Nat) (s : State) : State :=
  match adminCtx s n opFwActivate with
  | none => s
  | some c =>
    if !bitAt (eParam c.entry) 0 then s
    else if !flag s Reg.LCY_STAT_FW_TRIAL then fwFail s n 4 false
    else
      let floor := max (frameFloor s) s.fw.sv
      let s1 := silStore s 5 (BitVec.ofNat 32 s.fw.running)
      let s2 := if floor == frameFloor s then s1
        else silStore (silStore s1 3 (BitVec.ofNat 32 floor)) 4 (BitVec.ofNat 32 (floor / 2 ^ 32))
      let s3 := setFlag { s2 with fw := { s2.fw with staged := false } } Reg.LCY_STAT_FW_TRIAL false
      adminOk s3 n (leBytes 8 floor)

def execFwActivateConfirm (ctx : Nat) (s : State) : Host.Outcome State Fault Refusal :=
  .next (fwActivateConfirmEffect ctx s)

/-! ### Infill (R448, R449) -/

/-- LCY_IKID0 to LCY_IKID7 as 32 bytes. -/
def infillSigner (s : State) : Bytes := (List.range 8).flatMap (fun k => leBytes 4 (getReg s (Reg.LCY_IKID + 4 * k)).toNat)

def infillBlocks (c : Nat) : Nat := ceilDiv c 65536

/-- Blocks of the infill store that hold an image, as first block and count. -/
def infillUsed (s : State) : List (Nat × Nat) :=
  (s.slices.filterMap (fun x => x.2.infill.map (fun i => (i.first, i.count)))) ++
  s.fw.freeing.map (fun x => (x.2.1, x.2.2.1))

/-- First fit in blocks 512–1,533. -/
def infillFit (s : State) (n : Nat) : Option Nat :=
  ((List.range 1022).map (· + 512)).find? (fun b => b + n ≤ 1534 &&
    (infillUsed s).all (fun u => b + n ≤ u.1 || u.1 + u.2 ≤ b))

/-- The enrolment record. -/
def enrolRecord (s : State) (slice cnt : Nat) (b : Bytes) (first count : Nat) : Bytes :=
  padTo 128 (leBytes 1 slice ++ zeros 3 ++ leBytes 4 cnt ++ deviceId s ++ sub b 0x18 16 ++ leBytes 8 (imgSv b) ++
    imgHash b ++ leBytes 2 first ++ leBytes 2 count)

/-- The first reason for which a package is refused. -/
def infillReason (s : State) (slice : Nat) (b : Bytes) : Nat :=
  let pub := b.drop (b.length - 256)
  let x := getSlice s slice
  if !(infillHeadOk b && bodyOk b 256) then 1
  else if pubKeyId pub != infillSigner s then 5
  else if !(pubBlockOk pub && imgSigned pub b) then 2
  else if imgSv b < x.infillFloor then 3
  else if x.st != .active && x.st != .dormant then 6
  else if (infillFit s (infillBlocks (imgCode b))).isNone then 6
  else 0

/-- The enrolment itself, once it is checked. -/
def enrol (s : State) (n slice : Nat) (c : Ctx) (b : Bytes) : State :=
  let count := infillBlocks (imgCode b)
  let first := (infillFit s count).getD 512
  let cnt := sillNext s 7 + 1
  let rec_ := enrolRecord s slice cnt b first count
  let sig := deviceSign s rec_
  let s1 := programBytes (countErases sig.2 first count) first (sub b 256 (imgCode b))
  let x := getSlice s1 slice
  let s2 := match x.infill with
    | some i => { s1 with fw := { s1.fw with freeing := (slice, i.first, i.count, s1.ctxOrder) :: s1.fw.freeing } }
    | none => s1
  let s3 := setSlice s2 slice { x with
    infill := some ⟨imgEntries b, imgHash b, imgSv b, first, count⟩, infillFloor := imgSv b }
  let s4 := putTable s3 cnt (tinsert slice (rec_ ++ padTo cont2 sig.1, imgSv b) s3.fw.table)
  let s5 := silStore s4 7 (BitVec.ofNat 32 cnt)
  let out := rec_ ++ padTo cont2 sig.1
  adminEnd (fwDone (sendHost s5 0 none (eDst c.entry) out)) n { resInline out.length (leBytes 4 cnt) with len := out.length }

def fwStageInfillEffect (n : Nat) (flashOk : Bool) (s : State) : State :=
  match adminCtx s n opFwStage with
  | none => s
  | some c =>
    let slice := bitsAt (eParam c.entry) 8 7
    if !bitAt (eParam c.entry) 0 then s
    else if eLen c.entry > codeEnd (2 ^ 23) + cont2 + 256 || eLen c.entry < codeEnd 4 + cont2 + 256 then fwFail s n 1 true
    else withSource (fwBegin s) n c (fun s c =>
      let b := c.src.take (eLen c.entry)
      let s := chargeImage s b 256
      let r := infillReason s slice b
      if r != 0 then fwFail s n r true
      else if !flashOk then fwFail s n 7 true
      else withDevice s n (fun s => enrol s n slice c b))

def execFwStageInfill (ctx : Nat) (flashOk : Bool) (s : State) : Host.Outcome State Fault Refusal :=
  .next (fwStageInfillEffect ctx flashOk s)

/-- Blocks of a replaced image are free once no older command of the slice is held (R449). -/
def freeInfill (s : State) : State :=
  { s with fw := { s.fw with freeing := s.fw.freeing.filter (fun x =>
      s.ctxs.any (fun c => c.2.slice == x.1 && c.2.order < x.2.2.2 && eOp c.2.entry == opInfill)) } }

/-- At boot, a table whose AES-CMAC fails or whose counter differs from sill register 7 is refused (R449). -/
def infillBoot (s : State) : State :=
  if s.fw.tableCnt == sillVal s 7 && tableOk s.fw then s
  else
    let drop := fun (x : Nat × Slice) => (x.1, { x.2 with infill := none })
    event { s with slices := s.slices.map drop } Reg.LCY_EVT_INFILL_LOST

/-! ### LIFECYCLE -/

def lifecycleQueryEffect (n : Nat) (s : State) : State :=
  match adminCtx s n opLifecycle with
  | none => s
  | some c =>
    if bitsAt (eParam c.entry) 0 2 != 0 then s
    else adminOk s n (leBytes 1 (lcyState s) ++ leBytes 1 (getBits (getReg s Reg.LCY_STAT) 8 8))

def execLifecycleQuery (ctx : Nat) (s : State) : Host.Outcome State Fault Refusal := .next (lifecycleQueryEffect ctx s)

/-- The vendor token: its reason, 0 where it verifies. -/
def tokenReason (s : State) (t : Bytes) : Nat :=
  if !(leAt t 0 4 == 1 && sub t 4 16 == deviceId s && byteAt t 20 == 7 && allZero (sub t 21 43)) then 1
  else if !containerOk 2 roskaiPub (t.take 64) (t.drop 64) then 2
  else 0

def lifecycleVendorEffect (n : Nat) (s : State) : State :=
  match adminCtx s n opLifecycle with
  | none => s
  | some c =>
    if bitsAt (eParam c.entry) 0 2 != 2 then s
    else if lcyState s != lcyTerminated then fwFail s n 8 false
    else withSource s n c (fun s c =>
      let r := tokenReason s (c.src.take 3484)
      if r != 0 then fwFail s n r false else { s with boot := { s.boot with vendor := some n } })

def execLifecycleVendor (ctx : Nat) (s : State) : Host.Outcome State Fault Refusal :=
  .next (lifecycleVendorEffect ctx s)

/-- Step 4: DIAGNOSTIC under a verified token, and the reset 2^10 ticks later. -/
def kerfVendor (s : State) : State :=
  match s.boot.vendor with
  | none => s
  | some n =>
    let s1 := showLife (setFlag s Reg.LCY_FUSE_DIAG true) lcyDiagnostic
    let s2 := { s1 with boot := { s1.boot with vendor := none, selfReset := some (s.tick.count + 2 ^ 10) } }
    adminOk s2 n (leBytes 1 lcyDiagnostic ++ leBytes 1 (getBits (getReg s2 Reg.LCY_STAT) 8 8))

end Sys2Proof.Machine
end

