-- ==== Sys2Proof/Machine/Guard.lean ====
section
/-!
DEFINITION. The two-party guard (20_officers R426–R430): which words are guarded, how each block checks a staged
value, the staging of a change, its approvals and its commit.
-/
namespace Sys2Proof.Machine
open Sys2Proof

/-! ### Guarded words (R484) -/

/-- The GW bits of a register word. -/
def gwMask (key : Nat) : Word :=
  match regRow key with
  | some r => BitVec.ofNat 32 r.gw
  | none => 0#32

/-- The word at an offset of a page holds a GW field (PG_GUARD.GUARDED). -/
def guardedWord (key : Nat) : Bool := gwMask key != 0#32

/-- The select register's value that qualifies a GW word; only FCL_RESP has one. -/
def gwSelect (s : State) (key : Nat) : Nat := if key == Reg.FCL_RESP then getF s Reg.FCL_SEL_SOURCE else 0

/-- The value in force of a GW word. -/
def gwValue (s : State) (key sel : Nat) : Word :=
  if key == Reg.FCL_RESP then BitVec.ofNat 32 (respWord s sel) else getReg s key

/-- Whether the owning block accepts a value, in the state now in force (R427, R430). -/
def gwAccepted (s : State) (key sel : Nat) (v : Word) : Bool :=
  let n := v.toNat
  if key == Reg.TIK_CTRL then 8 ≤ getBits v 8 5 && getBits v 8 5 ≤ 16
  else if key == Reg.FCL_RESP then
    match srcRow sel with
    | some r => r.floor ≤ n % 8 && n % 8 != 0 && n % 8 != 7
    | none => false
  else if key == Reg.THM_ARM then (List.range 12).all (fun i => getBits v (2 * i) 2 != 3)
  else if key == Reg.THM_ERASE then n == 0xE2A5
  else if key == Reg.FLS_XO then
    512 ≤ getBits v 0 12 && getBits v 0 12 ≤ getBits v 16 12 && getBits v 16 12 ≤ 1535
  else if key == Reg.OFC_CTRL then getBits v 0 2 != 3 && 20 ≤ getBits v 16 5 && getBits v 16 5 ≤ 30
  else if key == Reg.LCY_REQ then lifeAllowed s (n % 8)
  else true

/-! ### What a committed entry does -/

/-- The page is to be read again for PG_CHECK in the next kerf (R485). -/
def markPage (s : State) (page : Nat) : State :=
  if s.tick.recheck.contains page then s else { s with tick := { s.tick with recheck := s.tick.recheck ++ [page] } }

/-- Stores the GW bits of a value. -/
def putGw (s : State) (key : Nat) (v : Word) : State :=
  let m := gwMask key
  setReg s key ((getReg s key &&& ~~~m) ||| (v &&& m))

/-- A committed REG entry, under the rules of its block. -/
def gwApply (s : State) (key sel : Nat) (v : Word) : State :=
  let s := markPage s (key / 0x1000)
  if key == Reg.TIK_CTRL then setFlag (event (putGw s key v) Reg.TIK_EVT_PACE_CHANGED) Reg.TIK_STAT_PACE_ACT (v.getLsbD 0)
  else if key == Reg.FCL_RESP then
    let s1 := { s with faults := { s.faults with resp := tput (respReset sel) s.faults.resp sel (v.toNat % 32) } }
    setFlag s1 Reg.FCL_STAT_CERT_OK (certOk s1)
  else if key == Reg.GTE_HCOMMIT then (if v.getLsbD 0 then gteStage s true else s)
  else if key == Reg.THM_ARM then armCommit s (v &&& gwMask key)
  else if key == Reg.THM_ERASE then thmEraseCommit (putGw s key v)
  else if key == Reg.LCY_CTRL then
    silStore (putGw s key v) 10 (BitVec.ofNat 32 ((sillNext s 10 / 2) * 2 + b2n (!v.getLsbD 0)))
  else if key == Reg.LCY_REQ then lifeRequest (putGw s key v) (v.toNat % 8)
  else if Reg.LCY_IKID ≤ key && key < Reg.LCY_IKID + 32 then
    let s1 := putGw s key v
    { s1 with boot := { s1.boot with ikid := (List.range 8).map (fun k => getReg s1 (Reg.LCY_IKID + 4 * k)) } }
  else putGw s key v

/-! ### The officers' records -/

def setOfc (s : State) (o : Ofc) : State := { s with ofc := o }
def getOfficer (s : State) (n : Nat) : Officer := tget Officer.none s.ofc.officers n

/-- The key that seals the officers' records, derived from L1 alone (R423, notes/assumptions/6.md). -/
def officerSeal : Bytes := padTo 32 (Config.pk 22 [ascii "OFFICERS"])

/-- A record's bytes: the state, the serial, the officer key, whether it has a verifier and a seam key, and these two. The
rules name its fields and no layout (DESIGN CHOICE: notes/assumptions/96.md). -/
def officerBytes (x : Officer) : Bytes :=
  leBytes 1 x.st ++ padTo 16 x.serial ++ padTo 32 x.key ++ leBytes 1 (b2n (!x.verifier.isEmpty) + 2 * b2n (!x.seam.isEmpty)) ++
    padTo 8 x.verifier ++ padTo 256 x.seam

def parseOfficer (b : Bytes) : Officer :=
  ⟨byteAt b 0, sub b 1 16, sub b 17 32, if bitAt (byteAt b 49) 0 then sub b 50 8 else [],
   if bitAt (byteAt b 49) 1 then sub b 58 256 else []⟩

/-- OFC_STAT.OFFICERS follows the records. -/
def officerSync (s : State) : State :=
  setF s Reg.OFC_STAT_OFFICERS (s.ofc.officers.filter (fun o => o.2.st != 0)).length

/-- An officer's record changes, and is sealed into the wrapped key store. -/
def setOfficer (s : State) (n : Nat) (x : Officer) : State :=
  officerSync (setOfc s { s.ofc with
    officers := tput Officer.none s.ofc.officers n x
    stored := if x == Officer.none then terase n s.ofc.stored
      else tinsert n (kwpWrap officerSeal (officerBytes x)) s.ofc.stored })

/-- At start-up the records are read back; one that does not open is an officer in NONE (DESIGN CHOICE:
notes/assumptions/96.md). -/
def readOfficers (s : State) : State :=
  setFlag (officerSync (setOfc s { s.ofc with
    officers := s.ofc.stored.filterMap (fun e => (kwpUnwrap officerSeal e.2).map (fun b => (e.1, parseOfficer b))) }))
    Reg.OFC_STAT_READY true

/-- An event of the officer page; line 4 of the management posts (R344). -/
def ofcEvent (s : State) (f : Fld) : State := raiseMgmt (event s f) 4

/-- The attempt count of an officer, in sill registers 8 and 9 (R424). -/
def attempts (s : State) (i : Nat) : Nat := bitsAt (sillNext s (8 + (i - 1) / 8)) (4 * ((i - 1) % 8)) 4

def setAttempts (s : State) (i v : Nat) : State :=
  let r := 8 + (i - 1) / 8
  silStore s r (setBits (BitVec.ofNat 32 (sillNext s r)) (4 * ((i - 1) % 8)) 4 v)

/-! ### Entries of a change (R427) -/

def isCeremony (t : Nat) : Bool := 0x10 ≤ t && t ≤ 0x12

def entryKey (e : GuardEntry) : Nat := e.page * 0x1000 + e.off

/-- Reads a 16-byte entry. -/
def entryOf (b pub : Bytes) : GuardEntry :=
  ⟨byteAt b 0, leAt b 2 2, leAt b 4 2, BitVec.ofNat 32 (leAt b 8 4), leAt b 0x0C 4, if allZero pub then [] else pub, [], [],
   none⟩

/-- The fields that must be zero, and those with a range. -/
def entryShape (b : Bytes) : Bool :=
  let t := byteAt b 0
  let p := leAt b 0x0C 4
  let v := leAt b 8 4
  let noReg := allZero (sub b 2 6)
  byteAt b 1 == 0 && allZero (sub b 6 2) &&
  (if t == 1 then leAt b 2 2 < 4096 && leAt b 4 2 < 4096 && leAt b 4 2 % 4 == 0
   else if t == 2 then noReg && v == 0 && bitsAt p 5 3 == 0 && p < 512 && 1 ≤ p % 32 && p % 32 ≤ 16
   else if t == 3 || t == 4 then noReg && v == 0 && 1 ≤ p && p ≤ 16
   else if t == 0x11 then noReg && v != 0 && p == 0
   else if t == 0x10 || t == 0x12 then
     noReg && (if t == 0x10 then v != 0 else v == 0) && p < 256 && 2 ≤ p % 16 && p % 16 ≤ 8 && p % 16 ≤ p / 16 && p / 16 ≤ 8
   else false)

/-- The entries of a source with the public key blocks of its ENROL entries; none where it is malformed. -/
def parseEntries : (n : Nat) → (es pubs : Bytes) → Option (List GuardEntry)
  | 0, _, pubs => if pubs.isEmpty then some [] else none
  | n + 1, es, pubs =>
    let b := es.take 16
    let enr := byteAt b 0 == 2
    let pub := if enr then pubs.take 256 else []
    if !entryShape b || (enr && pubs.length < 256) || (enr && !allZero pub && !(pubBlockOk pub && pubSet pub == 2)) then none
    else match parseEntries n (es.drop 16) (if enr then pubs.drop 256 else pubs) with
      | some r => some (entryOf b pub :: r)
      | none => none

def parseChange (src : Bytes) : Option (List GuardEntry) :=
  let n := leAt src 4 4
  if src.length < 16 || leAt src 0 4 != 1 || n == 0 || 16 < n || !allZero (sub src 8 8) || src.length < 16 + 16 * n then none
  else parseEntries n (sub src 16 (16 * n)) (src.drop (16 + 16 * n))

/-- Two REG entries for one register and selector, or a ceremony beside another entry. -/
def changeClash (es : List GuardEntry) : Bool :=
  let ks := (es.filter (fun e => e.typ == 1)).map (fun e => (entryKey e, e.param))
  ks.eraseDups.length != ks.length || (es.any (fun e => isCeremony e.typ) && es.length != 1)

/-- The lifecycle permits a ceremony (R433); RESHARE needs an installed L2. -/
def ceremonyPermitted (s : State) (t : Nat) : Bool :=
  let l := lcyState s
  if t == 0x10 then l == lcyBlank
  else if t == 0x11 then l == lcyBlank || l == lcyTampered || (l == lcyProvisioned && !flag s Reg.KST_STAT_DOMAIN)
  else (l == lcyProvisioned || l == lcyOperational) && flag s Reg.KST_STAT_DOMAIN

/-- The reason for which an entry is refused when staged; 0 where it is not. -/
def entryReason (s : State) (e : GuardEntry) : Nat :=
  if e.typ == 1 then
    if !guardedWord (entryKey e) then 4
    else if entryKey e != Reg.FCL_RESP && e.param != 0 then 3
    else if gwAccepted s (entryKey e) e.param e.value then 0 else 4
  else if e.typ == 2 then (if (getOfficer s (e.param % 32)).st != 0 then 3 else 0)
  else if e.typ == 3 || e.typ == 4 then (if (getOfficer s e.param).st == 0 then 6 else 0)
  else if ceremonyPermitted s e.typ then 0 else 14

/-- The first reason of a list of entries. -/
def entriesReason (s : State) (es : List GuardEntry) : Nat :=
  if changeClash es then 3 else ((es.map (entryReason s)).find? (· != 0)).getD 0

/-! ### Staging (R426) -/

/-- OFC_STAT, OFC_GUARD and OFC_CHG_ follow the staged change. -/
def guardSync (s : State) : State :=
  match s.ofc.change with
  | none =>
    let s1 := setFlag s Reg.OFC_STAT_STAGED false
    setFlag (setReg (setReg (setReg (setReg s1 Reg.OFC_GUARD 0#32) Reg.OFC_CHG_LO 0#32) Reg.OFC_CHG_HI 0#32) Reg.OFC_CHG_EXP 0#32)
      Reg.TIK_STAT_STAGED false
  | some c =>
    let a := fun (i : Nat) => (c.approvals.getD i ⟨0, false, 0⟩)
    let w := min 2 c.approvals.length + 4 * b2n (c.entries.any (fun e => isCeremony e.typ)) + (a 0).officer * 2 ^ 8 +
      (a 1).officer * 2 ^ 16 + b2n (a 0).remote * 2 ^ 24 + b2n (a 1).remote * 2 ^ 25
    let s1 := setReg (setFlag s Reg.OFC_STAT_STAGED true) Reg.OFC_GUARD (BitVec.ofNat 32 w)
    let s2 := setReg (setReg s1 Reg.OFC_CHG_LO (BitVec.ofNat 32 c.number)) Reg.OFC_CHG_HI (BitVec.ofNat 32 (c.number / 2 ^ 32))
    setFlag (setReg s2 Reg.OFC_CHG_EXP (BitVec.ofNat 32 c.expiry)) Reg.TIK_STAT_STAGED
      (c.entries.any (fun e => e.typ == 1 && entryKey e == Reg.TIK_CTRL))

def setChange (s : State) (c : Option Change) : State := guardSync (setOfc s { s.ofc with change := c })

/-- 2^OFC_CTRL.TTL ticks. -/
def guardTtl (s : State) : Nat := 2 ^ getF s Reg.OFC_CTRL_TTL

/-- Stages a change: its number, its expiry and its digest over the source. -/
def guardPut (s : State) (es : List GuardEntry) (src : Bytes) : State × Change :=
  let num := bootCount s * 2 ^ 32 + (s.ofc.count + 1) % 2 ^ 32
  let c : Change :=
    { number := num, entries := es, digest := sha384 (leBytes 8 num ++ deviceId s ++ src)
      staged := s.tick.count, expiry := s.tick.count + guardTtl s, approvals := [], commit := none }
  (setChange (setOfc s { s.ofc with count := s.ofc.count + 1 }) (some c), c)

/-- OFC_ERR_INFO. -/
def ofcError (s : State) (op reason : Nat) : State :=
  setF (setF s Reg.OFC_ERR_INFO_OPCODE op) Reg.OFC_ERR_INFO_REASON reason

/-- A direct write of the GW fields of a word, by an initiator (R426, R488, R489). -/
def gwWrite (s : State) (init key : Nat) (v : Word) : State :=
  let m := gwMask key
  let sel := gwSelect s key
  let now := gwValue s key sel
  if m == 0#32 || (v &&& m) == (now &&& m) || !(init == 0 || init == 1 || init == 352) ||
      lcyState s == lcyTerminated || lcyState s == lcyDiagnostic then s
  else if s.ofc.change.isSome then ofcError s 0xFF 2
  else if !gwAccepted s key sel (v &&& m) then ofcError s 0xFF 4
  else
    let e : GuardEntry := ⟨1, key / 0x1000, key % 0x1000, v &&& m, sel, [], [], [], none⟩
    let src := leBytes 4 1 ++ leBytes 4 1 ++ zeros 8 ++ leBytes 2 1 ++ leBytes 2 e.page ++ leBytes 2 e.off ++ zeros 2 ++
      leBytes 4 e.value.toNat ++ leBytes 4 sel
    (guardPut s [e] src).1

/-! ### Failing and ending (R431) -/

def ofcStatus (r : Nat) : Nat :=
  if r == 6 || r == 8 || r == 12 || r == 15 then stAuthFail
  else if r == 7 then stCredLocked
  else if r == 11 then stSigFail
  else if r == 16 then stAborted
  else stBadField

/-- An admin command of the chapter fails with a reason, inline and in OFC_ERR_INFO. -/
def ofcFail (s : State) (n reason : Nat) : State :=
  let op := match getCtx s n with
    | some c => eOp c.entry
    | none => 0
  adminEnd (ofcError s op reason) n { resStatus (ofcStatus reason) with inline := leBytes 8 reason }

/-- The command that a change or ceremony answers to fails. -/
def ofcFailOpt (s : State) (n : Option Nat) (reason : Nat) : State :=
  match n with
  | some n => ofcFail s n reason
  | none => ofcError s 0xFF reason

def ofcOkOpt (s : State) (n : Option Nat) : State :=
  match n with
  | some n => adminOk s n []
  | none => s

/-- GUARD_STAGE. -/
def guardStageEffect (n : Nat) (s : State) : State :=
  match adminCtx s n opGuardStage with
  | none => s
  | some c =>
    if s.ofc.change.isSome then ofcFail s n 2
    else if eLen c.entry < 32 || eLen c.entry > 16 + 16 * 272 then ofcFail s n 3
    else withSource s n c (fun s c =>
      let src := c.src.take (eLen c.entry)
      match parseChange src with
      | none => ofcFail s n 3
      | some es =>
        let r := entriesReason s es
        if r != 0 then ofcFail s n r
        else
          let p := guardPut s es src
          let s1 := sendHost p.1 0 none (eDst c.entry) p.2.digest
          adminEnd s1 n { resInline 48 (leBytes 8 p.2.number) with len := 48 })

def execGuardStage (ctx : Nat) (s : State) : Host.Outcome State Fault Refusal := .next (guardStageEffect ctx s)

/-! ### The guard's end in a reset, the safe state or an invalid encoding (R434) -/

/-- The staged change and its approvals are discarded; a commit that waited fails. -/
def guardDrop (s : State) (reason : Nat) : State :=
  match s.ofc.change with
  | none => s
  | some c =>
    let s1 := setChange s none
    match c.commit with
    | some n => ofcFail s1 n reason
    | none => s1

/-- CHANGE_EXPIRY: in step 4, before any commit. -/
def guardExpiry (s : State) : State :=
  match s.ofc.change with
  | none => s
  | some c => if c.expiry ≤ s.tick.count then ofcEvent (guardDrop s 13) Reg.OFC_EVT_EXPIRED else s

def execChangeExpiry (s : State) : Host.Outcome State Fault Refusal := .next (guardExpiry s)

/-- The approvals that stand from two different ACTIVE officers (R429). -/
def approved2 (s : State) (c : Change) : Bool :=
  2 ≤ ((c.approvals.filter (fun a => (getOfficer s a.officer).st == 2)).map (·.officer)).eraseDups.length

/-- The change commits without approvals in FACTORY and BLANK (R426). -/
def bypassed (s : State) (c : Change) : Bool :=
  (lcyState s == lcyFactory || lcyState s == lcyBlank) && c.entries.all (fun e => e.typ != 0x10 && e.typ != 0x11)

/-- GUARD_COMMIT with DISCARD. -/
def guardDiscardEffect (n : Nat) (s : State) : State :=
  match adminCtx s n opGuardCommit with
  | none => s
  | some c =>
    if !bitAt (eParam c.entry) 0 then s
    else match s.ofc.change with
      | none => ofcFail s n 1
      | some ch => if ch.number != leAt c.entry 0x28 8 then ofcFail s n 1 else adminOk (guardDrop s 1) n []

def execGuardDiscard (ctx : Nat) (s : State) : Host.Outcome State Fault Refusal := .next (guardDiscardEffect ctx s)

end Sys2Proof.Machine
end

