-- ==== Sys2Proof/Machine/Officers.lean ====
section
/-!
DEFINITION. The officer slots (20_officers): cards and their exchanges, sessions, approvals, the commit of a change,
and the domain ceremonies with their share cards.
-/
namespace Sys2Proof.Machine
open Sys2Proof

/-! ### The two slots (R419, R421) -/

def getCard (s : State) (i : Nat) : CardSlot := if i == 0 then s.ofc.slotA else s.ofc.slotB
def setCard (s : State) (i : Nat) (x : CardSlot) : State :=
  if i == 0 then setOfc s { s.ofc with slotA := x } else setOfc s { s.ofc with slotB := x }

/-- A field of OFC_SLOTA or OFC_SLOTB. -/
def slotFld (i : Nat) (f : Fld) : Fld := { f with key := f.key + 4 * i }
def slotSt (s : State) (i : Nat) : Nat := getF s (slotFld i Reg.OFC_SLOTA_STATE)
def slotKind (s : State) (i : Nat) : Nat := getF s (slotFld i Reg.OFC_SLOTA_KIND)
def slotOfficer (s : State) (i : Nat) : Nat := getF s (slotFld i Reg.OFC_SLOTA_OFFICER)
def setSlotSt (s : State) (i v : Nat) : State := setF s (slotFld i Reg.OFC_SLOTA_STATE) v

def stEmpty : Nat := 0
def stInserted : Nat := 1
def stActivating : Nat := 2
def stReady : Nat := 3
def stSession : Nat := 4
def stBusy : Nat := 5
def stFault : Nat := 6

/-- A command to the card: CLA 0x80 (R422). -/
def sendCard (s : State) (i ins p1 p3 : Nat) (data : Bytes) : State :=
  emit s (.card i ([0x80, BitVec.ofNat 8 ins, BitVec.ofNat 8 p1, 0, BitVec.ofNat 8 p3] ++ data))

/-- Starts an exchange with a card: the slot is BUSY until the card answers. -/
def startJob (s : State) (i : Nat) (j : CardJob) (ins p1 p3 : Nat) (data : Bytes) : State :=
  sendCard (setSlotSt (setCard s i { getCard s i with job := j }) i stBusy) i ins p1 p3 data

/-- The activation of a card that is in the slot, up to GET_INFO. -/
def activateCard (s : State) (i : Nat) : State :=
  setSlotSt (startJob s i .info 0x10 0 32 []) i stActivating

/-- The session of a slot ends: the approvals given under it to a change not yet committed are discarded (R425). -/
def endSession (s : State) (i : Nat) : State :=
  if slotOfficer s i == 0 then s
  else
    let s1 := setF s (slotFld i Reg.OFC_SLOTA_OFFICER) 0
    match s1.ofc.change with
    | none => s1
    | some c => setChange s1 (some { c with approvals := c.approvals.filter (fun a => a.remote || a.slot != i) })

/-- The slot deactivates its card. -/
def deactivateCard (s : State) (i : Nat) : State :=
  let s1 := endSession s i
  let s2 := setCard s1 i { getCard s1 i with job := .none, serial := [] }
  setSlotSt (setF s2 (slotFld i Reg.OFC_SLOTA_KIND) 0) i (if (getCard s2 i).present then stInserted else stEmpty)

/-! ### Ceremonies (R432, R433) -/

def setCer (s : State) (c : Option Ceremony) : State :=
  setFlag (setOfc s { s.ofc with ceremony := c }) Reg.OFC_STAT_CEREMONY c.isSome

/-- The domain id: the leftmost 16 bytes of AES-CMAC under L2 over a zero block. -/
def domainId (l2 : Bytes) : Bytes := (cmac l2 (zeros 16)).take 16

/-- The share of index `x`: byte by byte over GF(2^8), whose polynomial the model takes to be that of AES
(notes/assumptions/22.md). -/
def shareOf (l2 : Bytes) (coefs : List Bytes) (x : Byte) : Bytes :=
  (coefs.foldl (fun (a : Bytes × Byte) c => (xorB a.1 (c.map (gmul a.2)), gmul a.2 x)) (l2, x)).1

/-- A share block. -/
def shareBlock (c : Ceremony) (i : Nat) : Bytes :=
  let b := leBytes 4 c.version ++ domainId c.l2 ++ leBytes 1 i ++ leBytes 1 c.k ++ leBytes 1 c.n ++ [0] ++
    padTo 3 (checkValue 3 c.l2) ++ [0] ++ padTo 32 (shareOf c.l2 c.coefs (BitVec.ofNat 8 i)) ++ zeros 64
  b ++ leBytes 4 (crc32c b).toNat

/-- A block is valid: its CRC matches, and its fields are in range. -/
def blockOk (b : Bytes) : Bool :=
  b.length == 128 && leAt b 0x7C 4 == (crc32c (b.take 0x7C)).toNat && 1 ≤ byteAt b 0x14 && byteAt b 0x14 ≤ byteAt b 0x16

def blkVersion (b : Bytes) : Nat := leAt b 0 4
def blkDomain (b : Bytes) : Bytes := sub b 4 16
def blkIndex (b : Bytes) : Nat := byteAt b 0x14

/-- The block of a card that a new share goes into: an empty one, or else the one with the lowest set version, never
the one with the card's highest valid version. -/
def targetBlock (bs : List Bytes) : Nat :=
  match (List.range 4).find? (fun i => !blockOk (bs.getD i [])) with
  | some i => i
  | none =>
    let lo := (bs.map blkVersion).foldl min (blkVersion (bs.getD 0 []))
    let hi := (bs.map blkVersion).foldl max 0
    ((List.range 4).find? (fun i => blkVersion (bs.getD i []) == lo && lo != hi)).getD 3

/-- The distinct shares of the highest set version found, of the domain of its first block. -/
def bestShares (found : List Bytes) : List Bytes :=
  let v := (found.map blkVersion).foldl max 0
  match found.find? (fun b => blkVersion b == v) with
  | none => []
  | some f =>
    (found.filter (fun b => blkVersion b == v && blkDomain b == blkDomain f)).foldl
      (fun l b => if l.any (fun x => blkIndex x == blkIndex b) then l else l ++ [b]) []

/-- Rebuilds L2 from k distinct shares: interpolation at zero. -/
def rebuild (bs : List Bytes) : Bytes :=
  let xs := bs.map (fun b => BitVec.ofNat 8 (blkIndex b))
  (List.range bs.length).foldl (fun acc i =>
    let xi := xs.getD i 0
    let w := (List.range bs.length).foldl (fun p j =>
      if i == j then p else let xj := xs.getD j 0; gmul p (gmul xj (ginv (xj ^^^ xi)))) (1 : Byte)
    xorB acc ((sub (bs.getD i []) 0x1C 32).map (gmul w))) (zeros 32)

/-- The ceremony has what it needs. -/
def cerComplete (s : State) (c : Ceremony) : Bool :=
  if c.kind == 0x11 then
    match bestShares c.found with
    | [] => false
    | b :: r => byteAt b 0x15 ≤ (b :: r).length
  else getF s Reg.OFC_CER_DONE_CNT ≥ c.n

/-- Reads block 0 of the share card in a slot. -/
def cerTake (s : State) (i : Nat) (c : Ceremony) : State :=
  startJob (setF (setCer s (some { c with slot := some i, blocks := [] })) Reg.OFC_CER_STATE 3) i (.read 0) 0x30 0 128 []

/-- Prompts for a card; a share card that stands READY in a slot without a session is taken at once. -/
def cerPrompt (s : State) : State :=
  match s.ofc.ceremony with
  | none => s
  | some c =>
    let next := if c.kind == 0x11 then 0 else getF s Reg.OFC_CER_DONE_CNT + 1
    let s1 := ofcEvent (setF (setF s Reg.OFC_CER_STATE 1) Reg.OFC_CER_NEXT next) Reg.OFC_EVT_CER_PROMPT
    let c1 := { c with slot := none }
    match [0, 1].find? (fun i => slotSt s1 i == stReady && slotKind s1 i == 2) with
    | some i => cerTake s1 i c1
    | none => setCer s1 (some c1)

/-- The card in hand failed or held nothing of use: it, or another one, is asked for again. -/
def cerRetry (s : State) : State := cerPrompt (countF s Reg.OFC_CER_RETRY 1)

/-- A ceremony fails and installs nothing. -/
def cerFail (s : State) (reason : Nat) : State :=
  match s.ofc.ceremony with
  | none => s
  | some c =>
    let s1 := match c.slot with
      | some i => deactivateCard s i
      | none => s
    ofcFailOpt (setF (setCer s1 none) Reg.OFC_CER_STATE 5) c.ctx reason

/-- The next step once a card is done with. -/
def cerNext (s : State) (i : Nat) : State :=
  let s1 := deactivateCard s i
  match s1.ofc.ceremony with
  | none => s1
  | some c => if cerComplete s1 c then setCer s1 (some { c with slot := none }) else cerPrompt s1

/-- All four blocks of the card are read. -/
def cerRead (s : State) (i : Nat) (c : Ceremony) : State :=
  if c.kind == 0x11 then
    let good := c.blocks.filter blockOk
    let c1 := { c with found := c.found ++ good }
    let s1 := setF (setCer s (some c1)) Reg.OFC_CER_DONE_CNT (bestShares c1.found).length
    if good.isEmpty then cerRetry (deactivateCard s1 i) else cerNext s1 i
  else
    let t := targetBlock c.blocks
    startJob (setF s Reg.OFC_CER_STATE 2) i (.write t) 0x32 t 128 (shareBlock c (getF s Reg.OFC_CER_DONE_CNT + 1))

/-- A block is read, to find shares or a place, or to check what was written. -/
def readDone (s : State) (i blk : Nat) (verify : Bool) (data : Bytes) : State :=
  match s.ofc.ceremony with
  | none => deactivateCard s i
  | some c =>
    if verify then
      if data == shareBlock c (getF s Reg.OFC_CER_DONE_CNT + 1) then cerNext (countF s Reg.OFC_CER_DONE_CNT 1) i
      else cerRetry (deactivateCard s i)
    else
      let c1 := { c with blocks := c.blocks ++ [padTo 128 data] }
      let s1 := setCer s (some c1)
      if blk < 3 then startJob s1 i (.read (blk + 1)) 0x30 (blk + 1) 128 [] else cerRead s1 i c1

/-- A running ceremony that has not drawn its material yet begins: DOMAIN_NEW draws L2, DOMAIN_NEW and RESHARE the
sharing polynomials. -/
def cerBegin (s : State) (kind : Nat) : State :=
  match s.ofc.ceremony with
  | none => s
  | some c =>
    if c.kind != kind || getF s Reg.OFC_CER_STATE != 0 then s
    else
      let d := if kind == 0x10 then drawFrom childPosts 32 s else ((getKey s 0).material, s)
      let p := if kind == 0x11 then ([], d.2) else drawFrom childPosts (32 * (c.k - 1)) d.2
      let c1 := { c with l2 := if kind == 0x11 then [] else d.1, coefs := chunks 32 p.1
                         version := if kind == 0x12 then s.ofc.version + 1 else 1 }
      cerPrompt (setCer p.2 (some c1))

def execDomainNew (s : State) : Host.Outcome State Fault Refusal := .next (cerBegin s 0x10)
def execDomainJoin (s : State) : Host.Outcome State Fault Refusal := .next (cerBegin s 0x11)
def execReshare (s : State) : Host.Outcome State Fault Refusal := .next (cerBegin s 0x12)

/-- Step 4: a ceremony that has what it needs ends. -/
def kerfCeremony (s : State) : State :=
  match s.ofc.ceremony with
  | none => s
  | some c =>
    if getF s Reg.OFC_CER_STATE == 0 || !cerComplete s c then s
    else
      let bs := bestShares c.found
      let b := bs.getD 0 []
      let l2 := if c.kind == 0x11 then rebuild (bs.take (byteAt b 0x15)) else c.l2
      if c.kind == 0x11 && !(domainId l2 == blkDomain b && padTo 3 (checkValue 3 l2) == sub b 0x18 3) then cerFail s 15
      else
        let v := if c.kind == 0x11 then blkVersion b else c.version
        let s1 := setF (setCer s none) Reg.OFC_CER_STATE 4
        let s2 := setOfc s1 { s1.ofc with version := v }
        ofcOkOpt (if c.kind == 0x12 then s2 else installDomain s2 l2 c.dev) c.ctx

/-- CEREMONY_TIMEOUT: 2^TTL ticks after the commit. -/
def ceremonyTimeoutEffect (s : State) : State :=
  match s.ofc.ceremony with
  | none => s
  | some c => if c.started + guardTtl s ≤ s.tick.count then cerFail s 16 else s

def execCeremonyTimeout (s : State) : Host.Outcome State Fault Refusal := .next (ceremonyTimeoutEffect s)

/-! ### Card errors (R421, R434, R435) -/

/-- Marks how the WRITE_KEY of an ENROL entry ended. -/
def enrolEnd (s : State) (k : Nat) (ok : Bool) : State :=
  match s.ofc.change with
  | none => s
  | some c =>
    setChange s (some { c with entries := (List.range c.entries.length).filterMap (fun i =>
      (c.entries[i]?).map (fun e => if i == k then { e with written := some ok } else e)) })

/-- What a lost exchange does to the work it served. -/
def jobLost (s : State) (j : CardJob) : State :=
  match j with
  | .none => s
  | .info => s
  | .login n _ _ _ => ofcFail s n 16
  | .approve n _ => ofcFail s n 16
  | .enrol k => enrolEnd s k false
  | .read _ => cerRetry s
  | .write _ => cerRetry s
  | .verify _ => cerRetry s

/-- The exchange is a write, a LOGIN or part of a ceremony. -/
def jobFires : CardJob → Bool
  | .none => false
  | .info => false
  | .login _ _ _ _ => true
  | .approve _ _ => false
  | .enrol _ => true
  | .read _ => true
  | .write _ => true
  | .verify _ => true

/-- A card error of a code: the card is deactivated, its session ends, and the work it served ends or asks again. -/
def cardError (s : State) (i code : Nat) : State :=
  let j := (getCard s i).job
  let s1 := deactivateCard (ofcEvent (setF s (slotFld i Reg.OFC_SLOTA_ERR) code) Reg.OFC_EVT_CARD_ERR) i
  let s2 := if code ≤ 2 then setSlotSt s1 i stFault else s1
  let s3 := if 3 ≤ code && jobFires j then fire s2 { FireArgs.plain srcOfcCard none with detail := code } else s2
  jobLost s3 j

/-- The block serves: the device is not held in reset and not in the safe state. -/
def cardsServed (s : State) : Bool := !s.boot.held && !s.faults.safe

/-- CARD_INSERT; `t0` says whether the answer to reset offers T=0. -/
def cardInsertEffect (slot : Nat) (t0 : Bool) (s : State) : State :=
  if !cardsServed s || 1 < slot || (getCard s slot).present then s
  else
    let s1 := ofcEvent (setCard s slot { CardSlot.empty with present := true }) Reg.OFC_EVT_INSERT
    let s2 := setF s1 (slotFld slot Reg.OFC_SLOTA_ERR) 0
    if t0 then activateCard s2 slot else cardError s2 slot 2

def execCardInsert (slot : Nat) (t0 : Bool) (s : State) : Host.Outcome State Fault Refusal :=
  .next (cardInsertEffect slot t0 s)

/-- CARD_REMOVE: an exchange that runs is a card error of code 7. -/
def cardRemoveEffect (slot : Nat) (s : State) : State :=
  if s.boot.held || 1 < slot || !(getCard s slot).present then s
  else
    let s1 := ofcEvent (setCard s slot { getCard s slot with present := false }) Reg.OFC_EVT_REMOVE
    if (getCard s1 slot).job == .none then deactivateCard s1 slot else cardError s1 slot 7

def execCardRemove (slot : Nat) (s : State) : Host.Outcome State Fault Refusal := .next (cardRemoveEffect slot s)

/-- The exchange writes to the card, so its busy phase may run out. -/
def jobWrites : CardJob → Bool
  | .enrol _ => true
  | .write _ => true
  | _ => false

/-- CARD_TIMEOUT: the answer to reset (1) while the slot activates; otherwise the busy-hold (5) where `busy`, or the
work waiting time (4). -/
def cardTimeoutEffect (slot : Nat) (busy : Bool) (s : State) : State :=
  if 1 < slot then s
  else
    let j := (getCard s slot).job
    if j == .none then s
    else if j == .info then cardError s slot 1
    else cardError s slot (if busy && jobWrites j then 5 else 4)

def execCardTimeout (slot : Nat) (busy : Bool) (s : State) : Host.Outcome State Fault Refusal :=
  .next (cardTimeoutEffect slot busy s)

/-! ### The card's answers (R422) -/

/-- The status word of success. -/
def swOk : Nat := 0x9000

/-- GET_INFO's answer: kind, serial, block count. -/
def getInfoEffect (slot sw : Nat) (data : Bytes) (s : State) : State :=
  if 1 < slot || (getCard s slot).job != .info then s
  else if sw != swOk then cardError s slot 6
  else
    let s1 := setCard s slot { getCard s slot with job := .none, serial := sub data 1 16 }
    let k := byteAt data 0
    let s2 := setSlotSt (setF s1 (slotFld slot Reg.OFC_SLOTA_KIND) (if k == 1 || k == 2 then k else 0)) slot stReady
    match s2.ofc.ceremony with
    | some c => if getF s2 Reg.OFC_CER_STATE == 1 && k == 2 then cerTake s2 slot c else s2
    | none => s2

def execGetInfo (slot sw : Nat) (data : Bytes) (s : State) : Host.Outcome State Fault Refusal :=
  .next (getInfoEffect slot sw data s)

/-- READ_BLOCK's answer. -/
def readBlockEffect (slot sw : Nat) (data : Bytes) (s : State) : State :=
  if 1 < slot then s
  else match (getCard s slot).job with
    | .read b => if sw == swOk then readDone s slot b false data else cardError s slot 6
    | .verify b => if sw == swOk then readDone s slot b true data else cardError s slot 6
    | _ => s

def execReadBlock (slot sw : Nat) (data : Bytes) (s : State) : Host.Outcome State Fault Refusal :=
  .next (readBlockEffect slot sw data s)

/-- WRITE_BLOCK's answer: the block is read back. -/
def writeBlockEffect (slot sw : Nat) (s : State) : State :=
  if 1 < slot then s
  else match (getCard s slot).job with
    | .write b => if sw == swOk then startJob s slot (.verify b) 0x30 b 128 [] else cardError s slot 6
    | _ => s

def execWriteBlock (slot sw : Nat) (s : State) : Host.Outcome State Fault Refusal := .next (writeBlockEffect slot sw s)

/-- WRITE_KEY's answer; the card is not needed further. -/
def writeKeyEffect (slot sw : Nat) (s : State) : State :=
  if 1 < slot then s
  else match (getCard s slot).job with
    | .enrol k => if sw == swOk then enrolEnd (deactivateCard s slot) k true else cardError s slot 6
    | _ => s

def execWriteKey (slot sw : Nat) (s : State) : Host.Outcome State Fault Refusal := .next (writeKeyEffect slot sw s)

/-! ### Sessions and approvals (R424–R429) -/

/-- A wrong PIN or card response: the count rises, and at 3 the officer is LOCKED. -/
def countWrong (s : State) (i : Nat) : State :=
  let n := attempts s i + 1
  let s1 := setAttempts s i n
  if n ≥ 3 then
    let s2 := setOfficer s1 i { getOfficer s1 i with st := 3 }
    firePlain (ofcEvent s2 Reg.OFC_EVT_LOCKED) srcOfcLock none
  else s1

/-- The key that PIN verifiers are computed under, derived from L1 (notes/assumptions/6.md). -/
def verifierKey : Bytes := padTo 32 (Config.pk 22 [ascii "OFFICERPIN"])

/-- The officer number as a 12-digit PAN. -/
def officerPan (i : Nat) : List Nat := strR 12 i

/-- The login key from the entry device's point; none where the point fails validation. -/
def loginKey (s : State) (point : Bytes) : Option Bytes :=
  (ecdhSecret p384 agreementScalar point).map (fun x => kdf56c x (padTo 8 (Config.pk 31 [])) (deviceId s) 32)

/-- The verifier of a PIN block under the login key; none where the block is not well formed or its PIN has fewer than
6 digits. -/
def pinVerifier (key : Bytes) (i : Nat) (block : Bytes) : Option Bytes :=
  let ns := decodeField 4 key (officerPan i) block
  let pin := pinOf ns
  if pinFieldOk 4 ns && 6 ≤ pin.length then
    some ((cmac verifierKey (canonicalPin pin ++ panField16 (officerPan i))).take 8)
  else none

/-- Issues CHALLENGE: 16 bytes with the device id behind them. -/
def challenge (s : State) (i : Nat) (j : CardJob) (data : Bytes) : State := startJob s i j 0x20 0 32 data

/-- What the slot of an operation allows: 0 go on, 1 wait, or a reason. -/
def slotAnswer (s : State) (i : Nat) : Nat :=
  let st := slotSt s i
  if st == stSession then 9
  else if st == stInserted || st == stActivating then 1
  else if st == stReady && slotKind s i == 1 then 0
  else 5

/-- The slot is busy with this command's own exchange. -/
def ownJob (s : State) (i n : Nat) : Bool :=
  match (getCard s i).job with
  | .login m _ _ _ => m == n
  | .approve m _ => m == n
  | _ => false

/-- LOGIN: the PIN, then the card. -/
def loginEffect (n : Nat) (s : State) : State :=
  match adminCtx s n opGuardApprove with
  | none => s
  | some c =>
    let i := b2n (bitAt (eParam c.entry) 8)
    let o := leAt c.entry 0x28 4
    if bitsAt (eParam c.entry) 0 2 != 0 || ownJob s i n then s
    else
      let a := slotAnswer s i
      if a == 1 then (if slotSt s i == stInserted then activateCard s i else s)
      else if a != 0 then ofcFail s n a
      else if (getOfficer s o).st == 0 then ofcFail s n 6
      else if (getOfficer s o).st == 3 then ofcFail s n 7
      else withSource s n c (fun s c =>
        match loginKey s (c.src.take 97) with
        | none => ofcFail s n 3
        | some k =>
          let x := getOfficer s o
          let v := pinVerifier k o (sub c.src 97 16)
          let ok := match v with
            | some v => x.st == 1 || v == x.verifier
            | none => false
          if !ok then deactivateCard (ofcFail (countWrong s o) n 8) i
          else
            let d := drawFrom childPosts 16 s
            let data := d.1 ++ deviceId s
            challenge d.2 i (.login n o data (v.getD [])) data)

def execLogin (ctx : Nat) (s : State) : Host.Outcome State Fault Refusal := .next (loginEffect ctx s)

/-- Whether an officer may approve the change now (R429): 0, or the reason. -/
def approvalReason (s : State) (c : Change) (o : Nat) (remote : Bool) : Nat :=
  let subject := c.entries.any (fun e => (e.typ == 2 || e.typ == 3 || e.typ == 4) && e.param % 32 == o)
  let rem := (c.approvals.filter (·.remote)).length
  if c.approvals.any (fun a => a.officer == o) || subject || 2 ≤ c.approvals.length ||
      (remote && getF s Reg.OFC_CTRL_REMOTE_MAX ≤ rem) then 10
  else 0

/-- The approval stands. -/
def addApproval (s : State) (o : Nat) (remote : Bool) (slot : Nat) : State :=
  match s.ofc.change with
  | none => s
  | some c => setChange s (some { c with approvals := c.approvals ++ [⟨o, remote, slot⟩] })

/-- The staged change that a command names by its number. -/
def namedChange (s : State) (c : Ctx) : Option Change :=
  match s.ofc.change with
  | some ch => if ch.number == leAt c.entry 0x28 8 then some ch else none
  | none => none

/-- Local APPROVE. -/
def approveEffect (n : Nat) (s : State) : State :=
  match adminCtx s n opGuardApprove with
  | none => s
  | some c =>
    let i := b2n (bitAt (eParam c.entry) 8)
    if bitsAt (eParam c.entry) 0 2 != 1 || bitAt (eParam c.entry) 9 || ownJob s i n then s
    else match namedChange s c with
      | none => ofcFail s n 1
      | some ch =>
        if slotSt s i != stSession then ofcFail s n 9
        else
          let o := slotOfficer s i
          let r := approvalReason s ch o false
          if r != 0 then ofcFail s n r
          else
            let data := ch.digest.take 16 ++ deviceId s
            challenge s i (.approve n data) data

def execApprove (ctx : Nat) (s : State) : Host.Outcome State Fault Refusal := .next (approveEffect ctx s)

/-- A LOGIN's card answered. -/
def loginAnswer (s : State) (i n o : Nat) (data verifier resp : Bytes) : State :=
  let x := getOfficer s o
  if cmac x.key data != resp then deactivateCard (ofcFail (countWrong s o) n 8) i
  else if (getCard s i).serial != x.serial then deactivateCard (ofcFail s n 6) i
  else
    let s1 := setOfficer (setAttempts s o 0) o { x with st := 2, verifier := verifier }
    let s2 := setCard s1 i { getCard s1 i with job := .none, used := s.tick.count }
    adminOk (setF (setSlotSt s2 i stSession) (slotFld i Reg.OFC_SLOTA_OFFICER) o) n []

/-- An APPROVE's card answered. -/
def approveAnswer (s : State) (i n : Nat) (data resp : Bytes) : State :=
  let o := slotOfficer s i
  let x := getOfficer s o
  let s1 := setSlotSt (setCard s i { getCard s i with job := .none }) i stSession
  if cmac x.key data != resp then
    let s2 := ofcFail (countWrong s1 o) n 8
    if (getOfficer s2 o).st == 3 then deactivateCard s2 i else s2
  else match s1.ofc.change with
    | none => ofcFail s1 n 1
    | some ch =>
      if ch.digest.take 16 ++ deviceId s1 != data then ofcFail s1 n 1
      else
        let r := approvalReason s1 ch o false
        if r != 0 then ofcFail s1 n r
        else adminOk (addApproval (setCard s1 i { getCard s1 i with used := s.tick.count }) o false i) n []

/-- CHALLENGE's answer. -/
def challengeEffect (slot sw : Nat) (data : Bytes) (s : State) : State :=
  if 1 < slot then s
  else match (getCard s slot).job with
    | .login n o d v => if sw == swOk then loginAnswer s slot n o d v (padTo 16 data) else cardError s slot 6
    | .approve n d => if sw == swOk then approveAnswer s slot n d (padTo 16 data) else cardError s slot 6
    | _ => s

def execChallenge (slot sw : Nat) (data : Bytes) (s : State) : Host.Outcome State Fault Refusal :=
  .next (challengeEffect slot sw data s)

/-- The approval message of a remote approval names this change on this device (R428). -/
def messageOk (s : State) (ch : Change) (m : Bytes) : Bool :=
  leAt m 0 4 == 1 && leAt m 8 8 == ch.number && sub m 0x10 16 == deviceId s && sub m 0x20 48 == ch.digest &&
  allZero (sub m 0x50 16)

/-- Remote APPROVE. -/
def remoteApproveEffect (n : Nat) (s : State) : State :=
  match adminCtx s n opGuardApprove with
  | none => s
  | some c =>
    if bitsAt (eParam c.entry) 0 2 != 1 || !bitAt (eParam c.entry) 9 then s
    else if (namedChange s c).isNone then ofcFail s n 1
    else withSource s n c (fun s c =>
      match namedChange s c with
      | none => ofcFail s n 1
      | some ch =>
        let m := c.src.take 96
        let o := leAt m 4 4
        let x := getOfficer s o
        let r := approvalReason s ch o true
        if !messageOk s ch m then ofcFail s n 3
        else if x.st == 0 || x.st == 1 then ofcFail s n 6
        else if x.st == 3 then ofcFail s n 7
        else if r != 0 then ofcFail s n r
        else if x.seam.isEmpty then ofcFail s n 11
        else if noPurlin s then adminEnd s n (resStatus stGate)
        else if !containerOk 2 x.seam m (sub c.src 96 3420) then ofcFail s n 11
        else adminOk (addApproval s o true 0) n [])

def execRemoteApprove (ctx : Nat) (s : State) : Host.Outcome State Fault Refusal := .next (remoteApproveEffect ctx s)

/-- LOGOUT. -/
def logoutEffect (n : Nat) (s : State) : State :=
  match adminCtx s n opGuardApprove with
  | none => s
  | some c =>
    let i := b2n (bitAt (eParam c.entry) 8)
    if bitsAt (eParam c.entry) 0 2 != 2 then s
    else if slotSt s i != stSession then ofcFail s n 9
    else adminOk (deactivateCard s i) n []

def execLogout (ctx : Nat) (s : State) : Host.Outcome State Fault Refusal := .next (logoutEffect ctx s)

/-- SESSION_EXPIRY: 2^TTL ticks without an approval. -/
def sessionExpiry (s : State) : State :=
  [0, 1].foldl (fun s i =>
    if slotSt s i == stSession && (getCard s i).used + guardTtl s ≤ s.tick.count then deactivateCard s i else s) s

def execSessionExpiry (s : State) : Host.Outcome State Fault Refusal := .next (sessionExpiry s)

/-! ### The commit (R430) -/

/-- WRITE_KEY for the first ENROL entry that waits for one: an absent or wrong card fails it. -/
def issueEnrol (s : State) : State :=
  match s.ofc.change with
  | none => s
  | some c =>
    match (List.range c.entries.length).find? (fun k => match c.entries[k]? with
        | some e => e.typ == 2 && e.written.isNone
        | none => false) with
    | none => s
    | some k =>
      let i := match c.entries[k]? with
        | some e => e.param / 256
        | none => 0
      let st := slotSt s i
      if st == stInserted then activateCard s i
      else if st == stActivating || st == stBusy then s
      else if st == stReady && slotKind s i == 1 then
        let d := drawFrom childPosts 32 s
        let ser := (getCard s i).serial
        let es := (List.range c.entries.length).filterMap (fun j =>
          (c.entries[j]?).map (fun e => if j == k then { e with key := d.1, serial := ser } else e))
        startJob (setChange d.2 (some { c with entries := es })) i (.enrol k) 0x40 0 32 d.1
      else enrolEnd s k false

/-- GUARD_COMMIT: the change commits in step 4 of the next kerf; the keys of its ENROL entries go to their cards
first. -/
def guardCommitEffect (n : Nat) (s : State) : State :=
  match adminCtx s n opGuardCommit with
  | none => s
  | some c =>
    if bitAt (eParam c.entry) 0 then s
    else match namedChange s c with
      | none => ofcFail s n 1
      | some ch =>
        if ch.commit.isSome then s
        else
          let s1 := setChange s (some { ch with commit := some n })
          if approved2 s ch || bypassed s ch then issueEnrol s1 else s1

def execGuardCommit (ctx : Nat) (s : State) : Host.Outcome State Fault Refusal := .next (guardCommitEffect ctx s)

/-- A slot's session ends with its card's exchange (R425). -/
def closeSession (s : State) (i : Nat) : State :=
  if slotOfficer s i == 0 then s else jobLost (deactivateCard s i) (getCard s i).job

/-- Sessions of an officer end. -/
def endSessionsOf (s : State) (o : Nat) : State :=
  [0, 1].foldl (fun s i => if slotOfficer s i == o then closeSession s i else s) s

/-- One entry of a change that commits. -/
def applyEntry (s : State) (e : GuardEntry) : State :=
  let o := e.param % 32
  if e.typ == 1 then gwApply s (entryKey e) e.param e.value
  else if e.typ == 2 then setAttempts (setOfficer s o ⟨1, e.serial, e.key, [], e.pub⟩) o 0
  else if e.typ == 3 then setOfficer (endSessionsOf s o) o Officer.none
  else if e.typ == 4 then
    let x := getOfficer s o
    setAttempts (setOfficer (endSessionsOf s o) o { x with st := if x.verifier.isEmpty then 1 else 2 }) o 0
  else s

/-- A ceremony's commit: it runs on from here, and its command waits. -/
def startCeremony (s : State) (c : Change) (e : GuardEntry) : State :=
  let x : Ceremony :=
    { ctx := c.commit, kind := e.typ, k := e.param % 16, n := e.param / 16, dev := e.value.toNat, l2 := [], version := 0
      coefs := [], started := s.tick.count, slot := none, blocks := [], found := [] }
  ofcEvent (setReg (setCer (setChange s none) (some x)) Reg.OFC_CER 0#32) Reg.OFC_EVT_COMMIT

/-- The whole change takes effect, in entry order. -/
def applyChange (s : State) (c : Change) : State :=
  match c.entries.find? (fun e => isCeremony e.typ) with
  | some e =>
    if s.ofc.ceremony.isSome || !ceremonyPermitted s e.typ then guardDrop s 14 else startCeremony s c e
  | none =>
    let s1 := c.entries.foldl applyEntry (setChange s none)
    ofcOkOpt (ofcEvent s1 Reg.OFC_EVT_COMMIT) c.commit

/-- Step 4: expiry first, then the change whose commit step this is. -/
def kerfGuard (s0 : State) : State :=
  let s := guardExpiry (kerfCeremony s0)
  match s.ofc.change with
  | none => s
  | some c =>
    let by_ := bypassed s c && c.staged < s.tick.count
    if !by_ && c.commit.isNone then s
    else if !bypassed s c && !approved2 s c then
      ofcFailOpt (setChange s (some { c with commit := none })) c.commit 12
    else if c.entries.any (fun e => e.typ == 2 && e.written.isNone) then issueEnrol s
    else if c.entries.any (fun e => e.written == some false) then guardDrop s 16
    else if c.entries.any (fun e => e.typ == 1 && !gwAccepted s (entryKey e) e.param e.value) then guardDrop s 4
    else applyChange s c

/-! ### What a reset or the safe state does (R425, R434) -/

/-- The staged change, the approvals, the sessions and the ceremony go, and the slots are deactivated. -/
def ofcSafe (s : State) : State :=
  let s1 := setCer (guardDrop s 16) none
  let s2 := if getF s1 Reg.OFC_CER_STATE == 0 then s1 else setF s1 Reg.OFC_CER_STATE 5
  [0, 1].foldl deactivateCard s2

/-! ### Views (R435) -/

/-- OFC_OFFICER of the selected officer. -/
def officerView (s : State) : Word :=
  let i := getF s Reg.OFC_OFF_SEL_OFFICER
  let x := getOfficer s i
  if x.st == 0 then 0#32
  else BitVec.ofNat 32 (x.st + (attempts s i % 4) * 2 ^ 4 + b2n (!x.seam.isEmpty) * 2 ^ 8)

end Sys2Proof.Machine
end

