-- ==== Sys2Proof/Machine/Queues.lean ====
section
/-!
DEFINITION. Host queues (03_queues R61–R68, R79, R84, 02_tick R34, R44): enabling and disabling, doorbells, fetching,
completion entries, interrupts.
-/
namespace Sys2Proof.Machine
open Sys2Proof

/-! ### Sizes -/

def sqLog (q : Queue) : Nat := getBits q.qsize 0 5
def cqLog (q : Queue) : Nat := getBits q.qsize 8 5
def sqSize (q : Queue) : Nat := 2 ^ sqLog q
def cqSize (q : Queue) : Nat := 2 ^ cqLog q
def qVec (q : Queue) : Nat := getBits q.qvec 0 11
def aggCnt (q : Queue) : Nat := getBits q.qvec 16 8
def aggTime (q : Queue) : Nat := getBits q.qvec 24 8

/-- MSI-X vectors of a function: 2,048 of the physical, 64 of a virtual one (R79). -/
def msixSize (slice : Nat) : Nat := if slice == 0 then 2048 else 64

/-- `(a − b) mod n`. -/
def modSub (a b n : Nat) : Nat := (a + n - b % n) % n

/-! ### Enabling and disabling (R62–R64) -/

/-- The first failed check of an enable: causes 1 to 4, 0 where it passes. -/
def enableCause (slice : Nat) (q : Queue) : Nat :=
  if q.sqBase == 0 || q.cqBase == 0 then 1
  else if !(4 ≤ sqLog q && sqLog q ≤ 16 && 4 ≤ cqLog q && cqLog q ≤ 16) then 2
  else if cqLog q < sqLog q then 3
  else if qVec q ≥ msixSize slice then 4
  else 0

/-- The function's queue window takes writes: it is enabled, and the device is not in the safe state (R82). -/
def windowOpen (s : State) (slice queue : Nat) : Bool :=
  (getSlice s slice).fnEn && queueHeld s slice queue && !s.faults.safe

/-- QUEUE_ENABLE: a write of EN = 1. -/
def queueEnableEffect (slice queue : Nat) (s : State) : State :=
  if !windowOpen s slice queue then s
  else
    let q := getQueue s slice queue
    if q.st != .disabled then setQueue s slice queue { q with en := true }
    else
      let c := enableCause slice q
      if c != 0 then setQueue s slice queue { q with en := true, cause := c, staged := none }
      else setQueue s slice queue { q with en := true, staged := some true }

def execQueueEnable (slice queue : Nat) (s : State) : Host.Outcome State Fault Refusal :=
  .next (queueEnableEffect slice queue s)

/-- QUEUE_DISABLE: a write of EN = 0. -/
def queueDisableEffect (slice queue : Nat) (s : State) : State :=
  if !windowOpen s slice queue then s
  else
    let q := getQueue s slice queue
    let live := q.st == .enabled || q.st == .stopped || q.st == .held
    setQueue s slice queue { q with en := false, staged := if live then some false else none }

def execQueueDisable (slice queue : Nat) (s : State) : Host.Outcome State Fault Refusal :=
  .next (queueDisableEffect slice queue s)

/-- A held enable takes effect: the device runs, and for a data queue its slice serves (R39, R62, R439). -/
def enableReady (s : State) (slice queue : Nat) : Bool :=
  if queue == adminQ then running s || flag s Reg.LCY_STAT_RECOVERY
  else running s && (getSlice s slice).st == .active && (getSlice s slice).change.isNone &&
    (lcyState s == lcyOperational || lcyState s == lcyTampered)

/-- A queue as it is when it becomes ENABLED. -/
def enabledQueue (q : Queue) : Queue :=
  { q with st := .enabled, cause := 0, phase := true, sqHead := 0, sqTail := 0, cqTail := 0, cqHead := 0
           staged := none, aggCount := 0, aggStart := none, heldFetch := 0 }

/-- A queue that was STOPPED and is being disabled discards its completions (R64). -/
def discards (q : Queue) : Bool := q.st == .disabling && 5 ≤ q.cause

/-- Drops the waiting completions of a queue; their contexts are held until the queue is DISABLED. -/
def discardCompls (s : State) (slice queue : Nat) : State :=
  { s with compls := s.compls.filter (fun e => !(e.slice == slice && e.queue == queue)) }

/-- Frees what contexts a queue still holds as it becomes DISABLED (R64). -/
def freeQueue (s : State) (slice queue : Nat) : State :=
  { s with ctxs := s.ctxs.filter (fun c => !(c.2.slice == slice && c.2.queue == queue)) }

/-- No command of the queue is left: none fetched, none running in a context, no completion waiting. -/
def queueEmpty (s : State) (slice queue : Nat) : Bool :=
  !s.ctxs.any (fun c => c.2.slice == slice && c.2.queue == queue && c.2.phase == .running) &&
  !s.fetched.any (fun f => f.slice == slice && f.queue == queue) &&
  !s.compls.any (fun c => c.slice == slice && c.queue == queue)

/-- Step 4 for one queue: staged enables and disables, and the end of a disabling. -/
def kerfQueue (s : State) (k : Nat) : State :=
  let slice := k / 512
  let queue := k % 512
  let q := getQueue s slice queue
  let s1 := match q.staged with
    | some true => if q.st == .disabled && enableReady s slice queue then setQueue s slice queue (enabledQueue q) else s
    | some false =>
      if q.st == .enabled || q.st == .stopped then
        setQueue s slice queue { q with st := .disabling, staged := none }
      else s
    | none => s
  let q1 := getQueue s1 slice queue
  let s2 := if discards q1 then discardCompls s1 slice queue else s1
  if q1.st == .disabling && queueEmpty s2 slice queue then
    setQueue (freeQueue s2 slice queue) slice queue { q1 with st := .disabled }
  else s2

/-- Step 4: every queue. -/
def kerfQueues (s : State) : State := (s.queues.map (·.1)).foldl kerfQueue s

/-! ### Fetching (R67) -/

/-- Entries fetched and not admitted, or in an outstanding read, of the queue's group. -/
def groupFetched (s : State) (slice queue : Nat) : Nat :=
  let same := fun (q : Nat) => if queue == adminQ then q == adminQ
    else q != adminQ && groupOfQueue s slice q == groupOfQueue s slice queue
  (s.fetched.filter (fun f => f.slice == slice && same f.queue)).length +
  (s.queues.filter (fun q => q.1 / 512 == slice && same (q.1 % 512))).foldl (fun n q => n + q.2.heldFetch) 0

/-- The queue may fetch: enabled, no change of its slice committed (R81), its function may issue requests. -/
def mayFetch (s : State) (slice queue : Nat) : Bool :=
  (getQueue s slice queue).st == .enabled && !s.faults.safe && !(getSlice s slice).busOff &&
  (queue == adminQ || (match (getSlice s slice).change with
    | some c => c.committed.isNone
    | none => true))

/-- The group of a data queue has an inbound link slot left in this tick for an entry-fetch read (R67, R289). The admin
pair uses slice 0's own slots, and WORK pacing has no limit. -/
def fetchSlot (s : State) (slice queue : Nat) : Bool :=
  if queue == adminQ || flag s Reg.TIK_STAT_PACE_ACT then true
  else match groupOfQueue s slice queue with
    | none => false
    | some g => match groupOf s slice g with
      | none => false
      | some c => tget 0 s.tick.inUsed (gidOf slice g) < c.linkIn

/-- Issues the next read of a queue's entries: up to 8, not past the end of the queue, within DEPTH. -/
def startFetch (s : State) (slice queue : Nat) : State :=
  let q := getQueue s slice queue
  let n := min (min 8 (modSub q.sqTail q.sqHead (sqSize q)))
    (min (sqSize q - q.sqHead) (getF s Reg.HQ_FETCH_DEPTH - groupFetched s slice queue))
  if !mayFetch s slice queue || q.heldFetch != 0 || n == 0 || !fetchSlot s slice queue then s
  else
    let s1 := match groupOfQueue s slice queue with
      | some g => if queue == adminQ then s else useIn s (gidOf slice g) 1
      | none => s
    emit (setQueue s1 slice queue { q with heldFetch := n })
      (.hostRead slice (pasidOf s slice queue) (q.sqBase + 64 * q.sqHead) (64 * n))

/-- A queue stops (R64, R66, R84). -/
def stopQueue (s : State) (slice queue cause : Nat) : State :=
  let q := getQueue s slice queue
  let s1 := setQueue s slice queue { q with st := .stopped, cause := cause, heldFetch := 0 }
  let s2 := setF (setF (setF s1 Reg.HQ_ERR_INFO_SLICE slice) Reg.HQ_ERR_INFO_QUEUE queue) Reg.HQ_ERR_INFO_CAUSE cause
  event s2 Reg.HQ_EVT_QSTOP

/-- The fetched entries of a read. -/
def addFetched (slice queue : Nat) : List Bytes → State → State
  | [], s => s
  | e :: r, s =>
    addFetched slice queue r { s with
      fetched := s.fetched ++ [⟨slice, queue, padTo 64 e, s.tick.count, s.fetchOrder⟩]
      fetchOrder := s.fetchOrder + 1 }

/-- ENTRY_FETCH: the outstanding read of a queue is answered. Entries that come after the queue has left ENABLED are not
fetched; a read that fails stops the queue whatever its state has become (R84). -/
def entryFetchEffect (slice queue : Nat) (r : ReadResult) (s : State) : State :=
  let q := getQueue s slice queue
  if q.heldFetch == 0 then s
  else match r with
    | .error =>
      let s1 := if q.st == .enabled || q.st == .disabling || q.st == .held then stopQueue s slice queue 7
        else setQueue s slice queue { q with heldFetch := 0 }
      linkError (countReg s1 Reg.HQ_HOSTERR 1)
    | .data b =>
      if q.st != .enabled then setQueue s slice queue { q with heldFetch := 0 } else
      let n := q.heldFetch
      let s1 := setQueue s slice queue { q with heldFetch := 0, sqHead := (q.sqHead + n) % sqSize q }
      startFetch (addFetched slice queue (chunks 64 (padTo (64 * n) b)) s1) slice queue

def execEntryFetch (slice queue : Nat) (r : ReadResult) (s : State) : Host.Outcome State Fault Refusal :=
  .next (entryFetchEffect slice queue r s)

/-- In the tick after a kerf, reads that DEPTH held back are issued. -/
def refetch (s : State) : State := (s.queues.map (·.1)).foldl (fun s k => startFetch s (k / 512) (k % 512)) s

/-! ### Doorbells (R65, R66) -/

/-- A doorbell write is ignored and counted. -/
def dropDoorbell (s : State) : State := event (countReg s Reg.HQ_DB_DROP 1) Reg.HQ_EVT_DB_DROP

/-- A doorbell write that R65 drops. -/
def doorbellBad (q : Queue) (width : Nat) (v : Word) : Bool := width != 4 || 2 ^ 16 ≤ v.toNat || q.st != .enabled

/-- A submission tail out of range. -/
def tailBad (q : Queue) (v : Nat) : Bool :=
  let n := sqSize q
  v ≥ n || modSub v q.sqHead n < modSub q.sqTail q.sqHead n

/-- A completion head out of range. -/
def headBad (q : Queue) (v : Nat) : Bool :=
  let n := cqSize q
  v ≥ n || modSub q.cqTail q.cqHead n < modSub q.cqTail v n

/-- SQ_TAIL_DOORBELL. The admin pair's doorbell also interrupts the management posts (R344). -/
def sqTailEffect (slice queue width : Nat) (v : Word) (s : State) : State :=
  if !windowOpen s slice queue then s
  else
    let q := getQueue s slice queue
    if doorbellBad q width v then dropDoorbell s
    else if tailBad q v.toNat then stopQueue s slice queue 5
    else
      let s1 := startFetch (setQueue s slice queue { q with sqTail := v.toNat }) slice queue
      if queue == adminQ then raiseMgmt s1 0 else s1

def execSqTailDoorbell (slice queue width : Nat) (v : Word) (s : State) : Host.Outcome State Fault Refusal :=
  .next (sqTailEffect slice queue width v s)

/-- CQ_HEAD_DOORBELL. -/
def cqHeadEffect (slice queue width : Nat) (v : Word) (s : State) : State :=
  if !windowOpen s slice queue then s
  else
    let q := getQueue s slice queue
    if doorbellBad q width v then dropDoorbell s
    else if headBad q v.toNat then stopQueue s slice queue 6
    else setQueue s slice queue { q with cqHead := v.toNat }

def execCqHeadDoorbell (slice queue width : Nat) (v : Word) (s : State) : Host.Outcome State Fault Refusal :=
  .next (cqHeadEffect slice queue width v s)

/-! ### Completion entries (R34, R44, R68, R72–R75) -/

def cqFull (q : Queue) : Bool := (q.cqTail + 1) % cqSize q == q.cqHead

def egressUsed (s : State) (slice : Nat) : Nat := tget 0 s.tick.egress slice

/-- Completions that may be looked at: released before this tick, on a queue that is written, its records journalled. -/
def complReady (s : State) (e : Completion) : Bool :=
  let q := getQueue s e.slice e.queue
  e.rtick != s.tick.count % 2 ^ 32 && (q.st == .enabled || q.st == .held || (q.st == .disabling && !discards q)) &&
  !(getSlice s e.slice).busOff && (match e.ctx with | some n => !journalWaits s n | none => true)

/-- One completion comes before another: by release tick, in WORK pacing by group, then by admission (R34). The list
is in order of release ticks. -/
def complBefore (work : Bool) (a b : Completion) : Bool :=
  a.rtick == b.rtick && (if work && a.gid != b.gid then a.gid < b.gid else a.order < b.order)

/-- No earlier completion of its queue waits: a queue's entries are written in order (R34, R68). -/
def firstOfQueue (s : State) (e : Completion) : Bool :=
  !(s.compls.takeWhile (fun x => x.rtick != e.rtick)).any (fun x => x.slice == e.slice && x.queue == e.queue) &&
  !s.compls.any (fun x => x.slice == e.slice && x.queue == e.queue && x.rtick == e.rtick && x.order < e.order)

/-- The first completion that can be written, past those that wait for a full queue and the later ones of the same
queue; and those found waiting. -/
def pickCompl (s : State) (work : Bool) : List Completion → (best : Option Completion) → Option Completion
  | [], best => best
  | e :: r, best =>
    let ok := complReady s e && firstOfQueue s e && !cqFull (getQueue s e.slice e.queue)
    match best with
    | none => pickCompl s work r (if ok then some e else none)
    | some b => pickCompl s work r (if ok && complBefore work e b then some e else some b)

/-- The earliest completion of each full queue is counted once as it waits (R68). -/
def holdCompls (s : State) (slice : Nat) : State :=
  s.compls.foldl (fun s e =>
    if e.slice == slice && !e.held && complReady s e && firstOfQueue s e && cqFull (getQueue s e.slice e.queue) then
      event (countReg { s with compls := s.compls.map (fun x =>
        if x.slice == e.slice && x.queue == e.queue && x.cmdId == e.cmdId && x.order == e.order then { x with held := true }
        else x) } Reg.HQ_CQ_HOLD 1) Reg.HQ_EVT_CQ_HOLD
    else s) s

/-- The slice has an egress place left in this tick; WORK pacing places no limit. -/
def egressFree (s : State) (work : Bool) (slice : Nat) : Bool :=
  work || egressUsed s slice < (getSlice s slice).cfg.egress

/-- Completions of the same queue and order that are the one chosen. -/
def sameCompl (a b : Completion) : Bool :=
  a.slice == b.slice && a.queue == b.queue && a.order == b.order && a.cmdId == b.cmdId && a.rtick == b.rtick &&
  a.status == b.status

/-- A context whose entry was written or lost is freed in the kerf (R16). -/
def markWritten (s : State) (c : Option Nat) : State :=
  match c with
  | none => s
  | some n => match getCtx s n with
    | some x => setCtx s n { x with phase := .written }
    | none => s

/-- Writes one completion entry. -/
def writeCompl (s : State) (e : Completion) : State :=
  let q := getQueue s e.slice e.queue
  let late := e.late || (e.rtick + 1) % 2 ^ 32 != s.tick.count % 2 ^ 32
  let b := complBytes { e with late := late } q.phase
  let s1 := sendHost s e.slice (pasidOf s e.slice e.queue) (q.cqBase + 32 * q.cqTail) b
  let tail := (q.cqTail + 1) % cqSize q
  let q1 := { q with cqTail := tail, phase := if tail == 0 then !q.phase else q.phase }
  let q2 := if e.noirq then q1
    else { q1 with aggCount := q1.aggCount + 1, aggStart := some (q1.aggStart.getD s.tick.count) }
  let s2 := setQueue s1 e.slice e.queue q2
  let s3 := if late then countReg s2 Reg.TIK_LATE_CNT 1 else s2
  let s4 := markWritten { s3 with compls := s3.compls.filter (fun x => !sameCompl x e) } e.ctx
  { s4 with tick := { s4.tick with egress := tput 0 s4.tick.egress e.slice (egressUsed s4 e.slice + 1) } }

/-- A completion write that fails at the link: the queue stops, the entry is not retried (R84). -/
def loseCompl (s : State) (e : Completion) : State :=
  let s1 := linkError (countReg (stopQueue s e.slice e.queue 8) Reg.HQ_HOSTERR 1)
  markWritten { s1 with compls := s1.compls.filter (fun x => !sameCompl x e) } e.ctx

/-- COMPLETION_WRITE of a slice: its first entry that can be written in this tick. In WORK pacing every slice's
entries share one order. -/
def completionWriteEffect (slice : Nat) (linkOk : Bool) (s0 : State) : State :=
  let work := flag s0 Reg.TIK_STAT_PACE_ACT
  let s := if egressFree s0 work slice && !s0.faults.safe then holdCompls s0 slice else s0
  match pickCompl s work (s.compls.filter (fun e => work || e.slice == slice)) none with
  | none => s
  | some e =>
    if e.slice != slice || !egressFree s work slice || s.faults.safe || !s.tick.span then s
    else if linkOk then writeCompl s e else loseCompl s e

def execCompletionWrite (slice : Nat) (linkOk : Bool) (s : State) : Host.Outcome State Fault Refusal :=
  .next (completionWriteEffect slice linkOk s)

/-! ### Interrupts (R79) -/

/-- A queue's interrupt is due. -/
def irqDue (s : State) (q : Queue) : Bool :=
  q.aggCount != 0 && (max 1 (aggCnt q) ≤ q.aggCount ||
    (aggTime q != 0 && (match q.aggStart with | some t => t + 8 * aggTime q ≤ s.tick.count | none => false)))

/-- INTERRUPT_DUE: a due interrupt is sent; the count and the timer start again. -/
def interruptDueEffect (slice queue : Nat) (s : State) : State :=
  let q := getQueue s slice queue
  if !irqDue s q || (getSlice s slice).busOff || s.faults.safe then s
  else raiseMsix (setQueue s slice queue { q with aggCount := 0, aggStart := none }) slice (qVec q)

def execInterruptDue (slice queue : Nat) (s : State) : Host.Outcome State Fault Refusal :=
  .next (interruptDueEffect slice queue s)

/-- What falls due in a tick and was not sent by its end is sent. -/
def kerfInterrupts (s : State) : State :=
  (s.queues.map (·.1)).foldl (fun s k => interruptDueEffect (k / 512) (k % 512) s) s

/-! ### Contexts that are freed (R16) -/

/-- Contexts whose completion entries were written in the tick that ends. -/
def freeWritten (s : State) : State := { s with ctxs := s.ctxs.filter (fun c => c.2.phase != .written) }

end Sys2Proof.Machine
end

