-- ==== Sys2Proof/Machine/Link.lean ====
section
/-!
DEFINITION. The host link (22_host_link R456–R462): training and its data link slots, ATS, errors, IDE streams, power
states and the resets that leave the secure die running.
-/
namespace Sys2Proof.Machine
open Sys2Proof

def setLink (s : State) (l : Link) : State := { s with link := l }

/-! ### Training (R456) -/

/-- Lanes of a width code. -/
def laneCount (w : Nat) : Nat := if w == 0 then 1 else if w == 2 then 4 else if w == 3 then 8 else 16

/-- Data link slots per tick per direction at a speed and width code. -/
def slotsAt (speed width : Nat) : Nat := 2048 * laneCount width / 16 / 2 ^ (5 - min speed 5)

/-- Before the link first trains after reset, SHT_LINK shows the slots of the caps. -/
def capSlots (s : State) : State :=
  if s.link.trained then s
  else setF s Reg.SHT_LINK_SLOTS (slotsAt (getF s Reg.HLK_CTRL_MAXSPEED) (getF s Reg.HLK_CTRL_MAXWIDTH))

/-- LINK_TRAINING: the link is up at a speed and width, within the caps, in FLIT mode or not. -/
def linkTrainingEffect (speed width : Nat) (flit : Bool) (s : State) : State :=
  let sp := min speed (getF s Reg.HLK_CTRL_MAXSPEED)
  let w := min width (getF s Reg.HLK_CTRL_MAXWIDTH)
  if s.boot.held || w == 1 then s
  else
    let s1 := if s.link.trained then countF s Reg.HLK_LINK_RETRAINS 1 else s
    let s2 := setLink s1 { s1.link with trained := true, down := false }
    let s3 := setF (setF s2 Reg.HLK_LINK_SPEED sp) Reg.HLK_LINK_WIDTH w
    let s4 := setFlag (setFlag s3 Reg.HLK_LINK_FLIT flit) Reg.HLK_LINK_UP true
    event (setF s4 Reg.SHT_LINK_SLOTS (slotsAt sp w)) Reg.HLK_EVT_LINK

def execLinkTraining (speed width : Nat) (flit : Bool) (s : State) : Host.Outcome State Fault Refusal :=
  .next (linkTrainingEffect speed width flit s)

/-- A write of HLK_CTRL: the caps, where their values are accepted, and a retrain on request. -/
def hlkCtrlWrite (s : State) (v : Word) : State :=
  let sp := min (getBits v 0 3) 5
  let w := getBits v 4 3
  let s1 := setF s Reg.HLK_CTRL_MAXSPEED sp
  let s2 := if w == 0 || w == 2 || w == 3 || w == 4 then setF s1 Reg.HLK_CTRL_MAXWIDTH w else s1
  let s3 := capSlots s2
  if v.getLsbD 8 then emit s3 (.link 1 [getF s3 Reg.HLK_CTRL_MAXSPEED, getF s3 Reg.HLK_CTRL_MAXWIDTH]) else s3

/-- RETRAIN: a write of HLK_CTRL with RETRAIN = 1. -/
def execRetrain (v : Word) (s : State) : Host.Outcome State Fault Refusal :=
  .next (if s.faults.safe || s.boot.held then s else hlkCtrlWrite s (v ||| 0x100#32))

/-! ### Errors (R458) -/

/-- INBOUND_POISONED_WRITE: dropped, and logged as advisory non-fatal. -/
def execInboundPoisonedWrite (s : State) : Host.Outcome State Fault Refusal :=
  .next (if s.boot.held then s else countF s Reg.HLK_AER_CNT_CORR 1)

/-! ### ATS (R457) -/

/-- Reads of a slice that are outstanding: sources of its contexts and fetches of its queues. -/
def readsOut (s : State) (slice : Nat) : Bool :=
  s.ctxs.any (fun c => c.2.slice == slice && c.2.src.length < c.2.asked && !c.2.srcFail) ||
  s.queues.any (fun q => q.1 / 512 == slice && q.2.heldFetch != 0)

/-- Answers the invalidations whose accesses have completed, or whose 2^10 ticks have passed. -/
def atsDrain (s : State) : State :=
  let due := s.link.atsWait.filter (fun x => !readsOut s x.1 || x.2 + 2 ^ 10 ≤ s.tick.count)
  due.foldl (fun s x => emit s (.link 2 [x.1]))
    (setLink s { s.link with atsWait := s.link.atsWait.filter (fun x => !due.contains x) })

/-- ATS_INVALIDATION for a slice. -/
def execAtsInvalidation (slice : Nat) (s : State) : Host.Outcome State Fault Refusal :=
  .next (if s.boot.held then s
    else atsDrain (setLink s { s.link with atsWait := s.link.atsWait ++ [(slice, s.tick.count)] }))

/-! ### IDE (R459) -/

/-- HLK_IDE follows the streams. -/
def ideSync (s : State) : State :=
  setF (setFlag s Reg.HLK_IDE_LINK (s.link.secure.contains 255)) Reg.HLK_IDE_SEL
    (s.link.secure.filter (· < 128)).length

/-- All keys are zeroised and every stream becomes Insecure; every SPDM session ends (R461). -/
def linkForget (s : State) : State :=
  let s1 := ideSync (setLink s { s.link with ideKeys := [], secure := [], sessions := [] })
  setF s1 Reg.HLK_SPDM_SESSIONS 0

/-- IDE_INTEGRITY_FAILURE of a stream: 0–127 selective, 255 the link stream. -/
def ideFailEffect (stream : Nat) (s : State) : State :=
  if !s.link.secure.contains stream then s
  else
    let s1 := ideSync (setLink s { s.link with
      secure := s.link.secure.filter (· != stream), ideKeys := s.link.ideKeys.filter (fun k => k.1 != stream) })
    let s2 := setF (setF s1 Reg.HLK_IDE_FAIL_STREAM stream) Reg.HLK_IDE_FAIL_SLICE (if stream < 128 then stream else 0)
    firePlain (event (countF s2 Reg.HLK_IDE_CNT_N 1) Reg.HLK_EVT_IDE_FAIL) srcHlkIde (if stream < 128 then some stream else none)

def execIdeIntegrityFailure (stream : Nat) (s : State) : Host.Outcome State Fault Refusal :=
  .next (ideFailEffect stream s)

/-! ### Power states (R462) -/

/-- D3HOT: a function enters D3hot or loses Bus Master Enable. -/
def execD3hot (slice : Nat) (s : State) : Host.Outcome State Fault Refusal :=
  .next (if 127 < slice then s else setSlice s slice { (getSlice s slice) with busOff := true })

/-- RETURN_TO_D0: it returns, or regains Bus Master Enable; fetches go on. -/
def execReturnToD0 (slice : Nat) (s : State) : Host.Outcome State Fault Refusal :=
  .next (if 127 < slice || s.boot.held then s
    else (dataQueues s slice ++ (if slice == 0 then [adminQ] else [])).foldl (fun s q => startFetch s slice q)
      (setSlice s slice { (getSlice s slice) with busOff := false }))

/-! ### Resets that leave the secure die running (R462) -/

/-- The context of an admin command whose effect has committed, which a PF FLR leaves to run on. -/
def adminCommitted (s : State) (n : Nat) : Bool :=
  s.slices.any (fun x => match x.2.change with
    | some c => c.ctx == some n && c.committed.isSome
    | none => false) ||
  (match s.ofc.ceremony with
    | some c => c.ctx == some n
    | none => false)

/-- What an admin command has staged is withdrawn. -/
def withdrawAdmin (s : State) (n : Nat) : State :=
  let unstage := fun (x : Slice) =>
    { x with
      stagedCfg := match x.stagedCfg with
        | some (c, m) => if m == n then none else some (c, m)
        | none => none
      change := match x.change with
        | some c => if c.ctx == some n && c.committed.isNone then none else some c
        | none => none
      resumeStaged := if x.resumeStaged == some n then none else x.resumeStaged }
  let s1 := { s with slices := s.slices.map (fun (x : Nat × Slice) => (x.1, unstage x.2))
                     vault := { s.vault with anchorCtxs := s.vault.anchorCtxs.filter (· != n) }
                     boot := { s.boot with vendor := if s.boot.vendor == some n then none else s.boot.vendor } }
  let s2 := match s1.ofc.change with
    | some c => if c.commit == some n then setChange s1 (some { c with commit := none }) else s1
    | none => s1
  [0, 1].foldl (fun s i => if ownJob s i n then deactivateCard s i else s) s2

/-- A PF FLR on slice 0: data commands squashed, admin commands that have not committed ended, its queues and the
admin pair on their way to DISABLED; keys and allotments kept. -/
def pfSquash (s : State) : State :=
  let s1 := withdrawPlans (squashSlice (squashFetched s 0) 0) 0
  let adm := (s1.ctxs.filter (fun c => 4032 ≤ c.1 && c.2.phase == .running && c.2.adminDone.isNone && !adminCommitted s1 c.1)).map (·.1)
  let s2 := adm.foldl (fun s n => adminEnd (withdrawAdmin s n) n (resStatus stSquashed)) s1
  let s3 := { s2 with fetched := s2.fetched.filter (fun f => !(f.slice == 0 && f.queue == adminQ)) }
  let stop := fun (s : State) (q : Nat) =>
    let x := getQueue s 0 q
    if x.st == .disabled then setQueue s 0 q { x with staged := none }
    else setQueue s 0 q { x with st := .disabling, cause := 0, en := false, staged := none, heldFetch := 0 }
  let s4 := (dataQueues s3 0 ++ [adminQ]).foldl stop s3
  setLink s4 { s4.link with pfFlr := true }

/-- Every function's registers return to their defaults. -/
def allDefaults (s : State) : State := (List.range 128).foldl functionDefaults s

/-- What a hot reset, a link down and a PF FLR do alike: slices 1–127 as a VF Enable clear, slice 0 squashed. -/
def pfReset (s : State) : State := linkForget (pfSquash (vfEnableClearEffect 0 s))

/-- PF_FLR. -/
def pfFlrEffect (s : State) : State :=
  if s.boot.held || s.faults.safe then s
  else setF (pfReset (functionDefaults s 0)) Reg.HLK_RST_CAUSE 6

def execPfFlr (s : State) : Host.Outcome State Fault Refusal := .next (pfFlrEffect s)

/-- A completion that cannot be written because the link is down is discarded. -/
def downDiscard (s : State) : State :=
  if s.link.down then
    (s.compls.filterMap (·.ctx)).foldl (fun s n => markWritten s (some n)) { s with compls := [] }
  else s

/-- HOT_RESET: a hot reset, or a link down. -/
def hotResetEffect (linkDown : Bool) (s : State) : State :=
  if s.boot.held then s
  else
    let s1 := if s.faults.safe then linkForget (allDefaults s) else pfReset (allDefaults s)
    let s2 := setLink (setFlag s1 Reg.HLK_LINK_UP false) { s1.link with down := true }
    let s3 := setF (event (event s2 Reg.HLK_EVT_HOT_RESET) Reg.HLK_EVT_LINK) Reg.HLK_RST_CAUSE (if linkDown then 5 else 4)
    downDiscard s3

def execHotReset (linkDown : Bool) (s : State) : Host.Outcome State Fault Refusal := .next (hotResetEffect linkDown s)

/-- A PF FLR completes once slice 0's queues are DISABLED. -/
def kerfPfFlr (s : State) : State :=
  if s.link.pfFlr && (dataQueues s 0 ++ [adminQ]).all (fun q => (getQueue s 0 q).st == .disabled) then
    event (setLink s { s.link with pfFlr := false }) Reg.HLK_EVT_FLR
  else s

end Sys2Proof.Machine
end

