-- ==== Sys2Proof/Machine/Reset.lean ====
section
/-!
DEFINITION. Resets of the secure die (21_lifecycle_boot R437, R441; 22_host_link R462; 17_faults R377) and the supply of
main power: what a reset leaves standing, and what starts at reset release. A reset holds the die until RESET_RELEASE.
-/
namespace Sys2Proof.Machine
open Sys2Proof

/-! ### What a reset leaves standing -/

/-- Registers that a reset of the secure die leaves: the fuses, and the thimble page but for its selectors and events
(R398). -/
def keptRegs (s : State) : List (Nat × Word) :=
  s.regs.filter (fun r => r.1 == Reg.LCY_FUSE || thmKeys.contains r.1)

/-- Stored configuration records as they stand: those of the last boot until this boot has put them back. -/
def savedSlices (s : State) : List (Nat × Slice) :=
  if s.boot.restored then s.slices.filter (fun x => x.2.st != .none && !(x.2.st == .changing && match x.2.change with
    | some c => c.kind == .importing
    | none => false))
  else s.boot.saved

/-! ### What the flash controller still holds for its owners (R404, R410) -/

/-- Class 1 requests complete: the reservations that are due and the captured RESERVE records. A controller that is
halted takes none. -/
def classOneEnd (s : State) : State :=
  if s.faults.flashHalted then s
  else
    let s1 := s.reserveDue.foldl (fun s x => writeReservation s x.1) s
    s1.lms.pairs.foldl (fun s p => reserveProgrammedEffect p.1 true s) s1

/-- What a power loss leaves of an anchor in its programming: no entry, and no AES-CMAC that verifies (R199). -/
def tornAnchor (s : State) : State :=
  match s.vault.pendingAnchor with
  | none => s
  | some a => setVault s { s.vault with
      pendingAnchor := none, anchors := ({ a with mac := [], entries := [] } :: s.vault.anchors).take 3840 }

/-- At a power loss each of them, and the captured anchor, is programmed or not; an anchor may be torn. -/
def classesCut (s : State) : State :=
  if s.faults.flashHalted then s
  else
    let s1 := s.reserveDue.foldl (fun s x =>
      let d := drawBit s
      if d.1 then writeReservation d.2 x.1 else d.2) s
    let s2 := s1.lms.pairs.foldl (fun s p =>
      let d := drawBit s
      if d.1 then reserveProgrammedEffect p.1 true d.2 else d.2) s1
    if s2.vault.pendingAnchor.isNone then s2
    else
      let d := drawBit s2
      if d.1 then anchorProgrammedEffect d.2
      else
        let e := drawBit d.2
        if e.1 then tornAnchor e.2 else e.2

/-- A card that is in a slot stays in it. -/
def keptCard (c : CardSlot) : CardSlot := { CardSlot.empty with present := c.present }

/-- Every field that a reset clears takes its reset value; what is persistent, outside the secure die, or the model's
own record of commands and messages stands. -/
def wipe (s : State) : State :=
  { State.reset with
    pending := s.pending, regs := keptRegs s, out := s.out, freeCtr := s.freeCtr
    slotTable := (zeroiseStore s).slotTable, slotBase := s.slotBase, records := (loseRecords s (fun _ => true)).records, tombPend := s.tombPend
    vault := { Vault.reset with anchors := s.vault.anchors, discarded := s.vault.discarded }
    lms := { Lms.reset with pairs := s.lms.pairs.filter (fun p => 130 ≤ p.1 || p.1 == 128)
                            log := s.lms.log, logSeq := s.lms.logSeq, trees := s.lms.trees }
    faults := { Faults.reset with log := s.faults.log }
    thmTime := s.thmTime, sill := s.sill, smbAlert := s.smbAlert, ledger := s.ledger
    nv := s.nv, fw := { s.fw with freeing := [] }
    thm := { s.thm with lifeDue := false }
    rails := s.rails, sram := s.sram
    wear := { Wear.reset with ckpt := s.wear.ckpt }
    gates := { Gates.reset with kept := s.gates.kept }
    boot := { Boot.reset with held := true, saved := savedSlices s, devNo := s.boot.devNo, ikid := s.boot.ikid,
                               rateCap := getF s Reg.DDR_CTRL_MAXRATE }
    ofc := { Ofc.reset with slotA := keptCard s.ofc.slotA, slotB := keptCard s.ofc.slotB
                            stored := s.ofc.stored, version := s.ofc.version } }

/-- The lifecycle that fuses and sill spell shows again (R436). -/
def lifeShown (s : State) : State :=
  setF s Reg.LCY_STAT_STATE (lifeOf (getReg s Reg.LCY_FUSE) (tget 0#32 s.sill 6)).1

/-- The secure die is reset and held: programs and the requests of classes 1 and 2 complete (R410), and everything
volatile is lost. The cause of HLK_RST is 1 for PERST_N, 2 for CRST_N, 3 for a cold reset. -/
def resetDie (s : State) (cause : Nat) : State :=
  let s1 := wipe (nvReset (anchorProgrammedEffect (classOneEnd s)))
  setF (lifeShown (setFlag s1 Reg.THM_STAT_READY false)) Reg.HLK_RST_CAUSE cause

/-- PERST_N. -/
def execPerstN (s : State) : Host.Outcome State Fault Refusal := .next (resetDie s 1)

/-- CRST_N. -/
def execCrstN (s : State) : Host.Outcome State Fault Refusal := .next (resetDie s 2)

/-- FCL_COLD: a write of 0x0000_C01D is the management cold reset; any other value does nothing (R377). -/
def fclColdEffect (v : Word) (s : State) : State :=
  if v == 0xC01D#32 && !s.boot.held then resetDie s 3 else s

def execFclCold (v : Word) (s : State) : Host.Outcome State Fault Refusal := .next (fclColdEffect v s)

/-- SELF_RESET: the reset that the device set itself is due (R437, R445). -/
def selfResetEffect (s : State) : State :=
  match s.boot.selfReset with
  | none => s
  | some t => if t ≤ s.tick.count && !s.boot.held then resetDie s 3 else s

def execSelfReset (s : State) : Host.Outcome State Fault Refusal := .next (selfResetEffect s)

/-! ### Main power (R382, R410) -/

/-- MAIN_POWER_LOSS: the NV die is cut off as R410 lays down, everything volatile is lost, and the thimble domain goes
over to its cell. -/
def mainPowerLossEffect (s : State) : State :=
  if !s.thm.main then s
  else
    let s1 := setFlag (wipe (nvPowerLoss (classesCut s))) Reg.THM_STAT_READY false
    let s2 := setF (lifeShown s1) Reg.HLK_RST_CAUSE 3
    { s2 with thm := { s2.thm with main := false }, rails := [], sram := ⟨[], []⟩, smbAlert := false, boot := { s2.boot with rateCap := 4 } }

def execMainPowerLoss (s : State) : Host.Outcome State Fault Refusal := .next (mainPowerLossEffect s)

/-- MAIN_POWER_UP: VDD_IO is in its window; the secure die is still held. -/
def execMainPowerUp (s : State) : Host.Outcome State Fault Refusal :=
  .next (if s.thm.main then s else { s with thm := { s.thm with main := true } })

/-! ### Reset release (R437, R441, R389) -/

/-- A failed self-test of the first tick: bits 0 ROM digest, 1 fuse parity, 2 PUF, 3 the collector's vote (R442). -/
def postFailures (s : State) (m : Nat) : State :=
  let s1 := setFlag s Reg.LCY_POST_ROM (bitAt m 0)
  let s2 := setFlag (setFlag s1 Reg.LCY_POST_FUSE (bitAt m 1)) Reg.LCY_POST_PUF (bitAt m 2)
  if m % 16 == 0 then s2
  else { s2 with boot := { s2.boot with dead := true }, faults := { s2.faults with safeDue := true } }

/-- The lifecycle at boot: an OPERATIONAL device whose latch is set or whose key is invalid starts in TAMPERED (R389).
The sill takes the new state once it is ready. -/
def bootLife (s : State) : State :=
  let s1 := lifeShown s
  if lcyState s1 == 4 && (getReg s1 Reg.THM_LATCH != 0#32 || !flag s1 Reg.THM_STAT_KEY_VALID) then
    showLife s1 lcyTampered
  else s1

/-- Rails, clock and temperature are in their windows at reset release (R437, R393). -/
def railsReady (s : State) : State :=
  let s1 := setF s Reg.MON_STAT_RAIL_OK 0x1FF
  let s2 := setFlag (setFlag s1 Reg.MON_STAT_CLK_OK true) Reg.MON_STAT_TEMP_OK true
  { s2 with rails := s2.rails.map (fun r => (r.1, { r.2 with min := r.2.mv, max := r.2.mv })) }

/-- RESET_RELEASE: PERST_N and CRST_N are high and every rail is in its window. `postFail` holds the self-tests of the
first tick that fail. -/
def resetReleaseEffect (postFail : Nat) (s : State) : State :=
  if !s.thm.main || (s.boot.begun && !s.boot.held) then s
  else
    let s1 := drawSram <| bootGens { s with boot := { s.boot with held := false, begun := true } }
    let s2 := bypassSync (bootLife (railsReady s1))
    let s3 := setFlag (capSlots s2) Reg.GTE_STAT_READY true
    let s4 := [0, 1].foldl (fun s i => if (getCard s i).present then setSlotSt s i stInserted else s) s3
    postFailures s4 postFail

def execResetRelease (postFail : Nat) (s : State) : Host.Outcome State Fault Refusal :=
  .next (resetReleaseEffect postFail s)

/-! ### The sill log (R411, R441) -/

/-- SILL_LOG_READ: the registers take their persisted values, and what boot reads from them follows: the boot count
advances, approved mode, a boot check's TAMPERED, the LMS ring, and the officers' records. -/
def sillLogReadEffect (s : State) : State :=
  if !s.boot.begun || s.boot.held || s.boot.dead || flag s Reg.SIL_STAT_READY then s
  else
    let s1 := setFlag (sillRead s) Reg.SIL_STAT_READY true
    let s2 := setFlag s1 Reg.SIL_STAT_LIMIT (silLimited s1 != 0)
    let s3 := silStore s2 0 (BitVec.ofNat 32 (sillVal s2 0 + 1))
    let s4 := setFlag s3 Reg.LCY_CTRL_APPROVED (!bitAt (sillVal s3 10) 0)
    let s5 := if lcyState s4 == lcyTampered && (lifeOf (getReg s4 Reg.LCY_FUSE) (tget 0#32 s4.sill 6)).1 == 4 then
      silStore s4 6 (lifeSill lcyTampered) else s4
    let s6 := (List.range 8).foldl (fun s k => setReg s (Reg.LCY_IKID + 4 * k) (s.boot.ikid.getD k 0#32)) s5
    lmsBoot (readOfficers s6)

def execSillLogRead (s : State) : Host.Outcome State Fault Refusal := .next (sillLogReadEffect s)

end Sys2Proof.Machine
end

