-- ==== Sys2Proof/Machine/Monitors.lean ====
section
/-!
DEFINITION. The main-power monitors (18_tamper R392–R394, R399): rails, the fabric clock, the junction temperature and
glitches, each watched by two detectors.
-/
namespace Sys2Proof.Machine
open Sys2Proof

/-! ### Windows (R392) -/

/-- Low and high trip of a rail in mV; VBAT has no low trip. -/
def railWindow (rail : Nat) : Nat × Nat :=
  [(675, 825), (720, 880), (810, 990), (1080, 1320), (1000, 1200), (1620, 1980), (1620, 1980), (2250, 2750),
   (0, 3900)].getD rail (0, 0)

def railOk (rail mv : Nat) : Bool := (railWindow rail).1 ≤ mv && mv ≤ (railWindow rail).2

/-- The fabric clock of a governor step, in MHz. -/
def stepMhz (step : Nat) : Nat := 1600 - 200 * min step 4

/-- Within 5 % of the step in force. -/
def clkOk (s : State) (mhz : Nat) : Bool :=
  let f := stepMhz (getF s Reg.GOV_STAT_STEP)
  19 * f ≤ 20 * mhz && 20 * mhz ≤ 21 * f

/-- −55 °C to 125 °C, of a two's complement byte. -/
def tempOk (deg : Byte) : Bool := -55 ≤ deg.toInt && deg.toInt ≤ 125

/-! ### Firing (R392, R393) -/

def condVdd (rail : Nat) : Nat := rail
def condClk : Nat := 9
def condTemp : Nat := 10
def condGlitch : Nat := 11

/-- The source of a condition: MON_VDD of the rail, MON_CLK, MON_TEMP, MON_GLITCH. -/
def condSrc (cond : Nat) : Nat := srcMonVdd + cond

/-- A condition fires: its trip bit, its event, its source, and the detectors that fired it. While one detector has
fired alone, its partner's firing is of the same event. -/
def monFire (s : State) (cond det detail : Nat) : State :=
  let before := tget 0 s.monAlone cond
  let seen := before ||| det
  let s1 := { s with monAlone := tput 0 s.monAlone cond (if seen == 3 then 0 else seen) }
  if before != 0 then s1
  else
    fire (event (orReg s1 Reg.MON_TRIP (2 ^ cond)) Reg.MON_EVT_TRIP)
      { FireArgs.plain (condSrc cond) none with detail := detail }

/-- A condition is out of its window: the monitors fire once armed, and before that the die is held in reset. -/
def monOut (s : State) (cond det detail : Nat) : State :=
  if s.boot.held || det % 4 == 0 then s
  else if flag s Reg.MON_STAT_ARMED then monFire s cond (det % 4) detail
  else resetDie s 3

/-- A bit of MON_STAT follows whether its condition is in its window. -/
def monStat (s : State) (cond : Nat) (ok : Bool) : State :=
  let w := getReg s Reg.MON_STAT
  setReg s Reg.MON_STAT (setBits w cond 1 (b2n ok))

/-- MON_VDD: a rail is measured, and the detectors of the mask (1 A, 2 B) see it out of its window. -/
def monVddEffect (rail mv det : Nat) (s : State) : State :=
  if 8 < rail || !s.thm.main then s
  else
    let r := tget Rail.zero s.rails rail
    let fresh := decide (r = Rail.zero)
    let r1 : Rail := ⟨mv, if fresh then mv else min r.min mv, if fresh then mv else max r.max mv⟩
    let s1 := monStat { s with rails := tput Rail.zero s.rails rail r1 } rail (railOk rail mv)
    if railOk rail mv then s1 else monOut s1 (condVdd rail) det 0

def execMonVdd (rail mv det : Nat) (s : State) : Host.Outcome State Fault Refusal := .next (monVddEffect rail mv det s)

/-- MON_CLK: the clock is measured. Detector B watches single periods, so its firing needs no frequency out of its
window. -/
def monClkEffect (mhz : Nat) (unlocked : Bool) (det : Nat) (s : State) : State :=
  if !s.thm.main then s
  else
    let bad := unlocked || !clkOk s mhz || bitAt det 1
    let s1 := monStat (setF s Reg.MON_FREQ_MHZ mhz) 9 (!bad)
    if bad then monOut s1 condClk det 0 else s1

def execMonClk (mhz : Nat) (unlocked : Bool) (det : Nat) (s : State) : Host.Outcome State Fault Refusal :=
  .next (monClkEffect mhz unlocked det s)

/-- MON_TEMP: both sensors are read; detector A is the diode, B the ring oscillator. -/
def monTempEffect (diode ring : Byte) (s : State) : State :=
  if !s.thm.main then s
  else
    let s1 := setF (setF s Reg.MON_TEMP_DIODE diode.toNat) Reg.MON_TEMP_RING ring.toNat
    let det := b2n (!tempOk diode) + 2 * b2n (!tempOk ring)
    let s2 := monStat s1 10 (det == 0)
    monOut s2 condTemp det 0

def execMonTemp (diode ring : Byte) (s : State) : Host.Outcome State Fault Refusal := .next (monTempEffect diode ring s)

/-- The excursion reaches 60 mV from the glitch reference. -/
def glitchOut (s : State) (mv : Nat) : Bool :=
  let g := getF s Reg.MON_GREF_MV
  mv + 60 ≤ g || g + 60 ≤ mv

/-- MON_GLITCH: a fast excursion of VDD_CORE to a level, caught by the detectors of the mask; DETAIL is the mask
(R397). -/
def monGlitchEffect (mv det : Nat) (s : State) : State :=
  if !s.thm.main || det % 4 == 0 || !glitchOut s mv then s
  else
    let s1 := if s.boot.held then s else countF s Reg.MON_GLITCH_CNT_N 1
    monOut s1 condGlitch det (det % 4)

def execMonGlitch (mv det : Nat) (s : State) : Host.Outcome State Fault Refusal := .next (monGlitchEffect mv det s)

/-- MON_DISAGREE: 2 µs have passed since a detector fired alone. -/
def monDisagreeEffect (cond : Nat) (s : State) : State :=
  if tget 0 s.monAlone cond == 0 || 11 < cond then s
  else event (orReg { s with monAlone := terase cond s.monAlone } Reg.MON_DISAGREE (2 ^ cond)) Reg.MON_EVT_DISAGREE

def execMonDisagree (cond : Nat) (s : State) : Host.Outcome State Fault Refusal := .next (monDisagreeEffect cond s)

/-! ### Arming (R393, R436) -/

/-- MONITORS_ARMED: every rail has been in its window for 2^10 ticks after reset release. A lifecycle whose encoding
in the sill is invalid fires now. -/
def monitorsArmedEffect (s : State) : State :=
  if s.boot.held || !s.boot.begun || s.tick.count < 2 ^ 10 || flag s Reg.MON_STAT_ARMED ||
      getF s Reg.MON_STAT_RAIL_OK != 0x1FF then s
  else
    let s1 := event (setFlag s Reg.MON_STAT_ARMED true) Reg.MON_EVT_ARMED
    if (lifeOf (getReg s1 Reg.LCY_FUSE) (tget 0#32 s1.sill 6)).2 then s1
    else fire s1 { FireArgs.plain srcMonGlitch none with detail := 0x10 }

def execMonitorsArmed (s : State) : Host.Outcome State Fault Refusal := .next (monitorsArmedEffect s)

/-! ### Views (R399) -/

def railView (s : State) : Word := BitVec.ofNat 32 ((tget Rail.zero s.rails (getF s Reg.MON_SEL_RAIL)).mv % 2 ^ 13)

def railExtView (s : State) : Word :=
  let r := tget Rail.zero s.rails (getF s Reg.MON_SEL_RAIL)
  BitVec.ofNat 32 (r.min % 2 ^ 13 + r.max % 2 ^ 13 * 2 ^ 16)

/-- MON_FREQ: the measured clock and the step compared against (R394). -/
def freqView (s : State) : Word :=
  BitVec.ofNat 32 (getF s Reg.MON_FREQ_MHZ + getF s Reg.GOV_STAT_STEP * 2 ^ 16)

end Sys2Proof.Machine
end

