-- ==== Sys2Proof/Machine/Wear.lean ====
section
/-!
DEFINITION. The wear block (24_wear): six indicators, their predictions and warnings, and the checkpoint of the cell.
-/
namespace Sys2Proof.Machine
open Sys2Proof

/-! ### Indicators (R473) -/

/-- Pairs that are live: built and not being destroyed. -/
def livePairs (s : State) : List SeamPair := (s.lms.pairs.map (·.2)).filter (fun p => p.st != .building && !p.retiring)

/-- Indices left to the live pair that has fewest left; a count above 32 bits reads as 0xFFFF_FFFF. -/
def wearLms (s : State) : Nat := (livePairs s).foldl (fun m p => min m (pairIndices p.set - p.next)) 0xFFFFFFFF

/-- Slots whose key holds a budget: AES and TDES keys, in their first slots. -/
def budgeted (k : KeySlot) : Bool := k.extOf == none && typSym k.typ

/-- ⌊log2⌋ of the smallest remaining budget of an ACTIVE slot; 63 without one. -/
def wearKeys (s : State) : Nat :=
  let ks := (s.keys.filter (fun k => 256 ≤ k.1 && k.2.st == .active && budgeted k.2)).map (fun k => k.2.budget)
  match ks with
  | [] => 63
  | b :: r => Nat.log2 (r.foldl min b)

/-- Some slot is SPENT: indicator 3 is at its limit. -/
def anySpent (s : State) : Bool := s.keys.any (fun k => k.2.st == .spent)

/-- The highest write counter of the sill (SIL_CNT.N). -/
def wearSill (s : State) : Nat := s.nv.silCnt.foldl (fun m c => max m (min c.2 silLimit)) 0

/-- Hours on the cell alone. -/
def cellHours (s : State) : Nat := s.wear.hours / 3600

/-- The cell limit in hours (R475). -/
def cellLimit (s : State) : Nat := 200 * getF s Reg.WER_CTRL_BATCAP

/-- The present values of the indicators, with a measured slowdown. -/
def wearValues (s : State) (slow : Nat) : List Nat :=
  [getBits (maxEraseView s) 0 17, wearSill s, wearLms s, wearKeys s, cellHours s, slow]

/-- The limits of R473. -/
def wearLimits (s : State) : List Nat := [100000, 1000000, 0, 0, cellLimit s, 3277]

/-- Indicator `i` is past its warning threshold at value `u`. -/
def wearWarn (s : State) (i u : Nat) : Bool :=
  if i == 0 then 90000 ≤ u
  else if i == 1 then 900000 ≤ u
  else if i == 2 then u < 2 ^ 20
  else if i == 3 then u < 20
  else if i == 4 then 9 * cellLimit s ≤ 10 * u || flag s Reg.THM_STAT_BATT_LOW
  else 2621 ≤ u

/-- Indicator `i` is at its limit. -/
def wearEol (s : State) (i u : Nat) : Bool :=
  if i == 2 then u == 0 else if i == 3 then anySpent s else (wearLimits s).getD i 0 ≤ u

/-- The predicted life in wear periods, of the value now and the value 256 samples ago (R474). -/
def predict (lim u uw : Nat) : Nat :=
  let d := if u < uw then uw - u else u - uw
  let gap := if lim < u then u - lim else lim - u
  if d == 0 then 0xFFFFFFFF else min 0xFFFFFFFF (gap * 256 / d)

/-- P of an indicator from the samples, newest first. Indicators 3 and 4 have none. -/
def wearPred (s : State) (i : Nat) : Nat :=
  match s.wear.samples.head?, s.wear.samples[256]? with
  | some n, some o =>
    if i == 3 || i == 4 then 0xFFFFFFFF else predict ((wearLimits s).getD i 0) (n.getD i 0) (o.getD i 0)
  | _, _ => 0xFFFFFFFF

/-! ### The sample (R473, R476) -/

/-- A condition of WER_WARN: its flag follows, and the source fires where the condition begins to hold. -/
def wearCond (s : State) (bit detail : Nat) (holds : Bool) : State :=
  let w := getReg s Reg.WER_STAT
  let s1 := setReg s Reg.WER_STAT (setBits w bit 1 (b2n holds))
  if holds && !w.getLsbD bit then
    fire (event s1 Reg.WER_EVT_WARN) { FireArgs.plain srcWerWarn none with detail := detail }
  else s1

/-- One indicator's three conditions. -/
def wearJudge (s : State) (i : Nat) : State :=
  let u := (s.wear.samples.headD []).getD i 0
  let s1 := wearCond s (8 + i) i (wearWarn s i u)
  let s2 := wearCond s1 (16 + i) (8 + i) (wearPred s1 i < 2 ^ getF s1 Reg.WER_CTRL_HORIZON)
  wearCond s2 (24 + i) (16 + i) (wearEol s2 i u)

/-- WEAR_SAMPLE: in the kerf of a tick whose count is 2^24 − 1 modulo 2^24, with the slowdown that the ageing monitor
measures. From RUN on, the ageing ceiling follows it (R477). -/
def wearSampleEffect (slow : Nat) (s : State) : State :=
  if s.boot.held || s.faults.safe || s.tick.count % 2 ^ 24 != 2 ^ 24 - 1 then s
  else
    let u := slow % 4096
    let s1 := { s with wear := { s.wear with samples := (wearValues s u :: s.wear.samples).take 257 } }
    let s2 := countReg (setF s1 Reg.WER_AGE_SLOW u) Reg.WER_SAMPLES 1
    let s3 := (List.range 6).foldl wearJudge s2
    if running s3 && 3277 ≤ u then setFlag s3 Reg.WER_STAT_CEILING true else s3

def execWearSample (slow : Nat) (s : State) : Host.Outcome State Fault Refusal := .next (wearSampleEffect slow s)

/-! ### The checkpoint (R475) -/

/-- WER_BATT: hours on the cell, and whole days that remain. -/
def battSync (s : State) : State :=
  setF (setF s Reg.WER_BATT_HOURS (min (cellHours s) 0xFFFF)) Reg.WER_BATT_DAYS
    (min ((cellLimit s - cellHours s) / 24) 0xFFFF)

/-- The AES-CMAC of a checkpoint. -/
def ckptMac (c : Checkpoint) : Bytes := l1Mac "WEAR" (leBytes 6 c.thm ++ leBytes 6 c.hours ++ leBytes 2 c.cap ++ leBytes 4 c.seq)

/-- A checkpoint is written, or could not be. -/
def checkpoint (s : State) (ok : Bool) : State :=
  if !ok || s.faults.flashHalted then event s Reg.WER_EVT_CHECKPOINT_FAIL
  else
    let q := match s.wear.ckpt with
      | some c => c.seq + 1
      | none => 0
    let c : Checkpoint := ⟨s.thmTime, s.wear.hours, getF s Reg.WER_CTRL_BATCAP, q, []⟩
    { s with wear := { s.wear with ckpt := some { c with mac := ckptMac c } } }

/-- WEAR_CHECKPOINT: the periodic write. -/
def wearCheckpointEffect (ok : Bool) (s : State) : State :=
  if s.boot.held || s.faults.safe || !flag s Reg.WER_STAT_READY then s else checkpoint s ok

def execWearCheckpoint (ok : Bool) (s : State) : Host.Outcome State Fault Refusal := .next (wearCheckpointEffect ok s)

/-- A write of WER_CTRL: a horizon outside 16 to 28 is ignored, the cell counts as new (R477), and a checkpoint is
written. -/
def werCtrlWrite (s : State) (v : Word) : State :=
  let h := getBits v 0 5
  let s1 := if 16 ≤ h && h ≤ 28 then setF s Reg.WER_CTRL_HORIZON h else s
  let s2 := setF s1 Reg.WER_CTRL_BATCAP (getBits v 16 16)
  let s3 := { s2 with wear := { s2.wear with hours := 0 } }
  checkpoint (battSync (event (setFlag s3 Reg.WER_STAT_BAT_NEW true) Reg.WER_EVT_BAT_NEW)) true

/-- At boot the latest valid checkpoint is read, and the thimble time that has passed since counts as time on the cell. -/
def wearBoot (s : State) : State :=
  let s1 := setFlag s Reg.WER_STAT_READY true
  match s.wear.ckpt.filter (fun c => c.mac == ckptMac c) with
  | none => battSync s1
  | some c =>
    let s2 := setF s1 Reg.WER_CTRL_BATCAP c.cap
    if s.thmTime < c.thm then
      battSync (event (setFlag { s2 with wear := { s2.wear with hours := 0 } } Reg.WER_STAT_BAT_NEW true) Reg.WER_EVT_BAT_NEW)
    else battSync { s2 with wear := { s2.wear with hours := c.hours + (s.thmTime - c.thm) / 32768 } }

/-! ### Views (R478) -/

/-- The value of the selected indicator at the latest sample. -/
def wearUseView (s : State) : Word :=
  BitVec.ofNat 32 ((s.wear.samples.headD []).getD (getF s Reg.WER_SEL_IND) 0)

/-- The limit of the selected indicator, once the block is ready; without a live pair, indicator 2 shows its warning threshold. -/
def wearLimitView (s : State) : Word :=
  let i := getF s Reg.WER_SEL_IND
  BitVec.ofNat 32 (if !flag s Reg.WER_STAT_READY then 0 else if i == 2 && (livePairs s).isEmpty then 2 ^ 20 else (wearLimits s).getD i 0)

def wearPredView (s : State) : Word := BitVec.ofNat 32 (wearPred s (getF s Reg.WER_SEL_IND))

end Sys2Proof.Machine
end

