-- ==== Sys2Proof/Machine/Boot.lean ====
section
/-!
DEFINITION. Start-up (21_lifecycle_boot R441–R445): the steps of every kerf from reset release to TIK_STAT.RUN, what
boot puts back, and the conditions of R443.
-/
namespace Sys2Proof.Machine
open Sys2Proof

/-! ### What boot puts back (R129, R165, R287, R516) -/

/-- L2 can be unwrapped: the thimble key is valid and L2's record stands (R166). -/
def domainHeld (s : State) : Bool :=
  (lcyState s == lcyProvisioned || lcyState s == lcyOperational) && flag s Reg.THM_STAT_KEY_VALID &&
    s.records.any (fun r => r.slot == 0)

/-- A slice as its stored record gives it: DORMANT, with its layout as it stood (R287). Slice 0's function is
enabled; the virtual functions are not. -/
def dormantSlice (n : Nat) (x : Slice) : Slice :=
  { x with layouts := x.layouts.map (fun l => { l with serialNow := l.serial })
           st := .dormant, cause := .none, fnEn := n == 0, busOff := true, logs := [], change := none
           stagedCfg := none, quiesceSources := [], flr := none, offer := none, unacked := 0, resumeStaged := none }

/-- One slice is put back, with its children to be instantiated, its vault UNLOADED where it has a region and a journal
key (R193), and its stored keys. -/
def bootSlice (s : State) (n : Nat) (x : Slice) : State :=
  let s1 := renewChildren (setSlice s n (dormantSlice n x)) n
  let s2 := if x.cfg.vaultUnits != 0 && ownsJournalKey s1 n then setChainSt s1 n .unloaded else s1
  if flag s2 Reg.KST_STAT_DOMAIN then returnKeys s2 n false else s2

/-- The committed table 352 is in force again, unless its AES-CMAC fails (R516). -/
def bootTables (s : State) : State :=
  match s.gates.kept with
  | none => s
  | some (t, m) => if m == tableMac352 t then setGates s { s.gates with live := t, shadow := t } else s

/-- The IV counter takes the next reservation, and its write is queued. -/
def bootIv (s : State) : State :=
  let p := sillVal s 1 % 2 ^ 24 + 1
  ivPersist { s with ivCtr := p % 2 ^ 24 * 2 ^ 40 } p

/-- Frame firmware has been entered: what follows R441 puts back. A device that is TERMINATED or DIAGNOSTIC restores
nothing, and completes its erases (R438, R443). -/
def restoreBoot (s : State) : State :=
  let done := fun (s : State) => kstSync (setFlag { s with boot := { s.boot with restored := true } } Reg.SLC_STAT_RESTORED true)
  let s0 := bootIv (bootTables { s with upkeep := true })
  if lcyState s == lcyTerminated || lcyState s == lcyDiagnostic then done (eraseStores s0)
  else
    let dom := domainHeld s0
    let s1 := if dom then setFlag (restoreMaster s0 0) Reg.KST_STAT_DOMAIN true else s0
    let s2 := setF s1 Reg.NDL_IVFIX_DEVNO s1.boot.devNo
    let s3 := if domainAnchored s2 then setChainSt s2 128 .unloaded else s2
    let s4 := s3.boot.saved.foldl (fun s x => bootSlice s x.1 x.2) s3
    done (tombSync (infillBoot s4))

/-! ### The steps (R441, R442) -/

/-- Fixed ticks, and what follows the flash controller's readiness. -/
def bootEarly (s : State) : State :=
  let s1 := if 2 ^ 10 ≤ s.tick.count + 1 then
    setFlag (setFlag s Reg.SHT_STAT_READY true) Reg.THM_STAT_READY true else s
  let s2 := if 2 ^ 12 ≤ s1.tick.count + 1 && !s1.faults.flashHalted then sillLogReadEffect (resetScanEffect s1) else s1
  if flag s2 Reg.FLS_STAT_READY && !flag s2 Reg.WER_STAT_READY then wearBoot s2 else s2

/-- Selection, then verification once the root DRBG is seeded, then what boot puts back. A failed entropy start-up
stops it. -/
def bootImage (s : State) : State :=
  let stage := getF s Reg.LCY_STAT_STAGE
  if stage == 0 then
    (if flag s Reg.FLS_STAT_READY && flag s Reg.SIL_STAT_READY then selectImage s else s)
  else if stage == 1 && !flag s Reg.LCY_STAT_RECOVERY then
    (if s.rng.failTick.isSome && !s.rng.seeded then bootDead s Reg.LCY_POST_RNG
    else if !flag s Reg.RNG_STAT_READY then s
    else match s.boot.chosen with
      | none => s
      | some (p, t) =>
        let s1 := verifyImage s p t
        if getF s1 Reg.LCY_STAT_STAGE == 2 then restoreBoot s1 else s1)
  else s

/-- 32,768 ticks after frame firmware was entered, the suites of the engines have ended; IV_OK follows the boot
reservation's write. -/
def bootEngines (s : State) : State :=
  match s.boot.frameTick with
  | none => s
  | some t =>
    let s1 := if t + 32768 ≤ s.tick.count then
      [Reg.NDL_STAT_READY, Reg.LDU_STAT_READY, Reg.PUR_STAT_READY, Reg.HSH_STAT_READY].foldl
        (fun s f => setFlag s f true) s else s
    if s1.boot.restored && !silPending s1 1 && sillVal s1 1 % 2 ^ 24 == s1.ivCtr / 2 ^ 40 && silCount s1 1 < silLimit then
      setFlag s1 Reg.NDL_STAT_IV_OK true
    else s1

/-- The conditions of R443, in its order. -/
def runConds (s : State) : List Bool :=
  [flag s Reg.NDL_STAT_READY, flag s Reg.LDU_STAT_READY, flag s Reg.PUR_STAT_READY, flag s Reg.HSH_STAT_READY,
   flag s Reg.SHT_STAT_READY, flag s Reg.FLS_STAT_READY, flag s Reg.SIL_STAT_READY, flag s Reg.KST_STAT_READY,
   flag s Reg.VLT_STAT_READY, flag s Reg.RNG_STAT_READY, flag s Reg.THM_STAT_READY, flag s Reg.OFC_STAT_READY,
   flag s Reg.GTE_STAT_READY, flag s Reg.NDL_STAT_IV_OK, flag s Reg.MON_STAT_ARMED, flag s Reg.SLC_STAT_RESTORED,
   flag s Reg.LCY_CTRL_BOOTED]

/-- Whether start-up is under way and not yet ended. -/
def booting (s : State) : Bool :=
  s.boot.begun && !s.boot.held && !s.boot.dead && !s.faults.safe && !running s && !flag s Reg.LCY_STAT_STALLED

/-- RUN is set in the first kerf in which every condition holds. -/
def tryRun (s : State) : State :=
  if booting s && (runConds s).all id then
    setReg (setF (setFlag s Reg.TIK_STAT_RUN true) Reg.LCY_STAT_STAGE 3) Reg.LCY_BOOT_TIME (BitVec.ofNat 32 s.tick.count)
  else s

/-- From tick 2^19 without RUN, the start-up is stalled, and LCY_POST.WAIT names the first unmet condition. -/
def tryStall (s : State) : State :=
  if booting s && 2 ^ 19 ≤ s.tick.count then
    setF (setFlag s Reg.LCY_STAT_STALLED true) Reg.LCY_POST_WAIT ((runConds s).findIdx (fun b => !b) + 1)
  else s

/-- The start-up's part of a kerf. -/
def bootKerf (s : State) : State :=
  if booting s then tryStall (tryRun (bootEngines (vltReadySync (bootImage (bootEarly s))))) else s

/-- RUN_START: the kerf's step where every condition holds; nothing otherwise. -/
def execRunStart (s : State) : Host.Outcome State Fault Refusal := .next (tryRun s)

/-- BOOT_STALLED: the kerf's step at tick 2^19; nothing otherwise. -/
def execBootStalled (s : State) : Host.Outcome State Fault Refusal :=
  .next (if (runConds s).all id then s else tryStall s)

end Sys2Proof.Machine
end

