-- ==== Sys2Proof/Machine/Channels.lean ====
section
/-!
DEFINITION. The firmware channels of the shuttle (12_shuttle R268, R275–R285): the descriptor's fields, its format
check, the byte order of its elements, starting, stopping and halting a channel.
-/
namespace Sys2Proof.Machine
open Sys2Proof

def getChan (s : State) (f : Nat) : Chan := tget Chan.zero s.chans f
def setChan (s : State) (f : Nat) (c : Chan) : State := { s with chans := tput Chan.zero s.chans f c }

/-- A field of channel f's block (R285). -/
def chanFld (f : Nat) (x : Fld) : Fld := { x with key := x.key + 16 * f }

def chanBent (f : Nat) : Nat := f / 8
/-- The global channel number, and the initiator that the channel is at the gates (R268, R350). -/
def chanGlobal (f : Nat) : Nat := 32 * (f / 8) + 24 + f % 8
def chanInit (f : Nat) : Nat := 32 + chanGlobal f
/-- Privileged channels: the firmware channels of bent 0. -/
def chanPriv (f : Nat) : Bool := f < 8

/-- IDLE 0, RUN 1, STOPPED 2, HALTED 3. -/
def chanState (s : State) (f : Nat) : Nat := getF s (chanFld f Reg.SHT_CH_STAT_STATE)
def setChanState (s : State) (f v : Nat) : State := setF s (chanFld f Reg.SHT_CH_STAT_STATE) v

/-! ### The descriptor (R275) -/

def dFlag (d : Bytes) (i : Nat) : Bool := bitAt (leAt d 0 4) i
def dValid (d : Bytes) : Bool := dFlag d 0
def dChain (d : Bytes) : Bool := dFlag d 1
def dBarrier (d : Bytes) : Bool := dFlag d 2
def dReadback (d : Bytes) : Bool := dFlag d 3
def dIrq (d : Bytes) : Bool := dFlag d 4
def dSrcHost (d : Bytes) : Bool := dFlag d 5
def dDstHost (d : Bytes) : Bool := dFlag d 6
def dFill (d : Bytes) : Bool := dFlag d 7
def dDone (d : Bytes) : Bool := dFlag d 31
def dPasid (d : Bytes) : Option Nat := if bitAt (leAt d 4 4) 20 then some (leAt d 4 4 % 2 ^ 20) else none
def dSa (d : Bytes) : Nat := leAt d 0x08 8
def dDa (d : Bytes) : Nat := leAt d 0x10 8
def dE (d : Bytes) : Nat := leAt d 0x18 4 % 2 ^ 17
def dN1 (d : Bytes) : Nat := leAt d 0x1C 2
def dN2 (d : Bytes) : Nat := leAt d 0x1E 2
def dN3 (d : Bytes) : Nat := leAt d 0x20 2
/-- A signed 32-bit step. -/
def dStep (d : Bytes) (off : Nat) : Int := (BitVec.ofNat 32 (leAt d off 4)).toInt
def dNext (d : Bytes) : Nat := leAt d 0x3C 4

/-- Bytes that the descriptor moves. -/
def dTotal (d : Bytes) : Nat := dE d * dN1 d * dN2 d * dN3 d

/-- A format error (R277). -/
def dBad (d : Bytes) (priv : Bool) : Bool :=
  bitsAt (leAt d 0 4) 8 23 != 0 || bitsAt (leAt d 4 4) 21 11 != 0 || bitsAt (leAt d 0x18 4) 17 15 != 0 ||
  bitsAt (leAt d 0x20 4) 16 16 != 0 ||
  dTotal d == 0 || 65536 < dE d || 2 ^ 24 < dTotal d ||
  ((dSrcHost d || dDstHost d || dReadback d) && !priv) || (dFill d && dSrcHost d) ||
  ((dPasid d).isSome && !(dSrcHost d || dDstHost d)) || (dChain d && dNext d % 64 != 0)

/-- The address of byte offset `o` (R276), by base and the offsets of its three steps. -/
def dAddr (d : Bytes) (base st1 st2 st3 o : Nat) : Nat :=
  let m := o / dE d
  let i := m % dN1 d
  let j := m / dN1 d % dN2 d
  let k := m / (dN1 d * dN2 d)
  (((base : Int) + i * dStep d st1 + j * dStep d st2 + k * dStep d st3 + (o % dE d : Nat)) % 2 ^ 64).toNat

def dSrc (d : Bytes) (o : Nat) : Nat := dAddr d (dSa d) 0x24 0x2C 0x34 o
def dDst (d : Bytes) (o : Nat) : Nat := dAddr d (dDa d) 0x28 0x30 0x38 o

/-- The length of the piece at byte offset `o` with address `a`: to the end of its element or its granule. -/
def pieceLen (d : Bytes) (o a : Nat) : Nat := min (dE d - o % dE d) (64 - a % 64)

/-- Bytes of the fill pattern. -/
def fillBytes (d : Bytes) (o n : Nat) : Bytes := (List.range n).map (fun i => (sub d 8 8).getD ((o % dE d + i) % 8) 0)

/-! ### Starting, stopping, halting -/

/-- A write of SHT_CH_NEXT (R279, R284). The channel's descriptors stand on 64-byte boundaries, so the low six bits
of the address do not count (notes/assumptions/24.md). -/
def channelStart (f : Nat) (v : Word) (s : State) : State :=
  if shuttleHalted s (chanBent f) then s
  else if !flag s Reg.SHT_STAT_READY || chanState s f == 1 then event s Reg.SHT_EVT_START_BUSY
  else setChanState (setChan s f { Chan.zero with addr := v.toNat / 64 * 64, irq := (getChan s f).irq }) f 1

/-- What the registers show of a failed descriptor (R282, R285). FORMAT, STOPPED and FLASH_BUSY are no failed
access, and are not counted. -/
def chanFault (s : State) (f status off : Nat) : State :=
  if status == 0 || status == 1 || status == 7 || status == 9 then s
  else
    let s1 := setF (setF (setReg s Reg.SHT_FAULT_INFO 0#32) Reg.SHT_FAULT_INFO_CH (chanGlobal f)) Reg.SHT_FAULT_INFO_STATUS status
    let s2 := event (setF s1 Reg.SHT_FAULT_OFF_OFF off) Reg.SHT_EVT_FAULT
    if status == 2 || status == 3 || status == 10 then countF s2 Reg.SHT_GATE_CNT_N 1
    else if status == 4 || status == 5 then countF s2 Reg.SHT_HOST_CNT_N 1
    else s2

/-- The descriptor has ended: it waits for its write-back. -/
def chanEnd (s : State) (f status off : Nat) : State :=
  let s1 := setF s (chanFld f Reg.SHT_CH_ERR_OFF) (if status == 0 then 0 else off)
  chanFault (setChan s1 f { getChan s1 f with done := some status, buf := [] }) f status off

/-- The descriptor has ended, once its pieces allow: at its failed read, at its end, or at a stop. A descriptor with
READBACK waits for that after its last write. -/
def settleChan (s : State) (f : Nat) : State :=
  let c := getChan s f
  if c.done.isSome || c.desc.isEmpty then s
  else
    let failed := match c.fail with
      | some x => c.written == x.2
      | none => false
    if failed then
      (match c.fail with
       | some x => chanEnd s f x.1 x.2
       | none => s)
    else if c.written == dTotal c.desc then
      (if dReadback c.desc then s else chanEnd s f 0 0)
    else if c.stop && (dFill c.desc || c.written == c.read) then chanEnd s f 7 c.written
    else s

/-- A write of SHT_CH_CTRL (R279). -/
def channelStop (f : Nat) (v : Word) (s : State) : State :=
  if shuttleHalted s (chanBent f) || !v.getLsbD 0 || chanState s f != 1 then s
  else settleChan (setChan s f { getChan s f with stop := true }) f

def execShtChNextWrite (f : Nat) (v : Word) (s : State) : Host.Outcome State Fault Refusal :=
  .next (if s.boot.held || s.faults.safe then s else channelStart (f % 64) v s)

def execShtChStop (f : Nat) (s : State) : Host.Outcome State Fault Refusal :=
  .next (if s.boot.held || s.faults.safe then s else channelStop (f % 64) 1#32 s)

/-- Stores bytes on the posts' map; every write clears the tags of the granules it touches (R336). -/
def putBytes (s : State) (init a : Nat) (b : Bytes) : State :=
  let m := memAddr init a
  let s1 := memWrite s m b
  let n := (m + b.length + 15) / 16 - m / 16
  let tags := (List.range n).foldl (fun t i => tput false t (m / 16 + i) false) s1.tags
  if b.isEmpty then s1 else { s1 with tags := tags }

/-- The first word of a descriptor as it is written back (R278). -/
def backWord (d : Bytes) (status : Nat) : Bytes := leBytes 4 (leAt d 0 4 % 2 ^ 16 + status * 2 ^ 16 + 2 ^ 31)

/-- Writes a descriptor back under the gate; whether it was accepted. -/
def writeBack (s : State) (f status : Nat) : Bool × State :=
  let c := getChan s f
  let r := access s (chanInit f) c.addr .write
  if r.1 then
    let s1 := putBytes r.2 (chanInit f) c.addr (backWord c.desc status)
    let n := chanFld f Reg.SHT_CH_STAT_DONE_CNT
    (true, setF s1 n ((getF s1 n + 1) % 2 ^ 16))
  else r

/-- SHT_INTEGRITY's halt: a bent's channels stop, and their running descriptors are written back where that is still
allowed (R283). -/
def haltChannels (s : State) (b : Nat) : State :=
  (List.range 8).foldl (fun s u =>
    let f := 8 * b + u
    let c := getChan s f
    let s1 := if chanState s f == 1 && !c.desc.isEmpty then
        let w := (writeBack s f 8).2
        setF (chanFault (setF w (chanFld f Reg.SHT_CH_STAT_LAST) 8) f 8 c.written) (chanFld f Reg.SHT_CH_ERR_OFF) c.written
      else s
    setChanState (setChan s1 f { Chan.zero with addr := c.addr, irq := c.irq }) f 3) s

end Sys2Proof.Machine
end

