-- ==== Sys2Proof/Machine/Responses.lean ====
section
/-!
DEFINITION. The responses of step 1 of the kerf (17_faults R368–R371, R374, R375, R377): interrupts, quiesce, halt and
zeroisation, the clearing of sources, and the rows of the fault collector.
-/
namespace Sys2Proof.Machine
open Sys2Proof

def setFaults (s : State) (f : Faults) : State := { s with faults := f }

/-! ### INTERRUPT (R368) -/

/-- The actions of INTERRUPT, and the strongest level applied. -/
def respondInterrupt (s : State) (f : Firing) : State :=
  let s1 := if f.level > getF s Reg.FCL_STAT_MAX then setF s Reg.FCL_STAT_MAX f.level else s
  if f.level < 2 then s1
  else
    let s2 := raiseMgmt s1 1
    let s3 := if respHostIrq s2 f.src then raiseMsix s2 0 (getF s2 Reg.FCL_VEC_VEC) else s2
    if respAlert s3 f.src then { s3 with smbAlert := true } else s3

/-! ### The raising command (R374) -/

/-- The raising command keeps the status that its chapter fixes, whatever its work had come to, and its remaining work
runs idle. -/
def respondRaiser (s : State) (f : Firing) : State :=
  match f.ctx, f.status with
  | some n, some st =>
    match getCtx s n with
    | some c =>
      if working c then setCtx s n { c with fail := some (st, unitsThrough c s.tick.count) } else s
    | none => s
  | _, _ => s

/-- Contexts whose chapter fixes their status for a firing of this kerf. -/
def fixedRaisers (fs : List Firing) : List Nat := fs.filterMap (fun f => if f.status.isSome then f.ctx else none)

/-! ### QUIESCE_SLICE (R299) -/

/-- Every admitted command of a slice but the given ones ends with ST_SQUASHED. -/
def squashOthers (s : State) (slice : Nat) (keep : List Nat) : State :=
  (sliceCtxs s slice).foldl (fun s c => if keep.contains c.1 then s else endEarly s c.1 stSquashed) s

/-- A SQUASH quiesce committed in step 1. A change that runs is squashed and proceeds; a QUIESCED slice takes the
cause. -/
def quiesceFault (s : State) (slice src : Nat) (keep : List Nat) : State :=
  let x := getSlice s slice
  let y := { x with quiesceSources := if x.quiesceSources.contains src then x.quiesceSources else x.quiesceSources ++ [src] }
  let squash := fun (s : State) => withdrawPlans (squashOthers (squashFetched s slice) slice keep) slice
  match x.change with
  | some c =>
    if c.kind == .quiesce then
      squash (setSlice s slice { y with change := some { c with squash := true, committed := some s.tick.count, byFault := true } })
    else if c.squash then s
    else squash (setSlice s slice { x with change := some { c with squash := true } })
  | none =>
    if x.st == .quiesced then
      event (setSlice s slice { y with cause := .fault }) Reg.SLC_EVT_FAULT_QUIESCE
    else if x.st == .active then
      let c : StagedChange :=
        { kind := .quiesce, squash := true, ctx := none, committed := some s.tick.count, byFault := true, byFlr := false
          toDormant := false }
      squash (event (setSlice s slice { y with change := some c }) Reg.SLC_EVT_FAULT_QUIESCE)
    else s

/-! ### HALT_ENGINE (R24, R374, R512) -/

/-- The command's unit is placed on the unit that a source halts: a stitch on the needle, or work of a work slot whose
lane is there. -/
def placedOn (s : State) (src : Nat) (c : Ctx) (i : Nat) : Bool :=
  let u := srcUnit src
  match srcTarget src with
  | .needle => (c.cls == clNeedle && unitPlace c i == some u) ||
      (c.cls == clPost && (laneAtPlan c (i - c.lent)).any (fun x => x / 128 == u))
  | .ldu => c.cls == clPost && (match unitPlace c i with | some p => p / 4 == u | none => false) &&
      (typTdes (useKey s c.keyA).typ || typTdes (useKey s c.keyB).typ)
  | .purlin => c.cls == clPurlin + u
  | .hash => c.cls == clHash && unitPlace c i == some u
  | .shuttle => (c.cls == clNeedle && (match unitPlace c i with | some n => n / 3 == u | none => false)) ||
      (c.cls == clHash && unitPlace c i == some u) ||
      (c.cls == clPost && (match unitPlace c i with | some p => p / 4 == u | none => false))
  | .post => c.cls == clPost && unitPlace c i == some u
  | .vault => c.cls == clVault
  | _ => false

/-- The first unit of a command, after the tick that ends, that runs idle because of the halt. Its places repeat
with its rate. -/
def firstIdle (s : State) (src : Nat) (c : Ctx) : Option Nat :=
  let u := unitsThrough c s.tick.count
  ((List.range (max 1 c.rate)).map (· + u)).find? (fun i => i < c.units && placedOn s src c i)

/-- The companion phase of a command still lies ahead on the halted unit: vault slots, or shares of its hash engine. -/
def companionIdle (s : State) (src : Nat) (c : Ctx) : Bool :=
  s.tick.count < endTick c && c.lastTick < endTick c &&
  (match srcTarget src with
   | .vault => compUnits c.entry != 0
   | .hash => match c.hshAt with
      | some x => x.1 == srcUnit src
      | none => false
   | .shuttle => match c.hshAt with
      | some x => x.1 == srcUnit src
      | none => false
   | _ => false)

/-- The command's epilogue lies ahead on the halted post: the link of its control share of tick *r* − 1. -/
def epilogueIdle (s : State) (src : Nat) (c : Ctx) : Bool :=
  srcTarget src == .post && c.k != 0 && s.tick.count + 1 < c.release && sharePost s c (c.release - 1) == some (srcUnit src)

/-- A command with work on the halted unit in a later tick runs on to its formula tick and ends with
ST_SELFTEST_FAIL. -/
def haltCut (s : State) (src n : Nat) (c : Ctx) : State :=
  if n < 4032 && working c then
    match firstIdle s src c with
    | some i => setCtx s n { c with fail := some (stSelftestFail, i) }
    | none => if companionIdle s src c || epilogueIdle s src c then setCtx s n { c with fail := some (stSelftestFail, c.units) } else s
  else s

/-- The raising command of a halt whose chapter fixes no status: the stitch that failed is suppressed and the command
ends with ST_SELFTEST_FAIL at its formula tick (R140, R374). -/
def haltRaiser (s : State) (f : Firing) : State :=
  match f.ctx, f.status with
  | some n, none =>
    match getCtx s n with
    | some c =>
      let u := if s.tick.count == 0 then 0 else unitsThrough c (s.tick.count - 1)
      let i := (((List.range (max 1 c.rate)).map (· + u)).find? (fun i => placedOn s f.src c i)).getD u
      if working c then setCtx s n { c with fail := some (stSelftestFail, i) } else s
    | none => s
  | _, _ => s

/-- The classes of a group's plan that a halt leaves with a smaller allotment. -/
def haltedClasses (src : Nat) (l : Layout) : List Nat :=
  let u := srcUnit src
  let onNdl := fun (f : Nat → Bool) => (if l.ndl.any (fun x => f x.1) then [clNeedle] else []) ++
    (if l.lanes.any (fun x => f x.1) then [clPost] else [])
  match srcTarget src with
  | .needle => onNdl (· == u)
  | .purlin => if l.pur.any (fun x => x.1 == u) then [clPurlin + u] else []
  | .hash => if l.hsh == some u then [clHash] else []
  | .shuttle => onNdl (fun n => n / 3 == u) ++ (if l.hsh == some u then [clHash] else [])
  | .post => if l.work.contains u then [clPost] else []
  | .vault => if l.vlt.isEmpty then [] else [clVault]
  | _ => []

/-- The plan made before a halt counts as planned under an earlier allotment (R512). -/
def haltPlans (s : State) (src : Nat) : State :=
  (allGroups s).foldl (fun s x =>
    match layoutOf s x.1 x.2 with
    | none => s
    | some l => (haltedClasses src l).foldl (fun s c => pushPlan s (gidOf x.1 x.2) c) s) s

/-- The SELFTEST of a fence that is on ends with ST_SELFTEST_FAIL when any unit is halted (23_mode_combinations row k).
A health failure has its own status (R266). -/
def haltFence (s : State) (src : Nat) : State :=
  match s.tick.fence with
  | none => s
  | some f =>
    match getCtx s f.ctx with
    | none => s
    | some c =>
      if c.phase == .running && srcTarget src != .entropy then
        setCtx s f.ctx { c with result := some (resStatus stSelftestFail) }
      else s

/-- The groups whose serial needle is halted get another one in this kerf (R122). -/
def renameSerials (s : State) : State :=
  { s with slices := s.slices.map (fun x => (x.1, { x.2 with layouts := x.2.layouts.map (renameSerial s) })) }

/-- A HALT_ENGINE response: commands with later work on the unit, the plans, a fence's SELFTEST, the unit. -/
def respondHalt (s : State) (src : Nat) : State :=
  let s1 := renameSerials (haltUnit (haltFence (haltPlans (s.ctxs.foldl (fun s c => haltCut s src c.1 c.2) s) src) src) src)
  if srcShtInteg ≤ src && src < srcShtInteg + 8 then haltChannels s1 (src - srcShtInteg) else s1

/-! ### ZEROISE (R371) -/

/-- Every slot is zeroised: the slices' keys, and slots 0 to 255. -/
def zeroiseKeys (s : State) : State :=
  let s1 := (List.range 128).foldl zeroiseSliceKeys s
  (s1.keys.filter (fun k => k.1 < 256 && k.2.st != .empty)).foldl
    (fun s k => setKey s k.1 { KeySlot.empty with gen := nextGen k.2.gen }) s1

/-- Slices that a ZEROISE response quiesces. -/
def zeroiseTargets (s : State) : List Nat :=
  (s.slices.filter (fun x => (x.2.st == .active || x.2.st == .quiesced) && !x.2.cfg.groups.isEmpty)).map (·.1)

/-- Masks and children are zeroised; step 8 of the same kerf seeds them again (R262). -/
def zeroiseRng (s : State) : State :=
  childSync { s with rng := { s.rng with
    masks := false, maskSeeds := [], services := false, children := [], drbgs := []
    wanting := sortNats (s.rng.wanting ++ s.rng.children) } }

def respondZeroise (s : State) (src : Nat) : State :=
  let ts := zeroiseTargets s
  let s1 := ts.foldl (fun s k => quiesceFault s k src []) s
  let s2 := zeroiseRng (zeroiseKeys s1)
  let s3 := setFlag s2 Reg.KST_STAT_DOMAIN false
  setFaults s3 { s3.faults with
    zeroised := if s3.faults.zeroised.contains src then s3.faults.zeroised else s3.faults.zeroised ++ [src]
    zeroSlices := sortNats (s3.faults.zeroSlices ++ ts.filter (fun k => !s3.faults.zeroSlices.contains k)) }

/-- The clear of the last ZEROISE source: L2 is unwrapped again with a valid thimble key, and the stored keys of every
slice that was not quiesced are restored. -/
def restoreAfterZeroise (s : State) : State :=
  if !s.faults.zeroised.isEmpty then s
  else if s.thm.key.isEmpty || !(s.records.any (fun r => r.slot == 0)) then s
  else
    let s1 := setFlag (restoreMaster s 0) Reg.KST_STAT_DOMAIN true
    ((sliceNums s1).filter (fun k => !s1.faults.zeroSlices.contains k)).foldl (fun s k => returnKeys s k true) s1

/-! ### Clearing (R377) -/

/-- The condition of a source still holds. -/
def stillHolds (s : State) (src : Nat) : Bool :=
  if src == srcGovFloor then getF s Reg.GOV_STAT_STEP > getF s Reg.GOV_FLOOR_STEP
  else if src == srcDdrThermal then flag s Reg.DDR_STAT_HOT
  else if srcThmLoop ≤ src && src < srcThmLoop + 8 then
    let l := getLoop s (src - srcThmLoop)
    l.mode != 0 && (l.a || l.b)
  else if srcThmSwitch ≤ src && src < srcThmSwitch + 4 then
    let x := getSwitch s (src - srcThmSwitch)
    x.mode != 0 && 2 ≤ x.run
  else if src == srcThmBatt then flag s Reg.THM_STAT_BATT_LOW
  else if srcMonVdd ≤ src && src ≤ srcMonTemp then
    flag s Reg.MON_STAT_ARMED && !(getReg s Reg.MON_STAT).getLsbD (src - srcMonVdd)
  else false

/-- A staged clear takes effect: ignored while the condition holds, void where the source fired in this tick. -/
def applyClear (fired : List Nat) (s : State) (src : Nat) : State :=
  if fired.contains src then s
  else if stillHolds s src then setFlag s Reg.FCL_STAT_STILL true
  else
    let s1 := clearPending s src
    if s1.faults.zeroised.contains src then
      restoreAfterZeroise (setFaults s1 { s1.faults with zeroised := s1.faults.zeroised.filter (· != src) })
    else s1

/-! ### Step 1 -/

/-- The union of the responses of every firing since the last step 1, then the clears (R369, R377). -/
def kerfResponses (s : State) : State :=
  let fs := s.faults.fired
  let cs := s.faults.clears
  let s0 := setFaults s { s.faults with fired := [], clears := [] }
  let s1 := fs.foldl respondInterrupt s0
  if s.faults.safe then s1
  else
    let keep := fixedRaisers fs
    let s2 := fs.foldl respondRaiser s1
    let s3 := fs.foldl (fun s f => match f.slice with
      | some k => if f.level == 3 then quiesceFault s k f.src keep else s
      | none => s) s2
    let s4 := fs.foldl (fun s f => if f.level == 5 then respondZeroise s f.src else s) s3
    let s5 := fs.foldl (fun s f => if f.level == 4 then respondHalt (haltRaiser s f) f.src else s) s4
    cs.foldl (applyClear (fs.map (·.src))) s5

/-! ### The rows of the collector -/

/-- FCL_SELF: the collector fails; its record is written where its copies still agree (R379). -/
def fclSelfEffect (agree : Bool) (s : State) : State :=
  let s1 := if agree then firePlain s srcFclSelf none else setFlag s Reg.FCL_STAT_VOTE_OK false
  setFaults s1 { s1.faults with safeDue := true }

def execFclSelf (agree : Bool) (s : State) : Host.Outcome State Fault Refusal := .next (fclSelfEffect agree s)

/-- Sources whose bit of word `n` is written with 1 and is set. -/
def clearedSources (s : State) (n : Nat) (v : Word) : List Nat :=
  ((List.range 32).map (· + 32 * n)).filter (fun src => v.getLsbD (src % 32) && srcPending s src)

/-- FCL_PEND_CLEAR: a write of FCL_PEND*n*; the clears take effect in step 1 of the next kerf. -/
def fclPendClearEffect (n : Nat) (v : Word) (s : State) : State :=
  if 16 ≤ n || s.faults.safe then s
  else
    let new := (clearedSources s n v).filter (fun c => !s.faults.clears.contains c)
    setFaults s { s.faults with clears := s.faults.clears ++ new }

def execFclPendClear (n : Nat) (v : Word) (s : State) : Host.Outcome State Fault Refusal :=
  .next (fclPendClearEffect n v s)

/-- FCL_REARM: a write of 1 re-arms. -/
def fclRearmEffect (v : Word) (s : State) : State := if v.getLsbD 0 && !s.faults.safe then rearm s else s

def execFclRearm (v : Word) (s : State) : Host.Outcome State Fault Refusal := .next (fclRearmEffect v s)

/-! ### Views (R380, R381) -/

/-- Word `i` of FCL_FIRST; zero while no record is latched. -/
def fclFirstView (s : State) (i : Nat) : Word :=
  match s.faults.first with
  | some f => (recordWords f).getD i 0#32
  | none => 0#32

/-- Word `i` of the selected ring entry. -/
def fclRecView (s : State) (i : Nat) : Word :=
  match s.faults.ring[getF s Reg.FCL_REC_SEL_AGE]? with
  | some f => (recordWords f).getD i 0#32
  | none => 0#32

/-- A pending source names the slice. -/
def slicePending (s : State) (slice : Nat) : Bool := s.faults.named.any (fun x => x.2 == slice && srcPending s x.1)

/-- A word of a slice's fault page; INIT and ADDR show only for the slice's own host slice (R380). -/
def sfpView (s : State) (slice off : Nat) : Word :=
  if off == 0 then
    BitVec.ofNat 32 (b2n ((getSlice s slice).cause == .fault) + 2 * b2n (slicePending s slice) + 4 * b2n s.faults.safe)
  else if off == 4 then BitVec.ofNat 32 (tget 0 s.faults.sliceCnt slice)
  else if 0x20 ≤ off && off < 0x40 && off % 4 == 0 then
    match tfind s.faults.sliceLast slice with
    | none => 0#32
    | some f =>
      let g := if f.init == 352 + slice then f else { f with init := 0, addr := 0 }
      (recordWords g).getD ((off - 0x20) / 4) 0#32
  else 0#32

end Sys2Proof.Machine
end

