-- ==== Sys2Proof/Machine/Views.lean ====
section
/-!
DEFINITION. What a register shows where it is not a stored word: registers behind a select register, counts over the
state, and the registers of the function space (25_register_map R479–R492 and the register tables of the chapters).
-/
namespace Sys2Proof.Machine
open Sys2Proof

/-! ### Queues (03_queues R59–R61, R85) -/

def qStateCode : QState → Nat
  | .disabled => 0
  | .enabled => 1
  | .disabling => 2
  | .stopped => 3
  | .held => 4

/-- Commands of a queue that hold a context or await admission. -/
def queueCount (s : State) (slice queue : Nat) : Nat :=
  (s.ctxs.filter (fun c => c.2.slice == slice && c.2.queue == queue)).length +
  (s.fetched.filter (fun f => f.slice == slice && f.queue == queue)).length

/-- A word of a queue register block. -/
def queueWord (s : State) (slice queue off : Nat) : Word :=
  let q := getQueue s slice queue
  match off with
  | 0x00 => BitVec.ofNat 32 q.sqBase
  | 0x04 => BitVec.ofNat 32 (q.sqBase / 2 ^ 32)
  | 0x08 => BitVec.ofNat 32 q.cqBase
  | 0x0C => BitVec.ofNat 32 (q.cqBase / 2 ^ 32)
  | 0x10 => q.qsize
  | 0x14 => q.qvec
  | 0x18 => BitVec.ofNat 32 (b2n q.en)
  | 0x1C => BitVec.ofNat 32 (qStateCode q.st + q.cause * 2 ^ 8 + b2n q.phase * 2 ^ 16)
  | 0x20 =>
    if queue == adminQ then 0#32
    else match groupOfQueue s slice queue with
      | some g => match groupOf s slice g with
        | some c => BitVec.ofNat 32 (g + b2n c.pasidEn * 2 ^ 5 + c.pasid * 2 ^ 12)
        | none => 0#32
      | none => 0#32
  | 0x24 => BitVec.ofNat 32 q.sqHead
  | 0x28 => BitVec.ofNat 32 q.cqTail
  | 0x2C => BitVec.ofNat 32 (queueCount s slice queue)
  | _ => 0#32

/-- The slice and queue of a global pair index. -/
def pairOwner (s : State) (i : Nat) : Option (Nat × Nat) :=
  (s.slices.foldl (fun (a : Nat × Option (Nat × Nat)) x =>
    let n := x.2.cfg.pairs
    if a.2.isSome then a
    else if i < a.1 + n then (a.1, some (x.1, i - a.1))
    else (a.1 + n, none)) (0, none)).2

def pairsTotal (s : State) : Nat := s.slices.foldl (fun n x => n + x.2.cfg.pairs) 0

/-- Data pairs that are not DISABLED. -/
def pairsActive (s : State) : Nat := (s.queues.filter (fun q => q.1 % 512 != adminQ && q.2.st != .disabled)).length

def viewHQ (s : State) (off : Nat) : Option Word :=
  let sel := pairOwner s (getF s Reg.HQ_QSEL_PAIR)
  let view := fun (f : Nat → Nat → Queue → Nat) => match sel with
    | some x => some (BitVec.ofNat 32 (f x.1 x.2 (getQueue s x.1 x.2)))
    | none => some 0#32
  match off with
  | 0x104 => some (BitVec.ofNat 32 (pairsActive s + b2n (running s) * 2 ^ 16 + getF s Reg.HQ_STAT_SAFE * 2 ^ 17))
  | 0x10C => some (BitVec.ofNat 32 (pairsTotal s))
  | 0x110 => some (BitVec.ofNat 32 s.ctxs.length)
  | 0x134 => view (fun n q x => n + q * 2 ^ 8 + (groupOfQueue s n q).getD 0 * 2 ^ 16 + qStateCode x.st * 2 ^ 24)
  | 0x138 => view (fun _ _ x => x.sqHead + x.sqTail * 2 ^ 16)
  | 0x13C => view (fun _ _ x => x.cqTail + x.cqHead * 2 ^ 16)
  | _ => none

/-! ### Slices (13_slices R308) -/

def sliceStCode : SliceSt → Nat
  | .none => 0
  | .dormant => 1
  | .active => 2
  | .quiesced => 3
  | .changing => 4

def causeCode : QuiesceCause → Nat
  | .none => 0
  | .command => 1
  | .fault => 2

def changeCode : SliceChange → Nat
  | .none => 0
  | .quiesce => 1
  | .reset => 2
  | .destroy => 3
  | .exporting => 4
  | .importing => 5

def countSt (s : State) (st : SliceSt) : Nat := (s.slices.filter (fun x => x.2.st == st)).length

/-- The change of a slice that has committed. -/
def runningChange (x : Slice) : Nat :=
  match x.change with
  | some c => changeCode c.kind
  | none => 0

def bitSet (l : List Nat) : Nat := l.foldl (fun m i => m ||| 2 ^ i) 0

def viewSLC (s : State) (off : Nat) : Option Word :=
  let n := getF s Reg.SLC_SEL_SLICE
  let x := getSlice s n
  let grp := fun (f : GroupCfg → Nat) => match x.cfg.groups[getF s Reg.SLC_SEL_GROUP]? with
    | some c => some (BitVec.ofNat 32 (f c))
    | none => some 0#32
  let lay := fun (f : Layout → Nat) => match x.layouts[getF s Reg.SLC_SEL_GROUP]? with
    | some c => some (BitVec.ofNat 32 (f c))
    | none => some 0#32
  match off with
  | 0x100 => some (BitVec.ofNat 32 (countSt s .active + countSt s .dormant * 2 ^ 8 + countSt s .quiesced * 2 ^ 16 +
      getF s Reg.SLC_STAT_RESTORED * 2 ^ 24))
  | 0x108 => some (BitVec.ofNat 32 (sliceStCode x.st + (if x.st == .quiesced then causeCode x.cause else 0) * 2 ^ 4 +
      b2n x.fnEn * 2 ^ 8 + b2n x.cfg.migratable * 2 ^ 9 + runningChange x * 2 ^ 12))
  | 0x10C => some (BitVec.ofNat 32 (x.cfg.pairs + x.cfg.groups.length * 2 ^ 16 + x.cfg.egress * 2 ^ 24))
  | 0x110 => some (BitVec.ofNat 32 (x.cfg.keyQuota + heldSlots s n * 2 ^ 16))
  | 0x114 => some (BitVec.ofNat 32 (x.vaultFirst + x.cfg.vaultUnits * 2 ^ 16))
  | 0x120 => some (BitVec.ofNat 32 (sliceHour s n))
  | 0x124 => some (BitVec.ofNat 32 (bitSet (x.logs.map (·.1)) +
      bitSet ((x.logs.filter (fun l => l.2.onB)).map (·.1)) * 2 ^ 8))
  | 0x128 => grp (fun c => c.firstQ + c.queues * 2 ^ 16)
  | 0x12C => grp (fun c => c.pasid + b2n c.pasidEn * 2 ^ 20)
  | 0x130 => grp (fun c => c.ndl + c.work * 2 ^ 16 + c.ctrl * 2 ^ 24)
  | 0x134 => grp (fun c => c.pur + c.hsh * 2 ^ 8 + c.ah * 2 ^ 12 + c.vlt * 2 ^ 16 + c.av * 2 ^ 24)
  | 0x138 => grp (fun c => c.perTick + c.ctxs * 2 ^ 16)
  | 0x13C => grp (fun c => c.linkIn + c.linkOut * 2 ^ 16)
  | 0x140 => lay (fun l => l.serialNow.getD 0 + bitSet ((l.ndl ++ l.lanes).map (·.1)) * 2 ^ 8)
  | 0x144 => lay (fun l => bitSet (l.work ++ l.ctrl))
  | 0x148 => lay (fun l => l.hsh.getD 0)
  | 0x14C => some (BitVec.ofNat 32 s.ledger.length)
  | 0x150 => some (setBits (getReg s Reg.SLC_ADM) 0 2 (s.ctxs.filter (fun c => 4032 ≤ c.1 && c.2.phase == .running)).length)
  | _ => if 0x160 ≤ off && off < 0x180 then
      lay (fun l => bitSet ((l.pur.filter (fun p => p.1 == (off - 0x160) / 4)).map (·.2)))
    else none

/-! ### Engines (05_needles R142, R143, 10_seam_signatures R252–R254) -/

/-- Units run in the last 16 ticks on a purlin. -/
def purUsedNow (s : State) (p : Nat) : Nat :=
  (s.tick.purUsed.filter (fun e => e.1 / 16 == p && s.tick.count < e.2 + 16)).length

def viewNDL (s : State) (off : Nat) : Option Word :=
  if off == 0x11C then some (BitVec.ofNat 32 (sillVal s 1 % 2 ^ 24))
  else if 0x140 ≤ off && off < 0x1A0 then
    let n := (off - 0x140) / 4
    some (BitVec.ofNat 32 (countBits ((usedPool s none).ndl.getD n 0) 128 + tget 0 s.tick.ndlUsed n * 2 ^ 8 +
      b2n (needleHalted s n) * 2 ^ 16 + b2n (s.slices.any (fun x => x.2.layouts.any (fun l => l.serialNow == some n))) * 2 ^ 17))
  else none

def viewPUR (s : State) (off : Nat) : Option Word :=
  let p := getF s Reg.PUR_SEL_PURLIN
  if off == 0x11C then
    some (BitVec.ofNat 32 (countBits ((usedPool s none).pur.getD p 0) 16 + purUsedNow s p * 2 ^ 8))
  else none

def viewHSH (s : State) (off : Nat) : Option Word :=
  let e := getF s Reg.HSH_SEL_ENGINE
  if off == 0x100 then some (setBits (getReg s Reg.HSH_STAT) 16 6 (if s.upkeep then 4 * (liveHash s).length else 0))
  else if off == 0x118 then
    some (BitVec.ofNat 32 ((usedPool s none).hsh.getD e 0 + tget 0 s.tick.hshUsed e * 2 ^ 8))
  else none

/-- Generation progress in 1/65,536 parts, of the minimum time of R235. -/
def lmsProgress (s : State) : Nat :=
  match s.lms.generating with
  | some n => match tfind s.lms.pairs n with
    | some p => min 65535 (65536 * (s.tick.count - s.lms.genStart) / genTicks p.set)
    | none => 0
  | none => 0

/-- The seam pair that LMS_SEL selects. -/
def selPair (s : State) : Option SeamPair := tfind s.lms.pairs (128 + getF s Reg.LMS_SEL_PAIR)

def pairStCode : PairSt → Nat
  | .building => 1
  | .ready => 2
  | .exhausted => 3

def viewLMS (s : State) (off : Nat) : Option Word :=
  let pair := fun (f : SeamPair → Nat) => match selPair s with
    | some p => some (BitVec.ofNat 32 (f p))
    | none => some 0#32
  match off with
  | 0x110 => some (setBits (getReg s Reg.LMS_REQ_STAT) 16 16 (lmsProgress s))
  | 0x11C => pair (fun p => (if p.st == .ready && !p.cached then 1 else pairStCode p.st) + p.set * 2 ^ 4 + p.slice * 2 ^ 8)
  | 0x128 => pair (fun p => availIndices p - claims s (128 + getF s Reg.LMS_SEL_PAIR))
  | 0x12C => pair (fun p => min p.skip 0xFFFFFFFF)
  | 0x130 => pair (fun p => p.serial)
  | 0x13C => some (BitVec.ofNat 32 (leAt deviceCert (4 * getF s Reg.LMS_CERT_SEL_WORD) 4))
  | _ => none

/-! ### Keys (06_keys R167) -/

def keyStCode : KeySt → Nat
  | .empty => 0
  | .loaded => 1
  | .active => 2
  | .spent => 3
  | .retired => 4
  | .killed => 5

/-- ⌊log2⌋ of a number, 0 for 0. -/
def log2Floor (n : Nat) : Nat := if n == 0 then 0 else Nat.log2 n

/-- Stored keys whose record or first reservation is unwritten. -/
def keysPending (s : State) : Nat :=
  (s.keys.filter (fun k => k.2.extOf == none && 256 ≤ k.1 && k.2.st != .empty && aStore k.2.attr != 0 && !k.2.recorded)).length

def viewKST (s : State) (off : Nat) : Option Word :=
  let n := getF s Reg.KST_SEL_SLOT
  let k := getKey s n
  match off with
  | 0x104 => some (BitVec.ofNat 32 (freeSlots s))
  | 0x108 => some (BitVec.ofNat 32 (s.keys.filter (fun k => 256 ≤ k.1 && (k.2.st == .active || k.2.st == .spent))).length)
  | 0x10C => some (BitVec.ofNat 32 (keysPending s))
  | 0x110 => some (BitVec.ofNat 32 (tombCount s))
  | 0x114 => some (BitVec.ofNat 32 s.tombPend.length)
  | 0x120 => some (BitVec.ofNat 32 (if k.st == .empty then 0 else keyStCode k.st + k.level * 2 ^ 4 + b2n k.extOf.isSome * 2 ^ 7 + k.owner * 2 ^ 8 +
      k.gen * 2 ^ 16 + aStore k.attr * 2 ^ 26))
  | 0x124 => some (BitVec.ofNat 32 k.attr)
  | 0x128 => some (BitVec.ofNat 32 (k.attr / 2 ^ 32))
  | 0x12C => some (BitVec.ofNat 32 (log2Floor k.budget))
  | _ => none

/-! ### Vault (08_vault_store R210), shuttle (12_shuttle R285), posts (15_tenons_exceptions R349) -/

def vaultStCode : VaultSt → Nat
  | .none => 0
  | .unloaded => 1
  | .reloading => 2
  | .ready => 3
  | .failed => 4

/-- Records of a chain that wait for ring room: those not written in the tick after they were placed (R198). -/
def heldRecords (s : State) (c : Chain) : Nat := (c.waiting.filter (fun r => r.placed + 1 < s.tick.count)).length

def viewVLT (s : State) (off : Nat) : Option Word :=
  let c := getChain s (selChain s)
  match off with
  | 0x108 => some (BitVec.ofNat 32 (getF s Reg.VLT_CAP_UNITS - s.slices.foldl (fun n x => n + x.2.cfg.vaultUnits) 0))
  | 0x10C => some (BitVec.ofNat 32 (tget 0 s.vault.genUse s.vault.gen / 65536))
  | 0x124 => some (BitVec.ofNat 32 c.ringBase)
  | 0x128 => some (BitVec.ofNat 32 (c.ringBase / 2 ^ 32))
  | 0x12C => some (BitVec.ofNat 32 (c.ringLog + b2n c.ringEn * 2 ^ 8))
  | 0x130 => some (BitVec.ofNat 32 c.head)
  | 0x134 => some (BitVec.ofNat 32 c.tail)
  | 0x140 => some (BitVec.ofNat 32 (vaultStCode c.st + b2n c.rebase.isSome * 2 ^ 8 + b2n (heldRecords s c != 0) * 2 ^ 9 +
      min (heldRecords s c) 0xFFFF * 2 ^ 16))
  | 0x144 => some (BitVec.ofNat 32 c.epoch)
  | _ => none

/-- The 32 bits of SHT_CH_IRQ that SHT_SEL.HI shows. -/
def chIrqBits (s : State) : Nat :=
  let hi := if flag s Reg.SHT_SEL_HI then 32 else 0
  (List.range 32).foldl (fun m i => if (getChan s (hi + i)).irq then m + 2 ^ i else m) 0

def viewSHT (s : State) (off : Nat) : Option Word :=
  let b := getF s Reg.SHT_SEL_BENT
  if off == 0x108 then
    some (BitVec.ofNat 32 (min (tget 0 s.pieces (4 * b + 2)) 2560 + min (tget 0 s.pieces (4 * b + 3)) 3968 * 2 ^ 16))
  else if off == 0x128 then some (BitVec.ofNat 32 (chIrqBits s))
  else if 0x400 ≤ off && off < 0x800 then
    let f := (off - 0x400) / 16
    match off % 16 with
    | 0 => some (BitVec.ofNat 32 (getChan s f).addr)
    | 4 => some 0#32
    | _ => none
  else none

/-- The post `p`. -/
def getPost (s : State) (p : Nat) : Post := tget (Post.reset p) s.posts p
def setPost (s : State) (p : Nat) (x : Post) : State := { s with posts := tput (Post.reset p) s.posts p x }

def viewPST (s : State) (off : Nat) : Option Word :=
  if off == 0x100 then some (BitVec.ofNat 32 (bitSet ((List.range 32).filter (postHalted s))))
  else if off == 0x104 then
    some (BitVec.ofNat 32 (bitSet ((List.range 32).filter (fun p => flag s (pstFld p Reg.PST_STAT_STOPPED)))))
  else if 0x400 ≤ off && off < 0x400 + 32 * 96 then
    let p := (off - 0x400) / 96
    let o := (off - 0x400) % 96
    if o == 4 then
      some (setBits (setBits (getReg s (0x41000 + off)) 6 1 (b2n (2 ≤ p))) 7 1 (b2n (getPost s p).run))
    else if 0x40 ≤ o then some 0#32
    else none
  else none

/-! ### The other pages -/

def viewLCY (s : State) (off : Nat) : Option Word :=
  let sil := fun n => some (silRegView s n)
  match off with
  | 0x114 => sil 3
  | 0x118 => sil 4
  | 0x11C => sil 0
  | 0x12C => sil 7
  | _ => none

def viewFCL (s : State) (off : Nat) : Option Word :=
  if off == 0x10C then some (respView s (getF s Reg.FCL_SEL_SOURCE))
  else if 0x180 ≤ off && off < 0x1A0 then some (fclFirstView s ((off - 0x180) / 4))
  else if 0x1A0 ≤ off && off < 0x1C0 then some (fclRecView s ((off - 0x1A0) / 4))
  else none

def viewTHM (s : State) (off : Nat) : Option Word :=
  match off with
  | 0x110 => some (thmLoopView s)
  | 0x114 => some (thmCalView s)
  | 0x124 => some (thmLogView s 0)
  | 0x128 => some (thmLogView s 1)
  | 0x12C => some (thmLogView s 2)
  | _ => none

def viewMON (s : State) (off : Nat) : Option Word :=
  match off with
  | 0x110 => some (railView s)
  | 0x114 => some (railExtView s)
  | 0x118 => some (freqView s)
  | _ => none

def viewTIK (s : State) (off : Nat) : Option Word :=
  match off with
  | 0x114 => some (BitVec.ofNat 32 (freeNdlCount s))
  | 0x118 => some (BitVec.ofNat 32 (freePurCount s + freeHshCount s * 2 ^ 8 + freeVltCount s * 2 ^ 16 + freePostCount s * 2 ^ 24))
  | _ => none

def viewRNG (s : State) (off : Nat) : Option Word :=
  match off with
  | 0x104 => if rngErr s then some 0#32 else some (s.rng.fifo.headD 0#32)
  | 0x114 => some (rngCell0View s)
  | 0x118 => some (rngCell1View s)
  | _ => none

def viewFLS (s : State) (off : Nat) : Option Word :=
  match off with
  | 0x11C => some (blkInfoView s)
  | 0x120 => some (maxEraseView s)
  | _ => none

def viewSIL (s : State) (off : Nat) : Option Word :=
  if off == 0x108 then some (silCntView s)
  else if off == 0x118 then some (BitVec.ofNat 32 (if flag s Reg.SIL_STAT_READY then silLimited s else 0))
  else if 0x140 ≤ off && off < 0x180 then some (silPendView s ((off - 0x140) / 4))
  else if 0x800 ≤ off then some (silRegView s ((off - 0x800) / 4))
  else none

def viewWER (s : State) (off : Nat) : Option Word :=
  match off with
  | 0x10C => some (wearUseView s)
  | 0x110 => some (wearLimitView s)
  | 0x114 => some (wearPredView s)
  | _ => none

def viewGTE (s : State) (off : Nat) : Option Word :=
  if 0x200 ≤ off && off < 0x400 then some (gteWindow s off) else none

/-- A word of a page that is not the stored word. -/
def pageView (s : State) (page off : Nat) : Option Word :=
  match page with
  | 0x001 => viewLCY s off
  | 0x002 => viewFCL s off
  | 0x003 => viewTHM s off
  | 0x004 => viewMON s off
  | 0x006 => viewTIK s off
  | 0x011 => viewHQ s off
  | 0x012 => viewSLC s off
  | 0x020 => viewNDL s off
  | 0x022 => viewKST s off
  | 0x023 => viewPUR s off
  | 0x024 => viewHSH s off
  | 0x025 => viewLMS s off
  | 0x026 => viewRNG s off
  | 0x030 => viewVLT s off
  | 0x040 => viewSHT s off
  | 0x041 => viewPST s off
  | 0x042 => viewGTE s off
  | 0x050 => viewFLS s off
  | 0x051 => viewSIL s off
  | 0x052 => if off == 0x128 then some (officerView s) else none
  | 0x053 => viewWER s off
  | _ => none

/-- The 64-bit quantities of R490, by the key of their `_LO` word. -/
def wideValue (s : State) (key : Nat) : Option Nat :=
  if key == Reg.TIK_COUNT_LO then some s.tick.count
  else if key == Reg.NDL_IVCTR_LO then some s.ivCtr
  else if key == Reg.LDU_OPS_LO then some (tget 0 s.opCounts 0)
  else if key == Reg.PUR_OPS_LO then some (tget 0 s.opCounts (1 + getF s Reg.PUR_SEL_PURLIN))
  else if key == Reg.HSH_CMP_LO then some (tget 0 s.opCounts (16 + getF s Reg.HSH_SEL_ENGINE))
  else if key == Reg.LMS_NEXT_LO then some (match selPair s with
    | some p => p.next
    | none => 0)
  else if key == Reg.VLT_JSEQ_LO then some (getChain s (selChain s)).seq
  else if key == Reg.SLC_SERIAL_LO then some (getSlice s (getF s Reg.SLC_SEL_SLICE)).exportSerial
  else if key == Reg.THM_TIME_LO then some s.thmTime
  else if key == Reg.OFC_CHG_LO then some ((getReg s Reg.OFC_CHG_LO).toNat + (getReg s Reg.OFC_CHG_HI).toNat * 2 ^ 32)
  else if key == Reg.LCY_SVN_LO then some ((getReg s Reg.LCY_SVN_LO).toNat + (getReg s Reg.LCY_SVN_HI).toNat * 2 ^ 32)
  else if key == Reg.LCY_FLOOR_LO then some ((silRegView s 3).toNat + (silRegView s 4).toNat * 2 ^ 32)
  else none

/-- The `_LO` words, whose `_HI` word follows. -/
def loKeys : List Nat :=
  [Reg.TIK_COUNT_LO, Reg.NDL_IVCTR_LO, Reg.LDU_OPS_LO, Reg.PUR_OPS_LO, Reg.HSH_CMP_LO, Reg.LMS_NEXT_LO, Reg.VLT_JSEQ_LO,
   Reg.SLC_SERIAL_LO, Reg.THM_TIME_LO, Reg.OFC_CHG_LO, Reg.LCY_SVN_LO, Reg.LCY_FLOOR_LO]

end Sys2Proof.Machine
end

