-- ==== Sys2Proof/Machine/Registers.lean ====
section
/-!
DEFINITION. The register space (25_register_map R479–R492): the common header, the digest of a page, and the read and
the write of one word by an initiator that the gate has let through.
-/
namespace Sys2Proof.Machine
open Sys2Proof

/-! ### The header (R481–R485) -/

/-- The field that PG_STAT.READY copies (R482); a page whose block serves from reset release has none. -/
def readyFld (page : Nat) : Option Fld :=
  match page with
  | 0x003 => some Reg.THM_STAT_READY
  | 0x004 => some Reg.MON_STAT_ARMED
  | 0x006 => some Reg.TIK_STAT_RUN
  | 0x011 => some Reg.TIK_STAT_RUN
  | 0x012 => some Reg.SLC_STAT_RESTORED
  | 0x020 => some Reg.NDL_STAT_READY
  | 0x021 => some Reg.LDU_STAT_READY
  | 0x022 => some Reg.KST_STAT_READY
  | 0x023 => some Reg.PUR_STAT_READY
  | 0x024 => some Reg.HSH_STAT_READY
  | 0x025 => some Reg.LMS_STAT_READY
  | 0x026 => some Reg.RNG_STAT_READY
  | 0x030 => some Reg.VLT_STAT_READY
  | 0x031 => some Reg.VLT_STAT_READY
  | 0x040 => some Reg.SHT_STAT_READY
  | 0x042 => some Reg.GTE_STAT_READY
  | 0x050 => some Reg.FLS_STAT_READY
  | 0x051 => some Reg.SIL_STAT_READY
  | 0x052 => some Reg.OFC_STAT_READY
  | 0x053 => some Reg.WER_STAT_READY
  | _ => none

def pageReady (s : State) (page : Nat) : Bool :=
  match readyFld page with
  | some f => flag s f
  | none => true

/-- A unit of the page's block is halted or stopped. -/
def pageHalted (s : State) (page : Nat) : Bool :=
  match page with
  | 0x020 => getReg s Reg.NDL_HALTED != 0#32
  | 0x021 => getF s Reg.LDU_STAT_HALTED != 0
  | 0x023 => getF s Reg.PUR_STAT_HALTED != 0
  | 0x024 => getF s Reg.HSH_STAT_HALTED != 0
  | 0x030 => s.faults.vaultHalted
  | 0x040 => getF s Reg.SHT_STAT_HALTED != 0
  | 0x041 => (List.range 32).any (fun p => postHalted s p || flag s (pstFld p Reg.PST_STAT_STOPPED))
  | 0x050 => s.faults.flashHalted
  | _ => false

/-- The staged change holds an entry for a word, by page and offset. -/
def stagedWord (s : State) (page off : Nat) : Bool :=
  match s.ofc.change with
  | some c => c.entries.any (fun e => e.typ == 1 && e.page == page && e.off == off)
  | none => false

def stagedPage (s : State) (page : Nat) : Bool :=
  match s.ofc.change with
  | some c => c.entries.any (fun e => e.typ == 1 && e.page == page)
  | none => false

/-- Words of a page that hold a GW field. -/
def guardedCount (page : Nat) : Nat := ((regRows page).filter (fun r => r.gw != 0)).length

/-- The RW and GW bits of a word. The region words of the gate page stand in its window. -/
def imageMask (key : Nat) : Nat :=
  if key / 0x1000 == 0x042 && 0x200 ≤ key % 0x1000 && key % 0x1000 < 0x400 then
    (match key % 16 with
     | 0 => 0xFFFFFFCF
     | 8 => 0xFFFFFFC0
     | _ => 0xFFFFFFFF)
  else match regRow key with
    | some r => r.rw ||| r.gw
    | none => 0

/-- A word as it reads once the page's block is ready. -/
def wordNow (s : State) (key : Nat) : Word :=
  match wideValue s key with
  | some v => BitVec.ofNat 32 v
  | none => (pageView s (key / 0x1000) (key % 0x1000)).getD (getReg s key)

/-- PG_CHECK's digest of a page (R485). -/
def pageCrc (s : State) (page : Nat) : Word :=
  crc32c (((List.range 960).map (fun i => page * 0x1000 + 0x100 + 4 * i)).flatMap (fun key =>
    if imageMask key == 0 then [] else leBytes 4 (wordNow s key &&& BitVec.ofNat 32 (imageMask key)).toNat))

/-- Words that read as they stand before the block is ready (notes/assumptions/25.md): the word that holds READY, words
of events and counters, the entropy page, TIK_COUNT. Every other word reads as its reset value (R492). -/
def earlyWord (key : Nat) : Bool :=
  let page := key / 0x1000
  key == Reg.TIK_COUNT_LO || page == 0x026 || page == 0x031 || page == 0x051 ||
  (match readyFld page with
   | some f => f.key == key
   | none => true) ||
  (match regRow key with
   | some r => r.w1c != 0 || r.rc != 0
   | none => false)

/-- A word of the header. -/
def headerWord (s : State) (page off : Nat) : Word :=
  match off with
  | 0x000 => BitVec.ofNat 32 (0x01000000 + page % 256 * 2 ^ 16 + (if Config.siliconB0 then 0xB0 else 0xA1))
  | 0x004 => 1#32
  | 0x00C => BitVec.ofNat 32 (b2n (pageReady s page) + 2 * b2n (getReg s (page * 0x1000 + 0x10) != 0#32) +
      4 * b2n (stagedPage s page) + 8 * b2n (pageHalted s page) + 16 * b2n s.faults.safe)
  | 0x010 => getReg s (page * 0x1000 + 0x10)
  | 0x014 =>
    let sel := getBits (getReg s (page * 0x1000 + 0x14)) 2 10 * 4
    BitVec.ofNat 32 (sel + b2n (guardedWord (page * 0x1000 + sel)) * 2 ^ 12 + b2n (stagedWord s page sel) * 2 ^ 13 +
      b2n (stagedPage s page) * 2 ^ 16 + guardedCount page * 2 ^ 24)
  | 0x018 => getReg s (page * 0x1000 + 0x18)
  | 0x01C =>
    match tfind s.regs (page * 0x1000 + 0x1C) with
    | some w => w
    | none => pageCrc { s with regs := [] } page
  | _ => 0#32

/-- What a register word shows. -/
def readVal (s : State) (key : Nat) : Word :=
  let page := key / 0x1000
  if !assignedPages.contains page || key % 4 != 0 then 0#32
  else if key % 0x1000 < 0x100 then headerWord s page (key % 0x1000)
  else if pageReady s page || earlyWord key then wordNow s key
  else regReset key

/-! ### Reading (R486, R490) -/

/-- The key of an initiator's latch for a pair. -/
def latchKey (init key : Nat) : Nat := init * 2 ^ 28 + key

def getLatch (s : State) (init key : Nat) : Word := tget 0#32 s.latches (latchKey init key)
def setLatch (s : State) (init key : Nat) (w : Word) : State :=
  { s with latches := tput 0#32 s.latches (latchKey init key) w }

/-- A page saw an access under the present epoch (R360). -/
def notePage (s : State) (key : Nat) : State :=
  if assignedPages.contains (key / 0x1000) then setReg s (key / 0x1000 * 0x1000 + 0x18) (getReg s Reg.GTE_EPOCH) else s

/-- RC fields of a word that was read clear. -/
def clearRc (s : State) (key : Nat) : State :=
  match regRow key with
  | some r => if r.rc == 0 then s else setReg s key (getReg s key &&& ~~~(BitVec.ofNat 32 r.rc))
  | none => s

/-- A read of a register word by an initiator: what it returns, and its side effects. RNG_DATA gives its next word, or
zero where it has none (Machine/Bus.lean holds such a read); RNG_RAW gives 32 new samples, which are free. -/
def readReg (s0 : State) (init key : Nat) : Word × State :=
  let s := notePage s0 key
  if loKeys.contains (key - 4) && 4 ≤ key then (getLatch s init (key - 4), s)
  else
    let w := readVal s key
    if loKeys.contains key then
      (w, setLatch s init key (BitVec.ofNat 32 (if key == Reg.TIK_COUNT_LO || pageReady s (key / 0x1000) then
        (wideValue s key).getD 0 / 2 ^ 32 else 0)))
    else if key == Reg.RNG_DATA then (w, if rngErr s then s else setRng s { s.rng with fifo := s.rng.fifo.drop 1 })
    else if key == Reg.RNG_CELL1 then (w, rngCell1Read s)
    else if key == Reg.RNG_RAW then
      if flag s Reg.RNG_RAW_SEL_EN then
        let d := drawBytes 4 s
        (BitVec.ofNat 32 (leNat d.1), d.2)
      else (0#32, s)
    else (w, clearRc s key)

/-! ### Writing (R486, R488) -/

/-- Marks a page for PG_CHECK where a configuration bit of a word changed. -/
def markChange (s : State) (key : Nat) (old new : Word) : State :=
  if (old ^^^ new) &&& BitVec.ofNat 32 (imageMask key) == 0#32 then s else markPage s (key / 0x1000)

/-- The write of a word by the access codes of its fields: RW and W1C at once, then what GW fields stage. -/
def plainWrite (s : State) (init key : Nat) (v : Word) : State :=
  match regRow key with
  | none => s
  | some r =>
    let rw := BitVec.ofNat 32 r.rw
    let old := getReg s key
    let new := ((old &&& ~~~rw) ||| (v &&& rw)) &&& ~~~(v &&& BitVec.ofNat 32 r.w1c)
    let s1 := markChange (setReg s key new) key old new
    if r.gw == 0 then s1 else gwWrite s1 init key v

/-- A write of a field that is ignored where the value is outside its range. -/
def checkedWrite (s : State) (init key : Nat) (v : Word) (ok : Bool) : State := if ok then plainWrite s init key v else s

/-- A write of a word with one field replaced by what the register keeps. -/
def fixedWrite (s : State) (init key : Nat) (v : Word) (lo k x : Nat) : State :=
  plainWrite s init key (setBits v lo k x)

def allDisabled (s : State) : Bool := s.queues.all (fun q => q.2.st == .disabled)

/-- The chain that VLT_JSEL selects is changed. -/
def setSelChain (s : State) (f : Chain → Chain) : State :=
  let n := selChain s
  markPage (setChain s n (f (getChain s n))) 0x030

/-- VLT_JSIZE: the size while the ring is disabled; enabling it sets head and tail to 0. -/
def jsizeWrite (s : State) (v : Word) : State :=
  let c := getChain s (selChain s)
  let n := getBits v 0 5
  let en := v.getLsbD 8
  if c.ringEn then (if en then s else setSelChain s (fun c => { c with ringEn := false }))
  else
    let s1 := if 8 ≤ n && n ≤ 24 then setSelChain s (fun c => { c with ringLog := n }) else s
    if en then setSelChain s1 (fun c => { c with ringEn := true, head := 0, tail := 0 }) else s1

/-- A GOV_THR value is in range: UP below DOWN below HARD, none above 104 °C. -/
def govThrOk (v : Word) : Bool :=
  getBits v 8 8 < getBits v 0 8 && getBits v 0 8 < getBits v 16 8 && getBits v 16 8 ≤ 104

def writeGov (s : State) (init key : Nat) (v : Word) : State :=
  if key == Reg.GOV_FLOOR then fixedWrite s init key v 0 3 (min 4 (getBits v 0 3))
  else if key == Reg.GOV_THR then checkedWrite s init key v (govThrOk v)
  else if key == Reg.GOV_DROOP then checkedWrite s init key v (690 ≤ getBits v 0 10 && getBits v 0 10 ≤ 740)
  else if key == Reg.GOV_UPDWELL then checkedWrite s init key v (16 ≤ getBits v 0 5 && getBits v 0 5 ≤ 24)
  else plainWrite s init key v

def writeHq (s : State) (init key : Nat) (v : Word) : State :=
  if key == Reg.HQ_CFG then checkedWrite s init key v (allDisabled s)
  else if key == Reg.HQ_FETCH then
    checkedWrite s init key v (allDisabled s && 8 ≤ getBits v 0 9 && getBits v 0 9 ≤ 256)
  else plainWrite s init key v

def writeVlt (s : State) (init key : Nat) (v : Word) : State :=
  let c := getChain s (selChain s)
  if key == Reg.VLT_JSEL then checkedWrite s init key v (getBits v 0 8 ≤ 128)
  else if key == Reg.VLT_JBASE_LO then
    if c.ringEn then s
    else setSelChain s (fun c => { c with ringBase := c.ringBase / 2 ^ 32 * 2 ^ 32 + v.toNat / 4096 * 4096 })
  else if key == Reg.VLT_JBASE_HI then
    if c.ringEn then s else setSelChain s (fun c => { c with ringBase := c.ringBase % 2 ^ 32 + v.toNat * 2 ^ 32 })
  else if key == Reg.VLT_JSIZE then jsizeWrite s v
  else if key == Reg.VLT_JHEAD then markPage (jheadWriteEffect v s) 0x030
  else plainWrite s init key v

def writeLms (s : State) (init key : Nat) (v : Word) : State :=
  if key == Reg.LMS_REQ then markPage (lmsReqWrite s v) 0x025
  else if key == Reg.LMS_SEL then fixedWrite s init key v 0 5 (if 25 < getBits v 0 5 then 0 else getBits v 0 5)
  else plainWrite s init key v

/-- RNG_RAW_SEL outside FACTORY (0) and BLANK (1) is ignored. -/
def writeRng (s : State) (init key : Nat) (v : Word) : State :=
  if key == Reg.RNG_RAW_SEL then
    let en := if lcyState s == lcyFactory || lcyState s == lcyBlank then v else (v &&& 0xFFFFFEFF#32) ||| (getReg s key &&& 0x100#32)
    setFlag (plainWrite s init key en) Reg.RNG_STAT_RAW_EN (en.getLsbD 8)
  else plainWrite s init key v

/-- The channel blocks and SHT_CH_IRQ of the shuttle page. -/
def writeSht (s : State) (init key : Nat) (v : Word) : State :=
  let off := key % 0x1000
  if key == Reg.SHT_CH_IRQ then
    let hi := if flag s Reg.SHT_SEL_HI then 32 else 0
    (List.range 32).foldl (fun s i =>
      if v.getLsbD i then setChan s (hi + i) { getChan s (hi + i) with irq := false } else s) s
  else if 0x400 ≤ off && off < 0x800 then
    match off % 16 with
    | 0 => markPage (channelStart ((off - 0x400) / 16) v s) 0x040
    | 4 => channelStop ((off - 0x400) / 16) v s
    | _ => s
  else plainWrite s init key v

/-- Exception depth and kingpost level of a post. -/
def postDepth (s : State) (p : Nat) : Nat := getF s (pstFld p Reg.PST_STAT_DEPTH)
def postKp (s : State) (p : Nat) : Bool := flag s (pstFld p Reg.PST_STAT_KP)

/-- The post page: PST_VBASE stands while an exception is being handled, and a plain write of a tenon slot carries no
tag and is ignored (R349). -/
def writePst (s : State) (init key : Nat) (v : Word) : State :=
  let off := key % 0x1000
  if 0x400 ≤ off && off < 0x400 + 32 * 96 then
    let p := (off - 0x400) / 96
    let o := (off - 0x400) % 96
    if o == 8 then checkedWrite s init key v (postDepth s p == 0 && !postKp s p)
    else if 0x40 ≤ o then s
    else plainWrite s init key v
  else plainWrite s init key v

def writeGte (s : State) (init key : Nat) (v : Word) : State :=
  let off := key % 0x1000
  if key == Reg.GTE_COMMIT then (if v.getLsbD 0 then gteStage s false else s)
  else if key == Reg.GTE_DISCARD then markPage (gteDiscard s) 0x042
  else if 0x200 ≤ off && off < 0x400 then markPage (gteWindowWrite s init off (v &&& BitVec.ofNat 32 (imageMask key))) 0x042
  else plainWrite s init key v

def writeFcl (s : State) (init key : Nat) (v : Word) : State :=
  let off := key % 0x1000
  if key == Reg.FCL_COLD then fclColdEffect v s
  else if key == Reg.FCL_REARM then fclRearmEffect v s
  else if 0x140 ≤ off && off < 0x180 then fclPendClearEffect ((off - 0x140) / 4) v s
  else plainWrite s init key v

def writeFls (s : State) (init key : Nat) (v : Word) : State :=
  if key == Reg.FLS_CMD then
    let s1 := plainWrite s init key (v &&& 0xF#32)
    if v.getLsbD 31 then flsGo s1 (getBits v 0 4) else s1
  else plainWrite s init key v

def writeSil (s : State) (init key : Nat) (v : Word) : State :=
  if 0x800 ≤ key % 0x1000 then sillWriteEffect ((key % 0x1000 - 0x800) / 4) v s else plainWrite s init key v

def writeOfc (s : State) (init key : Nat) (v : Word) : State :=
  if key == Reg.OFC_CLK then checkedWrite s init key v (2 ≤ getBits v 0 4 && getBits v 0 4 ≤ 11)
  else if key == Reg.OFC_OFF_SEL then
    fixedWrite s init key v 0 5 (if 1 ≤ getBits v 0 5 && getBits v 0 5 ≤ 16 then getBits v 0 5 else 1)
  else plainWrite s init key v

/-- The header takes writes of PG_CTRL, PG_FAULT and PG_GUARD. -/
def headerWrite (s : State) (page off : Nat) (v : Word) : State :=
  match off with
  | 0x008 => if v.getLsbD 0 then markPage s page else s
  | 0x010 => setReg s (page * 0x1000 + 0x10) (getReg s (page * 0x1000 + 0x10) &&& ~~~v)
  | 0x014 => setReg s (page * 0x1000 + 0x14) (v &&& 0xFFC#32)
  | _ => s

/-- A write of a register word that was accepted. -/
def writeReg (s0 : State) (init key : Nat) (v : Word) : State :=
  let s := notePage s0 key
  let page := key / 0x1000
  if !assignedPages.contains page || key % 4 != 0 then s
  else if key % 0x1000 < 0x100 then headerWrite s page (key % 0x1000) v
  else match page with
    | 0x001 =>
      if key == Reg.LCY_CTRL && running s then gwWrite s init key v else plainWrite s init key v
    | 0x002 => writeFcl s init key v
    | 0x004 => if key == Reg.MON_SEL then fixedWrite s init key v 0 4 (if 8 < getBits v 0 4 then 0 else getBits v 0 4)
               else plainWrite s init key v
    | 0x005 => writeGov s init key v
    | 0x010 => if key == Reg.HLK_CTRL then markPage (hlkCtrlWrite s v) 0x010 else plainWrite s init key v
    | 0x011 => writeHq s init key v
    | 0x022 => if key == Reg.KST_SEL then checkedWrite s init key v (256 ≤ getBits v 0 14) else plainWrite s init key v
    | 0x025 => writeLms s init key v
    | 0x026 => writeRng s init key v
    | 0x030 => writeVlt s init key v
    | 0x031 => if key == Reg.DDR_CTRL then fixedWrite s init key v 0 3 (min 4 (getBits v 0 3)) else plainWrite s init key v
    | 0x040 => writeSht s init key v
    | 0x041 => writePst s init key v
    | 0x042 => writeGte s init key v
    | 0x050 => writeFls s init key v
    | 0x051 => writeSil s init key v
    | 0x052 => writeOfc s init key v
    | 0x053 =>
      if key == Reg.WER_CTRL then markPage (werCtrlWrite s v) 0x053
      else if key == Reg.WER_SEL then fixedWrite s init key v 0 3 (if 5 < getBits v 0 3 then 0 else getBits v 0 3)
      else plainWrite s init key v
    | _ => plainWrite s init key v

end Sys2Proof.Machine
end

