-- ==== Sys2Proof/Machine/Bus.lean ====
section
/-!
DEFINITION. Accesses to the register space and the functions' BARs (03_queues R59–R63, 16_gates R356, R357, R361–R364,
22_host_link R453–R455, 25_register_map R486–R493): gate 11's check, the rows of register accesses, posted writes of
the basting buffers, and the function space. A register's key is its address below 0x4000_0000; the function space of
slice n stands at 2^24 + n × 2^20 (PF BAR2, VF BAR0), and only its own host reaches it.
-/
namespace Sys2Proof.Machine
open Sys2Proof

/-! ### The function space -/

def fnBase (slice : Nat) : Nat := 2 ^ 24 + slice * 2 ^ 20
def fnSlice (key : Nat) : Nat := (key - 2 ^ 24) / 2 ^ 20
def fnOff (key : Nat) : Nat := (key - 2 ^ 24) % 2 ^ 20

/-- A queue's register block at an offset of the window: the queue and the offset in its block. -/
def blockAt (slice off : Nat) : Option (Nat × Nat) :=
  if 0x5000 ≤ off && off < 0x9000 then some ((off - 0x5000) / 64, (off - 0x5000) % 64)
  else if slice == 0 && 0x10040 ≤ off && off < 0x10080 then some (adminQ, off - 0x10040)
  else none

/-- A doorbell at an offset of the window: the queue, and whether it is the completion head's (R60). -/
def doorbellAt (s : State) (slice off : Nat) : Option (Nat × Bool) :=
  let d := 4 * 2 ^ getF s Reg.HQ_CFG_DSTRD
  if 0x1000 ≤ off && off < 0x5000 then
    let i := (off - 0x1000) / d
    if (off - 0x1000) % d == 0 && i < 512 then some (i / 2, i % 2 == 1) else none
  else if slice == 0 && off == 0x10000 then some (adminQ, false)
  else if slice == 0 && off == 0x10004 then some (adminQ, true)
  else none

/-- The offset of a function's MSI-X table and of its PBA. -/
def msixBase (slice : Nat) : Nat := if slice == 0 then 0x20000 else 0xB000
def pbaBase (slice : Nat) : Nat := if slice == 0 then 0x28000 else 0xB800

/-- A quiesce, reset or destruction of the slice is staged or in progress. -/
def sliceChanging (s : State) (slice : Nat) : Bool :=
  match (getSlice s slice).change with
  | some c => c.kind == .quiesce || c.kind == .reset || c.kind == .destroy
  | none => false

/-- The slice status page (R455). -/
def sspWord (s : State) (slice off : Nat) : Word :=
  let x := getSlice s slice
  match off with
  | 0x00 => BitVec.ofNat 32 (sliceStCode x.st + (if x.st == .quiesced then causeCode x.cause else 0) * 2 ^ 4 +
      b2n (running s) * 2 ^ 8 + b2n (flag s Reg.TIK_STAT_FENCE) * 2 ^ 9 + b2n s.faults.safe * 2 ^ 10 +
      b2n (lcyState s == lcyTampered) * 2 ^ 11 + b2n (approved s) * 2 ^ 12 +
      b2n (flag s Reg.TIK_STAT_PACE_ACT) * 2 ^ 13 + b2n (s.link.secure.contains slice) * 2 ^ 14)
  | 0x04 => BitVec.ofNat 32 (vaultStCode (getChain s slice).st)
  | 0x08 => BitVec.ofNat 32 (x.cfg.keyQuota + heldSlots s slice * 2 ^ 16)
  | 0x0C => BitVec.ofNat 32 (sliceHour s slice)
  | 0x10 => BitVec.ofNat 32 s.tick.count
  | _ => 0#32

/-- The last accepted value of a doorbell (R65). -/
def doorbellWord (s : State) (slice : Nat) (d : Nat × Bool) : Word :=
  let q := getQueue s slice d.1
  if d.1 ≤ adminQ && queueHeld s slice d.1 then BitVec.ofNat 32 (if d.2 then q.cqHead else q.sqTail) else 0#32

/-- HQ_W_STAT.READY: the device runs, in a state whose data queues can be enabled, and the slice is active (R83, R439). -/
def windowReady (s : State) (slice : Nat) : Bool :=
  running s && (getSlice s slice).st == .active && (lcyState s == lcyOperational || lcyState s == lcyTampered)

/-- A word of the queue window: HQ_W_INFO, HQ_W_STAT, the doorbells and the register blocks; zero in the safe state
(R82). -/
def windowWord (s : State) (slice off : Nat) : Word :=
  let x := getSlice s slice
  if s.faults.safe then 0#32
  else if off == 0 then BitVec.ofNat 32 (slice + x.cfg.pairs * 2 ^ 8 + getF s Reg.HQ_CFG_DSTRD * 2 ^ 17 + b2n (slice == 0) * 2 ^ 19)
  else if off == 4 then
    BitVec.ofNat 32 (b2n (windowReady s slice) + 2 * b2n (flag s Reg.TIK_STAT_FENCE) + 4 * b2n (sliceChanging s slice))
  else match blockAt slice off with
    | some b => if queueHeld s slice b.1 then queueWord s slice b.1 b.2 else 0#32
    | none => match doorbellAt s slice off with
      | some d => doorbellWord s slice d
      | none => 0#32

/-- The PBA's word: 32 pending bits. -/
def pbaWord (s : State) (slice i : Nat) : Word :=
  BitVec.ofNat 32 ((List.range 32).foldl (fun m k => if msixPending s slice (32 * i + k) then m + 2 ^ k else m) 0)

/-- A word of a function's BAR. -/
def fnWord (s : State) (slice off : Nat) : Word :=
  if off % 4 != 0 then 0#32
  else if msixBase slice ≤ off && off < msixBase slice + 16 * msixSize slice then msixWord s slice (off - msixBase slice)
  else if pbaBase slice ≤ off && off < pbaBase slice + msixSize slice / 8 then pbaWord s slice ((off - pbaBase slice) / 4)
  else if slice != 0 && 0x9000 ≤ off && off < 0xA000 then sspWord s slice (off - 0x9000)
  else if slice != 0 && 0xA000 ≤ off && off < 0xB000 then sfpView s slice (off - 0xA000)
  else windowWord s slice off

/-- A write of a queue register block (R61). -/
def queueWrite (s : State) (slice queue off : Nat) (v : Word) : State :=
  let q := getQueue s slice queue
  let n := v.toNat
  if !windowOpen s slice queue then s
  else if off == 0x18 then (if v.getLsbD 0 then queueEnableEffect slice queue s else queueDisableEffect slice queue s)
  else if q.st != .disabled then s
  else match off with
    | 0x00 => setQueue s slice queue { q with sqBase := q.sqBase / 2 ^ 32 * 2 ^ 32 + n / 4096 * 4096 }
    | 0x04 => setQueue s slice queue { q with sqBase := q.sqBase % 2 ^ 32 + n * 2 ^ 32 }
    | 0x08 => setQueue s slice queue { q with cqBase := q.cqBase / 2 ^ 32 * 2 ^ 32 + n / 4096 * 4096 }
    | 0x0C => setQueue s slice queue { q with cqBase := q.cqBase % 2 ^ 32 + n * 2 ^ 32 }
    | 0x10 => setQueue s slice queue { q with qsize := v &&& 0x1F1F#32 }
    | 0x14 => setQueue s slice queue { q with qvec := v &&& 0xFFFF07FF#32 }
    | _ => s

/-- A write of a word of an MSI-X table; clearing the mask bit sends a pending message. -/
def msixWrite (s : State) (slice off : Nat) (v : Word) : State :=
  match off % 16 with
  | 0 => setMsixWord s slice off (v &&& 0xFFFFFFFC#32)
  | 12 => if v.getLsbD 0 then setMsixWord s slice off 1#32 else msixUnmask s slice (off / 16)
  | _ => setMsixWord s slice off v

/-- A write to a function's BAR, by its width in bytes. A doorbell takes aligned 32-bit writes; any other write within
one is dropped and counted (R65). -/
def fnWrite (s : State) (slice off width : Nat) (v : Word) : State :=
  match doorbellAt s slice (off - off % 4) with
  | some d =>
    if d.1 ≤ adminQ && queueHeld s slice d.1 then
      (if off % 4 != 0 then (if windowOpen s slice d.1 then dropDoorbell s else s)
       else if d.2 then cqHeadEffect slice d.1 width v s else sqTailEffect slice d.1 width v s)
    else s
  | none =>
    if width != 4 || off % 4 != 0 then s
    else if msixBase slice ≤ off && off < msixBase slice + 16 * msixSize slice then msixWrite s slice (off - msixBase slice) v
    else match blockAt slice off with
      | some b => queueWrite s slice b.1 b.2 v
      | none => s

/-- A read of a function's BAR; SSP_TICK's pair has a latch of its own, and SFP_CNT reads clear (R380). -/
def fnRead (s : State) (slice off : Nat) : Word × State :=
  let init := initHost slice
  let lo := fnBase slice + 0x9010
  if slice != 0 && off == 0x9010 then
    (fnWord s slice off, setLatch s init lo (BitVec.ofNat 32 (s.tick.count / 2 ^ 32)))
  else if slice != 0 && off == 0x9014 then (getLatch s init lo, s)
  else if slice != 0 && off == 0xA004 then
    (fnWord s slice off, { s with faults := { s.faults with sliceCnt := tput 0 s.faults.sliceCnt slice 0 } })
  else (fnWord s slice off, s)

/-! ### Posted writes (R362–R364) -/

/-- A posted write leaves its buffer: checked under its epoch, and applied or dropped with a notice. One of an epoch that
the gate holds no tables of is an integrity fault (R360). -/
def applyPosted (s : State) (p : Posted) : State :=
  let n := p.bytes.length
  let r := gateCheck s (tablesAt s p.epoch) p.init p.addr .write
  if !epochKnown s p.epoch then firePlain s srcGteInteg none
  else if r != .allow then notice s p.init p.addr p.epoch r
  else if gateOf p.init p.addr == 11 then
    if n == 4 && p.addr % 4 == 0 then
      writeReg s p.init (p.addr - 0x40000000) (BitVec.ofNat 32 (leNat p.bytes))
    else notice s p.init p.addr p.epoch .deny
  else putBytes s p.init p.addr p.bytes

/-- Whether a posted write stands in a gate's buffer for an initiator. -/
def ofGate (init gate : Nat) (p : Posted) : Bool := p.init == init && gateOf p.init p.addr == gate

/-- Every posted write that meets a test is applied, oldest first. -/
def drainPosted (s : State) (f : Posted → Bool) : State :=
  let go := s.gates.basting.filter f
  go.foldl applyPosted (setGates s { s.gates with basting := s.gates.basting.filter (fun p => !f p) })

/-- BASTING_APPLY: the oldest write of an initiator in a gate's buffer. -/
def bastingApplyEffect (init gate : Nat) (s : State) : State :=
  if s.boot.held then s
  else match s.gates.basting.find? (ofGate init gate) with
    | none => s
    | some p => applyPosted (setGates s { s.gates with basting := s.gates.basting.erase p }) p

def execBastingApply (init gate : Nat) (s : State) : Host.Outcome State Fault Refusal :=
  .next (bastingApplyEffect init gate s)

/-! ### Reads and writes of the posts' map (R356, R491) -/

/-- What a read of the posts' map brings: bytes, a status word of the flash controller with its kind, or a refusal. -/
inductive BusRes where
  | ok (b : Bytes)
  | status (w : Word) (kind : Nat)
  | refused
deriving DecidableEq, Repr

/-- The words of a read from register pages, in ascending order. -/
def regWords : (n : Nat) → State → (init key : Nat) → Bytes × State
  | 0, s, _, _ => ([], s)
  | n + 1, s, init, key =>
    let w := readReg s init key
    let r := regWords n w.2 init (key + 4)
    (leBytes 4 w.1.toNat ++ r.1, r.2)

/-- Data of `n` bytes from the flash window, or its status word (19_nonvolatile R405). -/
def flashReadAt (s : State) (off n : Nat) : BusRes × State :=
  match flashKind s off false with
  | some k => (.status (statusWord off k) k, countUe s k)
  | none =>
    let r := flashBytes 4 s off n
    (.ok r.1, r.2)

/-- A read in the flash window. -/
def flashRead (s : State) (a n : Nat) : BusRes × State := flashReadAt s (a - 0x10000000) n

/-- A read of `n` bytes within one granule by an initiator; a post reads single words of register pages (R491). Its earlier writes through the gate are accepted first. -/
def busRead (s0 : State) (init a n : Nat) : BusRes × State :=
  let g := gateOf init a
  let s := drainPosted s0 (ofGate init g)
  let r := access s init a .read
  if !r.1 then (.refused, r.2)
  else if g == 11 then
    if a % 4 == 0 && n % 4 == 0 && (n == 4 || 32 ≤ init) then
      let w := regWords (n / 4) r.2 init (a - 0x40000000)
      (.ok w.1, w.2)
    else (.refused, refuseAccess r.2 11 init a (accCode init .read) false (initSlice init) .deny)
  else if g == 12 then flashRead r.2 a n
  else if g == 13 then (.ok ((List.range n).map (fun i => Config.romByte (a - 0xFFFF0000 + i))), r.2)
  else (.ok (memRead r.2 (memAddr init a) n), r.2)

/-- Writes of words to register pages, in ascending order. -/
def writeWords : (fuel : Nat) → State → (init key : Nat) → Bytes → State
  | 0, s, _, _, _ => s
  | fuel + 1, s, init, key, b =>
    if b.isEmpty then s
    else writeWords fuel (writeReg s init key (BitVec.ofNat 32 (leAt b 0 4))) init (key + 4) (b.drop 4)

/-! ### Register accesses -/

/-- A read of a register by an initiator, through gate 11: its value where the gate allows it. The initiator's earlier
writes through the gate are accepted first. -/
def busRegRead (s0 : State) (init key : Nat) : Option Word × State :=
  let s := drainPosted s0 (ofGate init 11)
  let r := access s init (regAddr key) .read
  if r.1 then
    let w := readReg r.2 init key
    (some w.1, w.2)
  else (none, r.2)

/-- A write of a register by an initiator, through gate 11 (R357). -/
def busRegWrite (s0 : State) (init key : Nat) (v : Word) : State :=
  let s := drainPosted s0 (ofGate init 11)
  let r := gateCheck s s.gates.live init (regAddr key) .write
  if r == .allow then writeReg s init key v
  else notice s init (regAddr key) (getReg s Reg.GTE_EPOCH).toNat r

/-- The answer to a read: the value; where it is refused, an unsuccessful completion to the host, or zero in the safe
state (R378, R454). -/
def answerRead (s : State) (init key : Nat) (r : Option Word × State) : State :=
  if s.boot.held then s
  else match r.1 with
    | some w => emit r.2 (.readReply init key w)
    | none =>
      if init < 352 then r.2
      else if s.faults.safe then emit r.2 (.readReply init key 0#32)
      else emit r.2 (.link 3 [init, key])

/-- A host of a slice acts on its own function's space, while the function is enabled. -/
def fnServed (s : State) (init key : Nat) : Bool :=
  init == initHost (fnSlice key) && fnSlice key < 128 && (getSlice s (fnSlice key)).fnEn

/-- The answer to a read of a function's own space, where the function serves it. -/
def fnReply (init key slice off : Nat) (served : Bool) (s : State) : State :=
  if served then
    let r := fnRead s slice off
    emit r.2 (.readReply init key r.1)
  else s

/-- A read of a register or of the function space by an initiator. RNG_DATA's read is held until a word is ready. -/
def readEffect (init key : Nat) (s : State) : State :=
  if s.boot.held then s
  else if 2 ^ 24 ≤ key then
    fnReply init key (fnSlice key) (fnOff key) (fnServed s init key) s
  else if key == Reg.RNG_DATA then
    let r := access (drainPosted s (ofGate init 11)) init (regAddr key) .read
    if r.1 then rngReadEffect init r.2 else answerRead s init key (none, r.2)
  else answerRead s init key (busRegRead s init key)

/-- A write of a register or of the function space by an initiator. -/
def writeEffect (init key : Nat) (v : Word) (s : State) : State :=
  if s.boot.held then s
  else if 2 ^ 24 ≤ key then (if fnServed s init key then fnWrite s (fnSlice key) (fnOff key) 4 v else s)
  else busRegWrite s init key v

/-- RC_READ. -/
def execRcRead (init key : Nat) (s : State) : Host.Outcome State Fault Refusal := .next (readEffect init key s)

/-- LO_READ. -/
def execLoRead (init key : Nat) (s : State) : Host.Outcome State Fault Refusal := .next (readEffect init key s)

/-- REGISTER_WRITE. -/
def execRegisterWrite (init key : Nat) (v : Word) (s : State) : Host.Outcome State Fault Refusal :=
  .next (writeEffect init key v s)

/-- GW_WRITE. -/
def execGwWrite (init key : Nat) (v : Word) (s : State) : Host.Outcome State Fault Refusal :=
  .next (writeEffect init key v s)

/-- RECHECK: a write of PG_CTRL.RECHECK on a page. -/
def execRecheck (init page : Nat) (s : State) : Host.Outcome State Fault Refusal :=
  .next (writeEffect init (page % 4096 * 0x1000 + 8) 1#32 s)

/-- MSIX_UNMASK. -/
def msixUnmaskEffect (slice vec : Nat) (s : State) : State :=
  if s.boot.held || !(getSlice s slice).fnEn || msixSize slice ≤ vec then s else msixUnmask s slice vec

def execMsixUnmask (slice vec : Nat) (s : State) : Host.Outcome State Fault Refusal :=
  .next (msixUnmaskEffect slice vec s)

/-- HOST_REQUEST: a host access of a slice's function. For slice 0 an address below 2^24 lies in PF BAR0; other
addresses are 2^24 + the offset in PF BAR2 or VF BAR0. Only aligned 32-bit accesses reach the register pages (R454). -/
def hostRequestEffect (slice : Nat) (wr : Bool) (addr width : Nat) (v : Word) (s : State) : State :=
  let init := initHost slice
  if s.boot.held then s
  else if 2 ^ 24 ≤ addr then
    let key := fnBase slice + (addr - 2 ^ 24) % 2 ^ 20
    if !fnServed s init key then (if wr then s else emit s (.link 4 [init, key]))
    else if wr then fnWrite s slice (fnOff key) width v
    else readEffect init key s
  else if slice != 0 then s
  else if width == 4 && addr % 4 == 0 then (if wr then writeEffect init addr v s else readEffect init addr s)
  else if wr then notice s init (0x40000000 + addr) (getReg s Reg.GTE_EPOCH).toNat .deny
  else answerRead s init addr (none, refuseAccess s 11 init (0x40000000 + addr) 6 false (some 0) .deny)

def execHostRequest (slice : Nat) (wr : Bool) (addr width : Nat) (v : Word) (s : State) :
    Host.Outcome State Fault Refusal := .next (hostRequestEffect slice wr addr width v s)

end Sys2Proof.Machine
end

