-- ==== Sys2Proof/Machine/DataPath.lean ====
section
/-!
DEFINITION. The rows of the data-path opcodes (04_command_reference to 11_entropy): each runs the work of the context's
command up to the tick begun. Admission and release are the kerf's. INFILL_CALL takes what the entry's code returned,
SELFTEST which needle failed, ABORT the entry to be resolved.
-/
namespace Sys2Proof.Machine
open Sys2Proof

def execCipher (ctx : Nat) (s : State) : Host.Outcome State Fault Refusal := .next (runRow opCipher ctx s)
def execCipherTranslate (ctx : Nat) (s : State) : Host.Outcome State Fault Refusal := .next (runRow opTranslate ctx s)
def execMacGen (ctx : Nat) (s : State) : Host.Outcome State Fault Refusal := .next (runRow opMacGen ctx s)
def execMacVerify (ctx : Nat) (s : State) : Host.Outcome State Fault Refusal := .next (runRow opMacVerify ctx s)
def execHash (ctx : Nat) (s : State) : Host.Outcome State Fault Refusal := .next (runRow opHash ctx s)
def execPinTranslate (ctx : Nat) (s : State) : Host.Outcome State Fault Refusal := .next (runRow opPinTranslate ctx s)
def execPinVerify (ctx : Nat) (s : State) : Host.Outcome State Fault Refusal := .next (runRow opPinVerify ctx s)
def execDukptDerive (ctx : Nat) (s : State) : Host.Outcome State Fault Refusal := .next (runRow opDukpt ctx s)
def execTokenize (ctx : Nat) (s : State) : Host.Outcome State Fault Refusal := .next (runRow opTokenize ctx s)
def execDetokenize (ctx : Nat) (s : State) : Host.Outcome State Fault Refusal := .next (runRow opDetokenize ctx s)
def execVaultPut (ctx : Nat) (s : State) : Host.Outcome State Fault Refusal := .next (runRow opVaultPut ctx s)
def execVaultGet (ctx : Nat) (s : State) : Host.Outcome State Fault Refusal := .next (runRow opVaultGet ctx s)
def execVaultDelete (ctx : Nat) (s : State) : Host.Outcome State Fault Refusal := .next (runRow opVaultDelete ctx s)
def execCredIssue (ctx : Nat) (s : State) : Host.Outcome State Fault Refusal := .next (runRow opCredIssue ctx s)
def execCredRedeem (ctx : Nat) (s : State) : Host.Outcome State Fault Refusal := .next (runRow opCredRedeem ctx s)
def execCredKill (ctx : Nat) (s : State) : Host.Outcome State Fault Refusal := .next (runRow opCredKill ctx s)
def execSignSeam (ctx : Nat) (s : State) : Host.Outcome State Fault Refusal := .next (runRow opSignSeam ctx s)
def execVerifySeam (ctx : Nat) (s : State) : Host.Outcome State Fault Refusal := .next (runRow opVerifySeam ctx s)
def execKemEncaps (ctx : Nat) (s : State) : Host.Outcome State Fault Refusal := .next (runRow opKemEncaps ctx s)
def execKemDecaps (ctx : Nat) (s : State) : Host.Outcome State Fault Refusal := .next (runRow opKemDecaps ctx s)
def execEcdh (ctx : Nat) (s : State) : Host.Outcome State Fault Refusal := .next (runRow opEcdh ctx s)
def execKeyGenerate (ctx : Nat) (s : State) : Host.Outcome State Fault Refusal := .next (runRow opKeyGenerate ctx s)
def execKeyImport (ctx : Nat) (s : State) : Host.Outcome State Fault Refusal := .next (runRow opKeyImport ctx s)
def execKeyExport (ctx : Nat) (s : State) : Host.Outcome State Fault Refusal := .next (runRow opKeyExport ctx s)
def execKeyDerive (ctx : Nat) (s : State) : Host.Outcome State Fault Refusal := .next (runRow opKeyDerive ctx s)
def execKeyKill (ctx : Nat) (s : State) : Host.Outcome State Fault Refusal := .next (runRow opKeyKill ctx s)
def execRandom (ctx : Nat) (s : State) : Host.Outcome State Fault Refusal := .next (runRow opRandom ctx s)
def execAttest (ctx : Nat) (s : State) : Host.Outcome State Fault Refusal := .next (runRow opAttest ctx s)

/-! ### INFILL_CALL (R116) -/

/-- The result that an entry's return registers give: `a0` the verdict, `a1` the length, `a2`–`a5` the inline bytes. -/
def infillResult (e : Bytes) (a0 a1 a2 a3 a4 a5 : Word) (out : Bytes) : CmdResult :=
  let code := fun (n : Nat) => { resStatus stAuthFail with inline := leBytes 2 (n % 2 ^ 16) }
  if a0 != 0#32 then code a0.toNat
  else if eCap e < a1.toNat then code 0xFFFF
  else
    { resDest (padTo a1.toNat (out.take a1.toNat)) with
      inline := leBytes 4 a2.toNat ++ leBytes 4 a3.toNat ++ leBytes 4 a4.toNat ++ leBytes 4 a5.toNat }

/-- A context that runs a command of an opcode, whose work has begun and has no result yet. -/
def openWork (s : State) (n op : Nat) : Option Ctx :=
  match getCtx s n with
  | some c => if n < 4032 && eOp c.entry == op && working c && c.result.isNone && begunBy c (begunTick s) && srcDone c
    then some c else none
  | none => none

/-- INFILL_CALL: the entry returns within one of its links. A command that a ring request failed for want of entropy
keeps that status (R265). -/
def infillCallEffect (n : Nat) (a0 a1 a2 a3 a4 a5 : Word) (out : Bytes) (s : State) : State :=
  match openWork s n opInfill with
  | none => s
  | some c => putResult s n c (infillResult c.entry a0 a1 a2 a3 a4 a5 out)

def execInfillCall (ctx : Nat) (a0 a1 a2 a3 a4 a5 : Word) (out : Bytes) (s : State) :
    Host.Outcome State Fault Refusal := .next (infillCallEffect ctx a0 a1 a2 a3 a4 a5 out s)

/-! ### SELFTEST of a slice (R114, R139) -/

/-- The needle that a slice's SELFTEST found failing: one that carries a stitch of the command and is not halted. -/
def testedFailure (s : State) (c : Ctx) (failed : Option Nat) : Option Nat :=
  failed.filter (fun k => k < 24 && !needleHalted s k && c.place.any (fun x => x / 128 == k))

/-- SELFTEST: the vectors have run on the needles of the group; a needle that fails raises its source. -/
def selftestEffect (n : Nat) (failed : Option Nat) (s : State) : State :=
  match openWork s n opSelftest with
  | none => s
  | some c =>
    if c.slice == 0 || !workDone c (begunTick s) then s
    else
      let bad := testedFailure s c failed
      let s1 := putResult s n c (selftestResult bad)
      match bad with
      | none => s1
      | some k => fire s1 ⟨srcNdlKat + k, none, some n, some stSelftestFail, 0, 0, 0, 0, false⟩

def execSelftest (ctx : Nat) (failed : Option Nat) (s : State) : Host.Outcome State Fault Refusal :=
  .next (selftestEffect ctx failed s)

/-! ### ABORT (R46, R115) -/

/-- ABORT: the waiting entry with this id is resolved, in the kerf (R27, R46). -/
def abortEffect (slice queue cmdId : Nat) (s : State) : State :=
  match s.fetched.find? (fun f => f.slice == slice && f.queue == queue && eId f.entry == cmdId && eOp f.entry == opAbort) with
  | none => s
  | some f => if s.faults.safe then s else inKerf (fun s => abortEntry s f) s

def execAbort (slice queue cmdId : Nat) (s : State) : Host.Outcome State Fault Refusal :=
  .next (abortEffect slice queue cmdId s)

end Sys2Proof.Machine
end

