-- ==== Sys2Proof/Machine/Integrity.lean ====
section
/-!
DEFINITION. FAULT_SOURCE_FIRE (17_faults R367): a block raises its source, with what the detected condition does at once
besides the response of the source: a key slot is retired (06_keys R158), an invalid encoding drops the guard's change
or erases the thimble key (18_tamper R397), the flash controller stops (19_nonvolatile R410), the sill block's queue is
lost (R414).
-/
namespace Sys2Proof.Machine
open Sys2Proof

/-- A slot whose overlock check failed is RETIRED and recorded; neither its record nor any key beneath it is touched
(R158). -/
def retireFailed (s : State) (slot : Nat) : State :=
  let o := (getKey s slot).owner
  let a := (getKey s slot).extOf.getD slot
  let live := (getKey s a).st == .active || (getKey s a).st == .spent
  let s1 := if live then endKey (setKey s a { getKey s a with failed := true }) a .retired else s
  let s2 := setF (setF s1 Reg.KST_FAULT_INFO_SLOT slot) Reg.KST_FAULT_INFO_SLICE o
  event s2 Reg.KST_EVT_INTEGRITY

/-- The thimble controller met an invalid state: the key is erased and latched, the log gains an entry (R389, R397). -/
def thmInvalid (s : State) : State :=
  let e : ThmEntry := { kind := 3, unit := 0, detA := false, detB := false, mainOff := !s.thm.main,
                        erased := !s.thm.key.isEmpty, time := s.thmTime }
  thmLog (thmLatch (thmErase s) 15) e

/-- The sill block's queued writes are lost (R414). -/
def silLost (s : State) : State := silSync (setNv s { s.nv with silWait := [], silProg := [] })

/-- What the condition does at once. -/
def causeEffect (s : State) (src : Nat) (slice : Option Nat) (addr detail : Nat) (cause : FireCause) : State :=
  match cause with
  | .slot n => if src == srcKstInteg then retireFailed s n else s
  | .guard => if src == srcMonGlitch then [0, 1].foldl closeSession (guardDrop s 16) else s
  | .thimble => if src == srcMonGlitch then thmInvalid s else s
  | .other =>
    if src == srcVltInteg then
      let level := detail % 8
      match chainOfPanel s (addr * 16 ^ level) with
      | some n => integrityMark s n level false addr
      | none => match slice with
        | some n => integrityMark s n level false addr
        | none => s
    else if src == srcRngHealth then healthFailed s 0 5
    else if src == srcFlsInteg then nvHalt s
    else if src == srcSilInteg then silLost s
    else s

/-- The slice that the record names: for a key slot its owner. -/
def causeSlice (s : State) (slice : Option Nat) : FireCause → Option Nat
  | .slot n => some (getKey s n).owner
  | _ => slice

/-- MON_GLITCH fires for the thimble controller only with main power present (R397). -/
def causeFires (s : State) : FireCause → Bool
  | .thimble => s.thm.main
  | _ => true

/-- FAULT_SOURCE_FIRE. -/
def faultSourceFireEffect (src acc init addr detail cycle : Nat) (imprecise : Bool) (slice ctx : Option Nat)
    (cause : FireCause) (s : State) : State :=
  let a : FireArgs := ⟨src, causeSlice s slice cause, ctx, if src == srcVltInteg then some stVaultIntegrity else none, acc, init, addr, detail, imprecise⟩
  let s1 := causeEffect s src slice addr detail cause
  if causeFires s cause then fireAt s1 a cycle else s1

def execFaultSourceFire (src acc init addr detail cycle : Nat) (imprecise : Bool) (slice ctx : Option Nat)
    (cause : FireCause) (s : State) : Host.Outcome State Fault Refusal :=
  .next (faultSourceFireEffect src acc init addr detail cycle imprecise slice ctx cause s)

end Sys2Proof.Machine
end

