-- ==== Sys2Proof/Machine/Shuttle.lean ====
section
/-!
DEFINITION. The rows of the shuttle's firmware channels (12_shuttle R276–R282): the fetch of a descriptor, its pieces,
its read-back and its write-back; and the rows of the answers to outbound host reads (22_host_link R457, R458).
-/
namespace Sys2Proof.Machine
open Sys2Proof

/-- The channel runs and the shuttle serves it. -/
def chanRuns (s : State) (f : Nat) : Bool :=
  f < 64 && !s.boot.held && !s.faults.safe && chanState s f == 1 && !shuttleHalted s (chanBent f)

/-- Memories that hold descriptors: a bent store, the loft or context RAM (R275). -/
def descHome (init a : Nat) : Bool :=
  let g := gateOf init a
  g ≤ 8 || g == 10

/-- The fetch failed: DESC stands in SHT_CH_STAT, and nothing can be written back (R278). -/
def fetchFails (s : State) (f : Nat) : State :=
  let s1 := setF (setF s (chanFld f Reg.SHT_CH_STAT_LAST) 10) (chanFld f Reg.SHT_CH_ERR_OFF) 0
  setChanState (chanFault s1 f 10 0) f 2

/-- DESCRIPTOR_FETCH (R277, R280). -/
def descriptorFetchEffect (f : Nat) (s : State) : State :=
  let c := getChan s f
  let init := chanInit f
  if !chanRuns s f || !c.desc.isEmpty then s
  else
    let r := access s init c.addr .read
    if !r.1 then fetchFails r.2 f
    else if !descHome init c.addr then fetchFails s f
    else
      let d := memRead r.2 (memAddr init c.addr) 64
      if !dValid d || dDone d then setChanState r.2 f 0
      else
        let waits := dBarrier d && bentDirty r.2 (chanBent f)
        let s1 := setChan r.2 f { c with desc := d, read := 0, written := 0, buf := [], fail := none, dropped := none
                                         done := none
                                         barrier := if waits then some (hostWrites r.2 (chanBent f)) else none }
        if dBad d (chanPriv f) then chanEnd s1 f 1 0
        else if waits then settleChan (emit s1 (.hostRead 0 none 0 0)) f
        else settleChan s1 f

def execDescriptorFetch (f : Nat) (s : State) : Host.Outcome State Fault Refusal := .next (descriptorFetchEffect f s)

/-! ### Pieces (R276, R282) -/

/-- A piece of the channel may issue: in the working span only, and where its bent's engine has room in the tick after the
plan's pieces (R269). Which channel's piece goes first is the order of the rows (notes/assumptions/61.md). -/
def pieceIssues (s : State) (f : Nat) (wr : Bool) : Bool :=
  chanRuns s f && s.tick.span && engineFree s (if wr then 8 + chanBent f else chanBent f)

/-- A read piece brought bytes, or failed with a status. -/
def pieceGot (s : State) (f n : Nat) (r : Option Bytes) (status : Nat) : State :=
  let c := getChan s f
  let s1 := countPiece s (chanBent f) 1 1
  settleChan (match r with
    | some b => setChan s1 f { c with read := c.read + n, buf := c.buf ++ padTo n b }
    | none => setChan s1 f { c with fail := some (status, c.read) }) f

/-- A piece that reads RNG_DATA without an error (R264): on an empty FIFO it is held until its word arrives, which its next
SHUTTLE_PIECE then takes. -/
def rngPiece (f a n : Nat) (s : State) : Option State :=
  let init := chanInit f
  if a != regAddr Reg.RNG_DATA || n != 4 || gateCheck s s.gates.live init a .read != .allow then none
  else match tfind s.rng.chanReads init with
    | some (some w) =>
      some (pieceGot (setRng s { s.rng with chanReads := terase init s.rng.chanReads }) f n (some (leBytes 4 w.toNat)) 0)
    | some none => some s
    | none =>
      if rngErr s || !s.rng.fifo.isEmpty then none
      else some (setRng s { s.rng with waiting := s.rng.waiting ++ [init], chanReads := tinsert init none s.rng.chanReads })

/-- The next read piece of a channel; `r` is what a host read brings. -/
def readPiece (f : Nat) (r : ReadResult) (s : State) : State :=
  let c := getChan s f
  let d := c.desc
  let a := dSrc d c.read
  let n := pieceLen d c.read a
  if d.isEmpty || c.done.isSome || c.fail.isSome || c.stop || c.barrier.isSome || dFill d || dTotal d ≤ c.read then s
  else if 16384 < c.read - c.written + n then s
  else if dSrcHost d then
    let l := linkAccess s 0 a .read
    if !l.1 then pieceGot l.2 f n none 2
    else
      let s1 := emit l.2 (.hostRead 0 (dPasid d) a n)
      match r with
      | .data b => pieceGot s1 f n (some b) 0
      | .error => pieceGot (linkError s1) f n none 4
  else match rngPiece f a n s with
  | some t => t
  | none =>
    let x := busRead s (chanInit f) a n
    match x.1 with
    | .ok b => pieceGot x.2 f n (some b) 0
    | .status _ kind => pieceGot x.2 f n none (if kind == 5 then 2 else 9)
    | .refused => pieceGot x.2 f n none 2

/-- A write piece failed: the rest is discarded. -/
def writeFails (s : State) (f status : Nat) : State :=
  chanEnd (countPiece s (8 + chanBent f) 1 1) f status (getChan s f).written

/-- A write piece has gone out. -/
def pieceWritten (s : State) (f n : Nat) : State :=
  let c := getChan s f
  settleChan (setChan (countPiece s (8 + chanBent f) 1 1) f { c with written := c.written + n, buf := c.buf.drop n }) f

/-- How far the next write may reach: to a failed read, or with a stop to what has been read. -/
def writeRoom (c : Chan) : Nat :=
  match c.fail with
  | some x => x.2 - c.written
  | none => if c.stop && !dFill c.desc then c.read - c.written else 64

/-- The next write piece of a channel; an error is the link's rejection of a host write. A refusal at gate 11 drops
the piece with a notice, which READBACK finds (R281, R357). -/
def writePiece (f : Nat) (r : ReadResult) (s : State) : State :=
  let c := getChan s f
  let d := c.desc
  let init := chanInit f
  let a := dDst d c.written
  let n := min (pieceLen d c.written a) (writeRoom c)
  let b := if dFill d then fillBytes d c.written n else c.buf.take n
  if d.isEmpty || c.done.isSome || c.barrier.isSome || dTotal d ≤ c.written || n == 0 || b.length < n then s
  else if dDstHost d then
    let l := linkAccess s 0 a .write
    if !l.1 then writeFails l.2 f 3
    else match r with
      | .error => writeFails (linkError l.2) f 5
      | .data _ => pieceWritten (sentByBent (sendHost l.2 0 (dPasid d) a b) (chanBent f)) f n
  else
    let g := gateOf init a
    let res := gateCheck s s.gates.live init a .write
    if g == 11 && (a % 4 != 0 || n % 4 != 0) then
      writeFails (refuseAccess s 11 init a (accCode init .write) false none .deny) f 3
    else if g == 11 then
      if res == .allow then pieceWritten (writeWords 16 s init (a - 0x40000000) b) f n
      else
        let s1 := notice s init a (getReg s Reg.GTE_EPOCH).toNat res
        pieceWritten (setChan s1 f { c with dropped := some (c.dropped.getD c.written) }) f n
    else if res == .allow then pieceWritten (putBytes s init a b) f n
    else writeFails (refuseAccess s g init a (accCode init .write) false none res) f 3

/-- SHUTTLE_PIECE: the next read piece or the next write piece of a firmware channel; from 64 on, a plan channel's
pieces for context `f` − 64, whose last destination write the host has rejected (R458). -/
def shuttlePieceEffect (f : Nat) (wr : Bool) (r : ReadResult) (s : State) : State :=
  if 64 ≤ f then
    (match wr, r with
     | true, .error => if s.boot.held || s.faults.safe then s else linkError (dstFails (f - 64) s)
     | _, _ => s)
  else if !pieceIssues s f wr then s else if wr then writePiece f r s else readPiece f r s

def execShuttlePiece (f : Nat) (wr : Bool) (r : ReadResult) (s : State) : Host.Outcome State Fault Refusal :=
  .next (shuttlePieceEffect f wr r s)

/-! ### Read-back and write-back (R278, R281) -/

/-- READBACK: the read-back after the last write has completed. `r` is what a host read-back brings; `same` tells
whether the returned granule's overlock code is the code written. -/
def readbackEffect (f : Nat) (r : ReadResult) (same : Bool) (s : State) : State :=
  let c := getChan s f
  let d := c.desc
  if !chanRuns s f || d.isEmpty || c.done.isSome || !dReadback d || c.written != dTotal d then s
  else if dDstHost d then
    (match r with
     | .data _ => chanEnd s f 0 0
     | .error => chanEnd (linkError s) f 5 (c.written - 1))
  else match c.dropped with
    | some o => chanEnd s f 6 o
    | none =>
      if same then chanEnd s f 0 0
      else chanEnd (firePlain s srcShtReadback none) f 6 (c.written - 1)

def execReadback (f : Nat) (r : ReadResult) (same : Bool) (s : State) : Host.Outcome State Fault Refusal :=
  .next (readbackEffect f r same s)

/-- What follows an accepted write-back: the interrupt, then the next descriptor, or the channel's rest. -/
def afterBack (s : State) (f status : Nat) : State :=
  let c := getChan s f
  let d := c.desc
  let s1 := if dIrq d then
      setChan ((List.range 4).foldl (fun s u => raiseLine s (4 * chanBent f + u) 2) s) f { c with irq := true }
    else s
  let x := getChan s1 f
  let clear := { Chan.zero with addr := x.addr, irq := x.irq, stop := x.stop }
  if status != 0 then setChanState (setChan s1 f { clear with stop := false }) f 2
  else if dChain d then setChan s1 f { clear with addr := dNext d }
  else setChanState (setChan s1 f { clear with stop := false }) f 0

/-- DESCRIPTOR_WRITE_BACK. A write-back that its gate refuses ends the chain. -/
def descriptorWriteBackEffect (f : Nat) (s : State) : State :=
  let c := getChan s f
  match c.done with
  | none => s
  | some status =>
    if !chanRuns s f then s
    else
      let w := writeBack s f status
      let s1 := setF w.2 (chanFld f Reg.SHT_CH_STAT_LAST) status
      if w.1 then afterBack s1 f status
      else setChanState (setChan (chanFault s1 f 3 0) f { Chan.zero with addr := c.addr, irq := c.irq }) f 2

def execDescriptorWriteBack (f : Nat) (s : State) : Host.Outcome State Fault Refusal :=
  .next (descriptorWriteBackEffect f s)

/-! ### Answers to outbound host reads (22_host_link R457, R458) -/

/-- Source bytes of a context arrive, or its read failed at the link. -/
def ctxData (n : Nat) (r : ReadResult) (s : State) : State :=
  match getCtx s n with
  | none => s
  | some c =>
    if c.phase != .running || c.srcFail || c.asked ≤ c.src.length then s
    else match r with
      | .data b => setCtx s n { c with src := c.src ++ b.take (c.asked - c.src.length) }
      | .error =>
        let s1 := if n < 4032 then countF (planFault s c.slice (ctxBent c) 4 c.src.length) Reg.SHT_HOST_CNT_N 1 else s
        setCtx (linkError (countReg s1 Reg.HQ_HOSTERR 1)) n { c with srcFail := true }

/-- A channel's outstanding read: the zero-length read of a BARRIER, or its next host piece. -/
def channelData (f : Nat) (r : ReadResult) (s : State) : State :=
  let c := getChan s f
  if !chanRuns s f then s
  else match c.barrier with
  | some n =>
    let s1 := match r with
      | .error => linkError (countF s Reg.SHT_HOST_CNT_N 1)
      | .data _ => s
    confirmHost (setChan s1 f { getChan s1 f with barrier := none }) (chanBent f) n
  | none => if dSrcHost c.desc && pieceIssues s f false then readPiece f r s else s

/-- What an outbound read brings reaches what asked for it. -/
def readArrives (dest : ReadDest) (r : ReadResult) (s : State) : State :=
  if s.boot.held || s.faults.safe then s
  else match dest with
    | .ctx n => ctxData n r s
    | .fetch slice queue => entryFetchEffect slice queue r s
    | .channel f => channelData f r s
    | .lms => loadPublicData s r
    | .flush slice => flushData s slice r

/-- HOST_READ_COMPLETION. -/
def execHostReadCompletion (dest : ReadDest) (r : ReadResult) (s : State) : Host.Outcome State Fault Refusal :=
  .next (readArrives dest r s)

/-- COMPLETION_TIMEOUT: the read fails. -/
def execCompletionTimeout (dest : ReadDest) (s : State) : Host.Outcome State Fault Refusal :=
  .next (readArrives dest .error s)

/-- ATS_TRANSLATION_COMPLETION: a failed translation is a failed read; a translation that is ready lets the pieces
that wait for it go, whose data then arrives by the reads themselves (notes/assumptions/26.md). -/
def execAtsTranslationCompletion (dest : ReadDest) (ok : Bool) (s : State) : Host.Outcome State Fault Refusal :=
  .next (if ok then s else readArrives dest .error s)

end Sys2Proof.Machine
end

