-- ==== Sys2Proof/Machine/Operands.lean ====
section
/-!
DEFINITION. Operands of the posts' instructions (14_miade_isa R309–R316, 15_tenons_exceptions R332–R335): general and
tenon registers, immediates and offsets, effective addresses, the fields of a tenon and what a tenon authorises. A
register number counts modulo the number of registers; a well-formed command names one below it.
-/
namespace Sys2Proof.Machine
open Sys2Proof

/-! ### Registers -/

/-- A general register; `g0` reads as zero. -/
def Post.getG (x : Post) (r : Nat) : Word := if r % 32 == 0 then 0#32 else tget 0#32 x.g (r % 32)

/-- Writes a general register; a write of `g0` is discarded. -/
def Post.setG (x : Post) (r : Nat) (w : Word) : Post :=
  if r % 32 == 0 then x else { x with g := tput 0#32 x.g (r % 32) w }

def Post.getT (x : Post) (n : Nat) : Tenon := tget Tenon.null x.t (n % 16)
def Post.setT (x : Post) (n : Nat) (t : Tenon) : Post := { x with t := tput Tenon.null x.t (n % 16) t }

/-! ### Immediates (R312) -/

/-- A 16-bit immediate, sign-extended, and zero-extended. -/
def sext16 (i : Nat) : Word := (BitVec.ofNat 16 i).signExtend 32
def zext16 (i : Nat) : Word := (BitVec.ofNat 16 i).setWidth 32

/-- The effective address of a MEM access. -/
def effAddr (x : Post) (rs1 : Nat) (off : Int) : Word := x.getG rs1 + BitVec.ofInt 32 off

/-- The target of a branch or jump, counted in words from the delay slot. -/
def branchTarget (pc : Word) (off : Int) : Word := pc + 4#32 + BitVec.ofInt 32 (4 * off)

/-- An instruction address: the program counter is always 4-byte aligned (R309). -/
def alignPc (w : Word) : Word := w &&& 0xFFFFFFFC#32

/-! ### Tenons (R332–R334) -/

def Tenon.field (t : Tenon) (lo len : Nat) : Nat := (t.bits.toNat >>> lo) % 2 ^ len
def Tenon.base (t : Tenon) : Nat := t.field 0 32
def Tenon.top (t : Tenon) : Nat := t.field 32 32
def Tenon.cursor (t : Tenon) : Nat := t.field 64 32
def Tenon.perm (t : Tenon) : Nat := t.field 96 8
def Tenon.kind (t : Tenon) : Nat := t.field 104 4
def Tenon.otype (t : Tenon) : Nat := t.field 108 16

/-- Replaces a field of a tenon's bits. -/
def Tenon.put (t : Tenon) (lo len v : Nat) : Tenon :=
  let old := t.bits.toNat
  { t with bits := BitVec.ofNat 128 (old - (old >>> lo) % 2 ^ len * 2 ^ lo + v % 2 ^ len * 2 ^ lo) }

def permR : Nat := 0
def permW : Nat := 1
def permX : Nat := 2
def permLT : Nat := 3
def permST : Nat := 4
def permFrame : Nat := 5

/-- Tagged and unsealed, of kind MEM. -/
def Tenon.mem (t : Tenon) : Bool := t.tag && t.otype == 0 && t.kind == 1

def Tenon.has (t : Tenon) (p : Nat) : Bool := bitAt t.perm p

/-- The tenon authorises an access of `w` bytes at `a` that needs permission `p` (R334). -/
def Tenon.allows (t : Tenon) (a w p : Nat) : Bool := t.mem && t.base ≤ a && a + w - 1 ≤ t.top && t.has p

/-- A tenon from the 16 bytes of a granule and its tag, and its bytes. -/
def Tenon.ofBytes (b : Bytes) (tag : Bool) : Tenon := ⟨BitVec.ofNat 128 (leNat b), tag⟩
def Tenon.bytes (t : Tenon) : Bytes := leBytes 16 t.bits.toNat

/-- A sealer that is valid for a permission: SEAL 0 or UNSEAL 1 (R335). -/
def Tenon.sealer (t : Tenon) (p : Nat) : Bool :=
  t.tag && t.otype == 0 && t.kind == 3 && t.base == t.top && 1 ≤ t.base && t.base ≤ 65535 && bitAt t.perm p

/-- A code tenon that may be entered: unsealed, X, its cursor aligned within its bounds (R341). -/
def Tenon.code (t : Tenon) : Bool :=
  t.mem && t.has permX && t.cursor % 4 == 0 && t.base ≤ t.cursor && t.cursor ≤ t.top

/-- A stack tenon of a descriptor (R341). -/
def Tenon.stack (t : Tenon) : Bool :=
  t.mem && t.has permR && t.has permW && t.cursor % 16 == 0 && t.cursor ≤ 0x000FFC00 &&
  t.base + 64 ≤ t.cursor && t.cursor ≤ t.top + 1

/-- The tag of the granule at an address of the post's own store through the alias. -/
def ownTag (s : State) (p a : Nat) : Bool := a ≤ 0x000FFFFF && tget false s.tags (memAddr p a / 16)

/-- A tenon in the own store. -/
def memTenon (s : State) (p a : Nat) : Tenon := Tenon.ofBytes (memRead s (memAddr p a) 16) (ownTag s p a)

end Sys2Proof.Machine
end

