-- ==== Sys2Proof/Machine/Flags.lean ====
section
/-!
DEFINITION. Flag computations of the posts: carry and borrow of the word chains (14_miade_isa R315, R326), the flags of
an exception frame (15_tenons_exceptions R340), and the fingerprint and seal of a frame (R342).
-/
namespace Sys2Proof.Machine
open Sys2Proof

/-- Sum of two words and a carry: the word and the carry out. -/
def addCarry (a b : Word) (c : Bool) : Word × Bool :=
  let n := a.toNat + b.toNat + b2n c
  (BitVec.ofNat 32 n, decide (2 ^ 32 ≤ n))

/-- Difference of two words less a borrow: the word and the borrow out. -/
def subBorrow (a b : Word) (c : Bool) : Word × Bool :=
  (a - b - BitVec.ofNat 32 (b2n c), decide (a.toNat < b.toNat + b2n c))

/-- 1 or 0 in a register. -/
def boolWord (b : Bool) : Word := if b then 1#32 else 0#32

/-! ### Causes (R339) and frame flags (R340) -/

def xIllegal : Nat := 0x01
def xAlign : Nat := 0x02
def xTenon : Nat := 0x03
def xBus : Nat := 0x04
def xDslot : Nat := 0x06
def xRsOver : Nat := 0x07
def xRsUnder : Nat := 0x08
def xDmac : Nat := 0x09
def xTrap : Nat := 0x0A
def xNest : Nat := 0x0B
def xRetAuth : Nat := 0x0C
def xVector : Nat := 0x0D
def xInterrupt : Nat := 0x10

/-- What an instruction raised: its cause, DETAIL, whether at its fetch or by a store, and the faulting data address
where there is one; and the cycles from the issue to the detection. -/
structure Trap where
  cause : Nat
  detail : Nat
  fetch : Bool
  store : Bool
  addr : Option Word
  late : Nat
deriving DecidableEq, Repr

def Trap.of (cause : Nat) : Trap := ⟨cause, 0, false, false, none, 0⟩

/-- The 16 flag bits of a frame. -/
def frameFlags (t : Trap) : Nat :=
  t.cause % 64 + b2n t.fetch * 2 ^ 6 + b2n t.store * 2 ^ 7 + t.detail % 64 * 2 ^ 10

/-- The flags of a frame that kingpost entry pushes. -/
def kpFlags (cause : Nat) : Nat := cause % 64 + 2 ^ 8

/-- The post secret, drawn from L1 and the boot count (R342, notes/assumptions/27.md). -/
def postSecret (s : State) (p : Nat) : Bytes := padTo 16 (Config.pk 30 [leBytes 4 (sillVal s 0), leBytes 1 p])

/-- The leftmost 24 bits of a string, as a number. -/
def left24 (b : Bytes) : Nat := beNat (b.take 3)

/-- The authority fingerprint of a tenon. -/
def authPrint (s : State) (p : Nat) (t : Tenon) : Nat :=
  left24 (cmac (postSecret s p) ([2#8] ++ t.bytes ++ leBytes 1 (b2n t.tag)))

/-- The seal of a frame over its return address, flags, fingerprint and depth. -/
def frameSeal (s : State) (p : Nat) (a : Word) (flags f k : Nat) : Nat :=
  left24 (cmac (postSecret s p) ([1#8] ++ leBytes 4 a.toNat ++ leBytes 2 flags ++ leBytes 3 f ++ leBytes 1 k))

/-- The 16 bytes of a frame. -/
def frameBytes (s : State) (p : Nat) (a : Word) (flags f k : Nat) : Bytes :=
  leBytes 8 (flags + f * 2 ^ 16 + frameSeal s p a flags f k * 2 ^ 40) ++ leBytes 4 a.toNat ++ zeros 4

end Sys2Proof.Machine
end

