-- ==== Sys2Proof/Machine/Posts.lean ====
section
/-!
DEFINITION. How a post runs an instruction (14_miade_isa R311, R317–R321, 15_tenons_exceptions R339–R347): the fetch, the
delay slot, the times, taking an exception, escalation to the kingpost level, and the start and end of stitch programs.
The row of an instruction says what the post issues at its program counter; the word in memory there is not compared
with it (notes/assumptions/28.md).
-/
namespace Sys2Proof.Machine
open Sys2Proof

/-! ### Whether a post issues -/

/-- The post issues instructions: it runs, and nothing stops it. Post 0.1 waits until frame firmware runs, the slotted
posts for their time-slots. -/
def postServes (s : State) (p : Nat) : Bool :=
  p < 32 && !s.boot.held && !s.faults.safe && !s.boot.dead && !postHalted s p &&
  !flag s (pstFld p Reg.PST_STAT_STOPPED) && (getPost s p).run && (getPost s p).held.isNone && (p != 1 || s.boot.frameTick.isSome) && (p < 2 || (getPost s p).cyc < 992)

/-- The slice that owns a slotted post's time-slot. -/
def ownerSlice (s : State) (p : Nat) : Option Nat :=
  if 2 ≤ p && (getPost s p).owner.isSome then some (getPost s p).slice else none

/-- Fires a source of a post at its present cycle; a tick holds two fabric cycles to each post cycle. -/
def firePost (s : State) (src p detail : Nat) : State :=
  let a : FireArgs := ⟨src + p, ownerSlice s p, (if 2 ≤ p then (getPost s p).owner else none), none, 0, p, 0, detail, false⟩
  fireAt s a (2 * ((getPost s p).cyc % 1024))

/-! ### Escalation (R346, R347) -/

/-- A post stops until reset. -/
def stopPost (s : State) (p : Nat) : State :=
  let s1 := setPost s p { getPost s p with run := false, delay := none }
  firePost (event (setFlag s1 (pstFld p Reg.PST_STAT_STOPPED) true) Reg.PST_EVT_KP_FAIL) srcPstKingpost p 0

/-- The frame address of kingpost entry for post `p`. -/
def kpFrame (p : Nat) : Nat := 0x000FFCF0 + 256 * (p % 4)

/-- Entry to the kingpost level with a cause, a return address, the depth before it, and the cycles already spent. -/
def escalate (s0 : State) (p cause : Nat) (a : Word) (spent : Nat) : State :=
  let d := postDepth s0 p
  let x0 := getPost s0 p
  let s := setPost s0 p { x0 with cyc := x0.cyc + spent, delay := none }
  let w := access s p (kpFrame p) .write
  if postKp s p || !x0.kpcode.code || !w.1 then stopPost (if w.1 then s else w.2) p
  else
    let fp := authPrint s p x0.pct
    let s1 := putBytes w.2 p (kpFrame p) (frameBytes s p a (kpFlags cause) fp d)
    let c := drawBytes 4 s1
    let x := getPost c.2 p
    let area := Tenon.mk' 1 (1 + 2 + 8 + 16) (kpFrame p - 0xF0) (kpFrame p + 0x0F) (leNat c.1) 0
    let y := ((x.setG 31 (BitVec.ofNat 32 (kpFrame p))).setT 14 x.pct).setT 15 area
    let s2 := setPost c.2 p { y with pct := x0.kpcode, pc := BitVec.ofNat 32 x0.kpcode.cursor, cyc := x.cyc + 8, delay := none }
    let i := fun (f : Fld) => pstFld p f
    let s3 := setF (setF (setF s2 (i Reg.PST_KP_INFO_CAUSE) cause) (i Reg.PST_KP_INFO_DEPTH) d)
      (i Reg.PST_KP_INFO_CYC) (x.cyc % 1024)
    let s4 := countF (countF (setFlag s3 (i Reg.PST_STAT_KP) true) (i Reg.PST_EXC_CNT_N) 1) Reg.PST_ESC_CNT_N 1
    firePost (event s4 Reg.PST_EVT_ESCALATE) srcPstEscalate p 0

/-! ### Taking an exception (R342) -/

/-- The key of PST_FRAME*k* of a post. -/
def frameKey (p k : Nat) : Nat := pstKey p (Reg.PST_FRAME + 4 * k)

/-- The frame, the vector's authority, and the post's registers as entry leaves them. -/
def enterVector (s : State) (p : Nat) (a : Word) (flags : Nat) (xaddr : Word) (code stack : Tenon) (d fp : Nat) : State :=
  let frame := stack.cursor - 16 * (d + 1)
  let x := getPost s p
  let y := ((x.setG 31 (BitVec.ofNat 32 frame)).setT 14 x.pct).setT 15 stack
  let s1 := putBytes s p frame (frameBytes s p a flags fp (d + 1))
  let s2 := setPost s1 p { y with pct := code, pc := BitVec.ofNat 32 code.cursor, cyc := x.cyc + 10, delay := none }
  let s3 := setF (setReg s2 (frameKey p d) (BitVec.ofNat 32 frame)) (pstFld p Reg.PST_STAT_DEPTH) (d + 1)
  let s4 := setF (setReg s3 (pstKey p Reg.PST_XADDR) xaddr) (pstFld p Reg.PST_XCAUSE_FLAGS) flags
  countF s4 (pstFld p Reg.PST_EXC_CNT_N) 1

/-- Taking an exception: what the post saves, what it sets, and where it goes on. `a` is the return address. -/
def takeException (s0 : State) (p : Nat) (a : Word) (t : Trap) : State :=
  let x0 := getPost s0 p
  let s := setPost s0 p { x0 with cyc := x0.cyc + t.late, delay := none }
  let d := postDepth s p
  if postKp s p then stopPost s p
  else if 4 ≤ d then escalate s p xNest a 1
  else
    let desc := (getReg s (pstKey p Reg.PST_VBASE)).toNat + 32 * t.cause
    let r := access s p desc .read
    let code := memTenon s p desc
    let stack := memTenon s p (desc + 16)
    if !r.1 then escalate r.2 p xVector a 10
    else if !code.code || !stack.stack then escalate s p xVector a 10
    else
      let w := access s p (stack.cursor - 16 * (d + 1)) .write
      if !w.1 then escalate w.2 p xVector a 10
      else enterVector s p a (frameFlags t) (t.addr.getD a) code stack d (authPrint s p x0.pct)

/-! ### Sealed return (R345) -/

/-- The frame at an address of the own store. -/
def readFrame (s : State) (p frame : Nat) : Bytes := memRead s (memAddr p frame) 16

/-- A return under a tenon at depth `d` ≥ 1: the three checks, and the post that they let go on. -/
def sealedReturn (s : State) (p tn d : Nat) : State :=
  let x := getPost s p
  let t := x.getT tn
  let b := readFrame s p (getReg s (frameKey p (d - 1))).toNat
  let st := leAt b 0 8
  let a := BitVec.ofNat 32 (leAt b 8 4)
  let flags := bitsAt st 0 16
  let fp := bitsAt st 16 24
  if t.tag && authPrint s p t == fp && frameSeal s p a flags fp d == bitsAt st 40 24 then
    let s1 := setPost s p { x with pct := t, pc := alignPc a, cyc := x.cyc + 8 }
    setF (setReg s1 (frameKey p (d - 1)) 0#32) (pstFld p Reg.PST_STAT_DEPTH) (d - 1)
  else escalate s p xRetAuth x.pc 8

/-! ### Fetch and times (R317–R319) -/

/-- Cycles of the fetch at an address: 1, or the first one in a granule of the loft or the flash window. -/
def fetchTime (x : Post) (p a : Nat) : Nat :=
  let g := gateOf p a
  if (g == 8 || g == 12) && x.granule != some (a / 64) then (if g == 8 then 8 else 32) else 1

/-- The fetch at the program counter: an exception, or the state after it with the post's cycle at the issue. -/
def fetchPost (s : State) (p : Nat) : Option Trap × State :=
  let x := getPost s p
  let a := x.pc.toNat
  if !x.pct.allows a 4 permX then (some { Trap.of xTenon with detail := 16, fetch := true, addr := some x.pc }, s)
  else
    let r := access s p a .fetch
    let busy := gateOf p a == 12 && (flashKind s (a - 0x10000000) true).isSome
    if !r.1 || busy then (some { Trap.of xBus with fetch := true, addr := some x.pc }, r.2)
    else
      (none, setPost r.2 p { x with cyc := x.cyc + (fetchTime x p a - 1), granule := some (a / 64), issued := true })

/-- The cycle at which every source register is ready. -/
def sourcesReady (x : Post) (srcs : List Nat) : Nat :=
  x.ready.foldl (fun c e => if srcs.any (fun r => r == e.1) then max c e.2 else c) x.cyc

/-- A value of register `r` (32 the accumulator) is usable `n` cycles after the issue at `c`. -/
def usable (x : Post) (r c n : Nat) : Post :=
  { x with ready := if n ≤ 1 || r == 0 then x.ready.filter (fun e => e.1 != r) else (r, c + n) :: x.ready.filter (fun e => e.1 != r) }

/-- The issue takes `n` cycles. -/
def spend (x : Post) (n : Nat) : Post := { x with cyc := x.cyc + n }

/-! ### Running an instruction -/

/-- What the body of an instruction gives: the next instruction follows, the program counter is already set, or an
exception. -/
inductive Ran where
  | on (s : State)
  | jump (s : State)
  | trap (s : State) (t : Trap)
deriving DecidableEq, Repr

/-- The return stack after a push: the oldest of 16 entries is lost (R322). -/
def pushRs (rs : List Word) (w : Word) : List Word := (w :: rs).take 16

/-- The end of an instruction: the pair of a branch commits with its delay slot (R320). -/
def retire (s : State) (p : Nat) (was : Option Delay) : State :=
  let x := getPost s p
  match was with
  | none => setPost s p { x with pc := x.pc + 4#32 }
  | some d =>
    let rs := match d.push with
      | some w => pushRs x.rs w
      | none => if d.pop then x.rs.drop 1 else x.rs
    setPost s p { x with pc := d.target.getD (d.at_ + 8#32), rs := rs, delay := none }

/-- One instruction of a post: its fetch, its place in a delay slot, its wait for its sources, its body. `slotOk` is
false for what a delay slot must not hold (R321). -/
def runPost (p : Nat) (slotOk : Bool) (srcs : List Nat) (body : State → Ran) (s0 : State) : State :=
  if !postServes s0 p then s0
  else
    let was := (getPost s0 p).delay
    let pc := (getPost s0 p).pc
    let back := match was with
      | some d => d.at_
      | none => pc
    let f := fetchPost s0 p
    match f.1 with
    | some t => takeException f.2 p back t
    | none =>
      let x := getPost f.2 p
      let s := setPost f.2 p { x with cyc := sourcesReady x srcs }
      if was.isSome && !slotOk then takeException s p back (Trap.of xDslot)
      else match body s with
        | .on s1 => retire s1 p was
        | .jump s1 => s1
        | .trap s1 t => takeException s1 p back t

/-! ### Stitch programs (R328) -/

/-- A slotted post as the kerf leaves it, and as a link finds it. -/
def clearedPost (x : Post) : Post :=
  { x with g := [], t := [], acc := 0#96, cf := false, rs := [], delay := none, ready := [], stores := []
           ring0 := 0, ring1 := 0, tickets := x.tickets.filter (fun k => 2 ≤ k.ring), granule := none, cyc := 0
           run := false, issued := false, held := none }

/-- Where the dispatch tenon starts a post; the program counter keeps its alignment (R309). -/
def dispatchPc (x : Post) : Word := alignPc (BitVec.ofNat 32 x.dispatch.cursor)

/-- The post starts at the entry that its dispatch tenon names. -/
def dispatchPost (x : Post) : Post :=
  { x with pct := x.dispatch, pc := dispatchPc x, run := true, cyc := 0 }

/-- PST_STAT's depth and kingpost level, and the frames, clear. -/
def clearDepth (s : State) (p : Nat) : State :=
  let s1 := setFlag (setF s (pstFld p Reg.PST_STAT_DEPTH) 0) (pstFld p Reg.PST_STAT_KP) false
  (List.range 4).foldl (fun s k => setReg s (frameKey p k) 0#32) s1

end Sys2Proof.Machine
end

