-- ==== Sys2Proof/Machine/PostAlu.lean ====
section
/-!
DEFINITION. The posts' arithmetic and logic: register operations, shifts, word chains, multiplication, the accumulator
and immediates (14_miade_isa R309, R314, R315, R317, R324, R326).
-/
namespace Sys2Proof.Machine
open Sys2Proof

/-- An instruction that writes one general register, usable `lat` cycles after its issue. -/
def aluBody (p rd lat : Nat) (v : Post → Word) (s : State) : Ran :=
  let x := getPost s p
  .on (setPost s p (spend (usable (x.setG rd (v x)) (rd % 32) x.cyc lat) 1))

/-- An instruction on two general registers. -/
def regOp (p rd rs1 rs2 lat : Nat) (f : Word → Word → Word) (s : State) : State :=
  runPost p true [rs1 % 32, rs2 % 32] (aluBody p rd lat (fun x => f (x.getG rs1) (x.getG rs2))) s

/-- An instruction on one general register and a constant. -/
def immOp (p rd rs1 : Nat) (f : Word → Word) (s : State) : State :=
  runPost p true [rs1 % 32] (aluBody p rd 1 (fun x => f (x.getG rs1))) s

/-- The shift count of a register (R315). -/
def shiftCount (w : Word) : Nat := w.toNat % 32

def execAdd (post rd rs1 rs2 : Nat) (s : State) : Host.Outcome State Fault Refusal :=
  .next (regOp post rd rs1 rs2 1 (fun a b => a + b) s)
def execSub (post rd rs1 rs2 : Nat) (s : State) : Host.Outcome State Fault Refusal :=
  .next (regOp post rd rs1 rs2 1 (fun a b => a - b) s)
def execAnd (post rd rs1 rs2 : Nat) (s : State) : Host.Outcome State Fault Refusal :=
  .next (regOp post rd rs1 rs2 1 (fun a b => a &&& b) s)
def execOr (post rd rs1 rs2 : Nat) (s : State) : Host.Outcome State Fault Refusal :=
  .next (regOp post rd rs1 rs2 1 (fun a b => a ||| b) s)
def execXor (post rd rs1 rs2 : Nat) (s : State) : Host.Outcome State Fault Refusal :=
  .next (regOp post rd rs1 rs2 1 (fun a b => a ^^^ b) s)
def execSll (post rd rs1 rs2 : Nat) (s : State) : Host.Outcome State Fault Refusal :=
  .next (regOp post rd rs1 rs2 1 (fun a b => a <<< shiftCount b) s)
def execSrl (post rd rs1 rs2 : Nat) (s : State) : Host.Outcome State Fault Refusal :=
  .next (regOp post rd rs1 rs2 1 (fun a b => a >>> shiftCount b) s)
def execSra (post rd rs1 rs2 : Nat) (s : State) : Host.Outcome State Fault Refusal :=
  .next (regOp post rd rs1 rs2 1 (fun a b => a.sshiftRight (shiftCount b)) s)
def execSlt (post rd rs1 rs2 : Nat) (s : State) : Host.Outcome State Fault Refusal :=
  .next (regOp post rd rs1 rs2 1 (fun a b => boolWord (a.slt b)) s)
def execSltu (post rd rs1 rs2 : Nat) (s : State) : Host.Outcome State Fault Refusal :=
  .next (regOp post rd rs1 rs2 1 (fun a b => boolWord (a.ult b)) s)

/-- SELZ: rs1 where rs2 is zero, else rd keeps its value. -/
def execSelz (post rd rs1 rs2 : Nat) (s : State) : Host.Outcome State Fault Refusal :=
  .next (runPost post true [rs1 % 32, rs2 % 32, rd % 32]
    (aluBody post rd 1 (fun x => if x.getG rs2 == 0#32 then x.getG rs1 else x.getG rd)) s)

def execMul (post rd rs1 rs2 : Nat) (s : State) : Host.Outcome State Fault Refusal :=
  .next (regOp post rd rs1 rs2 2 (fun a b => a * b) s)
def execMulhu (post rd rs1 rs2 : Nat) (s : State) : Host.Outcome State Fault Refusal :=
  .next (regOp post rd rs1 rs2 2 (fun a b => BitVec.ofNat 32 (a.toNat * b.toNat / 2 ^ 32)) s)
def execMulh (post rd rs1 rs2 : Nat) (s : State) : Host.Outcome State Fault Refusal :=
  .next (regOp post rd rs1 rs2 2 (fun a b => BitVec.ofInt 32 (a.toInt * b.toInt / 2 ^ 32)) s)

/-! ### Word chains through `cf` (R326) -/

/-- A step of a chain: the word and the new `cf`, from rs1, rs2 and the incoming carry or borrow. -/
def chainBody (p rd rs1 rs2 : Nat) (start : Bool) (f : Word → Word → Bool → Word × Bool) (s : State) : Ran :=
  let x := getPost s p
  let r := f (x.getG rs1) (x.getG rs2) (x.cf && !start)
  .on (setPost s p (spend (usable { x.setG rd r.1 with cf := r.2 } (rd % 32) x.cyc 1) 1))

def execAddc (post rd rs1 rs2 : Nat) (start : Bool) (s : State) : Host.Outcome State Fault Refusal :=
  .next (runPost post true [rs1 % 32, rs2 % 32] (chainBody post rd rs1 rs2 start addCarry) s)
def execSubb (post rd rs1 rs2 : Nat) (start : Bool) (s : State) : Host.Outcome State Fault Refusal :=
  .next (runPost post true [rs1 % 32, rs2 % 32] (chainBody post rd rs1 rs2 start subBorrow) s)

/-! ### Shifts by a constant -/

def execSlli (post rd rs1 sh : Nat) (s : State) : Host.Outcome State Fault Refusal :=
  .next (immOp post rd rs1 (fun a => a <<< (sh % 32)) s)
def execSrli (post rd rs1 sh : Nat) (s : State) : Host.Outcome State Fault Refusal :=
  .next (immOp post rd rs1 (fun a => a >>> (sh % 32)) s)
def execSrai (post rd rs1 sh : Nat) (s : State) : Host.Outcome State Fault Refusal :=
  .next (immOp post rd rs1 (fun a => a.sshiftRight (sh % 32)) s)

/-! ### The accumulator (R315, R317, R324) -/

/-- The accumulator among the registers whose readiness a post tracks. -/
def accReg : Nat := 32

/-- The accumulator plus an unsigned product, modulo 2^96. -/
def macSum (acc : BitVec 96) (a b : Word) : BitVec 96 := acc + BitVec.ofNat 96 (a.toNat * b.toNat)

/-- Word `k` of the accumulator. -/
def accWord (acc : BitVec 96) (k : Nat) : Word := (acc >>> (32 * k)).setWidth 32

/-- The accumulator with word `k` replaced. -/
def accPut (acc : BitVec 96) (k : Nat) (w : Word) : BitVec 96 :=
  acc &&& ~~~(0xFFFFFFFF#96 <<< (32 * k)) ||| w.setWidth 96 <<< (32 * k)

/-- MAC: back-to-back MAC and DMAC forward the accumulator with no stall. -/
def macBody (p rs1 rs2 : Nat) (s : State) : Ran :=
  let x := getPost s p
  .on (setPost s p (spend (usable { x with acc := macSum x.acc (x.getG rs1) (x.getG rs2) } accReg x.cyc 2) 1))

def execMac (post rs1 rs2 : Nat) (s : State) : Host.Outcome State Fault Refusal :=
  .next (runPost post true [rs1 % 32, rs2 % 32] (macBody post rs1 rs2) s)

/-- ACCSH. -/
def accshBody (p rd : Nat) (s : State) : Ran :=
  let x := getPost s p
  let y := { x.setG rd (accWord x.acc 0) with acc := x.acc >>> 32 }
  .on (setPost s p (spend (usable (usable y (rd % 32) x.cyc 1) accReg x.cyc 1) 1))

def execAccsh (post rd : Nat) (s : State) : Host.Outcome State Fault Refusal :=
  .next (runPost post true [accReg] (accshBody post rd) s)

/-- ACCRD: a word above 2 is ILLEGAL. -/
def accrdBody (p rd k : Nat) (s : State) : Ran :=
  if 3 ≤ k then .trap s (Trap.of xIllegal) else aluBody p rd 1 (fun x => accWord x.acc k) s

def execAccrd (post rd k : Nat) (s : State) : Host.Outcome State Fault Refusal :=
  .next (runPost post true [accReg] (accrdBody post rd k) s)

/-- Sets the accumulator. -/
def accBody (p : Nat) (v : Post → BitVec 96) (s : State) : Ran :=
  let x := getPost s p
  .on (setPost s p (spend (usable { x with acc := v x } accReg x.cyc 1) 1))

def execAccz (post : Nat) (s : State) : Host.Outcome State Fault Refusal :=
  .next (runPost post true [] (accBody post (fun _ => 0#96)) s)

/-- ACCWR: a word above 2 is ILLEGAL. -/
def accwrBody (p rs1 k : Nat) (s : State) : Ran :=
  if 3 ≤ k then .trap s (Trap.of xIllegal) else accBody p (fun x => accPut x.acc k (x.getG rs1)) s

def execAccwr (post rs1 k : Nat) (s : State) : Host.Outcome State Fault Refusal :=
  .next (runPost post true [rs1 % 32, accReg] (accwrBody post rs1 k) s)

/-! ### Immediates (R314) -/

def execAddi (post rd rs1 imm : Nat) (s : State) : Host.Outcome State Fault Refusal :=
  .next (immOp post rd rs1 (fun a => a + sext16 imm) s)
def execSlti (post rd rs1 imm : Nat) (s : State) : Host.Outcome State Fault Refusal :=
  .next (immOp post rd rs1 (fun a => boolWord (a.slt (sext16 imm))) s)
def execSltiu (post rd rs1 imm : Nat) (s : State) : Host.Outcome State Fault Refusal :=
  .next (immOp post rd rs1 (fun a => boolWord (a.ult (sext16 imm))) s)
def execAndi (post rd rs1 imm : Nat) (s : State) : Host.Outcome State Fault Refusal :=
  .next (immOp post rd rs1 (fun a => a &&& zext16 imm) s)
def execOri (post rd rs1 imm : Nat) (s : State) : Host.Outcome State Fault Refusal :=
  .next (immOp post rd rs1 (fun a => a ||| zext16 imm) s)
def execXori (post rd rs1 imm : Nat) (s : State) : Host.Outcome State Fault Refusal :=
  .next (immOp post rd rs1 (fun a => a ^^^ zext16 imm) s)
/-- LUI: rd := imm16 × 2^16. -/
def execLui (post rd imm : Nat) (s : State) : Host.Outcome State Fault Refusal :=
  .next (runPost post true [] (aluBody post rd 1 (fun _ => BitVec.ofNat 32 (imm % 2 ^ 16 * 2 ^ 16))) s)

end Sys2Proof.Machine
end

