-- ==== Sys2Proof/Machine/PostMem.lean ====
section
/-!
DEFINITION. The posts' loads, stores and DMAC: the checks of R311 in their order, the target's time (R318, R319), posted
stores (R362–R364), tags (15_tenons_exceptions R336) and the tenon slots of the post page (R349).
-/
namespace Sys2Proof.Machine
open Sys2Proof

/-! ### Times -/

/-- Cycles of a load's issue by its target (R318); a refusal returns in the time of the access. -/
def loadIssue (g : Nat) (own : Bool) : Nat :=
  if own then 1 else if g == 11 then 16 else if g == 12 then 32 else if g == 13 then 2 else 8

/-- Cycles after a load's issue until its value is usable. -/
def loadUsable (g : Nat) (own : Bool) : Nat := if own then 2 else loadIssue g own

/-- The address lies in the own store under the alias. -/
def isAlias (a : Nat) : Bool := a ≤ 0x000FFFFF

/-- A load waits until 16 cycles after the post's latest store through the gate (R319). -/
def afterStores (x : Post) (g : Nat) : Post :=
  match tfind x.stores g with
  | some c => { x with cyc := max x.cyc (c + 16) }
  | none => x

/-! ### The checks of a data access (R311) -/

/-- Alignment, then the named tenon. -/
def dataTrap (x : Post) (tn a w perm : Nat) (store : Bool) : Option Trap :=
  let ad := some (BitVec.ofNat 32 a)
  if a % w != 0 then some { Trap.of xAlign with store := store, addr := ad }
  else if !(x.getT tn).allows a w perm then some { Trap.of xTenon with detail := tn % 16, store := store, addr := ad }
  else none

/-! ### Loads -/

/-- What a load brings: bytes and the cycle of its issue's end, a held read of RNG_DATA, or an exception. -/
inductive Load where
  | got (b : Bytes) (s : State)
  | held (s : State)
  | trap (s : State) (t : Trap)
deriving DecidableEq, Repr

/-- A read of RNG_DATA that finds no word, through an open gate. -/
def rngHeld (s : State) (p a w : Nat) : Bool :=
  a == regAddr Reg.RNG_DATA && w == 4 && !rngErr s && s.rng.fifo.isEmpty &&
  gateCheck s s.gates.live p a .read == .allow

/-- A load of `w` bytes at `a` under tenon `tn`. -/
def loadAt (p tn a w : Nat) (s0 : State) : Load :=
  match dataTrap (getPost s0 p) tn a w permR false with
  | some t => .trap s0 t
  | none =>
    let g := gateOf p a
    let s := setPost s0 p (afterStores (getPost s0 p) g)
    let r := busRead s p a w
    if rngHeld s p a w then .held s
    else match r.1 with
      | .ok b => .got b (setPost r.2 p (spend (getPost r.2 p) (loadIssue g (isAlias a))))
      | .status v _ =>
        let s1 := setReg r.2 Reg.FLS_RDST (getReg r.2 Reg.FLS_RDST ||| BitVec.ofNat 32 (2 ^ p))
        .got (((List.range w).map (fun i => (leBytes 4 v.toNat).getD (i % 4) 0#8)))
          (setPost s1 p (spend (getPost s1 p) (loadIssue g (isAlias a))))
      | .refused =>
        .trap r.2 { Trap.of xBus with addr := some (BitVec.ofNat 32 a), late := loadIssue g (isAlias a) }

/-- The end of a load into a general register: issued at cycle `c`. -/
def loadInto (p rd a c : Nat) (w : Word) (s : State) : Ran :=
  let x := getPost s p
  let late := loadUsable (gateOf p a) (isAlias a) - loadIssue (gateOf p a) (isAlias a)
  .on (setPost s p (usable (x.setG rd w) (rd % 32) c (1 + late)))

/-- A load of `w` bytes; `ext` makes the register's value of them. -/
def loadBody (p rd rs1 tn w : Nat) (off : Int) (ext : Nat → Word) (s : State) : Ran :=
  let a := (effAddr (getPost s p) rs1 off).toNat
  match loadAt p tn a w s with
  | .got b s1 => loadInto p rd a ((getPost s1 p).cyc - 1) (ext (leNat b)) s1
  | .held s1 =>
    let s2 := setRng s1 { s1.rng with waiting := s1.rng.waiting ++ [p] }
    .on (setPost s2 p { spend (getPost s2 p) 16 with held := some rd })
  | .trap s1 t => .trap s1 t

def signByte (n : Nat) : Word := (BitVec.ofNat 8 n).signExtend 32
def signHalf (n : Nat) : Word := (BitVec.ofNat 16 n).signExtend 32

def execLb (post rd rs1 tn : Nat) (off : Int) (s : State) : Host.Outcome State Fault Refusal :=
  .next (runPost post true [rs1 % 32] (loadBody post rd rs1 tn 1 off signByte) s)
def execLh (post rd rs1 tn : Nat) (off : Int) (s : State) : Host.Outcome State Fault Refusal :=
  .next (runPost post true [rs1 % 32] (loadBody post rd rs1 tn 2 off signHalf) s)
def execLw (post rd rs1 tn : Nat) (off : Int) (s : State) : Host.Outcome State Fault Refusal :=
  .next (runPost post true [rs1 % 32] (loadBody post rd rs1 tn 4 off (BitVec.ofNat 32)) s)
def execLbu (post rd rs1 tn : Nat) (off : Int) (s : State) : Host.Outcome State Fault Refusal :=
  .next (runPost post true [rs1 % 32] (loadBody post rd rs1 tn 1 off (BitVec.ofNat 32)) s)
def execLhu (post rd rs1 tn : Nat) (off : Int) (s : State) : Host.Outcome State Fault Refusal :=
  .next (runPost post true [rs1 % 32] (loadBody post rd rs1 tn 2 off (BitVec.ofNat 32)) s)

/-- TLD: the tag is kept from a tagged granule of the own store through the alias, under a tenon with LT. -/
def tldBody (p td rs1 tn : Nat) (off : Int) (s : State) : Ran :=
  let x := getPost s p
  let a := (effAddr x rs1 off).toNat
  let tag := isAlias a && ownTag s p a && (x.getT tn).has permLT
  match loadAt p tn a 16 s with
  | .got b s1 => .on (setPost s1 p ((getPost s1 p).setT td (Tenon.ofBytes b tag)))
  | .held s1 => .on s1
  | .trap s1 t => .trap s1 t

def execTld (post td rs1 tn : Nat) (off : Int) (s : State) : Host.Outcome State Fault Refusal :=
  .next (runPost post true [rs1 % 32] (tldBody post td rs1 tn off) s)

/-! ### Stores -/

/-- A posted store enters the buffer of its gate under the epoch in force (R360, R362). -/
def postStore (s : State) (p a : Nat) (b : Bytes) : State :=
  let s1 := setGates s { s.gates with basting := s.gates.basting ++ [⟨p, a, b, (getReg s Reg.GTE_EPOCH).toNat⟩] }
  let x := getPost s1 p
  setPost s1 p { x with stores := tput 0 x.stores (gateOf p a) x.cyc }

/-- The tenon slot of a post that an address names: the post, and whether it is PST_KPCODE. -/
def slotOf (a : Nat) : Option (Nat × Bool) :=
  if a < 0x40041440 || 0x40042000 ≤ a then none
  else
    let o := (a - 0x40041400) % 96
    if o == 0x40 then some ((a - 0x40041400) / 96, false)
    else if o == 0x50 then some ((a - 0x40041400) / 96, true)
    else none

/-- A tagged write of a tenon slot, which locks at its first one (R349). -/
def slotWrite (s : State) (q : Nat) (kp : Bool) (t : Tenon) : State :=
  let x := getPost s q
  if kp then (if x.kpcode.tag then s else setPost s q { x with kpcode := t })
  else (if x.dispatch.tag then s else setPost s q { x with dispatch := t })

/-- A store of bytes at `a` under tenon `tn`; `tag` says that the granule's tag is set, `src` is a tenon stored to a
tenon slot. Through the alias it is checked and applied at once; into the other memories and the register pages it is
posted; the read-only targets and the null target refuse it. -/
def storeAt (p tn a : Nat) (b : Bytes) (tag : Bool) (src : Tenon) (s : State) : Ran :=
  match dataTrap (getPost s p) tn a b.length permW true with
  | some t => .trap s t
  | none =>
    let g := gateOf p a
    if isAlias a then
      let r := access s p a .write
      if r.1 then
        let s1 := putBytes r.2 p a b
        let s2 := if tag then { s1 with tags := tput false s1.tags (memAddr p a / 16) true } else s1
        .on (setPost s2 p (spend (getPost s2 p) 1))
      else .trap r.2 { Trap.of xBus with store := true, addr := some (BitVec.ofNat 32 a), late := 1 }
    else
      match slotOf a with
      | some (q, kp) =>
        if b.length == 16 && src.tag then
          let s0 := drainPosted s (ofGate p 11)
          let r := gateCheck s0 s0.gates.live p a .write
          let s1 := if r == .allow then slotWrite s0 q kp src else notice s0 p a (getReg s0 Reg.GTE_EPOCH).toNat r
          let x := getPost s1 p
          .on (setPost s1 p (spend { x with stores := tput 0 x.stores 11 x.cyc } 2))
        else
          let s1 := postStore s p a b
          .on (setPost s1 p (spend (getPost s1 p) 2))
      | none =>
        let s1 := if g ≤ 11 then postStore s p a b else (access s p a .write).2
        .on (setPost s1 p (spend (getPost s1 p) 2))

/-- A store of the low `w` bytes of a general register. -/
def storeBody (p rs2 rs1 tn w : Nat) (off : Int) (s : State) : Ran :=
  let x := getPost s p
  storeAt p tn (effAddr x rs1 off).toNat (leBytes w (x.getG rs2).toNat) false Tenon.null s

def execSb (post rs2 rs1 tn : Nat) (off : Int) (s : State) : Host.Outcome State Fault Refusal :=
  .next (runPost post true [rs1 % 32, rs2 % 32] (storeBody post rs2 rs1 tn 1 off) s)
def execSh (post rs2 rs1 tn : Nat) (off : Int) (s : State) : Host.Outcome State Fault Refusal :=
  .next (runPost post true [rs1 % 32, rs2 % 32] (storeBody post rs2 rs1 tn 2 off) s)
def execSw (post rs2 rs1 tn : Nat) (off : Int) (s : State) : Host.Outcome State Fault Refusal :=
  .next (runPost post true [rs1 % 32, rs2 % 32] (storeBody post rs2 rs1 tn 4 off) s)

/-- TST. -/
def tstBody (p ts rs1 tn : Nat) (off : Int) (s : State) : Ran :=
  let x := getPost s p
  let t := x.getT ts
  storeAt p tn (effAddr x rs1 off).toNat t.bytes (t.tag && (x.getT tn).has permST) t s

def execTst (post ts rs1 tn : Nat) (off : Int) (s : State) : Host.Outcome State Fault Refusal :=
  .next (runPost post true [rs1 % 32] (tstBody post ts rs1 tn off) s)

/-! ### DMAC (R325) -/

/-- A read of a DMAC operand: alignment, tenon, gate. -/
def dmacTrap (p tn a : Nat) (s : State) : Option Trap × State :=
  match dataTrap (getPost s p) tn a 4 permR false with
  | some t => (some t, s)
  | none =>
    let r := access s p a .read
    if r.1 then (none, r.2) else (some { Trap.of xBus with addr := some (BitVec.ofNat 32 a), late := 1 }, r.2)

/-- A pointer after its step. -/
def dmacStep (w : Word) (down : Bool) : Word := if down then w - 4#32 else w + 4#32

/-- Both operands are in their halves and readable: the products' sum, and the pointers stepped. -/
def dmacBody (p tn ra rb : Nat) (sa sb : Bool) (s : State) : Ran :=
  let x := getPost s p
  let a := (x.getG ra).toNat
  let b := (x.getG rb).toNat
  if !inRange a 0 0x0007FFFF then .trap s { Trap.of xDmac with addr := some (x.getG ra) }
  else if !inRange b 0x00080000 0x000FFBFF then .trap s { Trap.of xDmac with addr := some (x.getG rb) }
  else
    let s1 := drainPosted s (ofGate p (gateOf p a))
    let ta := dmacTrap p tn a s1
    match ta.1 with
    | some t => .trap ta.2 t
    | none =>
      let tb := dmacTrap p tn b ta.2
      match tb.1 with
      | some t => .trap tb.2 t
      | none =>
        let va := BitVec.ofNat 32 (leNat (memRead tb.2 (memAddr p a) 4))
        let vb := BitVec.ofNat 32 (leNat (memRead tb.2 (memAddr p b) 4))
        let y := getPost tb.2 p
        let y1 := (y.setG ra (dmacStep (x.getG ra) sa)).setG rb (dmacStep (x.getG rb) sb)
        .on (setPost tb.2 p (spend (usable { y1 with acc := macSum x.acc va vb } accReg y.cyc 2) 1))

def execDmac (post tn ra rb : Nat) (sa sb : Bool) (s : State) : Host.Outcome State Fault Refusal :=
  .next (runPost post true [ra % 32, rb % 32] (dmacBody post tn ra rb sa sb) s)

end Sys2Proof.Machine
end

