-- ==== Sys2Proof/Machine/PostFlow.lean ====
section
/-!
DEFINITION. The posts' branches, jumps and return stack (14_miade_isa R320–R323). A branch leaves what it does in the
post's `delay`, and the instruction in the delay slot commits the pair (Machine/Posts.lean).
-/
namespace Sys2Proof.Machine
open Sys2Proof

/-- A branch or jump that has issued: its target where it is taken, what it pushes, whether it pops. -/
def delayed (p : Nat) (target push : Option Word) (pop : Bool) (s : State) : Ran :=
  let x := getPost s p
  .on (setPost s p (spend { x with delay := some ⟨x.pc, target, push, pop⟩ } 1))

/-- A conditional branch: its condition is read here, before the delay slot runs. -/
def branchBody (p rs1 rs2 : Nat) (off : Int) (f : Word → Word → Bool) (s : State) : Ran :=
  let x := getPost s p
  delayed p (if f (x.getG rs1) (x.getG rs2) then some (branchTarget x.pc off) else none) none false s

/-- A conditional branch. -/
def branchOp (p rs1 rs2 : Nat) (off : Int) (f : Word → Word → Bool) (s : State) : State :=
  runPost p false [rs1 % 32, rs2 % 32] (branchBody p rs1 rs2 off f) s

def execBeq (post rs1 rs2 : Nat) (off : Int) (s : State) : Host.Outcome State Fault Refusal :=
  .next (branchOp post rs1 rs2 off (fun a b => a == b) s)
def execBne (post rs1 rs2 : Nat) (off : Int) (s : State) : Host.Outcome State Fault Refusal :=
  .next (branchOp post rs1 rs2 off (fun a b => a != b) s)
def execBlt (post rs1 rs2 : Nat) (off : Int) (s : State) : Host.Outcome State Fault Refusal :=
  .next (branchOp post rs1 rs2 off (fun a b => a.slt b) s)
def execBge (post rs1 rs2 : Nat) (off : Int) (s : State) : Host.Outcome State Fault Refusal :=
  .next (branchOp post rs1 rs2 off (fun a b => !a.slt b) s)
def execBltu (post rs1 rs2 : Nat) (off : Int) (s : State) : Host.Outcome State Fault Refusal :=
  .next (branchOp post rs1 rs2 off (fun a b => a.ult b) s)
def execBgeu (post rs1 rs2 : Nat) (off : Int) (s : State) : Host.Outcome State Fault Refusal :=
  .next (branchOp post rs1 rs2 off (fun a b => !a.ult b) s)

/-! ### Jumps and calls -/

/-- A push is refused at depth 16 unless the stack wraps (R322). -/
def rsFull (s : State) (p : Nat) : Bool :=
  16 ≤ (getPost s p).rs.length && !flag s (pstFld p Reg.PST_CTRL_RSWRAP)

/-- A jump that pushes the address of the branch plus 8. -/
def callBody (p : Nat) (target : Post → Word) (s : State) : Ran :=
  let x := getPost s p
  if rsFull s p then .trap s (Trap.of xRsOver)
  else delayed p (some (target x)) (some (x.pc + 8#32)) false s

def jumpBody (p : Nat) (target : Post → Word) (s : State) : Ran :=
  delayed p (some (target (getPost s p))) none false s

def execJ (post : Nat) (off : Int) (s : State) : Host.Outcome State Fault Refusal :=
  .next (runPost post false [] (jumpBody post (fun x => branchTarget x.pc off)) s)
def execCall (post : Nat) (off : Int) (s : State) : Host.Outcome State Fault Refusal :=
  .next (runPost post false [] (callBody post (fun x => branchTarget x.pc off)) s)
def execJr (post rs1 : Nat) (s : State) : Host.Outcome State Fault Refusal :=
  .next (runPost post false [rs1 % 32] (jumpBody post (fun x => alignPc (x.getG rs1))) s)
def execCallr (post rs1 : Nat) (s : State) : Host.Outcome State Fault Refusal :=
  .next (runPost post false [rs1 % 32] (callBody post (fun x => alignPc (x.getG rs1))) s)

/-- RET: the entry is popped when the delay slot completes. -/
def retBody (p : Nat) (s : State) : Ran :=
  match (getPost s p).rs with
  | [] => .trap s (Trap.of xRsUnder)
  | w :: _ => delayed p (some (alignPc w)) none true s

def execRet (post : Nat) (s : State) : Host.Outcome State Fault Refusal := .next (runPost post false [] (retBody post) s)

/-! ### The return stack -/

def rspushBody (p rs1 : Nat) (s : State) : Ran :=
  let x := getPost s p
  if rsFull s p then .trap s (Trap.of xRsOver)
  else .on (setPost s p (spend { x with rs := pushRs x.rs (x.getG rs1) } 1))

def execRspush (post rs1 : Nat) (s : State) : Host.Outcome State Fault Refusal :=
  .next (runPost post false [rs1 % 32] (rspushBody post rs1) s)

def rspopBody (p rd : Nat) (s : State) : Ran :=
  let x := getPost s p
  match x.rs with
  | [] => .trap s (Trap.of xRsUnder)
  | w :: r => .on (setPost s p (spend (usable { x.setG rd w with rs := r } (rd % 32) x.cyc 1) 1))

def execRspop (post rd : Nat) (s : State) : Host.Outcome State Fault Refusal :=
  .next (runPost post false [] (rspopBody post rd) s)

def execRsdepth (post rd : Nat) (s : State) : Host.Outcome State Fault Refusal :=
  .next (runPost post true [] (aluBody post rd 1 (fun x => BitVec.ofNat 32 x.rs.length)) s)

end Sys2Proof.Machine
end

