-- ==== Sys2Proof/Machine/PostTen.lean ====
section
/-!
DEFINITION. The posts' tenon operations (15_tenons_exceptions R335, R337): an invalid derivation clears the tag and traps
nothing; no operation sets a tag or widens a tenon.
-/
namespace Sys2Proof.Machine
open Sys2Proof

/-- An instruction that writes one tenon register. -/
def tenBody (p td : Nat) (v : Post → Tenon) (s : State) : Ran :=
  let x := getPost s p
  .on (setPost s p (spend (x.setT td (v x)) 1))

/-- A derivation: the result where it is valid, else the source with its tag cleared. -/
def derived (src : Tenon) (ok : Bool) (r : Tenon) : Tenon := if ok then r else { src with tag := false }

/-- TBOUND. -/
def boundTenon (t : Tenon) (lo hi : Word) : Tenon :=
  derived t (t.tag && t.otype == 0 && t.base ≤ lo.toNat && lo.toNat ≤ hi.toNat && hi.toNat ≤ t.top)
    (((t.put 0 32 lo.toNat).put 32 32 hi.toNat).put 64 32 lo.toNat)

/-- TPERM. -/
def permTenon (t : Tenon) (w : Word) : Tenon :=
  derived t (t.tag && t.otype == 0) (t.put 96 8 (t.perm &&& (255 - w.toNat % 256)))

/-- TSEAL. -/
def sealTenon (t k : Tenon) : Tenon :=
  derived t (t.tag && t.otype == 0 && t.kind != 0 && k.sealer 0) (t.put 108 16 k.base)

/-- TUNSEAL. -/
def unsealTenon (t k : Tenon) : Tenon := derived t (t.tag && t.otype == k.base && k.sealer 1) (t.put 108 16 0)

def execTmov (post td ts : Nat) (s : State) : Host.Outcome State Fault Refusal :=
  .next (runPost post true [] (tenBody post td (fun x => x.getT ts)) s)
def execTnull (post td : Nat) (s : State) : Host.Outcome State Fault Refusal :=
  .next (runPost post true [] (tenBody post td (fun _ => Tenon.null)) s)

/-- TBOUND reads registers rs and rs + 1; rs = 31 is ILLEGAL. -/
def tboundBody (p td ts rs : Nat) (s : State) : Ran :=
  if rs % 32 == 31 then .trap s (Trap.of xIllegal)
  else tenBody p td (fun x => boundTenon (x.getT ts) (x.getG rs) (x.getG (rs + 1))) s

def execTbound (post td ts rs : Nat) (s : State) : Host.Outcome State Fault Refusal :=
  .next (runPost post true [rs % 32, (rs + 1) % 32] (tboundBody post td ts rs) s)
def execTperm (post td ts rs : Nat) (s : State) : Host.Outcome State Fault Refusal :=
  .next (runPost post true [rs % 32] (tenBody post td (fun x => permTenon (x.getT ts) (x.getG rs))) s)

/-- The sealer that a general register names. -/
def sealerOf (x : Post) (rs : Nat) : Tenon := x.getT ((x.getG rs).toNat % 16)

def execTseal (post td ts rs : Nat) (s : State) : Host.Outcome State Fault Refusal :=
  .next (runPost post true [rs % 32] (tenBody post td (fun x => sealTenon (x.getT ts) (sealerOf x rs))) s)
def execTunseal (post td ts rs : Nat) (s : State) : Host.Outcome State Fault Refusal :=
  .next (runPost post true [rs % 32] (tenBody post td (fun x => unsealTenon (x.getT ts) (sealerOf x rs))) s)

/-! ### TCALL (R337) -/

/-- The pair may be invoked. -/
def tcallOk (code data : Tenon) : Bool :=
  code.tag && data.tag && code.kind == 1 && data.kind == 1 && code.otype != 0 && code.otype == data.otype &&
  code.has permX && code.cursor % 4 == 0 && code.base ≤ code.cursor && code.cursor ≤ code.top

def tcallBody (p td ts : Nat) (s : State) : Ran :=
  let x := getPost s p
  let code := x.getT ts
  let data := x.getT td
  if tcallOk code data then
    let y := x.setT td (data.put 108 16 0)
    .jump (setPost s p (spend { y with pct := code.put 108 16 0, pc := BitVec.ofNat 32 code.cursor } 4))
  else .trap s { Trap.of xTenon with detail := ts % 16 }

def execTcall (post td ts : Nat) (s : State) : Host.Outcome State Fault Refusal :=
  .next (runPost post false [] (tcallBody post td ts) s)

/-! ### Reading a tenon -/

/-- TGET: other selectors are ILLEGAL. -/
def tgetBody (p ts rs sel : Nat) (s : State) : Ran :=
  if 4 ≤ sel then .trap s (Trap.of xIllegal)
  else aluBody p rs 1 (fun x => BitVec.ofNat 32 ((x.getT ts).field (32 * sel) 32)) s

def execTget (post ts rs sel : Nat) (s : State) : Host.Outcome State Fault Refusal :=
  .next (runPost post true [] (tgetBody post ts rs sel) s)
def execTtag (post ts rs : Nat) (s : State) : Host.Outcome State Fault Refusal :=
  .next (runPost post true [] (aluBody post rs 1 (fun x => boolWord (x.getT ts).tag)) s)

end Sys2Proof.Machine
end

