-- ==== Sys2Proof/Machine/PostSys.lean ====
section
/-!
DEFINITION. The posts' system instructions (14_miade_isa R327–R331, 15_tenons_exceptions R344, R345, R347): traps and sealed
returns, feature words, the tick and the post cycle, the end of a stitch program, fences, engine requests, interrupts,
and undefined words.
-/
namespace Sys2Proof.Machine
open Sys2Proof

/-! ### Exceptions and returns -/

def execTrap (post imm : Nat) (s : State) : Host.Outcome State Fault Refusal :=
  .next (runPost post false [] (fun s => .trap s { Trap.of xTrap with detail := imm % 64 }) s)

/-- An undefined word, or one with a nonzero reserved field (R313). -/
def execIllegal (post : Nat) (s : State) : Host.Outcome State Fault Refusal :=
  .next (runPost post true [] (fun s => .trap s (Trap.of xIllegal)) s)

/-- ERET: ILLEGAL at depth 0 and at the kingpost level. -/
def eretBody (p tn : Nat) (s : State) : Ran :=
  let d := postDepth s p
  if d == 0 || postKp s p then .trap s (Trap.of xIllegal) else .jump (sealedReturn s p tn d)

def execEret (post tn : Nat) (s : State) : Host.Outcome State Fault Refusal :=
  .next (runPost post false [] (eretBody post tn) s)

/-! ### Feature words, the tick, the cycle (R327, R331) -/

/-- A feature word; words 3 and 4 as the kerf left them. -/
def featWord (x : Post) (p i : Nat) : Nat :=
  match i with
  | 0 => 1 + p * 2 ^ 8 + p / 4 * 2 ^ 16 + p % 4 * 2 ^ 20
  | 1 => 7 + 16 * 2 ^ 8
  | 2 => 1024 + 992 * 2 ^ 16
  | 3 => b2n (2 ≤ p) + b2n x.work * 2 + x.slice * 2 ^ 8
  | 4 => b2n x.rswrap
  | _ => 0

def execFeat (post rd imm : Nat) (s : State) : Host.Outcome State Fault Refusal :=
  .next (runPost post true [] (aluBody post rd 1 (fun x => BitVec.ofNat 32 (featWord x post (imm % 64)))) s)
def execTick (post rd : Nat) (s : State) : Host.Outcome State Fault Refusal :=
  .next (runPost post true [] (aluBody post rd 1 (fun _ => BitVec.ofNat 32 s.tick.count)) s)
def execCyc (post rd : Nat) (s : State) : Host.Outcome State Fault Refusal :=
  .next (runPost post true [] (aluBody post rd 1 (fun x => BitVec.ofNat 32 (x.cyc % 1024))) s)

/-! ### YIELD and FENCE -/

/-- YIELD: a slotted post is idle until the kerf; a management post leaves the kingpost level and restarts (R347), and
elsewhere only goes on. -/
def yieldBody (p : Nat) (s : State) : Ran :=
  let x := getPost s p
  if 2 ≤ p then .jump (setPost s p { spend x 1 with run := false, pc := x.pc + 4#32 })
  else if postKp s p then
    .jump (clearDepth (setPost s p { spend x 1 with
      pct := x.dispatch, pc := dispatchPc x
      t := (List.range 4).map (fun i => (i, Tenon.null)), rs := [] }) p)
  else .on (setPost s p (spend x 1))

def execYield (post : Nat) (s : State) : Host.Outcome State Fault Refusal :=
  .next (runPost post false [] (yieldBody post) s)

/-- FENCE: every earlier store of the post is accepted, the latest 16 cycles after its issue. -/
def fenceBody (p : Nat) (s : State) : Ran :=
  let s1 := drainPosted s (fun e => e.init == p)
  let x := getPost s1 p
  .on (setPost s1 p { x with cyc := x.stores.foldl (fun c e => max c (e.2 + 16)) (x.cyc + 1) })

def execFence (post : Nat) (s : State) : Host.Outcome State Fault Refusal :=
  .next (runPost post true [] (fenceBody post) s)

/-! ### Engine requests (R330) -/

/-- A tagged, unsealed KEY tenon with USE over every handle of a request. -/
def keyTenonOk (t : Tenon) (handles : List Word) : Bool :=
  t.tag && t.otype == 0 && t.kind == 2 && bitAt t.perm 0 && handles.all (fun h => t.base ≤ h.toNat && h.toNat ≤ t.top)

/-- What a ring still takes in this tick: blocks of ring 0 and operations of ring 1 in a work slot, and on rings 2 and
3 what the command's plan leaves (`room`). -/
def reqRoom (x : Post) (ring size : Nat) (room : Bool) : Bool :=
  match ring with
  | 0 => x.work && x.ring0 + size ≤ 256
  | 1 => x.work && x.ring1 + size ≤ 16
  | _ => room

/-- Cycles from an RQSUB to its reply. -/
def replyTime (ring size : Nat) : Nat := if ring == 0 then 32 + 4 * size else 12 + 60 * size

/-- The next ticket: nonzero. -/
def nextTicket (n : Nat) : Nat := if (n + 1) % 2 ^ 32 == 0 then 1 else (n + 1) % 2 ^ 32

/-- What a ring serves of an ask: hash work on ring 2, purlin work on ring 3. -/
def askOn (ring : Nat) (ask : RingAsk) : RingAsk :=
  match ask with
  | .hash n => if ring == 2 then .hash n else .plain
  | .hssVerify p g m => if ring == 2 then .hssVerify p g m else .plain
  | .plain => .plain
  | a => if ring == 3 then a else .plain

/-- The compressions and the purlin-ticks of an ask (R226, R231). -/
def askCost : RingAsk → Nat × Nat
  | .plain => (0, 0)
  | .hash n => (n, 0)
  | .hssVerify p g m => ((hssAny p g m).2, 0)
  | .ecdsaSign _ _ => (0, 18)
  | .ecdsaVerify _ _ _ => (0, 28)
  | .rsaPublic n _ _ => (0, if n.length ≤ 256 then 6 else if n.length ≤ 384 then 14 else 24)

/-- Ticks after its submission before which a reply on ring 2 or 3 cannot be in: a hash engine completes at most 64
compressions in a tick, a purlin one purlin-tick; no reply is visible before a later link. -/
def askTicks (a : RingAsk) : Nat := max 1 (max (ceilDiv (askCost a).1 64) (askCost a).2)

/-- The ask draws a nonce. -/
def askSigns : RingAsk → Bool
  | .ecdsaSign _ _ => true
  | _ => false

/-- What an operation gives: its reply word and its result; a reply of its own code where the spec gives no function. -/
def askAnswer (a : RingAsk) (nonce : Bytes) (status : Word) : Word × Bytes :=
  let verdict := fun (b : Bool) => Config.ringStatus (if b then 0 else 1)
  match a with
  | .plain => (status, [])
  | .hash _ => (status, [])
  | .hssVerify p g m => (verdict (hssAny p g m).1, [])
  | .ecdsaSign k d => (verdict true, Sys2Proof.Machine.ecdsaSign p256 k nonce d)
  | .ecdsaVerify q d g => (verdict (Sys2Proof.Machine.ecdsaVerify p256 q d g), [])
  | .rsaPublic n e x => (verdict (beNat x < beNat n), beBytes n.length (powMod (beNat n) 4200 (beNat x) (beNat e)))

/-- The post with a request submitted at its present cycle. -/
def submitted (x : Post) (ring size : Nat) (ask : RingAsk) (now : Nat) : Post :=
  let id := nextTicket x.ticket
  { x with
    ticket := id, tickets := x.tickets ++ [⟨id, ring, x.cyc + replyTime ring size, none, askOn ring ask, now, []⟩]
    ring0 := if ring == 0 then x.ring0 + size else x.ring0
    ring1 := if ring == 1 then x.ring1 + size else x.ring1 }

/-- Ring 1 runs its operations on the legacy TDES unit, which counts those of time-slots (R143): a PIN command's own are
counted as its work runs, every other request's here. -/
def ringCounted (s : State) (x : Post) (ring size : Nat) : State :=
  let pin := match x.owner.bind (getCtx s) with
    | some c => eOp c.entry == opPinTranslate || eOp c.entry == opPinVerify
    | none => false
  if ring == 1 && !pin then { s with opCounts := tput 0 s.opCounts 0 (tget 0 s.opCounts 0 + size) } else s

/-- After the tick of a health failure, requests that need masked work get ring status ENTROPY (R265; which rings those
are is DEDUCED: 0, 1 and 3, notes/assumptions/88.md). -/
def ringDead (s : State) (ring : Nat) : Bool :=
  ring != 2 && match s.rng.failTick with
    | some t => t < s.tick.count
    | none => false

/-- The command whose link places such a request completes with ST_ENTROPY_FAILED. -/
def ringCut (s : State) (p ring : Nat) : State :=
  if !ringDead s ring then s
  else match (getPost s p).owner with
    | none => s
    | some n => match getCtx s n with
      | none => s
      | some c => if working c then setCtx s n { c with fail := some (stEntropyFailed, unitsThrough c s.tick.count) } else s

/-- RQSUB: the block's 64 bytes under its MEM tenon, then the key authority of the handles it names. "The own bent
store" of R330 is taken as its alias alone; a block named through the own bent's place in the window of all stores
traps with BUS (DESIGN CHOICE, notes/assumptions/77.md). -/
def rqsubBody (p rd rs1 ring mem tn size : Nat) (handles : List Word) (ask : RingAsk) (room : Bool)
    (s : State) : Ran :=
  let x := getPost s p
  let a := (x.getG rs1).toNat
  if !x.pct.has permFrame then .trap s (Trap.of xIllegal)
  else match dataTrap x mem a 64 permR false with
    | some t => .trap s t
    | none =>
      let r := access s p a .read
      if !r.1 || !isAlias a then .trap r.2 { Trap.of xBus with addr := some (BitVec.ofNat 32 a), late := 1 }
      else if !keyTenonOk (x.getT tn) handles then
        .trap r.2 { Trap.of xTenon with detail := tn % 16, addr := some (BitVec.ofNat 32 a) }
      else
        let y := getPost r.2 p
        let ok := reqRoom y (ring % 4) size room
        let z := if ok then submitted y (ring % 4) size ask s.tick.count else y
        let s1 := if ok then ringCut (ringCounted r.2 y (ring % 4) size) p (ring % 4) else r.2
        .on (setPost s1 p (spend (usable (z.setG rd (if ok then BitVec.ofNat 32 z.ticket else 0#32)) (rd % 32) y.cyc 1) 1))

def execRqsub (post rd rs1 ring mem tn size : Nat) (handles : List Word) (room : RingUse) (s : State) :
    Host.Outcome State Fault Refusal :=
  .next (runPost post true [rs1 % 32] (rqsubBody post rd rs1 ring mem tn size handles room.ask room.room) s)

/-- Records the reply of a ticket that has none. -/
def replyTicket (ts : List Ticket) (id : Nat) (w : Word) (out : Bytes) : List Ticket :=
  ts.map (fun k => if k.id == id && k.reply.isNone then { k with reply := some w, out := out } else k)

/-- RQWAIT: rings 0 and 1 stall until the reply time; rings 2 and 3 return 0 while the reply is not in. What it returns
for a ticket that the post does not hold is a free value (notes/assumptions/4.md). -/
def rqwaitBody (p rd rs1 : Nat) (reply : Word) (s : State) : Ran :=
  let x := getPost s p
  let id := (x.getG rs1).toNat
  if !x.pct.has permFrame then .trap s (Trap.of xIllegal)
  else match x.tickets.find? (fun k => k.id == id) with
    | none =>
      let d := drawBytes 4 s
      let y := getPost d.2 p
      .on (setPost d.2 p (spend (usable (y.setG rd (BitVec.ofNat 32 (leNat d.1))) (rd % 32) y.cyc 1) 1))
    | some k =>
      if k.ring ≤ 1 then
        let w := if ringDead s k.ring then Config.ringStatus 2 else reply
        let y := { x with cyc := max x.cyc k.due, tickets := replyTicket x.tickets id w [] }
        .on (setPost s p (spend (usable (y.setG rd (k.reply.getD w)) (rd % 32) y.cyc 1) 1))
      else .on (setPost s p (spend (usable (x.setG rd (k.reply.getD 0#32)) (rd % 32) x.cyc 1) 1))

def execRqwait (post rd rs1 : Nat) (reply : Word) (s : State) : Host.Outcome State Fault Refusal :=
  .next (runPost post true [rs1 % 32] (rqwaitBody post rd rs1 reply) s)

/-- The engines a reply charges: the purlin and the hash engine of the group whose command runs on the post; those of
index 0 where no command does, or its group holds none (DESIGN CHOICE: notes/assumptions/88.md). -/
def askEngines (s : State) (p : Nat) : Nat × Nat :=
  match (getPost s p).owner.bind (getCtx s) with
  | none => (0, 0)
  | some c =>
    match layoutOf s c.slice (c.gid % 32) with
    | none => (0, 0)
    | some l => ((l.pur.head?.map (·.1)).getD 0, l.hsh.getD 0)

/-- The child that a request's nonce is drawn from: the group's of the command, or the management posts'. -/
def askChild (s : State) (p : Nat) : Nat :=
  match (getPost s p).owner.bind (getCtx s) with
  | none => childPosts
  | some c => if c.gid < 4096 then c.gid else childPosts

/-- Counts an ask's operation on its purlin and its compressions on its hash engine (R252, R253). -/
def chargeAsk (s : State) (p : Nat) (a : RingAsk) : State :=
  let e := askEngines s p
  let m := if (askCost a).2 == 0 then s.opCounts else bumpAt s.opCounts (1 + e.1) 1
  { s with opCounts := if (askCost a).1 == 0 then m else bumpAt m (16 + e.2) (askCost a).1 }

/-- ENGINE_REQUEST_REPLY: a hash or purlin request's reply is in, once its operation can have ended. Where the spec gives
its function the model computes what it answers; ring 3 answers ENTROPY after a health failure. -/
def engineReplyEffect (post ticket : Nat) (status : Word) (s : State) : State :=
  let x := getPost s post
  match x.tickets.find? (fun k => k.id == ticket && 2 ≤ k.ring && k.reply.isNone) with
  | none => s
  | some k =>
    if s.boot.held || s.tick.count < k.tick + askTicks k.ask then s
    else if ringDead s k.ring then
      setPost s post { x with tickets := replyTicket x.tickets ticket (Config.ringStatus 2) [] }
    else
      let d := if askSigns k.ask then drawFrom (askChild s post) 32 s else ([], s)
      let a := askAnswer k.ask d.1 status
      chargeAsk (setPost d.2 post { x with tickets := replyTicket x.tickets ticket a.1 a.2 }) post k.ask

def execEngineRequestReply (post ticket : Nat) (status : Word) (s : State) : Host.Outcome State Fault Refusal :=
  .next (engineReplyEffect post ticket status s)

/-! ### Interrupts (R344) -/

/-- The lowest enabled pending line of a post. -/
def lineTaken (s : State) (p : Nat) : Option Nat :=
  (List.range 6).find? (fun i => bitAt (getF s (pstFld p Reg.PST_IRQ_PEND_LINES)) i && bitAt (getF s (pstFld p Reg.PST_IRQ_LEN_LINES)) i)

/-- INTERRUPT. -/
def interruptEffect (p : Nat) (s : State) : State :=
  let x := getPost s p
  if !postServes s p || 2 ≤ p || postKp s p || postDepth s p != 0 || x.delay.isSome ||
      !flag s (pstFld p Reg.PST_CTRL_IRQ) then s
  else match lineTaken s p with
    | none => s
    | some l => takeException s p x.pc { Trap.of xInterrupt with detail := l }

def execInterrupt (post : Nat) (s : State) : Host.Outcome State Fault Refusal := .next (interruptEffect post s)

end Sys2Proof.Machine
end

