-- ==== Sys2Proof/Machine/SafeState.lean ====
section
/-!
DEFINITION. The safe state (17_faults R378, 01_frame R26, 03_queues R82, 08_vault_store R190, R208): what the device does
on entry, and the completions that the host queue block then writes.
-/
namespace Sys2Proof.Machine
open Sys2Proof

/-! ### Completions (R82) -/

/-- A released command keeps its own entry, a command in a context gets one, and so does one that was fetched and not
admitted (R82). -/
def owedRunning (s : State) : List Completion :=
  (s.ctxs.filter (fun c => c.2.phase == .running)).map (fun c =>
    let r := earlyResult s c.2 stSafeState
    { slice := c.2.slice, queue := c.2.queue, cmdId := eId c.2.entry, status := r.status, untrusted := false
      partialOut := r.partialOut, scrubbed := false, late := false, len := r.len
      rtick := s.tick.count % 2 ^ 32, inline := [], noirq := eNoIrq c.2.entry, ctx := none, gid := c.2.gid
      order := c.2.order, fetchNo := c.2.fetchNo, held := false })

def owedFetched (s : State) : List Completion :=
  s.fetched.map (fun f =>
    { slice := f.slice, queue := f.queue, cmdId := eId f.entry, status := stSafeState, untrusted := false
      partialOut := false, scrubbed := false, late := false, len := 0, rtick := s.tick.count % 2 ^ 32, inline := []
      noirq := eNoIrq f.entry, ctx := none, gid := 4096, order := s.ctxOrder, fetchNo := f.order, held := false })

/-- Order of slice, then queue id, then fetch order. -/
def owedBefore (a b : Completion) : Bool :=
  if a.slice != b.slice then a.slice < b.slice
  else if a.queue != b.queue then a.queue < b.queue
  else a.fetchNo < b.fetchNo

def insertOwed (x : Completion) : List Completion → List Completion
  | [] => [x]
  | y :: r => if owedBefore y x then y :: insertOwed x r else x :: y :: r

/-- Everything owed, in the order in which it is written. -/
def owedAll (s : State) : List Completion := (s.compls ++ owedRunning s ++ owedFetched s).foldr insertOwed []

/-- The queue takes the entry: it has room and is not STOPPED. -/
def owedFits (q : Queue) : Bool := !cqFull q && q.st != .stopped && !discards q

/-- Writes one owed entry, or drops and counts it. The vectors that cover entries of the safe state are gathered. -/
def writeOwed (x : State × List (Nat × Nat)) (e : Completion) : State × List (Nat × Nat) :=
  let s := x.1
  let q := getQueue s e.slice e.queue
  if (getSlice s e.slice).busOff || s.link.down then x
  else if !owedFits q then (countReg s Reg.HQ_SAFE_DROP 1, x.2)
  else
    let s1 := sendHost s e.slice (pasidOf s e.slice e.queue) (q.cqBase + 32 * q.cqTail) (complBytes e q.phase)
    let tail := (q.cqTail + 1) % cqSize q
    let q1 := { q with cqTail := tail, phase := if tail == 0 then !q.phase else q.phase }
    let v := (e.slice, qVec q)
    (setQueue s1 e.slice e.queue q1, if x.2.contains v then x.2 else x.2 ++ [v])

/-- The completions, the messages, and what the queues show from then on. -/
def safeQueues (s : State) : State :=
  let r := (owedAll s).foldl writeOwed (s, [])
  let s1 := r.2.foldl (fun s v => raiseMsix s v.1 v.2) r.1
  let s2 := { s1 with
    compls := [], fetched := [], ctxs := [], ghosts := [], plans := [], ctrlUse := [], compEnd := []
    queues := s1.queues.map (fun q => (q.1, { q.2 with st := .held, heldFetch := 0, staged := none })) }
  let s2 := (s2.slices.flatMap (fun x => (List.range x.2.cfg.pairs).map (fun q => (x.1, q))) ++ [(0, adminQ)]).foldl
    (fun s k => setQueue s k.1 k.2 { getQueue s k.1 k.2 with st := .held }) s2
  event (setFlag s2 Reg.HQ_STAT_SAFE true) Reg.HQ_EVT_SAFE_DONE

/-! ### Zeroisation -/

/-- Every key slot, mask and DRBG state, the vault memory key with its region, and the SRAM with its scrambling keys. -/
def safeZeroise (s : State) : State :=
  let s1 := setFlag (loseVault (zeroiseSram { zeroiseStore s with
    records := s.records.filter (fun r => !doomed (getKey s r.slot)) })) Reg.KST_STAT_DOMAIN false
  let s2 := answerWaiting s1
  let s3 := childSync (maskSync { s2 with rng := { s2.rng with
    seeded := false, masks := false, maskSeeds := [], services := false, children := [], drbgs := [], wanting := [], fifo := []
    words := [], chanReads := [], raw := [], root := ⟨[], []⟩ } })
  setFlag (setFlag s3 Reg.RNG_STAT_READY false) Reg.RNG_STAT_ERR true

/-- Every block stops: the scheduler's fence, changes of slices and gates that are staged, and the posts' requests. -/
def safeStop (s : State) : State :=
  let s1 := { s with
    tick := { s.tick with fence := none, testNeedle := none, suiteFails := [] }
    slices := s.slices.map (fun x => (x.1, { x.2 with change := none, stagedCfg := none, resumeStaged := none }))
    posts := s.posts.map (fun p => (p.1, { p.2 with run := false, held := none })) }
  setFlag (setFlag s1 Reg.TIK_STAT_FENCE false) Reg.TIK_STAT_SUITE false

/-- Entry to the safe state. -/
def enterSafe (s : State) : State :=
  if s.faults.safe then { s with faults := { s.faults with safeDue := false } }
  else
    let s1 := setFlag { s with faults := { s.faults with safe := true, safeDue := false } } Reg.FCL_STAT_SAFE true
    let s2 := safeZeroise (safeQueues (classOneEnd s1))
    linkForget (ofcSafe (nvSafe (safeStop s2)))

/-- A SAFE response that has fired is carried out. -/
def safeIfDue (s : State) : State := if s.faults.safeDue then enterSafe s else s

/-- SAFE_STATE_ENTRY. -/
def execSafeStateEntry (s : State) : Host.Outcome State Fault Refusal :=
  .next (if s.boot.held then s else safeIfDue s)

end Sys2Proof.Machine
end

