-- ==== Sys2Proof/Machine/Tick.lean ====
section
/-!
DEFINITION. The start of a tick's working span (02_tick R27, R43, 12_shuttle R271–R273, R511): drains, stalls, the reads
that fetch the next stitches' source, and the posts' time-slots; what is used of the engines in a tick; and lending in
WORK pacing (R33).
-/
namespace Sys2Proof.Machine
open Sys2Proof

/-! ### Stalls (R43) -/

/-- A running data-path context whose stitches still run. -/
def stitching (n : Nat) (c : Ctx) : Bool := n < 4032 && c.phase == .running && !c.refused && c.fail.isNone

/-- Units of the context fall in tick `t`. -/
def dueIn (c : Ctx) (t : Nat) : Bool := (unitsIn c t).1 < (unitsIn c t).2

/-- The context's plan that has not run by the end of tick `t` moves to the next tick of its class; `fed` of its units
have run by then. -/
def moveCtx (t fed : Nat) (c : Ctx) : Ctx :=
  let c := { c with floorOld := (unitsIn c t).1 - c.lent, floorNew := fed - c.lent, floorAt := t }
  if clPurlin ≤ c.cls && c.cls < clNone then
    let last := ownedNth (c.place.drop 1) (c.lastTick + 1) 1
    let d := last - c.lastTick
    { c with owed := c.owed + 1, lastTick := last, release := c.release + d, late := c.late + d }
  else { c with s0 := c.s0 + 1, lastTick := c.lastTick + 1, release := c.release + 1, late := c.late + 1 }

/-- Later in the same group's plan of a class, with units left to run. -/
def behind (c d : Ctx) (t : Nat) : Bool :=
  d.gid == c.gid && d.cls == c.cls && c.order < d.order && (unitsIn d t).1 < d.units

/-- Capacity that waits for a plan to run waits for the moved plan (R45). -/
def moveReturning (c : Ctx) (t : Nat) (r : Returning) : Returning :=
  if r.key != planKey c.gid c.cls || r.until_ < t then r
  else if clPurlin ≤ c.cls && c.cls < clNone then { r with until_ := ownedNth (c.place.drop 1) (r.until_ + 1) 1 }
  else { r with until_ := r.until_ + 1 }

/-- Companion phases that lie ahead follow a moved command's charged work. -/
def moveCompEnd (s : State) (c : Ctx) (t : Nat) : State :=
  let bump := fun (s : State) (k : Nat) =>
    let e := tget 0 s.compEnd k
    if e < t then s else { s with compEnd := tput 0 s.compEnd k (e + 1) }
  let s1 := if c.k > 1 && c.vltAt != [] then bump s (2 * c.gid) else s
  if c.hshAt.isSome then bump s1 (2 * c.gid + 1) else s1

/-- A stall of context `n` at tick `t`, `fed` of its units having run by then: its group's remaining plan moves, later
commands included. -/
def stallPlan (s : State) (n : Nat) (c : Ctx) (t fed : Nat) : State :=
  let s1 := { s with
    ctxs := s.ctxs.map (fun e =>
      if e.1 == n then (e.1, moveCtx t fed e.2)
      else if e.1 < 4032 && e.2.phase == .running && !e.2.refused && behind c e.2 t then
        (e.1, moveCtx t (unitsIn e.2 t).1 e.2)
      else e)
    returning := s.returning.map (moveReturning c t) }
  let p := getPlan s1 c.gid c.cls
  let l := if clPurlin ≤ c.cls && c.cls < clNone then ownedNth (c.place.drop 1) (p.last + 1) 1 else p.last + 1
  event (countReg (moveCompEnd (setPlan s1 c.gid c.cls ⟨l, l, 0⟩) c t) Reg.TIK_STALL_CNT 1) Reg.TIK_EVT_STALL

/-- Output of the context that was due found no data link slot in this tick (R272). -/
def outputWaits (s : State) (c : Ctx) (t : Nat) : Bool :=
  !c.dstStop && c.drained < drainTarget c t && (roomOut s c.gid).isSome

/-- Units of a context that have run by the end of tick `t` where no stitch past the source that has come runs. -/
def fedThrough (c : Ctx) (t : Nat) : Nat := max (unitsIn c t).1 (min (unitsIn c t).2 (unitsFed c))

/-- One context at the start of tick `t`: the stitches whose data has come run, and the first one without stalls the
plan behind it; output that waits for a link slot stalls it whole. `x.2` holds the plans that a stall has moved already. -/
def stallCtx (t : Nat) (x : State × List Nat) (n : Nat) : State × List Nat :=
  let s := x.1
  match getCtx s n with
  | none => x
  | some c =>
    let waits := outputWaits s c t
    if !stitching n c || !(dueIn c t || waits) || x.2.contains (planKey c.gid c.cls) then x
    else
      let lack := dueIn c t && c.src.length < srcNeed c (unitsIn c t).2
      let whole := waits || (getSlice s c.slice).busOff
      if lack && c.srcFail then
        (if c.status == 0 then setCtx s n { c with fail := some (stHostAccess, unitsFed c) } else s, x.2)
      else if lack && c.srcGate && c.asked ≤ c.src.length then
        (if c.status == 0 then setCtx s n { c with fail := some (stGate, unitsFed c) } else s, x.2)
      else if lack || whole then
        (stallPlan s n c t (if whole then (unitsIn c t).1 else fedThrough c t), x.2 ++ [planKey c.gid c.cls])
      else x

/-- Every stall of the tick. -/
def stalls (s : State) (t : Nat) : State :=
  (byAdmission s (s.ctxs.map (·.1))).foldl (stallCtx t) (s, []) |>.1

/-! ### Source reads (R511, R272, R273) -/

/-- Asks the host for the source of the units of tick `t` + 1, as far as data link slots go, up to the first piece that
gate 14 refuses. -/
def askCtx (t : Nat) (s : State) (n : Nat) : State :=
  match getCtx s n with
  | none => s
  | some c =>
    let want := srcNeed c (unitsThrough c (t + 1)) - c.asked
    if !stitching n c || c.srcFail || c.srcGate || want == 0 || (getSlice s c.slice).busOff || s.link.down then s
    else
      let a := eSrc c.entry + c.asked
      let fit := roomBytes (roomIn s c.gid) a want
      let m := linkPrefix s c.slice .read (fit / 64 + 2) a fit
      let k := pieceCount a m
      let s1 := if m == 0 then s else
        useIn (countPiece (emit s (.hostRead c.slice (pasidOf s c.slice c.queue) a m)) (ctxBent c) 0 k) c.gid k
      if m == fit then
        setCtx (shortPieces s1 (pieceCount a want - pieceCount a fit)) n { c with asked := c.asked + m }
      else
        let s2 := countF (planFault (linkAccess s1 c.slice (a + m) .read).2 c.slice (ctxBent c) 2 (c.asked + m))
          Reg.SHT_GATE_CNT_N 1
        setCtx s2 n { c with asked := c.asked + m, srcGate := true }

/-! ### Posts (R328) -/

/-- Post units of the tick that a post runs, or a control slot's share: the context that the time-slot serves. -/
def slotOwner (s : State) (t p : Nat) : Option (Nat × Bool) :=
  let works := s.ctxs.filter (fun e => stitching e.1 e.2 && e.2.cls == clPost && dueIn e.2 t &&
    ((List.range ((unitsIn e.2 t).2 - (unitsIn e.2 t).1)).any (fun i => unitPlace e.2 ((unitsIn e.2 t).1 + i) == some p)))
  match works.head? with
  | some e => some (e.1, true)
  | none =>
    let mine := s.ctxs.filter (fun e => stitching e.1 e.2 && e.2.k != 0 && e.2.ctrlAt.contains p &&
      (e.2.admitted + 1 == t || e.2.release == t + 1) && sharePost s e.2 t == some p)
    (byAdmission s (mine.map (·.1))).head?.map (fun n => (n, false))

/-- The kerf leaves a slotted post cleared, with its time-slot of the coming tick `t` (R328, R327). -/
def kerfPost (t : Nat) (s : State) (p : Nat) : State :=
  let o := slotOwner s t p
  let x := clearedPost (getPost s p)
  let sl := match o with
    | some e => match getCtx s e.1 with
      | some c => c.slice
      | none => 0
    | none => 0
  let w := match o with
    | some e => e.2
    | none => false
  clearDepth (setPost s p { x with
    owner := o.map (·.1), slice := sl, work := w, rswrap := flag s (pstFld p Reg.PST_CTRL_RSWRAP) }) p

/-- Slotted posts are cleared and planned once the frame serves; the management posts' words follow the kerf. -/
def kerfPosts (t : Nat) (s : State) : State :=
  let s1 := if running s then ((List.range 30).map (· + 2)).foldl (kerfPost t) s else s
  [0, 1].foldl (fun s p => setPost s p { getPost s p with rswrap := flag s (pstFld p Reg.PST_CTRL_RSWRAP) }) s1

/-- Post cycle 0: planned posts start at their dispatch entry; the management posts run on. -/
def startPosts (s : State) : State :=
  let s1 := ((List.range 30).map (· + 2)).foldl (fun s p =>
    let x := getPost s p
    if x.owner.isSome && !postHalted s p && !flag s (pstFld p Reg.PST_STAT_STOPPED) then setPost s p (dispatchPost x)
    else s) s
  [0, 1].foldl (fun s p => setPost s p { getPost s p with cyc := 0, ready := [], stores := [] }) s1

/-! ### TICK_START -/

/-- The contexts in the order in which the link serves them: of admission, and in WORK pacing of global queue-group number
first (R272). -/
def linkOrder (s : State) : List Nat :=
  let ns := byAdmission s (s.ctxs.map (·.1))
  if flag s Reg.TIK_STAT_PACE_ACT then
    (allGroups s).flatMap (fun g => ns.filter (fun n => match getCtx s n with
      | some c => n < 4032 && c.gid == gidOf g.1 g.2
      | none => false))
  else ns.filter (· < 4032)

/-- The pieces counted in the tick that ended are what SHT_UTIL shows. -/
def rollPieces (s : State) : State :=
  { s with pieces := (List.range 8).flatMap (fun b =>
      [(4 * b + 2, tget 0 s.pieces (4 * b)), (4 * b + 3, tget 0 s.pieces (4 * b + 1))].filter (fun e => e.2 != 0)) }

/-- The tick counter runs: reset has been released and the die is not held (R28). -/
def ticking (s : State) : Bool := s.boot.begun && !s.boot.held

/-- The span of tick `t` is open. -/
def openTick (t : Nat) (s : State) : State := { s with tick := { s.tick with span := true, count := t } }

/-- The working span of the tick that is counted begins. -/
def tickStartEffect (s0 : State) : State :=
  if !ticking s0 || s0.tick.span then s0
  else
    let s := safeIfDue s0
    let s1 := { s with tick := { s.tick with egress := [], inUsed := [], outUsed := [] } }
    if s1.faults.safe then openTick s0.tick.count s1
    else
      let t := s1.tick.count
      let ns := linkOrder s1
      let s2 := ns.foldl (fun s n => drainCtx true s n t) (rollPieces (startPosts s1))
      let s3 := ns.foldl (askCtx t) (stalls s2 t)
      openTick t (refillRng (refetch s3))

def execTickStart (s : State) : Host.Outcome State Fault Refusal := .next (tickStartEffect s)

/-! ### What a tick used (05_needles R142, 10_seam_signatures R253, R254) -/

/-- Units that a context ran in tick `t`, from its first to one past its last. A command that failed at admission runs
its planned stitches too (R39). -/
def ranIn (n : Nat) (c : Ctx) (t : Nat) : Nat × Nat := if stitching n c then unitsIn c t else (0, 0)

/-- Compressions of a hash command's first `u` units. -/
def compsThrough (c : Ctx) (u : Nat) : Nat :=
  if eOp c.entry == opHash then min (4 * u) (hashComps (bitsAt (eParam c.entry) 0 4) (eLen c.entry)) else 4 * u

/-- Hash units of a command's companion phase that have run by the end of tick `t` (R87). -/
def compHashThrough (c : Ctx) (t : Nat) : Nat :=
  match c.hshAt with
  | none => 0
  | some x => if t ≤ c.lastTick then 0 else min (compHashUnits c.entry) ((t - c.lastTick) * x.2)

/-- TDES operations of `n` PIN blocks: one for each block under a TDES key. -/
def tdesOps (s : State) (c : Ctx) (n : Nat) : Nat :=
  n * (b2n (typTdes (useKey s c.keyA).typ) + b2n (typTdes (useKey s c.keyB).typ))

/-- PIN blocks that a post command's first `u` units have run. -/
def pinsThrough (c : Ctx) (u : Nat) : Nat :=
  if eOp c.entry == opPinTranslate then grainItems c.entry 48 (fmtGrains (pInFmt c.entry) + fmtGrains (pOutFmt c.entry)) u
  else if eOp c.entry == opPinVerify then min 1 u
  else 0

/-! #### The stitch slots of a tick, and the rotating test's moves (R47, R118, R122) -/

/-- The needle stitches of a context in tick `t`: 128 × needle + slot, those of its work slots' lanes included. -/
def stitchSpots (t : Nat) (e : Nat × Ctx) : List Nat :=
  let c := e.2
  let u := if stitching e.1 c then ownIn c t else (0, 0)
  let js := (List.range (u.2 - u.1)).map (· + u.1)
  if c.cls == clNeedle then js.filterMap (spotAt c)
  else if c.cls == clPost then js.flatMap (laneAtPlan c)
  else []

/-- Adds an element to the list under a key, once. -/
def putOnce (l : List (Nat × List Nat)) (k x : Nat) : List (Nat × List Nat) :=
  let m := tget [] l k
  if m.contains x then l else tput [] l k (m ++ [x])

/-- The key slots and mode contexts of one command on the needles that carry its stitches of tick `t`. -/
def loadWindows (t : Nat) (s : State) (e : Nat × Ctx) : State :=
  let c := e.2
  let ks := (c.keyA.toList ++ c.keyB.toList).map (·.slot)
  let ms := if eOp c.entry == opTranslate then [2 * e.1, 2 * e.1 + 1] else [2 * e.1]
  if c.cls != clNeedle then s
  else (((stitchSpots t e).map (· / 128)).eraseDups).foldl (fun s n =>
    { s with tick := { s.tick with
      keyWin := ks.foldl (fun l k => putOnce l n k) s.tick.keyWin
      modeCtx := ms.foldl (fun l m => putOnce l n m) s.tick.modeCtx } }) s

/-- Step 6 places the keys and mode contexts of tick `t` on the needles (R119). -/
def kerfWindows (t : Nat) (s : State) : State :=
  s.ctxs.foldl (loadWindows t) { s with tick := { s.tick with keyWin := [], modeCtx := [] } }

/-- Vault slots that run in tick `t`: those of commands, and the sweep's or the rebase walk's 12 (R189). -/
def vaultSlotsIn (s : State) (t : Nat) : Nat :=
  let of_ := fun (c : Ctx) => slotsThrough c t - (if t == 0 then 0 else slotsThrough c (t - 1))
  let mine := s.ctxs.foldl (fun m e => if e.1 < 4032 && e.2.phase == .running && !e.2.refused then m + of_ e.2 else m) 0
  let walks := s.vault.sweep.isSome || s.vault.chains.any (fun c => c.2.rebase.isSome)
  s.ghosts.foldl (fun m c => m + of_ c) mine + (if walks then 12 else 0)

/-- The stitches of a tick as they run together: a serial command's as one bundle, every other alone. -/
def stitchBundles (s : State) (t : Nat) : List (List Nat) :=
  (s.ctxs.filter (fun e => e.2.serial)).map (stitchSpots t) ++
  (s.ctxs.filter (fun e => !e.2.serial)).flatMap (fun e => (stitchSpots t e).map (fun x => [x])) ++
  (s.devNdl.take (9 * vaultSlotsIn s t)).map (fun x => [128 * x.1 + x.2])

/-- The first cover triple that has room for a bundle takes it. A triple is a needle and the room left. -/
def coverFill (k : Nat) : List (Nat × Nat) → Option (Nat × List (Nat × Nat))
  | [] => none
  | (n, room) :: r =>
    if k ≤ room then some (n, (n, room - k) :: r)
    else (coverFill k r).map (fun x => (x.1, (n, room) :: x.2))

/-- The cover triples of the needles that take the stitches of needle `n` on its test tick: {22, 64, 106} and
{43, 85, 127} of each other needle that is not halted, in ascending order. -/
def coverTriples (s : State) (n : Nat) : List (Nat × Nat) :=
  ((List.range 24).filter (fun m => m != n && !needleHalted s m)).flatMap (fun m => [(m, 3), (m, 3)])

/-- The needles that carry the stitches of a tick, one entry for each, on a test tick of needle `n`. -/
def movedNeedles (s : State) (t n : Nat) : List Nat :=
  ((stitchBundles s t).foldl (fun (x : List Nat × List (Nat × Nat)) b =>
    let here := b.filter (fun i => i / 128 == n)
    let rest := (b.filter (fun i => i / 128 != n)).map (· / 128)
    if here.isEmpty then (rest ++ x.1, x.2)
    else match coverFill here.length x.2 with
      | some (m, r) => (List.replicate here.length m ++ rest ++ x.1, r)
      | none => (rest ++ x.1, x.2)) ([], coverTriples s n)).1

/-- Needle stitches that run in capacity lent in tick `t`. -/
def lentStitches (s : State) (t : Nat) : Nat :=
  s.ctxs.foldl (fun m e => if stitching e.1 e.2 && e.2.cls == clNeedle && e.2.lentAt == t then m + (e.2.lent - e.2.lentOld)
    else m) 0

/-- The idle schedulable slots of a tick, in ascending order of needle and slot; a needle under test has none. -/
def idleSpots (s : State) (t : Nat) (test : Option Nat) : List Nat :=
  let busy := (stitchBundles s t).flatten
  (List.range 3072).filter (fun i =>
    schedSlot (i % 128) && test != some (i / 128) && !needleHalted s (i / 128) && !busy.contains i)

/-- The needles that carry the stitches of a tick; `test` is the needle under test. Lent stitches take the first idle
slots. -/
def carryingNeedles (s : State) (t : Nat) (test : Option Nat) : List Nat :=
  let own := match test with
    | none => (stitchBundles s t).flatten.map (· / 128)
    | some n => movedNeedles s t n
  let k := lentStitches s t
  if k == 0 then own else ((idleSpots s t test).take k).map (· / 128) ++ own

/-- The uses of one context but those of needles. -/
def useCtx (t : Nat) (s : State) (e : Nat × Ctx) : State :=
  let c := e.2
  let u := ranIn e.1 c t
  let k := u.2 - u.1
  let h := compHashThrough c t - (if t == 0 then 0 else compHashThrough c (t - 1))
  let s := match c.hshAt with
    | some x => if stitching e.1 c && h != 0 then
        { s with tick := { s.tick with hshUsed := bumpAt s.tick.hshUsed x.1 h }, opCounts := bumpAt s.opCounts (16 + x.1) (4 * h) }
      else s
    | none => s
  if k == 0 then s
  else if c.cls == clHash then
    let h := (c.place.head?).getD 0
    let n := compsThrough c u.2 - compsThrough c u.1
    { s with tick := { s.tick with hshUsed := bumpAt s.tick.hshUsed h k }, opCounts := bumpAt s.opCounts (16 + h) n }
  else if c.cls == clPost then
    { s with opCounts := bumpAt s.opCounts 0 (tdesOps s c (pinsThrough c u.2 - pinsThrough c u.1)) }
  else if clPurlin ≤ c.cls && c.cls < clNone then
    let p := c.cls - clPurlin
    let used := (p * 16 + t % 16, t) :: s.tick.purUsed.filter (fun x => x.1 != p * 16 + t % 16 && t < x.2 + 16)
    { s with tick := { s.tick with purUsed := used }
             opCounts := if u.2 == c.units then bumpAt s.opCounts (1 + p) 1 else s.opCounts }
  else s

/-- What the engines did in tick `t`, in which `test` was the needle under test. -/
def tickUse (test : Option Nat) (s : State) (t : Nat) : State :=
  let ndl := (carryingNeedles s t test).foldl (fun l n => bumpAt l n 1) []
  s.ctxs.foldl (useCtx t) { s with tick := { s.tick with ndlUsed := ndl, hshUsed := [] } }

/-! ### Lending in WORK pacing (R33) -/

/-- Schedulable units of a class in one tick on the units that are not halted. -/
def classRoom (s : State) (cls : Nat) : Nat :=
  let live := fun (n : Nat) (f : Nat → Bool) => ((List.range n).filter (fun i => !f i)).length
  if cls == clNeedle then 120 * live 24 (needleHalted s)
  else if cls == clHash then 16 * live 8 (hashHalted s) - (if s.upkeep then 4 * live 8 (hashHalted s) else 0)
  else if cls == clVault then (if s.faults.vaultHalted then 0 else vaultSchedulable s)
  else if cls == clPost then ((List.range 32).filter (fun p => 2 ≤ p && !postHalted s p)).length
  else b2n (!purlinHalted s (cls - clPurlin))

/-- Units of a class that the plan runs in tick `t`: charged work, companion phases, lanes of work slots, and the vault
engine's own needle allotment. -/
def classUsed (s : State) (cls t : Nat) : Nat :=
  if cls == clNeedle then (stitchBundles s t).foldl (fun n b => n + b.length) 0
  else s.ctxs.foldl (fun m e =>
    let u := if stitching e.1 e.2 then ownIn e.2 t else (0, 0)
    let back := if t == 0 then 0 else t - 1
    let comp := if !stitching e.1 e.2 then 0
      else if cls == clVault && e.2.cls != clVault then slotsThrough e.2 t - slotsThrough e.2 back
      else if cls == clHash then compHashThrough e.2 t - compHashThrough e.2 back
      else 0
    m + (if e.2.cls == cls then u.2 - u.1 else 0) + comp) 0

/-- Further slots of its serial needle, idle in tick `t`, that a serial command may borrow: at most 3 with its own,
pairwise at least 30 apart (R122, R123). -/
def serialRoom (s : State) (c : Ctx) (t : Nat) : Nat :=
  match c.place.head? with
  | none => 0
  | some x =>
    let n := x / 128
    let busy := (stitchBundles s t).flatten
    let own := (c.place.take c.rate).map (· % 128)
    let idle := (List.range 128).filter (fun i => schedSlot i && !busy.contains (128 * n + i) && own.all (apart30 i))
    (List.range (4 - min 4 c.rate)).foldl (fun m k => if k ≤ 3 - c.rate && hasApart idle k then max m k else m) 0

/-- A context that may take lent capacity: begun, its index assigned, without a failure, with fed units that have not
run. -/
def borrows (e : Nat × Ctx) (cls t : Nat) : Bool :=
  let c := e.2
  stitching e.1 c && c.status == 0 && c.cls == cls && begunBy c t && c.lmsPair.isSome == c.lmsIndex.isSome &&
  unitsThrough c t < min c.units (unitsFed c)

/-- A context with `n` lent units. -/
def lendTo (c : Ctx) (t n : Nat) : Ctx :=
  let old := if c.lentAt == t then c.lentOld else c.lent
  let d := { c with lent := c.lent + n, lentAt := t, lentOld := old }
  if unitsThrough d t == d.units && d.k == 0 && t < d.lastTick then { d with lastTick := t } else d

/-- After the tick's work: a command whose last unit ran early, and that has not failed, is released in the next kerf;
no companion phase or control share fixes its end. A failing one keeps its formula tick (R39). -/
def releaseLent (t : Nat) (s : State) : State :=
  { s with ctxs := s.ctxs.map (fun e =>
      let c := e.2
      if stitching e.1 c && c.status == 0 && c.lentAt == t && c.lent != 0 && c.k == 0 && c.lastTick == t &&
          unitsThrough c t == c.units && t + 1 < c.release &&
          (match c.result with | some r => r.status == stOk | none => true) then
        (e.1, { c with release := t + 1 })
      else e) }

/-- Lends to one group's contexts, first in, first out. -/
def lendGroup (cls t : Nat) (x : State × Nat) (gid : Nat) : State × Nat :=
  let ns := byAdmission x.1 ((x.1.ctxs.filter (fun e => e.2.gid == gid && borrows e cls t)).map (·.1))
  ns.foldl (fun x n => match getCtx x.1 n with
    | none => x
    | some c =>
      let k0 := min x.2 (min c.units (unitsFed c) - unitsThrough c t)
      let k := if c.serial then min k0 (serialRoom x.1 c t) else k0
      if k == 0 then x else (setCtx x.1 n (lendTo c t k), x.2 - k)) x

/-- The groups from number `t` mod 4,096 onward, wrapping. -/
def lendOrder (s : State) (t : Nat) : List Nat :=
  let gs := (allGroups s).map (fun g => gidOf g.1 g.2)
  gs.filter (fun g => t % 4096 ≤ g) ++ gs.filter (fun g => g < t % 4096)

def lendClass (t : Nat) (s : State) (cls : Nat) : State :=
  ((lendOrder s t).foldl (lendGroup cls t) (s, classRoom s cls - classUsed s cls t)).1

/-- The lending of tick `t`; none in STRICT pacing. -/
def lending (s : State) (t : Nat) : State :=
  if flag s Reg.TIK_STAT_PACE_ACT then
    ([clNeedle, clHash, clVault, clPost] ++ (List.range 8).map (· + clPurlin)).foldl (lendClass t) s
  else s

end Sys2Proof.Machine
end

