-- ==== Sys2Proof/Machine/Kerf.lean ====
section
/-!
DEFINITION. The kerf (02_tick R29): the eight steps in their order, with what the tick that ends still owes before them;
fences (R48, R49), the rotating self-test (R47), tick overruns (R50) and the governor (R51, R52).
-/
namespace Sys2Proof.Machine
open Sys2Proof

/-! ### Fences (R48, R49) -/

/-- A command still has planned work after tick `t`. -/
def worksAfter (n : Nat) (c : Ctx) (t : Nat) : Bool :=
  n < 4032 && c.phase == .running && t < endTick c && t < c.release

/-- The drain has ended: the suite phase begins, and what still holds planned stitches ends with ST_ABORTED. -/
def suiteStart (s : State) : State :=
  match s.tick.fence with
  | none => s
  | some f =>
    if f.l == 0 || f.suite || s.tick.count < f.k + f.d then s
    else
      let left := s.ctxs.filter (fun e => e.1 != f.ctx && worksAfter e.1 e.2 s.tick.count)
      let s1 := (byAdmission s (left.map (·.1))).foldl (fun s n => endEarly s n stAborted) s
      setFlag { s1 with tick := { s1.tick with fence := some { f with suite := true } } } Reg.TIK_STAT_SUITE true

/-- FENCE_SUITE_START: the kerf's phase change in tick k + D; nothing at any other time. -/
def execFenceSuiteStart (s : State) : Host.Outcome State Fault Refusal :=
  .next (if s.faults.safe || s.boot.held then s else inKerf suiteStart s)

/-- A unit's failure in the suite: its fault source fires, for the fence's SELFTEST. -/
def suiteFail (n base count mask : Nat) (s : State) : State :=
  ((List.range count).filter (bitAt mask)).foldl
    (fun s i => fire s ⟨base + i, none, some n, some stSelftestFail, 0, 0, 0, 0, false⟩) s

/-- The units that the suite tests and that fail: it skips a halted one (23_mode_combinations row k). -/
def suiteMask (count : Nat) (halted : Nat → Bool) (mask : Nat) : Nat :=
  (((List.range count).filter (fun i => bitAt mask i && !halted i)).map (fun i => 2 ^ i)).foldl (· + ·) 0

/-- The fence ends in tick k + L, with the units that failed the suite: its SELFTEST has its result. -/
def fenceEnd (ndlFail lduFail purFail hshFail : Nat) (s : State) : State :=
  match s.tick.fence with
  | none => s
  | some f =>
    if f.l == 0 || s.tick.count < f.k + f.l then s
    else
      let ndl := suiteMask 24 (needleHalted s) ndlFail
      let ldu := suiteMask 8 (lduHalted s) lduFail
      let pur := suiteMask 8 (purlinHalted s) purFail
      let hsh := suiteMask 8 (hashHalted s) hshFail
      let bad := ndl != 0 || ldu != 0 || pur != 0 || hsh != 0
      let s1 := match getCtx s f.ctx with
        | some c => if c.phase == .running && bad then setCtx s f.ctx { c with result := some (resStatus stSelftestFail) } else s
        | none => s
      let s2 := suiteFail f.ctx srcNdlKat 24 ndl s1
      let s3 := suiteFail f.ctx srcHshKat 8 hsh (suiteFail f.ctx srcPurKat 8 pur (suiteFail f.ctx srcLduKat 8 ldu s2))
      let s4 := { s3 with tick := { s3.tick with fence := none, suiteFails := [] } }
      event (setFlag (setFlag s4 Reg.TIK_STAT_FENCE false) Reg.TIK_STAT_SUITE false) Reg.TIK_EVT_FENCE_END

/-- FENCE_END: in the span of tick k + L, the units that fail are kept for its kerf; in the kerf itself the fence
ends. -/
def fenceEndEffect (ndlFail lduFail purFail hshFail : Nat) (s : State) : State :=
  if s.faults.safe || s.boot.held then s
  else if s.tick.span then
    match s.tick.fence with
    | none => s
    | some f =>
      if f.l == 0 || s.tick.count < f.k + f.l then s
      else { s with tick := { s.tick with suiteFails := [ndlFail, lduFail, purFail, hshFail] } }
  else inKerf (fenceEnd ndlFail lduFail purFail hshFail) s

def execFenceEnd (ndlFail lduFail purFail hshFail : Nat) (s : State) : Host.Outcome State Fault Refusal :=
  .next (fenceEndEffect ndlFail lduFail purFail hshFail s)

/-! ### The rotating test (R47, R138) -/

/-- Step 7: the needle of the coming tick `t`, where that is a test tick outside a suite phase. -/
def selectTest (t : Nat) (s : State) : State :=
  let n := t / 4096 % 24
  let suite := match s.tick.fence with
    | some f => f.suite
    | none => false
  if t % 4096 == 4095 && !suite && !needleHalted s n && flag s Reg.NDL_STAT_READY then
    setF { s with tick := { s.tick with testNeedle := some n } } Reg.TIK_STAT_ROT_NDL n
  else { s with tick := { s.tick with testNeedle := none } }

/-- The test of the selected needle runs. -/
def rotate (pass : Bool) (s : State) : State :=
  match s.tick.testNeedle with
  | none => s
  | some n =>
    let s1 := setReg { s with tick := { s.tick with testNeedle := none } } Reg.NDL_KAT_TICK (BitVec.ofNat 32 s.tick.count)
    let s2 := countF s1 Reg.NDL_KAT_CNT_N 1
    if pass then s2 else fire s2 ⟨srcNdlKat + n, none, none, none, 0, 0, 0, 0, false⟩

/-- ROTATING_TEST. -/
def execRotatingTest (pass : Bool) (s : State) : Host.Outcome State Fault Refusal :=
  .next (if s.tick.span && !s.faults.safe then rotate pass s else s)

/-! ### Tick overruns (R50) -/

/-- The scheduler raises TIK_OVERRUN for a post and the command of its time-slot. -/
def overrun (s : State) (p n : Nat) (c : Ctx) : State :=
  let s1 := setF (setF (setF s Reg.TIK_OVR_INFO_POST p) Reg.TIK_OVR_INFO_SLICE c.slice) Reg.TIK_OVR_INFO_CMD (eId c.entry)
  let s2 := event (countReg s1 Reg.TIK_OVR_CNT 1) Reg.TIK_EVT_OVERRUN
  fireAt s2 ⟨srcTikOverrun, some c.slice, some n, none, 0, p, 0, 0, false⟩ 1984

/-- A slotted post whose stitch program still runs is stopped. -/
def overrunPost (s : State) (p : Nat) : State :=
  let x := getPost s p
  if x.issued && (x.run || 992 < x.cyc) then
    let s1 := setPost s p { x with run := false, issued := false }
    match x.owner with
    | none => s1
    | some n => match getCtx s1 n with
      | some c => overrun s1 p n c
      | none => s1
  else s

/-- An INFILL_CALL whose last link has not returned (R116). -/
def overrunInfill (t : Nat) (s : State) (e : Nat × Ctx) : State :=
  let c := e.2
  if e.1 < 4032 && eOp c.entry == opInfill && working c && c.result.isNone && c.lastTick == t && srcDone c then
    overrun s ((unitPlace c (c.units - 1)).getD 2) e.1 c
  else s

def overruns (s : State) : State :=
  let s1 := ((List.range 30).map (· + 2)).foldl overrunPost s
  s1.ctxs.foldl (overrunInfill s.tick.count) s1

/-! ### What the tick that ends still owes -/

/-- Puts slots in ascending order of slot number. -/
def insertSlot (x : Nat × Nat) : List (Nat × Nat) → List (Nat × Nat)
  | [] => [x]
  | y :: r => if x.1 ≤ y.1 then x :: y :: r else y :: insertSlot x r

/-- The planned vault slots of a context in tick `t`, each with its slot number. Lent ones run after them. -/
def slotsOf_ (t : Nat) (e : Nat × Ctx) : List (Nat × Nat) :=
  let u := if e.2.cls == clVault then ownIn e.2 t else ((if t == 0 then 0 else slotsThrough e.2 (t - 1)), slotsThrough e.2 t)
  (List.range (u.2 - u.1)).map (fun i => (vaultSpot e.2 (u.1 + i), e.1))

/-- The vault slots of tick `t` in their order: slot number and the context that runs in it (R219). Aborted commands
follow the context numbers, by their place in the list from 4096 on. -/
def slotOrder (s : State) (t : Nat) : List (Nat × Nat) :=
  let mine := s.ctxs.filter (fun e => e.1 < 4032 && e.2.phase == .running && !e.2.refused)
  let gone := (List.range s.ghosts.length).filterMap (fun i => (s.ghosts[i]?).map (fun c => (4096 + i, c)))
  ((mine ++ gone).flatMap (slotsOf_ t)).foldr insertSlot []

/-- An aborted command's slot runs idle. -/
def ghostSlot (s : State) (i : Nat) : State :=
  match s.ghosts[i]? with
  | none => s
  | some c => { idleSlot s c with ghosts := s.ghosts.set i { c with slots := c.slots + 1 } }

/-- One vault slot that has not run yet. -/
def oneSlot (t : Nat) (s : State) (x : Nat × Nat) : State :=
  if 4096 ≤ x.2 then ghostSlot s (x.2 - 4096)
  else match getCtx s x.2 with
  | some c => if (working c && slotFed c || idling c) && c.slots < slotsThrough c t then runSlots 1 s x.2 else s
  | none => s

/-- Aborted commands whose last planned slot has run are forgotten. -/
def dropGhosts (t : Nat) (s : State) : State := { s with ghosts := s.ghosts.filter (fun c => t < endTick c) }

/-- Where the source of an INFILL_CALL in context `n` is staged; the write area follows it. -/
def stageAddr (n : Nat) : Nat := 0x02000000 + 0x1000 * (Config.stagePage n % 0xBE0)

/-- A MEM tenon over `len` bytes, null over none. -/
def areaTenon (perm a len : Nat) : Tenon := if len == 0 then Tenon.null else Tenon.mk' 1 perm a (a + len - 1) 0 0

/-- A KEY tenon that gives the use of one handle, null for no handle (R333). -/
def useTenon (h : Nat) : Tenon := if h == 0 then Tenon.null else Tenon.mk' 2 1 h h 0 0

/-- The source of an INFILL_CALL is staged into the loft in tick a + 1, and the state of its first link stands in the
command's context (R116, R328). -/
def stageInfill (s : State) (e : Nat × Ctx) : State :=
  let c := e.2
  if eOp c.entry != opInfill || !working c || !srcDone c || c.link != [] then s
  else
    let a := stageAddr e.1
    let arg := fun (i : Nat) => BitVec.ofNat 32 (leAt c.entry (0x2C + 4 * i) 4)
    let c1 := { c with
      link := (List.range 5).map arg ++ [BitVec.ofNat 32 a, BitVec.ofNat 32 (eLen c.entry), BitVec.ofNat 32 (eCap c.entry)]
      linkT := [areaTenon 1 a (eLen c.entry), areaTenon 2 (a + 0x10000) (eCap c.entry),
        useTenon (eKeyA c.entry), useTenon (eKeyB c.entry)] }
    setCtx (memWrite s a (c.src.take (eLen c.entry))) e.1 c1

/-- The work of tick `t` that no row has run: vault slots in their order, then every context in order of admission. -/
def finishWork (s : State) (t : Nat) : State :=
  let s1 := (slotOrder s t).foldl (oneSlot t) (s.ctxs.foldl stageInfill s)
  let ns := (byAdmission s1 (s1.ctxs.map (·.1))).filter (· < 4032)
  dropGhosts t (releaseLent t (ns.foldl (fun s n => advance (overReserved s n) n t) s1))

/-- PG_CHECK of every page whose configuration changed before this kerf (R485). -/
def kerfChecks (s : State) : State :=
  s.tick.recheck.foldl (fun s p => setReg s (p * 0x1000 + 0x1C) (pageCrc s p))
    { s with tick := { s.tick with recheck := [] } }

/-- Posted writes have been accepted, the rotating test has run, the overruns are raised, the tick's work is done. -/
def tickEnd (s : State) : State :=
  let t := s.tick.count
  let test := s.tick.testNeedle
  let s1 := kerfChecks (overruns (rotate true (kerfSill (releasePrev (drainPosted s (fun _ => true))))))
  let s2 := finishWork (lending s1 t) t
  kerfReservations (tickUse test s2 t)

/-! ### Step 4 -/

/-- LCY_STAT.EVAL: the evaluated configuration (00_scope R9, 23_mode_combinations R471). -/
def evaluated (s : State) : Bool :=
  approved s && lcyState s == lcyOperational && !flag s Reg.TIK_STAT_PACE_ACT &&
  (List.range 8).all (fun l => (getLoop s l).mode == 2) && !flag s Reg.THM_STAT_ARM_PEND && certOk s

/-- Staged changes commit: fence phases, gates, slices, imports, queues, guarded changes, keys, vault, LMS state, the
lifecycle; then completions of the commands that these end. -/
def kerfCommits (s : State) : State :=
  let m := fun (i : Nat) => s.tick.suiteFails.getD i 0
  let s1 := fenceEnd (m 0) (m 1) (m 2) (m 3) (suiteStart s)
  let s2 := kerfQueues (kerfImports (kerfSlices (kerfGates s1)))
  let s3 := kerfVendor (kerfGuard (kerfPfFlr s2))
  let s4 := kerfTombs (kerfVault (kstSync (activateRestored (kerfRecords s3))))
  let s5 := tamperLifecycle (kerfCapture (kerfDestroy s4))
  let s6 := ceremonyTimeoutEffect (sessionExpiry (freeInfill s5))
  releaseAdmin (setFlag s6 Reg.LCY_STAT_EVAL (evaluated s6))

/-! ### The governor (R51, R52, 24_wear R477) -/

def govStep (s : State) : Nat := getF s Reg.GOV_STAT_STEP
/-- Values 5 to 7 of GOV_FLOOR.STEP read as 4. -/
def govFloor (s : State) : Nat := min (getF s Reg.GOV_FLOOR_STEP) 4
/-- The fastest step allowed: 1 under the ageing ceiling, which holds from the kerf after the sample that reached the
limit. -/
def govFastest (s : State) : Nat :=
  let fresh := s.tick.count % 2 ^ 24 == 2 ^ 24 - 1 && !(s.wear.samples.drop 1).any (fun u => 3277 ≤ u.getD 5 0)
  if flag s Reg.WER_STAT_CEILING && !fresh then 1 else 0

/-- The step changes, and the glitch references with the supply. -/
def govMove (s : State) (step vdd : Nat) : State :=
  let s1 := countReg (setF s Reg.GOV_STAT_STEP step) Reg.GOV_CHG_CNT 1
  let s2 := setReg s1 Reg.GOV_CHG_TICK (BitVec.ofNat 32 s.tick.count)
  setF { s2 with tick := { s2.tick with calmSince := s.tick.count } } Reg.MON_GREF_MV vdd

/-- The glitch reference follows the filtered supply (R394): in a kerf without a change of step it moves towards the
measured level by an amount that no rule gives in millivolts (notes/assumptions/15.md). -/
def grefDrift (vdd : Nat) (s : State) : State :=
  let g := getF s Reg.MON_GREF_MV
  if g == vdd then s
  else if g < vdd then
    let d := drawBelow (vdd - g + 1) s
    setF d.2 Reg.MON_GREF_MV (g + d.1)
  else
    let d := drawBelow (g - vdd + 1) s
    setF d.2 Reg.MON_GREF_MV (g - d.1)

/-- The floor is broken. -/
def floorBroken (s : State) : State :=
  firePlain (setFlag s Reg.GOV_STAT_FLOOR_BROKEN true) srcGovFloor none

/-- An up-step is due: the dwell has passed since the last change, heat or droop. -/
def upDue (s : State) : Bool :=
  govFastest s < govStep s && s.tick.calmSince + 2 ^ getF s Reg.GOV_UPDWELL_N ≤ s.tick.count

/-- The governor's part of a kerf, with the junction temperature in °C and VDD_CORE in mV. -/
def kerfGovernor (temp : Int) (vdd : Nat) (s0 : State) : State :=
  let droop := vdd < getF s0 Reg.GOV_DROOP_MV
  let hot := (getF s0 Reg.GOV_THR_DOWN : Int) ≤ temp
  let hard := (getF s0 Reg.GOV_THR_HARD : Int) ≤ temp
  let calm := temp ≤ (getF s0 Reg.GOV_THR_UP : Int) && !droop
  let s1 := setFlag (if s0.tick.count == 0 then setF s0 Reg.MON_GREF_MV vdd else s0) Reg.GOV_STAT_DROOP droop
  let step := govStep s1
  let floor := govFloor s1
  let s2 := setFlag s1 Reg.GOV_STAT_TEMP_HOLD (hot && !hard && floor ≤ step)
  let s3 := if calm then s2 else { s2 with tick := { s2.tick with calmSince := s2.tick.count } }
  if step < govFastest s3 then
    (if floor == 0 then floorBroken (govMove s3 1 vdd) else govMove s3 1 vdd)
  else if step < 4 && ((hot && step < floor) || hard || droop) then
    (if floor < step + 1 then floorBroken (govMove s3 (step + 1) vdd) else govMove s3 (step + 1) vdd)
  else if calm && upDue s3 then govMove s3 (step - 1) vdd
  else grefDrift vdd s3

/-- GOVERNOR_STEP_UP: the kerf's up-step, where it is due and the kerf saw neither heat nor droop (R51). -/
def governorStepUpEffect (s : State) : State :=
  if s.boot.held || flag s Reg.GOV_STAT_DROOP || !upDue s then s
  else govMove s (govStep s - 1) (getF s Reg.MON_GREF_MV)

def execGovernorStepUp (s : State) : Host.Outcome State Fault Refusal := .next (inKerf governorStepUpEffect s)

/-- GOV_TEMP_UPDATE: the junction temperature, every 2^10 ticks. -/
def execGovTempUpdate (deg : Byte) (s : State) : Host.Outcome State Fault Refusal :=
  .next (if s.boot.held then s else setF s Reg.GOV_TEMP_DEG deg.toNat)

/-! ### KERF -/

/-- Steps 1 to 8. The indices of LMS that step 6 assigns go to commands planned before this kerf, whatever an abort, a
squash or a fault resolved in this kerf makes of them (R97), so they are assigned first. -/
def kerfSteps (s : State) : State :=
  let t := nextTick s.tick.count
  let s3 := kerfAborts (freeWritten (zeroiseSweep (kerfRelease (kerfResponses (kerfAssign s)))))
  let s5 := kerfAdmit (kerfCommits s3)
  let s6 := kerfWindows t (kerfPosts t s5)
  kerfReseed (selectTest t s6)

/-- Tick `t` ends: the counter advances to the next one. -/
def closeTick (t : Nat) (s : State) : State :=
  { s with tick := { s.tick with count := nextTick t, span := false } }

/-- The kerf in which TIK_STAT.RUN is set: the slices whose functions are enabled become ACTIVE, and the enables that
were held take effect (R62, R83). -/
def runBegins (before : Bool) (s : State) : State :=
  if !before && running s then kerfQueues ((sliceNums s).foldl activateSlice s) else s

/-- The kerf of the tick that is counted. In the safe state it only carries a tamper response's change of lifecycle
(R437), and the governor acts (23_mode_combinations row m). -/
def kerfEffect (temp : Int) (vddCore : Nat) (s0 : State) : State :=
  if !ticking s0 || !s0.tick.span then s0
  else
    let s := safeIfDue s0
    if s.faults.safe then
      let s1 := tamperLifecycle (kerfResponses s)
      closeTick s0.tick.count (kerfGovernor temp vddCore (setFlag s1 Reg.LCY_STAT_EVAL (evaluated s1)))
    else
      let s1 := kerfSteps (tickEnd s)
      let s2 := downDiscard (atsDrain (kerfInterrupts s1))
      closeTick s0.tick.count (runBegins (running s2) (bootKerf (kerfEpoch (kerfGovernor temp vddCore s2))))

def execKerf (temp : Int) (vddCore : Nat) (s : State) : Host.Outcome State Fault Refusal := .next (kerfEffect temp vddCore s)

end Sys2Proof.Machine
end

