-- ==== Sys2Proof/Machine/Smbus.lean ====
section
/-!
DEFINITION. The SMBus target (22_host_link R463, 26_electrical_package R505): block reads, without their PEC, and the
release of SMB_ALERT_N.
-/
namespace Sys2Proof.Machine
open Sys2Proof

/-- A block read is answered while VDD_IO is in its window; with the secure die in reset, every command other than
STATUS reads zeros. -/
def smbusRead (s : State) (status : Bool) (b : Bytes) : State :=
  if !s.thm.main then s
  else emit s (.smbus (if s.boot.held && !status then zeros b.length else b))

/-- The status byte. -/
def smbusStatus (s : State) : Nat :=
  if s.boot.held then 2 ^ 7
  else b2n (running s) + 2 * b2n s.faults.safe + 4 * b2n (faultPinLow s) + 8 * b2n (lcyState s == 5) +
    16 * b2n (flag s Reg.THM_STAT_BATT_LOW)

def execStatus (s : State) : Host.Outcome State Fault Refusal := .next (smbusRead s true (leBytes 1 (smbusStatus s)))

def execTemp (s : State) : Host.Outcome State Fault Refusal :=
  .next (smbusRead s false (leBytes 1 (getF s Reg.GOV_TEMP_DEG) ++ leBytes 1 (getF s Reg.DDR_TEMP_DEG)))

def execLifecycle (s : State) : Host.Outcome State Fault Refusal :=
  .next (smbusRead s false (leBytes 2 (getReg s Reg.LCY_STAT).toNat))

/-- FCL_FIRST0: the first word of the first record, zero where none is latched. -/
def fclFirst0 (s : State) : Word :=
  match s.faults.first with
  | some f => (recordWords f).getD 0 0#32
  | none => 0#32

def execFault (s : State) : Host.Outcome State Fault Refusal :=
  .next (smbusRead s false (leBytes 4 (getReg s Reg.FCL_STAT).toNat ++ leBytes 4 (fclFirst0 s).toNat ++
    leBytes 4 (getReg s Reg.FCL_FIRED).toNat))

/-- REVISION: PG_ID of page 0x001 (R482). -/
def execRevision (s : State) : Host.Outcome State Fault Refusal :=
  .next (smbusRead s false (leBytes 4 siliconRevision))

/-- ALERT_RESPONSE: a target that asserts the alert answers with its address and releases it. -/
def alertResponseEffect (s : State) : State :=
  if s.smbAlert && s.thm.main then emit { s with smbAlert := false } (.smbus [0x5A]) else s

def execAlertResponse (s : State) : Host.Outcome State Fault Refusal := .next (alertResponseEffect s)

/-- SMBUS_TIMEOUT: the transfer in progress is abandoned and not acknowledged; no answer goes out, and no state of the
device is part of a transfer. -/
def execSmbusTimeout (s : State) : Host.Outcome State Fault Refusal := .next s

end Sys2Proof.Machine
end

