-- ==== Sys2Proof/Machine/Spdm.lean ====
section
/-!
DEFINITION. The SPDM responder (22_host_link R459–R461). The rules name the requests and the algorithms; the layout of
each message is that of DMTF DSP0274 1.2 and of PCIe IDE_KM, PRESUMED (notes/assumptions/23.md). A request comes as
the message's bytes, and its answer goes out as bytes.
-/
namespace Sys2Proof.Machine
open Sys2Proof

/-! ### Messages -/

/-- The version byte of answers: the negotiated one, 1.0 before that. -/
def spdmVer (s : State) : Nat := if s.link.version == 0 then 0x10 else s.link.version

/-- A message: version, code, two parameters, body. -/
def spdmMsg (s : State) (code p1 p2 : Nat) (body : Bytes) : Bytes :=
  leBytes 1 (spdmVer s) ++ leBytes 1 code ++ leBytes 1 p1 ++ leBytes 1 p2 ++ body

def spdmSend (s : State) (m : Bytes) : State := emit s (.spdm m)

/-- ERROR with a code. -/
def spdmError (s : State) (code : Nat) : State := spdmSend s (spdmMsg s 0x7F code 0 [])

def errInvalid : Nat := 0x01
def errUnexpected : Nat := 0x04
def errDecrypt : Nat := 0x06
def errUnsupported : Nat := 0x07
def errSessionLimit : Nat := 0x0A
def errNotReady : Nat := 0x42

def reqP1 (r : Bytes) : Nat := byteAt r 2
def reqP2 (r : Bytes) : Nat := byteAt r 3

/-- Only identity queries are answered (R461). -/
def identityOnly (s : State) : Bool :=
  s.faults.safe || lcyState s == lcyTerminated || lcyState s == lcyDiagnostic

/-- HLK_SPDM follows the responder. -/
def spdmSync (s : State) : State :=
  setFlag (setF (setF s Reg.HLK_SPDM_SESSIONS s.link.sessions.length) Reg.HLK_SPDM_VERSION s.link.version)
    Reg.HLK_SPDM_SIGN (running s && !identityOnly s)

/-- A request whose code byte is its own; a device held in reset answers nothing. `need` 1 asks for a signature or a
session, `neg` for a finished negotiation. After a ZEROISE response the identity key is absent until the source is
cleared (17_faults R371). -/
def spdmGuard (s : State) (code : Nat) (r : Bytes) (need neg : Bool) (work : State → State) : State :=
  if s.boot.held || byteAt r 1 != code then s
  else if need && identityOnly s then spdmError s errUnexpected
  else if neg && !s.link.algs then spdmError s errUnexpected
  else if need && (!running s || !s.faults.zeroised.isEmpty) then spdmError s errNotReady
  else spdmSync (work s)

/-- The messages so far of the negotiation, of the certificate phase, of the measurements. -/
def noteA (s : State) (m : Bytes) : State := setLink s { s.link with transA := s.link.transA ++ m }
def noteB (s : State) (m : Bytes) : State := setLink s { s.link with transB := s.link.transB ++ m }

/-! ### Keys and signatures -/

/-- The certificate chain of slot 0 as the vendor-reserved partition holds it. -/
def certChain : Bytes := Config.deviceSecret 5

/-- The signing prefix of a context. -/
def signPrefix (s : State) (ctx : String) : Bytes :=
  let v := if s.link.version == 0x13 then ascii "dmtf-spdm-v1.3.*" else ascii "dmtf-spdm-v1.2.*"
  v ++ v ++ v ++ v ++ zeros (36 - (ascii ctx).length) ++ ascii ctx

/-- A signature of the identity key over a transcript; its nonce is drawn. -/
def spdmSign (s : State) (ctx : String) (trans : Bytes) : Bytes × State :=
  let d := drawFrom childPosts 56 s
  (ecdsaSign p384 identityScalar d.1 (sha384 (signPrefix s ctx ++ sha384 trans)), ownPurlin d.2)

/-! ### Negotiation -/

/-- GET_VERSION: 1.2 and 1.3; it restarts the negotiation. -/
def getVersionEffect (req : Bytes) (s : State) : State :=
  spdmGuard s 0x84 req false false (fun s =>
    let m := leBytes 1 0x10 ++ [0x04, 0, 0, 0, 2, 0x00, 0x12, 0x00, 0x13]
    spdmSend (setLink s { s.link with version := 0, algs := false, transA := req ++ m, transB := [], transL := [] }) m)

def execGetVersion (req : Bytes) (s : State) : Host.Outcome State Fault Refusal := .next (getVersionEffect req s)

/-- GET_CAPABILITIES: CTExponent 12; certificates, challenge, signed measurements, encryption, authentication, key
exchange, heartbeat and key update. The buffer sizes are free values. -/
def getCapabilitiesEffect (req : Bytes) (s : State) : State :=
  spdmGuard s 0xE1 req false false (fun s =>
    let v := byteAt req 0
    if s.link.transA.isEmpty then spdmError s errUnexpected
    else if !(v == 0x12 || v == 0x13) then spdmError s errInvalid
    else
      let s1 := setLink s { s.link with version := v }
      let m := spdmMsg s1 0x61 0 0 ([0, 12, 0, 0] ++ leBytes 4 0x62D6 ++ padTo 8 (Config.pk 33 []))
      spdmSend (noteA s1 (req ++ m)) m)

def execGetCapabilities (req : Bytes) (s : State) : Host.Outcome State Fault Refusal :=
  .next (getCapabilitiesEffect req s)

/-- NEGOTIATE_ALGORITHMS: ECDSA P-384, SHA-384, secp384r1, AES-256-GCM. -/
def negotiateEffect (req : Bytes) (s : State) : State :=
  spdmGuard s 0xE3 req false false (fun s =>
    if s.link.version == 0 then spdmError s errUnexpected
    else if !(bitAt (leAt req 8 4) 7 && bitAt (leAt req 12 4) 1) then spdmError s errInvalid
    else
      let structs := [2, 0x20] ++ leBytes 2 0x10 ++ [3, 0x20] ++ leBytes 2 0x02 ++ [5, 0x20] ++ leBytes 2 1
      let body := leBytes 2 48 ++ [1, 0] ++ leBytes 4 4 ++ leBytes 4 0x80 ++ leBytes 4 2 ++ zeros 12 ++ zeros 4 ++ structs
      let m := spdmMsg s 0x63 3 0 body
      spdmSend (noteA (setLink s { s.link with algs := true }) (req ++ m)) m)

def execNegotiateAlgorithms (req : Bytes) (s : State) : Host.Outcome State Fault Refusal := .next (negotiateEffect req s)

/-! ### Certificates and challenge -/

/-- GET_DIGESTS: slot 0. -/
def getDigestsEffect (req : Bytes) (s : State) : State :=
  spdmGuard s 0x81 req false true (fun s =>
    let m := spdmMsg s 0x01 0 1 (sha384 certChain)
    spdmSend (noteB s (req ++ m)) m)

def execGetDigests (req : Bytes) (s : State) : Host.Outcome State Fault Refusal := .next (getDigestsEffect req s)

/-- GET_CERTIFICATE: a portion of slot 0's chain. -/
def getCertificateEffect (req : Bytes) (s : State) : State :=
  spdmGuard s 0x82 req false true (fun s =>
    let off := leAt req 4 2
    let n := min (leAt req 6 2) (certChain.length - off)
    if reqP1 req % 16 != 0 || certChain.length ≤ off then spdmError s errInvalid
    else
      let m := spdmMsg s 0x02 0 0 (leBytes 2 n ++ leBytes 2 (certChain.length - off - n) ++ sub certChain off n)
      spdmSend (noteB s (req ++ m)) m)

def execGetCertificate (req : Bytes) (s : State) : Host.Outcome State Fault Refusal :=
  .next (getCertificateEffect req s)

/-- The digest of a measurement: 1 boot ROM, 2 active frame image, 3 frame security version, 4 lifecycle state and
approved mode. -/
def measurement (s : State) (i : Nat) : Bytes :=
  if i == 1 then sha384 ((List.range 65536).map Config.romByte)
  else if i == 2 then padTo 48 s.fw.hash
  else if i == 3 then sha384 (leBytes 8 s.fw.sv)
  else sha384 (leBytes 1 (lcyState s) ++ leBytes 1 (b2n (approved s)))

def measBlock (s : State) (i : Nat) : Bytes :=
  leBytes 1 i ++ [1] ++ leBytes 2 51 ++ leBytes 1 (i - 1) ++ leBytes 2 48 ++ measurement s i

/-- The measurement summary a request asks for: none, or every block. -/
def measSummary (s : State) (typ : Nat) : Bytes :=
  if typ == 0 then [] else sha384 ([1, 2, 3, 4].flatMap (measBlock s))

/-- CHALLENGE, signed with the identity key. -/
def spdmChallengeEffect (req : Bytes) (s : State) : State :=
  spdmGuard s 0x83 req true true (fun s =>
    if reqP1 req != 0 then spdmError s errInvalid
    else
      let d := drawFrom childPosts 32 s
      let m := spdmMsg s 0x03 0 1 (sha384 certChain ++ d.1 ++ measSummary s (reqP2 req) ++ leBytes 2 0)
      let g := spdmSign d.2 "responder-challenge_auth signing" (s.link.transA ++ s.link.transB ++ req ++ m)
      spdmSend (setLink g.2 { g.2.link with transB := [] }) (m ++ g.1))

def execSpdmChallenge (req : Bytes) (s : State) : Host.Outcome State Fault Refusal := .next (spdmChallengeEffect req s)

/-- GET_MEASUREMENTS: the count, one block or all, signed on request. -/
def getMeasurementsEffect (req : Bytes) (s : State) : State :=
  let signed := reqP1 req % 2 == 1
  spdmGuard s 0xE0 req signed true (fun s =>
    let op := reqP2 req
    if identityOnly s then spdmError s errUnexpected
    else if 4 < op && op != 0xFF then spdmError s errInvalid
    else
      let blocks := if op == 0 then [] else if op == 0xFF then [1, 2, 3, 4].map (measBlock s) else [measBlock s op]
      let rec_ := blocks.flatten
      let d := drawFrom childPosts 32 s
      let m := spdmMsg s 0x60 (if op == 0 then 4 else 0) 0
        (leBytes 1 blocks.length ++ leBytes 3 rec_.length ++ rec_ ++ d.1 ++ leBytes 2 0)
      let l := s.link.transL ++ req ++ m
      if signed then
        let g := spdmSign d.2 "responder-measurements signing" (s.link.transA ++ l)
        spdmSend (setLink g.2 { g.2.link with transL := [] }) (m ++ g.1)
      else spdmSend (setLink d.2 { d.2.link with transL := l }) m)

def execGetMeasurements (req : Bytes) (s : State) : Host.Outcome State Fault Refusal :=
  .next (getMeasurementsEffect req s)

/-! ### Sessions -/

/-- The first session id not in use; at most two sessions. -/
def freeSession (s : State) : Option Nat := [0, 1].find? (fun i => s.link.sessions.all (fun x => x.id != i))

def findSession (s : State) (id : Nat) : Option Session := s.link.sessions.find? (fun x => x.id == id)

/-- Verify data of a side over the transcript so far, under the session's finished key (opaque: notes/assumptions/6.md). -/
def verifyData (secret trans : Bytes) : Bytes := padTo 48 (Config.pk 36 [secret, sha384 trans])

/-- KEY_EXCHANGE opens a session. -/
def keyExchangeEffect (req : Bytes) (s : State) : State :=
  spdmGuard s 0xE4 req true true (fun s =>
    match freeSession s with
    | none => spdmError s errSessionLimit
    | some id =>
      let d := drawFrom childPosts 88 s
      let scalar := beBytes 48 (ecScalar p384 (d.1.take 56))
      match ecdhSecret p384 scalar ([4] ++ sub req 40 96) with
      | none => spdmError s errInvalid
      | some x =>
        let m := spdmMsg s 0x64 0 0 (leBytes 2 id ++ [0, 0] ++ d.1.drop 56 ++ (ecPublic p384 scalar).drop 1 ++
          measSummary s (reqP1 req) ++ leBytes 2 0)
        let t := s.link.transA ++ sha384 certChain ++ req ++ m
        let g := spdmSign d.2 "responder-key_exchange_rsp signing" t
        let secret := x ++ sha384 (t ++ g.1)
        spdmSend (setLink g.2 { g.2.link with sessions := g.2.link.sessions ++ [⟨id, false, secret, 0⟩] })
          (m ++ g.1 ++ verifyData secret t))

def execKeyExchange (req : Bytes) (s : State) : Host.Outcome State Fault Refusal := .next (keyExchangeEffect req s)

def setSession (s : State) (x : Session) : State :=
  setLink s { s.link with sessions := s.link.sessions.map (fun y => if y.id == x.id then x else y) }

def dropSession (s : State) (id : Nat) : State :=
  setLink s { s.link with sessions := s.link.sessions.filter (fun y => y.id != id) }

/-- FINISH: the requester's verify data ends the handshake; a wrong one ends the session. -/
def finishEffect (session : Nat) (req : Bytes) (s : State) : State :=
  spdmGuard s 0xE5 req true true (fun s =>
    match findSession s session with
    | none => spdmError s errUnexpected
    | some x =>
      if x.established then spdmError s errUnexpected
      else if !Config.pkOk 4 [x.secret, req.take 4, req.drop 4] then spdmError (dropSession s session) errDecrypt
      else spdmSend (setSession s { x with established := true }) (spdmMsg s 0x65 0 0 []))

def execFinish (session : Nat) (req : Bytes) (s : State) : Host.Outcome State Fault Refusal :=
  .next (finishEffect session req s)

/-- A request within an established session. -/
def inSession (s : State) (code session : Nat) (r : Bytes) (work : State → Session → State) : State :=
  spdmGuard s code r true true (fun s =>
    match findSession s session with
    | some x => if x.established then work s x else spdmError s errUnexpected
    | none => spdmError s errUnexpected)

def execHeartbeat (session : Nat) (req : Bytes) (s : State) : Host.Outcome State Fault Refusal :=
  .next (inSession s 0xE8 session req (fun s _ => spdmSend s (spdmMsg s 0x68 0 0 [])))

/-- KEY_UPDATE: operations 1 and 2 update keys, 3 verifies them. -/
def keyUpdate (req : Bytes) (s : State) (x : Session) : State :=
  let op := reqP1 req
  if !(1 ≤ op && op ≤ 3) then spdmError s errInvalid
  else spdmSend (if op == 3 then s else setSession s { x with updates := x.updates + 1 })
    (spdmMsg s 0x69 op (reqP2 req) [])

def execKeyUpdate (session : Nat) (req : Bytes) (s : State) : Host.Outcome State Fault Refusal :=
  .next (inSession s 0xE9 session req (keyUpdate req))

def execEndSession (session : Nat) (req : Bytes) (s : State) : Host.Outcome State Fault Refusal :=
  .next (inSession s 0xEC session req (fun s x => spdmSend (dropSession s x.id) (spdmMsg s 0x6C 0 0 [])))

/-! ### IDE_KM (R459) -/

/-- A stream id that names a stream: selective 0–127, or 255 for the link stream. -/
def streamOk (n : Nat) : Bool := n < 128 || n == 255

/-- The object of an IDE_KM request: its answer object, and what it does to the streams. -/
def ideKm (o : Bytes) (s : State) : Option (Bytes × State) :=
  let op := byteAt o 0
  let st := byteAt o 3
  if op == 0 then some ([1, 0] ++ o.drop 2, s)
  else if !streamOk st then none
  else if op == 2 then
    some ([3, 0, 0] ++ sub o 3 4, setLink s { s.link with ideKeys := tinsert st (sub o 7 40) s.link.ideKeys })
  else if op == 4 then
    if (tfind s.link.ideKeys st).isNone then none
    else some ([6, 0, 0] ++ sub o 3 4,
      ideSync (setLink s { s.link with secure := if s.link.secure.contains st then s.link.secure else s.link.secure ++ [st] }))
  else if op == 5 then
    some ([6, 0, 0] ++ sub o 3 4, ideSync (setLink s { s.link with secure := s.link.secure.filter (· != st) }))
  else none

/-- VENDOR_DEFINED_REQUEST with the PCI-SIG's standard id and the IDE_KM protocol. -/
def vendorRequest (req : Bytes) (s : State) : State :=
  if !(leAt req 4 2 == 3 && byteAt req 6 == 2 && leAt req 7 2 == 1 && byteAt req 11 == 0) then spdmError s errUnsupported
  else match ideKm (req.drop 12) s with
    | none => spdmError s errInvalid
    | some a =>
      spdmSend a.2 (spdmMsg s 0x7E 0 0 (leBytes 2 3 ++ [2] ++ leBytes 2 1 ++ leBytes 2 (a.1.length + 1) ++ [0] ++ a.1))

def execVendorDefinedRequest (session : Nat) (req : Bytes) (s : State) : Host.Outcome State Fault Refusal :=
  .next (inSession s 0xFE session req (fun s _ => vendorRequest req s))

end Sys2Proof.Machine
end

