-- ==== Sys2Proof/Machine/Dispatch.lean ====
section
/-!
DEFINITION. One arm per command (one constructor of Instr per row of the command table): each arm is one
direct call of that command's meaning. No wildcard arm.
-/
namespace Sys2Proof.Machine

def exec (i : Instr) (s : State) : Host.Outcome State Fault Refusal :=
  match i with
  | .tickStart => Sys2Proof.Machine.execTickStart s
  | .kerf temp vddCore => Sys2Proof.Machine.execKerf temp vddCore s
  | .governorStepUp => Sys2Proof.Machine.execGovernorStepUp s
  | .govTempUpdate deg => Sys2Proof.Machine.execGovTempUpdate deg s
  | .rotatingTest pass => Sys2Proof.Machine.execRotatingTest pass s
  | .fenceSuiteStart => Sys2Proof.Machine.execFenceSuiteStart s
  | .fenceEnd ndlFail lduFail purFail hshFail => Sys2Proof.Machine.execFenceEnd ndlFail lduFail purFail hshFail s
  | .sqTailDoorbell slice queue width v => Sys2Proof.Machine.execSqTailDoorbell slice queue width v s
  | .cqHeadDoorbell slice queue width v => Sys2Proof.Machine.execCqHeadDoorbell slice queue width v s
  | .entryFetch slice queue r => Sys2Proof.Machine.execEntryFetch slice queue r s
  | .queueEnable slice queue => Sys2Proof.Machine.execQueueEnable slice queue s
  | .queueDisable slice queue => Sys2Proof.Machine.execQueueDisable slice queue s
  | .completionWrite slice linkOk => Sys2Proof.Machine.execCompletionWrite slice linkOk s
  | .interruptDue slice queue => Sys2Proof.Machine.execInterruptDue slice queue s
  | .cipher ctx => Sys2Proof.Machine.execCipher ctx s
  | .cipherTranslate ctx => Sys2Proof.Machine.execCipherTranslate ctx s
  | .macGen ctx => Sys2Proof.Machine.execMacGen ctx s
  | .macVerify ctx => Sys2Proof.Machine.execMacVerify ctx s
  | .hash ctx => Sys2Proof.Machine.execHash ctx s
  | .pinTranslate ctx => Sys2Proof.Machine.execPinTranslate ctx s
  | .pinVerify ctx => Sys2Proof.Machine.execPinVerify ctx s
  | .dukptDerive ctx => Sys2Proof.Machine.execDukptDerive ctx s
  | .tokenize ctx => Sys2Proof.Machine.execTokenize ctx s
  | .detokenize ctx => Sys2Proof.Machine.execDetokenize ctx s
  | .vaultPut ctx => Sys2Proof.Machine.execVaultPut ctx s
  | .vaultGet ctx => Sys2Proof.Machine.execVaultGet ctx s
  | .vaultDelete ctx => Sys2Proof.Machine.execVaultDelete ctx s
  | .credIssue ctx => Sys2Proof.Machine.execCredIssue ctx s
  | .credRedeem ctx => Sys2Proof.Machine.execCredRedeem ctx s
  | .credKill ctx => Sys2Proof.Machine.execCredKill ctx s
  | .signSeam ctx => Sys2Proof.Machine.execSignSeam ctx s
  | .verifySeam ctx => Sys2Proof.Machine.execVerifySeam ctx s
  | .kemEncaps ctx => Sys2Proof.Machine.execKemEncaps ctx s
  | .kemDecaps ctx => Sys2Proof.Machine.execKemDecaps ctx s
  | .ecdh ctx => Sys2Proof.Machine.execEcdh ctx s
  | .keyGenerate ctx => Sys2Proof.Machine.execKeyGenerate ctx s
  | .keyImport ctx => Sys2Proof.Machine.execKeyImport ctx s
  | .keyExport ctx => Sys2Proof.Machine.execKeyExport ctx s
  | .keyDerive ctx => Sys2Proof.Machine.execKeyDerive ctx s
  | .keyKill ctx => Sys2Proof.Machine.execKeyKill ctx s
  | .random ctx => Sys2Proof.Machine.execRandom ctx s
  | .attest ctx => Sys2Proof.Machine.execAttest ctx s
  | .infillCall ctx a0 a1 a2 a3 a4 a5 out => Sys2Proof.Machine.execInfillCall ctx a0 a1 a2 a3 a4 a5 out s
  | .selftest ctx failed => Sys2Proof.Machine.execSelftest ctx failed s
  | .abort slice queue cmdId => Sys2Proof.Machine.execAbort slice queue cmdId s
  | .sliceCreate ctx => Sys2Proof.Machine.execSliceCreate ctx s
  | .sliceResize ctx => Sys2Proof.Machine.execSliceResize ctx s
  | .sliceQuiesce ctx => Sys2Proof.Machine.execSliceQuiesce ctx s
  | .sliceResume ctx => Sys2Proof.Machine.execSliceResume ctx s
  | .sliceReset ctx => Sys2Proof.Machine.execSliceReset ctx s
  | .sliceDestroy ctx => Sys2Proof.Machine.execSliceDestroy ctx s
  | .sliceExport ctx => Sys2Proof.Machine.execSliceExport ctx s
  | .sliceImportOffer ctx => Sys2Proof.Machine.execSliceImportOffer ctx s
  | .sliceImport ctx => Sys2Proof.Machine.execSliceImport ctx s
  | .dirtyLogStart ctx => Sys2Proof.Machine.execDirtyLogStart ctx s
  | .dirtyLogFlip ctx => Sys2Proof.Machine.execDirtyLogFlip ctx s
  | .dirtyLogStop ctx => Sys2Proof.Machine.execDirtyLogStop ctx s
  | .sliceChangeComplete slice => Sys2Proof.Machine.execSliceChangeComplete slice s
  | .flrTimeout slice => Sys2Proof.Machine.execFlrTimeout slice s
  | .vaultReload ctx => Sys2Proof.Machine.execVaultReload ctx s
  | .vaultAnchor ctx => Sys2Proof.Machine.execVaultAnchor ctx s
  | .anchorCapture => Sys2Proof.Machine.execAnchorCapture s
  | .anchorProgrammed => Sys2Proof.Machine.execAnchorProgrammed s
  | .journalRecordWrite chain => Sys2Proof.Machine.execJournalRecordWrite chain s
  | .vltJheadWrite v => Sys2Proof.Machine.execVltJheadWrite v s
  | .rekeySweepStart => Sys2Proof.Machine.execRekeySweepStart s
  | .rekeySweepEnd => Sys2Proof.Machine.execRekeySweepEnd s
  | .reencryption => Sys2Proof.Machine.execReencryption s
  | .rebaseStart slice => Sys2Proof.Machine.execRebaseStart slice s
  | .baseEnd slice => Sys2Proof.Machine.execBaseEnd slice s
  | .tombstoneCommit => Sys2Proof.Machine.execTombstoneCommit s
  | .ddrTrainingDone populated trained rate dimm ranks => Sys2Proof.Machine.execDdrTrainingDone populated trained rate dimm ranks s
  | .ddrError ch sub_ ue chain panel ctx => Sys2Proof.Machine.execDdrError ch sub_ ue chain panel ctx s
  | .ddrThermal deg hot => Sys2Proof.Machine.execDdrThermal deg hot s
  | .budgetReservation slot => Sys2Proof.Machine.execBudgetReservation slot s
  | .kstReserve slot => Sys2Proof.Machine.execKstReserve slot s
  | .storedRecordWrite slot => Sys2Proof.Machine.execStoredRecordWrite slot s
  | .keySlotZeroise slot => Sys2Proof.Machine.execKeySlotZeroise slot s
  | .ivReservation => Sys2Proof.Machine.execIvReservation s
  | .lmsGenerate set slice => Sys2Proof.Machine.execLmsGenerate set slice s
  | .lmsLoadPublic slice => Sys2Proof.Machine.execLmsLoadPublic slice s
  | .lmsDestroy => Sys2Proof.Machine.execLmsDestroy s
  | .generateDone linkOk => Sys2Proof.Machine.execGenerateDone linkOk s
  | .bottomTreeBuilt pair => Sys2Proof.Machine.execBottomTreeBuilt pair s
  | .reserveCapture pair => Sys2Proof.Machine.execReserveCapture pair s
  | .reserveProgrammed pair ok => Sys2Proof.Machine.execReserveProgrammed pair ok s
  | .cacheRebuilt pair bad => Sys2Proof.Machine.execCacheRebuilt pair bad s
  | .healthTestWindow kind m => Sys2Proof.Machine.execHealthTestWindow kind m s
  | .rngFirstSeeding katOk => Sys2Proof.Machine.execRngFirstSeeding katOk s
  | .rootReseed => Sys2Proof.Machine.execRootReseed s
  | .rngDataRead init => Sys2Proof.Machine.execRngDataRead init s
  | .rngDataTimeout => Sys2Proof.Machine.execRngDataTimeout s
  | .rngRawRead init bits => Sys2Proof.Machine.execRngRawRead init bits s
  | .add post rd rs1 rs2 => Sys2Proof.Machine.execAdd post rd rs1 rs2 s
  | .sub post rd rs1 rs2 => Sys2Proof.Machine.execSub post rd rs1 rs2 s
  | .and post rd rs1 rs2 => Sys2Proof.Machine.execAnd post rd rs1 rs2 s
  | .or post rd rs1 rs2 => Sys2Proof.Machine.execOr post rd rs1 rs2 s
  | .xor post rd rs1 rs2 => Sys2Proof.Machine.execXor post rd rs1 rs2 s
  | .sll post rd rs1 rs2 => Sys2Proof.Machine.execSll post rd rs1 rs2 s
  | .srl post rd rs1 rs2 => Sys2Proof.Machine.execSrl post rd rs1 rs2 s
  | .sra post rd rs1 rs2 => Sys2Proof.Machine.execSra post rd rs1 rs2 s
  | .slt post rd rs1 rs2 => Sys2Proof.Machine.execSlt post rd rs1 rs2 s
  | .sltu post rd rs1 rs2 => Sys2Proof.Machine.execSltu post rd rs1 rs2 s
  | .addc post rd rs1 rs2 start => Sys2Proof.Machine.execAddc post rd rs1 rs2 start s
  | .subb post rd rs1 rs2 start => Sys2Proof.Machine.execSubb post rd rs1 rs2 start s
  | .slli post rd rs1 sh => Sys2Proof.Machine.execSlli post rd rs1 sh s
  | .srli post rd rs1 sh => Sys2Proof.Machine.execSrli post rd rs1 sh s
  | .srai post rd rs1 sh => Sys2Proof.Machine.execSrai post rd rs1 sh s
  | .selz post rd rs1 rs2 => Sys2Proof.Machine.execSelz post rd rs1 rs2 s
  | .mul post rd rs1 rs2 => Sys2Proof.Machine.execMul post rd rs1 rs2 s
  | .mulhu post rd rs1 rs2 => Sys2Proof.Machine.execMulhu post rd rs1 rs2 s
  | .mulh post rd rs1 rs2 => Sys2Proof.Machine.execMulh post rd rs1 rs2 s
  | .mac post rs1 rs2 => Sys2Proof.Machine.execMac post rs1 rs2 s
  | .accsh post rd => Sys2Proof.Machine.execAccsh post rd s
  | .accrd post rd k => Sys2Proof.Machine.execAccrd post rd k s
  | .accz post => Sys2Proof.Machine.execAccz post s
  | .accwr post rs1 k => Sys2Proof.Machine.execAccwr post rs1 k s
  | .jr post rs1 => Sys2Proof.Machine.execJr post rs1 s
  | .callr post rs1 => Sys2Proof.Machine.execCallr post rs1 s
  | .ret post => Sys2Proof.Machine.execRet post s
  | .rspush post rs1 => Sys2Proof.Machine.execRspush post rs1 s
  | .rspop post rd => Sys2Proof.Machine.execRspop post rd s
  | .rsdepth post rd => Sys2Proof.Machine.execRsdepth post rd s
  | .addi post rd rs1 imm => Sys2Proof.Machine.execAddi post rd rs1 imm s
  | .slti post rd rs1 imm => Sys2Proof.Machine.execSlti post rd rs1 imm s
  | .sltiu post rd rs1 imm => Sys2Proof.Machine.execSltiu post rd rs1 imm s
  | .andi post rd rs1 imm => Sys2Proof.Machine.execAndi post rd rs1 imm s
  | .ori post rd rs1 imm => Sys2Proof.Machine.execOri post rd rs1 imm s
  | .xori post rd rs1 imm => Sys2Proof.Machine.execXori post rd rs1 imm s
  | .lui post rd imm => Sys2Proof.Machine.execLui post rd imm s
  | .lb post rd rs1 tn off => Sys2Proof.Machine.execLb post rd rs1 tn off s
  | .lh post rd rs1 tn off => Sys2Proof.Machine.execLh post rd rs1 tn off s
  | .lw post rd rs1 tn off => Sys2Proof.Machine.execLw post rd rs1 tn off s
  | .lbu post rd rs1 tn off => Sys2Proof.Machine.execLbu post rd rs1 tn off s
  | .lhu post rd rs1 tn off => Sys2Proof.Machine.execLhu post rd rs1 tn off s
  | .tld post td rs1 tn off => Sys2Proof.Machine.execTld post td rs1 tn off s
  | .sb post rs2 rs1 tn off => Sys2Proof.Machine.execSb post rs2 rs1 tn off s
  | .sh post rs2 rs1 tn off => Sys2Proof.Machine.execSh post rs2 rs1 tn off s
  | .sw post rs2 rs1 tn off => Sys2Proof.Machine.execSw post rs2 rs1 tn off s
  | .tst post ts rs1 tn off => Sys2Proof.Machine.execTst post ts rs1 tn off s
  | .dmac post tn ra rb sa sb => Sys2Proof.Machine.execDmac post tn ra rb sa sb s
  | .beq post rs1 rs2 off => Sys2Proof.Machine.execBeq post rs1 rs2 off s
  | .bne post rs1 rs2 off => Sys2Proof.Machine.execBne post rs1 rs2 off s
  | .blt post rs1 rs2 off => Sys2Proof.Machine.execBlt post rs1 rs2 off s
  | .bge post rs1 rs2 off => Sys2Proof.Machine.execBge post rs1 rs2 off s
  | .bltu post rs1 rs2 off => Sys2Proof.Machine.execBltu post rs1 rs2 off s
  | .bgeu post rs1 rs2 off => Sys2Proof.Machine.execBgeu post rs1 rs2 off s
  | .j post off => Sys2Proof.Machine.execJ post off s
  | .call post off => Sys2Proof.Machine.execCall post off s
  | .tmov post td ts => Sys2Proof.Machine.execTmov post td ts s
  | .tnull post td => Sys2Proof.Machine.execTnull post td s
  | .tbound post td ts rs => Sys2Proof.Machine.execTbound post td ts rs s
  | .tperm post td ts rs => Sys2Proof.Machine.execTperm post td ts rs s
  | .tseal post td ts rs => Sys2Proof.Machine.execTseal post td ts rs s
  | .tunseal post td ts rs => Sys2Proof.Machine.execTunseal post td ts rs s
  | .tcall post td ts => Sys2Proof.Machine.execTcall post td ts s
  | .tget post ts rs sel => Sys2Proof.Machine.execTget post ts rs sel s
  | .ttag post ts rs => Sys2Proof.Machine.execTtag post ts rs s
  | .trap post imm => Sys2Proof.Machine.execTrap post imm s
  | .eret post tn => Sys2Proof.Machine.execEret post tn s
  | .feat post rd imm => Sys2Proof.Machine.execFeat post rd imm s
  | .tick post rd => Sys2Proof.Machine.execTick post rd s
  | .cyc post rd => Sys2Proof.Machine.execCyc post rd s
  | .yield post => Sys2Proof.Machine.execYield post s
  | .fence post => Sys2Proof.Machine.execFence post s
  | .rqsub post rd rs1 ring mem tn size handles room => Sys2Proof.Machine.execRqsub post rd rs1 ring mem tn size handles room s
  | .rqwait post rd rs1 reply => Sys2Proof.Machine.execRqwait post rd rs1 reply s
  | .engineRequestReply post ticket status => Sys2Proof.Machine.execEngineRequestReply post ticket status s
  | .interrupt post => Sys2Proof.Machine.execInterrupt post s
  | .shtChNextWrite f v => Sys2Proof.Machine.execShtChNextWrite f v s
  | .shtChStop f => Sys2Proof.Machine.execShtChStop f s
  | .descriptorFetch f => Sys2Proof.Machine.execDescriptorFetch f s
  | .shuttlePiece f wr r => Sys2Proof.Machine.execShuttlePiece f wr r s
  | .readback f r same => Sys2Proof.Machine.execReadback f r same s
  | .descriptorWriteBack f => Sys2Proof.Machine.execDescriptorWriteBack f s
  | .hostReadCompletion dest r => Sys2Proof.Machine.execHostReadCompletion dest r s
  | .bastingApply init gate => Sys2Proof.Machine.execBastingApply init gate s
  | .gteCommitWrite v => Sys2Proof.Machine.execGteCommitWrite v s
  | .gteDiscardWrite v => Sys2Proof.Machine.execGteDiscardWrite v s
  | .previousTablesRelease => Sys2Proof.Machine.execPreviousTablesRelease s
  | .hostRequest slice wr addr width v => Sys2Proof.Machine.execHostRequest slice wr addr width v s
  | .faultSourceFire src acc init addr detail cycle imprecise slice ctx cause => Sys2Proof.Machine.execFaultSourceFire src acc init addr detail cycle imprecise slice ctx cause s
  | .safeStateEntry => Sys2Proof.Machine.execSafeStateEntry s
  | .fclSelf agree => Sys2Proof.Machine.execFclSelf agree s
  | .fclPendClear n v => Sys2Proof.Machine.execFclPendClear n v s
  | .fclRearm v => Sys2Proof.Machine.execFclRearm v s
  | .fclCold v => Sys2Proof.Machine.execFclCold v s
  | .gwWrite init key v => Sys2Proof.Machine.execGwWrite init key v s
  | .registerWrite init key v => Sys2Proof.Machine.execRegisterWrite init key v s
  | .rcRead init key => Sys2Proof.Machine.execRcRead init key s
  | .loRead init key => Sys2Proof.Machine.execLoRead init key s
  | .recheck init page => Sys2Proof.Machine.execRecheck init page s
  | .thimbleLoopCheck cycles loop detB same ohm => Sys2Proof.Machine.execThimbleLoopCheck cycles loop detB same ohm s
  | .disagreementWindowEnd cycles loop => Sys2Proof.Machine.execDisagreementWindowEnd cycles loop s
  | .switchSample cycles sw closed => Sys2Proof.Machine.execSwitchSample cycles sw closed s
  | .xtalFail => Sys2Proof.Machine.execXtalFail s
  | .thimblePowerOn => Sys2Proof.Machine.execThimblePowerOn s
  | .armDone cycles runs mism => Sys2Proof.Machine.execArmDone cycles runs mism s
  | .vbatMeasure mv => Sys2Proof.Machine.execVbatMeasure mv s
  | .monVdd rail mv det => Sys2Proof.Machine.execMonVdd rail mv det s
  | .monClk mhz unlocked det => Sys2Proof.Machine.execMonClk mhz unlocked det s
  | .monTemp diode ring => Sys2Proof.Machine.execMonTemp diode ring s
  | .monGlitch mv det => Sys2Proof.Machine.execMonGlitch mv det s
  | .monitorsArmed => Sys2Proof.Machine.execMonitorsArmed s
  | .mainPowerLoss => Sys2Proof.Machine.execMainPowerLoss s
  | .perstN => Sys2Proof.Machine.execPerstN s
  | .crstN => Sys2Proof.Machine.execCrstN s
  | .resetRelease postFail => Sys2Proof.Machine.execResetRelease postFail s
  | .runStart => Sys2Proof.Machine.execRunStart s
  | .bootStalled => Sys2Proof.Machine.execBootStalled s
  | .hotReset linkDown => Sys2Proof.Machine.execHotReset linkDown s
  | .pfFlr => Sys2Proof.Machine.execPfFlr s
  | .vfFlr slice => Sys2Proof.Machine.execVfFlr slice s
  | .vfEnableClear numVfs => Sys2Proof.Machine.execVfEnableClear numVfs s
  | .vfEnableSet numVfs => Sys2Proof.Machine.execVfEnableSet numVfs s
  | .d3hot slice => Sys2Proof.Machine.execD3hot slice s
  | .linkTraining speed width flit => Sys2Proof.Machine.execLinkTraining speed width flit s
  | .retrain v => Sys2Proof.Machine.execRetrain v s
  | .atsInvalidation slice => Sys2Proof.Machine.execAtsInvalidation slice s
  | .inboundPoisonedWrite => Sys2Proof.Machine.execInboundPoisonedWrite s
  | .ideIntegrityFailure stream => Sys2Proof.Machine.execIdeIntegrityFailure stream s
  | .getVersion req => Sys2Proof.Machine.execGetVersion req s
  | .getCapabilities req => Sys2Proof.Machine.execGetCapabilities req s
  | .negotiateAlgorithms req => Sys2Proof.Machine.execNegotiateAlgorithms req s
  | .getDigests req => Sys2Proof.Machine.execGetDigests req s
  | .getCertificate req => Sys2Proof.Machine.execGetCertificate req s
  | .spdmChallenge req => Sys2Proof.Machine.execSpdmChallenge req s
  | .getMeasurements req => Sys2Proof.Machine.execGetMeasurements req s
  | .keyExchange req => Sys2Proof.Machine.execKeyExchange req s
  | .finish session req => Sys2Proof.Machine.execFinish session req s
  | .heartbeat session req => Sys2Proof.Machine.execHeartbeat session req s
  | .keyUpdate session req => Sys2Proof.Machine.execKeyUpdate session req s
  | .endSession session req => Sys2Proof.Machine.execEndSession session req s
  | .vendorDefinedRequest session req => Sys2Proof.Machine.execVendorDefinedRequest session req s
  | .status => Sys2Proof.Machine.execStatus s
  | .temp => Sys2Proof.Machine.execTemp s
  | .lifecycle => Sys2Proof.Machine.execLifecycle s
  | .fault => Sys2Proof.Machine.execFault s
  | .revision => Sys2Proof.Machine.execRevision s
  | .alertResponse => Sys2Proof.Machine.execAlertResponse s
  | .smbusTimeout => Sys2Proof.Machine.execSmbusTimeout s
  | .programPage => Sys2Proof.Machine.execProgramPage s
  | .programUnit => Sys2Proof.Machine.execProgramUnit s
  | .erase => Sys2Proof.Machine.execErase s
  | .suspend => Sys2Proof.Machine.execSuspend s
  | .resume => Sys2Proof.Machine.execResume s
  | .zeroUnit => Sys2Proof.Machine.execZeroUnit s
  | .flashProgramDone bank ok => Sys2Proof.Machine.execFlashProgramDone bank ok s
  | .flashEraseDone bank ok => Sys2Proof.Machine.execFlashEraseDone bank ok s
  | .sillWrite reg v => Sys2Proof.Machine.execSillWrite reg v s
  | .sillBatchDone => Sys2Proof.Machine.execSillBatchDone s
  | .cardInsert slot t0 => Sys2Proof.Machine.execCardInsert slot t0 s
  | .cardRemove slot => Sys2Proof.Machine.execCardRemove slot s
  | .getInfo slot sw data => Sys2Proof.Machine.execGetInfo slot sw data s
  | .challenge slot sw data => Sys2Proof.Machine.execChallenge slot sw data s
  | .readBlock slot sw data => Sys2Proof.Machine.execReadBlock slot sw data s
  | .writeBlock slot sw => Sys2Proof.Machine.execWriteBlock slot sw s
  | .writeKey slot sw => Sys2Proof.Machine.execWriteKey slot sw s
  | .cardTimeout slot busy => Sys2Proof.Machine.execCardTimeout slot busy s
  | .guardStage ctx => Sys2Proof.Machine.execGuardStage ctx s
  | .login ctx => Sys2Proof.Machine.execLogin ctx s
  | .approve ctx => Sys2Proof.Machine.execApprove ctx s
  | .remoteApprove ctx => Sys2Proof.Machine.execRemoteApprove ctx s
  | .logout ctx => Sys2Proof.Machine.execLogout ctx s
  | .guardCommit ctx => Sys2Proof.Machine.execGuardCommit ctx s
  | .guardDiscard ctx => Sys2Proof.Machine.execGuardDiscard ctx s
  | .changeExpiry => Sys2Proof.Machine.execChangeExpiry s
  | .sessionExpiry => Sys2Proof.Machine.execSessionExpiry s
  | .domainNew => Sys2Proof.Machine.execDomainNew s
  | .domainJoin => Sys2Proof.Machine.execDomainJoin s
  | .reshare => Sys2Proof.Machine.execReshare s
  | .ceremonyTimeout => Sys2Proof.Machine.execCeremonyTimeout s
  | .fwStageFrame ctx flashOk => Sys2Proof.Machine.execFwStageFrame ctx flashOk s
  | .fwStageInfill ctx flashOk => Sys2Proof.Machine.execFwStageInfill ctx flashOk s
  | .fwActivate ctx => Sys2Proof.Machine.execFwActivate ctx s
  | .fwActivateConfirm ctx => Sys2Proof.Machine.execFwActivateConfirm ctx s
  | .lifecycleQuery ctx => Sys2Proof.Machine.execLifecycleQuery ctx s
  | .lifecycleVendor ctx => Sys2Proof.Machine.execLifecycleVendor ctx s
  | .selfReset => Sys2Proof.Machine.execSelfReset s
  | .wearSample slow => Sys2Proof.Machine.execWearSample slow s
  | .wearCheckpoint ok => Sys2Proof.Machine.execWearCheckpoint ok s
  | .mainPowerUp => Sys2Proof.Machine.execMainPowerUp s
  | .completionTimeout dest => Sys2Proof.Machine.execCompletionTimeout dest s
  | .atsTranslationCompletion dest ok => Sys2Proof.Machine.execAtsTranslationCompletion dest ok s
  | .returnToD0 slice => Sys2Proof.Machine.execReturnToD0 slice s
  | .msixUnmask slice vec => Sys2Proof.Machine.execMsixUnmask slice vec s
  | .illegal post => Sys2Proof.Machine.execIllegal post s
  | .resetScanDone => Sys2Proof.Machine.execResetScanDone s
  | .sillLogRead => Sys2Proof.Machine.execSillLogRead s
  | .monDisagree cond => Sys2Proof.Machine.execMonDisagree cond s
  | .repetitionCountFailure cells => Sys2Proof.Machine.execRepetitionCountFailure cells s

end Sys2Proof.Machine
end

