-- ==== Sys2Proof/WellFormed.lean ====
section
/-!
DEFINITION. Well-formed commands: every operand within the range that the spec gives it. A meaning is total and never
depends on it; statements that need a range name it through these checks.
-/
namespace Sys2Proof

/-! ### Ranges -/

/-- A slice (13_slices R286: 0–127), a queue id of data or admin pairs (03_queues R56), a command id. -/
def okSlice (n : Nat) : Bool := n < 128
def okQueue (n : Nat) : Bool := n ≤ 0x100
def okCmdId (n : Nat) : Bool := n < 65536

/-- A command context: the 4,032 of the pool and 64 of slice 0 (01_frame R22: 4,096 contexts). -/
def okCtx (n : Nat) : Bool := n < 4096

/-- A doorbell write is of 4 or 8 bytes, a host access of 1, 2, 4 or 8 (22_host_link R453). -/
def okWidth (n : Nat) : Bool := n == 1 || n == 2 || n == 4 || n == 8

/-- A link width code: ×1 0, ×4 2, ×8 3, ×16 4 (22_host_link R456). -/
def okLinkWidth (n : Nat) : Bool := n == 0 || n == 2 || n == 3 || n == 4

/-- A post, a general register or 5-bit field, a tenon register or 4-bit field (14_miade_isa R309, R312). -/
def okPost (n : Nat) : Bool := n < 32
def n5 (n : Nat) : Bool := n < 32
def n4 (n : Nat) : Bool := n < 16
def okAccWord (n : Nat) : Bool := n < 3
def okRing (n : Nat) : Bool := n < 4
def imm6 (n : Nat) : Bool := n < 64
def imm16 (n : Nat) : Bool := n < 65536

/-- Signed offsets of 12, 16 and 26 bits. -/
def off12 (i : Int) : Bool := -2048 ≤ i && i < 2048
def off16 (i : Int) : Bool := -32768 ≤ i && i < 32768
def off26 (i : Int) : Bool := -33554432 ≤ i && i < 33554432

/-- A firmware channel (12_shuttle R285), an initiator (16_gates R350), a gate (R351). -/
def okChannel (n : Nat) : Bool := n < 64
def okInit (n : Nat) : Bool := n < 512
def okGate (n : Nat) : Bool := n < 16

/-- A fault source, a pending word, a cycle of a tick (17_faults R367, R381). -/
def okSource (n : Nat) : Bool := n < 512
def okPendWord (n : Nat) : Bool := n < 16
def okCycle (n : Nat) : Bool := n < 2048

/-- A register key and a register page (25_register_map R479). -/
def okKey (n : Nat) : Bool := n < 0x400000
def okPage (n : Nat) : Bool := n < 0x400

/-- A key slot (06_keys R148), a chain (08_vault_store), a sill register (19_nonvolatile R411). -/
def okKeySlot (n : Nat) : Bool := n < 16384
def okChain (n : Nat) : Bool := n ≤ 128
def okSill (n : Nat) : Bool := n < 512

/-- A loop, a switch, a rail, a set of detectors (18_tamper). -/
def okLoop (n : Nat) : Bool := n < 8
def okSwitch (n : Nat) : Bool := n < 4
def okRail (n : Nat) : Bool := n < 9
def okDet (n : Nat) : Bool := n < 4

/-- A bank of the NV die, a card slot, an SPDM session, an MSI-X vector. -/
def okBank (n : Nat) : Bool := n < 2
def okCard (n : Nat) : Bool := n < 2
def okSession (n : Nat) : Bool := n < 65536
def okVector (n : Nat) : Bool := n < 2048

def okOpt (p : Nat → Bool) : Option Nat → Bool
  | some n => p n
  | none => true

def okDest : ReadDest → Bool
  | .ctx n => okCtx n
  | .fetch slice queue => okSlice slice && okQueue queue
  | .channel f => okChannel f
  | .lms => true
  | .flush slice => okSlice slice

def okCause : FireCause → Bool
  | .slot n => okKeySlot n
  | .other => true
  | .guard => true
  | .thimble => true

/-- A command whose operands are all in range. -/
def wellFormed : Instr → Bool
  | .tickStart => true
  | .kerf _ _ => true
  | .governorStepUp => true
  | .govTempUpdate _ => true
  | .rotatingTest _ => true
  | .fenceSuiteStart => true
  | .fenceEnd _ _ _ _ => true
  | .sqTailDoorbell slice queue width _ => okSlice slice && okQueue queue && okWidth width
  | .cqHeadDoorbell slice queue width _ => okSlice slice && okQueue queue && okWidth width
  | .entryFetch slice queue _ => okSlice slice && okQueue queue
  | .queueEnable slice queue => okSlice slice && okQueue queue
  | .queueDisable slice queue => okSlice slice && okQueue queue
  | .completionWrite slice _ => okSlice slice
  | .interruptDue slice queue => okSlice slice && okQueue queue
  | .cipher ctx => okCtx ctx
  | .cipherTranslate ctx => okCtx ctx
  | .macGen ctx => okCtx ctx
  | .macVerify ctx => okCtx ctx
  | .hash ctx => okCtx ctx
  | .pinTranslate ctx => okCtx ctx
  | .pinVerify ctx => okCtx ctx
  | .dukptDerive ctx => okCtx ctx
  | .tokenize ctx => okCtx ctx
  | .detokenize ctx => okCtx ctx
  | .vaultPut ctx => okCtx ctx
  | .vaultGet ctx => okCtx ctx
  | .vaultDelete ctx => okCtx ctx
  | .credIssue ctx => okCtx ctx
  | .credRedeem ctx => okCtx ctx
  | .credKill ctx => okCtx ctx
  | .signSeam ctx => okCtx ctx
  | .verifySeam ctx => okCtx ctx
  | .kemEncaps ctx => okCtx ctx
  | .kemDecaps ctx => okCtx ctx
  | .ecdh ctx => okCtx ctx
  | .keyGenerate ctx => okCtx ctx
  | .keyImport ctx => okCtx ctx
  | .keyExport ctx => okCtx ctx
  | .keyDerive ctx => okCtx ctx
  | .keyKill ctx => okCtx ctx
  | .random ctx => okCtx ctx
  | .attest ctx => okCtx ctx
  | .infillCall ctx _ _ _ _ _ _ _ => okCtx ctx
  | .selftest ctx failed => okCtx ctx && okOpt n5 failed
  | .abort slice queue cmdId => okSlice slice && okQueue queue && okCmdId cmdId
  | .sliceCreate ctx => okCtx ctx
  | .sliceResize ctx => okCtx ctx
  | .sliceQuiesce ctx => okCtx ctx
  | .sliceResume ctx => okCtx ctx
  | .sliceReset ctx => okCtx ctx
  | .sliceDestroy ctx => okCtx ctx
  | .sliceExport ctx => okCtx ctx
  | .sliceImportOffer ctx => okCtx ctx
  | .sliceImport ctx => okCtx ctx
  | .dirtyLogStart ctx => okCtx ctx
  | .dirtyLogFlip ctx => okCtx ctx
  | .dirtyLogStop ctx => okCtx ctx
  | .sliceChangeComplete slice => okSlice slice
  | .flrTimeout slice => okSlice slice
  | .vaultReload ctx => okCtx ctx
  | .vaultAnchor ctx => okCtx ctx
  | .anchorCapture => true
  | .anchorProgrammed => true
  | .journalRecordWrite chain => okChain chain
  | .vltJheadWrite _ => true
  | .rekeySweepStart => true
  | .rekeySweepEnd => true
  | .reencryption => true
  | .rebaseStart slice => okSlice slice
  | .baseEnd slice => okSlice slice
  | .tombstoneCommit => true
  | .ddrTrainingDone _ _ _ _ _ => true
  | .ddrError _ _ _ chain _ ctx => okOpt okChain chain && okOpt okCtx ctx
  | .ddrThermal _ _ => true
  | .budgetReservation slot => okKeySlot slot
  | .kstReserve slot => okKeySlot slot
  | .storedRecordWrite slot => okKeySlot slot
  | .keySlotZeroise slot => okKeySlot slot
  | .ivReservation => true
  | .lmsGenerate _ slice => okSlice slice
  | .lmsLoadPublic slice => okSlice slice
  | .lmsDestroy => true
  | .generateDone _ => true
  | .bottomTreeBuilt _ => true
  | .reserveCapture _ => true
  | .reserveProgrammed _ _ => true
  | .cacheRebuilt _ _ => true
  | .healthTestWindow _ _ => true
  | .rngFirstSeeding _ => true
  | .rootReseed => true
  | .rngDataRead init => okInit init
  | .rngDataTimeout => true
  | .rngRawRead init _ => okInit init
  | .add post rd rs1 rs2 => okPost post && n5 rd && n5 rs1 && n5 rs2
  | .sub post rd rs1 rs2 => okPost post && n5 rd && n5 rs1 && n5 rs2
  | .and post rd rs1 rs2 => okPost post && n5 rd && n5 rs1 && n5 rs2
  | .or post rd rs1 rs2 => okPost post && n5 rd && n5 rs1 && n5 rs2
  | .xor post rd rs1 rs2 => okPost post && n5 rd && n5 rs1 && n5 rs2
  | .sll post rd rs1 rs2 => okPost post && n5 rd && n5 rs1 && n5 rs2
  | .srl post rd rs1 rs2 => okPost post && n5 rd && n5 rs1 && n5 rs2
  | .sra post rd rs1 rs2 => okPost post && n5 rd && n5 rs1 && n5 rs2
  | .slt post rd rs1 rs2 => okPost post && n5 rd && n5 rs1 && n5 rs2
  | .sltu post rd rs1 rs2 => okPost post && n5 rd && n5 rs1 && n5 rs2
  | .addc post rd rs1 rs2 _ => okPost post && n5 rd && n5 rs1 && n5 rs2
  | .subb post rd rs1 rs2 _ => okPost post && n5 rd && n5 rs1 && n5 rs2
  | .slli post rd rs1 sh => okPost post && n5 rd && n5 rs1 && n5 sh
  | .srli post rd rs1 sh => okPost post && n5 rd && n5 rs1 && n5 sh
  | .srai post rd rs1 sh => okPost post && n5 rd && n5 rs1 && n5 sh
  | .selz post rd rs1 rs2 => okPost post && n5 rd && n5 rs1 && n5 rs2
  | .mul post rd rs1 rs2 => okPost post && n5 rd && n5 rs1 && n5 rs2
  | .mulhu post rd rs1 rs2 => okPost post && n5 rd && n5 rs1 && n5 rs2
  | .mulh post rd rs1 rs2 => okPost post && n5 rd && n5 rs1 && n5 rs2
  | .mac post rs1 rs2 => okPost post && n5 rs1 && n5 rs2
  | .accsh post rd => okPost post && n5 rd
  | .accrd post rd k => okPost post && n5 rd && okAccWord k
  | .accz post => okPost post
  | .accwr post rs1 k => okPost post && n5 rs1 && okAccWord k
  | .jr post rs1 => okPost post && n5 rs1
  | .callr post rs1 => okPost post && n5 rs1
  | .ret post => okPost post
  | .rspush post rs1 => okPost post && n5 rs1
  | .rspop post rd => okPost post && n5 rd
  | .rsdepth post rd => okPost post && n5 rd
  | .addi post rd rs1 imm => okPost post && n5 rd && n5 rs1 && imm16 imm
  | .slti post rd rs1 imm => okPost post && n5 rd && n5 rs1 && imm16 imm
  | .sltiu post rd rs1 imm => okPost post && n5 rd && n5 rs1 && imm16 imm
  | .andi post rd rs1 imm => okPost post && n5 rd && n5 rs1 && imm16 imm
  | .ori post rd rs1 imm => okPost post && n5 rd && n5 rs1 && imm16 imm
  | .xori post rd rs1 imm => okPost post && n5 rd && n5 rs1 && imm16 imm
  | .lui post rd imm => okPost post && n5 rd && imm16 imm
  | .lb post rd rs1 tn off => okPost post && n5 rd && n5 rs1 && n4 tn && off12 off
  | .lh post rd rs1 tn off => okPost post && n5 rd && n5 rs1 && n4 tn && off12 off
  | .lw post rd rs1 tn off => okPost post && n5 rd && n5 rs1 && n4 tn && off12 off
  | .lbu post rd rs1 tn off => okPost post && n5 rd && n5 rs1 && n4 tn && off12 off
  | .lhu post rd rs1 tn off => okPost post && n5 rd && n5 rs1 && n4 tn && off12 off
  | .tld post td rs1 tn off => okPost post && n4 td && n5 rs1 && n4 tn && off12 off
  | .sb post rs2 rs1 tn off => okPost post && n5 rs2 && n5 rs1 && n4 tn && off12 off
  | .sh post rs2 rs1 tn off => okPost post && n5 rs2 && n5 rs1 && n4 tn && off12 off
  | .sw post rs2 rs1 tn off => okPost post && n5 rs2 && n5 rs1 && n4 tn && off12 off
  | .tst post ts rs1 tn off => okPost post && n4 ts && n5 rs1 && n4 tn && off12 off
  | .dmac post tn ra rb _ _ => okPost post && n4 tn && n5 ra && n5 rb
  | .beq post rs1 rs2 off => okPost post && n5 rs1 && n5 rs2 && off16 off
  | .bne post rs1 rs2 off => okPost post && n5 rs1 && n5 rs2 && off16 off
  | .blt post rs1 rs2 off => okPost post && n5 rs1 && n5 rs2 && off16 off
  | .bge post rs1 rs2 off => okPost post && n5 rs1 && n5 rs2 && off16 off
  | .bltu post rs1 rs2 off => okPost post && n5 rs1 && n5 rs2 && off16 off
  | .bgeu post rs1 rs2 off => okPost post && n5 rs1 && n5 rs2 && off16 off
  | .j post off => okPost post && off26 off
  | .call post off => okPost post && off26 off
  | .tmov post td ts => okPost post && n4 td && n4 ts
  | .tnull post td => okPost post && n4 td
  | .tbound post td ts rs => okPost post && n4 td && n4 ts && n5 rs
  | .tperm post td ts rs => okPost post && n4 td && n4 ts && n5 rs
  | .tseal post td ts rs => okPost post && n4 td && n4 ts && n5 rs
  | .tunseal post td ts rs => okPost post && n4 td && n4 ts && n5 rs
  | .tcall post td ts => okPost post && n4 td && n4 ts
  | .tget post ts rs sel => okPost post && n4 ts && n5 rs && n4 sel
  | .ttag post ts rs => okPost post && n4 ts && n5 rs
  | .trap post imm => okPost post && imm6 imm
  | .eret post tn => okPost post && n4 tn
  | .feat post rd imm => okPost post && n5 rd && imm6 imm
  | .tick post rd => okPost post && n5 rd
  | .cyc post rd => okPost post && n5 rd
  | .yield post => okPost post
  | .fence post => okPost post
  | .rqsub post rd rs1 ring mem tn _ _ _ => okPost post && n5 rd && n5 rs1 && okRing ring && n4 mem && n4 tn
  | .rqwait post rd rs1 _ => okPost post && n5 rd && n5 rs1
  | .engineRequestReply post _ _ => okPost post
  | .interrupt post => okPost post
  | .shtChNextWrite f _ => okChannel f
  | .shtChStop f => okChannel f
  | .descriptorFetch f => okChannel f
  | .shuttlePiece f _ _ => f < 64 + 4032
  | .readback f _ _ => okChannel f
  | .descriptorWriteBack f => okChannel f
  | .hostReadCompletion dest _ => okDest dest
  | .bastingApply init gate => okInit init && okGate gate
  | .gteCommitWrite _ => true
  | .gteDiscardWrite _ => true
  | .previousTablesRelease => true
  | .hostRequest slice _ _ width _ => okSlice slice && okWidth width
  | .faultSourceFire src _ init _ _ cycle _ slice ctx cause => okSource src && okInit init && okCycle cycle && okOpt okSlice slice && okOpt okCtx ctx && okCause cause
  | .safeStateEntry => true
  | .fclSelf _ => true
  | .fclPendClear n _ => okPendWord n
  | .fclRearm _ => true
  | .fclCold _ => true
  | .gwWrite init key _ => okInit init && okKey key
  | .registerWrite init key _ => okInit init && okKey key
  | .rcRead init key => okInit init && okKey key
  | .loRead init key => okInit init && okKey key
  | .recheck init page => okInit init && okPage page
  | .thimbleLoopCheck _ loop _ _ _ => okLoop loop
  | .disagreementWindowEnd _ loop => okLoop loop
  | .switchSample _ sw _ => okSwitch sw
  | .xtalFail => true
  | .thimblePowerOn => true
  | .armDone _ _ _ => true
  | .vbatMeasure _ => true
  | .monVdd rail _ det => okRail rail && okDet det
  | .monClk _ _ det => okDet det
  | .monTemp _ _ => true
  | .monGlitch _ det => okDet det
  | .monitorsArmed => true
  | .mainPowerLoss => true
  | .perstN => true
  | .crstN => true
  | .resetRelease _ => true
  | .runStart => true
  | .bootStalled => true
  | .hotReset _ => true
  | .pfFlr => true
  | .vfFlr slice => okSlice slice
  | .vfEnableClear _ => true
  | .vfEnableSet _ => true
  | .d3hot slice => okSlice slice
  | .linkTraining _ width _ => okLinkWidth width
  | .retrain _ => true
  | .atsInvalidation slice => okSlice slice
  | .inboundPoisonedWrite => true
  | .ideIntegrityFailure _ => true
  | .getVersion _ => true
  | .getCapabilities _ => true
  | .negotiateAlgorithms _ => true
  | .getDigests _ => true
  | .getCertificate _ => true
  | .spdmChallenge _ => true
  | .getMeasurements _ => true
  | .keyExchange _ => true
  | .finish session _ => okSession session
  | .heartbeat session _ => okSession session
  | .keyUpdate session _ => okSession session
  | .endSession session _ => okSession session
  | .vendorDefinedRequest session _ => okSession session
  | .status => true
  | .temp => true
  | .lifecycle => true
  | .fault => true
  | .revision => true
  | .alertResponse => true
  | .smbusTimeout => true
  | .programPage => true
  | .programUnit => true
  | .erase => true
  | .suspend => true
  | .resume => true
  | .zeroUnit => true
  | .flashProgramDone bank _ => okBank bank
  | .flashEraseDone bank _ => okBank bank
  | .sillWrite reg _ => okSill reg
  | .sillBatchDone => true
  | .cardInsert slot _ => okCard slot
  | .cardRemove slot => okCard slot
  | .getInfo slot _ _ => okCard slot
  | .challenge slot _ _ => okCard slot
  | .readBlock slot _ _ => okCard slot
  | .writeBlock slot _ => okCard slot
  | .writeKey slot _ => okCard slot
  | .cardTimeout slot _ => okCard slot
  | .guardStage ctx => okCtx ctx
  | .login ctx => okCtx ctx
  | .approve ctx => okCtx ctx
  | .remoteApprove ctx => okCtx ctx
  | .logout ctx => okCtx ctx
  | .guardCommit ctx => okCtx ctx
  | .guardDiscard ctx => okCtx ctx
  | .changeExpiry => true
  | .sessionExpiry => true
  | .domainNew => true
  | .domainJoin => true
  | .reshare => true
  | .ceremonyTimeout => true
  | .fwStageFrame ctx _ => okCtx ctx
  | .fwStageInfill ctx _ => okCtx ctx
  | .fwActivate ctx => okCtx ctx
  | .fwActivateConfirm ctx => okCtx ctx
  | .lifecycleQuery ctx => okCtx ctx
  | .lifecycleVendor ctx => okCtx ctx
  | .selfReset => true
  | .wearSample _ => true
  | .wearCheckpoint _ => true
  | .mainPowerUp => true
  | .completionTimeout dest => okDest dest
  | .atsTranslationCompletion dest _ => okDest dest
  | .returnToD0 slice => okSlice slice
  | .msixUnmask slice vec => okSlice slice && okVector vec
  | .illegal post => okPost post
  | .resetScanDone => true
  | .sillLogRead => true
  | .monDisagree _ => true
  | .repetitionCountFailure _ => true

end Sys2Proof
end

