-- ==== Sys2Proof/Machine/Encoding.lean ====
section
/-!
DEFINITION. The instruction words of Miade-32 (14_miade_isa R312–R316): the encoder and the decoder of the posts' rows.
A word that the decoder refuses is ILLEGAL (R313). The rows of the posts carry their operands (notes/assumptions/28.md);
this file says which word in memory spells each. Fields of the OP and TEN formats that an instruction does not use and
that no table marks zero are ignored when read (DEDUCED: notes/assumptions/29.md).
-/
namespace Sys2Proof.Machine
open Sys2Proof

/-! ### Fields of a word -/

/-- A signed field of `k` bits as it stands in a word, and as it is read. -/
def toField (k : Nat) (o : Int) : Nat := (o % 2 ^ k).toNat
def ofField (k n : Nat) : Int := if n < 2 ^ (k - 1) then (n : Int) else (n : Int) - 2 ^ k

def wMajor (w : Nat) : Nat := w / 2 ^ 26 % 64
def wRd (w : Nat) : Nat := w / 2 ^ 21 % 32
def wRs1 (w : Nat) : Nat := w / 2 ^ 16 % 32
def wImm16 (w : Nat) : Nat := w % 2 ^ 16
def wTn (w : Nat) : Nat := w / 2 ^ 12 % 16
def wOff12 (w : Nat) : Int := ofField 12 (w % 2 ^ 12)
def wOff16 (w : Nat) : Int := ofField 16 (w % 2 ^ 16)
def wOff26 (w : Nat) : Int := ofField 26 (w % 2 ^ 26)

/-! ### Formats (R312) -/

def opWord (rd rs1 rs2 sh funct : Nat) : Nat := rd * 2 ^ 21 + rs1 * 2 ^ 16 + rs2 * 2 ^ 11 + sh * 2 ^ 6 + funct
def immWord (major rd rs1 imm : Nat) : Nat := major * 2 ^ 26 + rd * 2 ^ 21 + rs1 * 2 ^ 16 + imm
def memWord (major rd rs1 tn : Nat) (off : Int) : Nat :=
  major * 2 ^ 26 + rd * 2 ^ 21 + rs1 * 2 ^ 16 + tn * 2 ^ 12 + toField 12 off
def mac2Word (tn ra rb : Nat) (sa sb : Bool) : Nat :=
  0x1C * 2 ^ 26 + tn * 2 ^ 22 + ra * 2 ^ 17 + rb * 2 ^ 12 + b2n sa * 2 ^ 11 + b2n sb * 2 ^ 10
def brWord (major rs1 rs2 : Nat) (off : Int) : Nat :=
  major * 2 ^ 26 + rs1 * 2 ^ 21 + rs2 * 2 ^ 16 + toField 16 off
def jmpWord (major : Nat) (off : Int) : Nat := major * 2 ^ 26 + toField 26 off
def tenWord (td ts rs sel funct : Nat) : Nat :=
  0x30 * 2 ^ 26 + td * 2 ^ 22 + ts * 2 ^ 18 + rs * 2 ^ 13 + sel * 2 ^ 5 + funct
def sysWord (rd rs1 tn imm funct : Nat) : Nat :=
  0x3F * 2 ^ 26 + rd * 2 ^ 21 + rs1 * 2 ^ 16 + tn * 2 ^ 12 + imm * 2 ^ 6 + funct

/-! ### The encoder -/

/-- The word of an instruction of a post; none for every other row. -/
def encodeWord : Instr → Option Nat
  | .add _ rd a b => some (opWord rd a b 0 0x0)
  | .sub _ rd a b => some (opWord rd a b 0 0x1)
  | .and _ rd a b => some (opWord rd a b 0 0x2)
  | .or _ rd a b => some (opWord rd a b 0 0x3)
  | .xor _ rd a b => some (opWord rd a b 0 0x4)
  | .sll _ rd a b => some (opWord rd a b 0 0x5)
  | .srl _ rd a b => some (opWord rd a b 0 0x6)
  | .sra _ rd a b => some (opWord rd a b 0 0x7)
  | .slt _ rd a b => some (opWord rd a b 0 0x8)
  | .sltu _ rd a b => some (opWord rd a b 0 0x9)
  | .addc _ rd a b st => some (opWord rd a b (b2n st) 0xA)
  | .subb _ rd a b st => some (opWord rd a b (b2n st) 0xB)
  | .slli _ rd a sh => some (opWord rd a 0 sh 0xC)
  | .srli _ rd a sh => some (opWord rd a 0 sh 0xD)
  | .srai _ rd a sh => some (opWord rd a 0 sh 0xE)
  | .selz _ rd a b => some (opWord rd a b 0 0xF)
  | .mul _ rd a b => some (opWord rd a b 0 0x10)
  | .mulhu _ rd a b => some (opWord rd a b 0 0x11)
  | .mulh _ rd a b => some (opWord rd a b 0 0x12)
  | .mac _ a b => some (opWord 0 a b 0 0x14)
  | .accsh _ rd => some (opWord rd 0 0 0 0x18)
  | .accrd _ rd k => some (opWord rd 0 k 0 0x19)
  | .accz _ => some (opWord 0 0 0 0 0x1A)
  | .accwr _ a k => some (opWord 0 a k 0 0x1B)
  | .jr _ a => some (opWord 0 a 0 0 0x20)
  | .callr _ a => some (opWord 0 a 0 0 0x21)
  | .ret _ => some (opWord 0 0 0 0 0x22)
  | .rspush _ a => some (opWord 0 a 0 0 0x24)
  | .rspop _ rd => some (opWord rd 0 0 0 0x25)
  | .rsdepth _ rd => some (opWord rd 0 0 0 0x26)
  | .addi _ rd a i => some (immWord 0x01 rd a i)
  | .slti _ rd a i => some (immWord 0x02 rd a i)
  | .sltiu _ rd a i => some (immWord 0x03 rd a i)
  | .andi _ rd a i => some (immWord 0x04 rd a i)
  | .ori _ rd a i => some (immWord 0x05 rd a i)
  | .xori _ rd a i => some (immWord 0x06 rd a i)
  | .lui _ rd i => some (immWord 0x07 rd 0 i)
  | .lb _ r a tn o => some (memWord 0x10 r a tn o)
  | .lh _ r a tn o => some (memWord 0x11 r a tn o)
  | .lw _ r a tn o => some (memWord 0x12 r a tn o)
  | .lbu _ r a tn o => some (memWord 0x13 r a tn o)
  | .lhu _ r a tn o => some (memWord 0x14 r a tn o)
  | .sb _ r a tn o => some (memWord 0x18 r a tn o)
  | .sh _ r a tn o => some (memWord 0x19 r a tn o)
  | .sw _ r a tn o => some (memWord 0x1A r a tn o)
  | .tld _ r a tn o => some (memWord 0x15 r a tn o)
  | .tst _ r a tn o => some (memWord 0x1B r a tn o)
  | .dmac _ tn a b sa sb => some (mac2Word tn a b sa sb)
  | .beq _ a b o => some (brWord 0x20 a b o)
  | .bne _ a b o => some (brWord 0x21 a b o)
  | .blt _ a b o => some (brWord 0x22 a b o)
  | .bge _ a b o => some (brWord 0x23 a b o)
  | .bltu _ a b o => some (brWord 0x24 a b o)
  | .bgeu _ a b o => some (brWord 0x25 a b o)
  | .j _ o => some (jmpWord 0x28 o)
  | .call _ o => some (jmpWord 0x29 o)
  | .tmov _ td ts => some (tenWord td ts 0 0 0x00)
  | .tnull _ td => some (tenWord td 0 0 0 0x01)
  | .tbound _ td ts rs => some (tenWord td ts rs 0 0x02)
  | .tperm _ td ts rs => some (tenWord td ts rs 0 0x03)
  | .tseal _ td ts rs => some (tenWord td ts rs 0 0x04)
  | .tunseal _ td ts rs => some (tenWord td ts rs 0 0x05)
  | .tcall _ td ts => some (tenWord td ts 0 0 0x06)
  | .tget _ ts rs sel => some (tenWord 0 ts rs sel 0x08)
  | .ttag _ ts rs => some (tenWord 0 ts rs 0 0x09)
  | .trap _ imm => some (sysWord 0 0 0 imm 0x00)
  | .eret _ tn => some (sysWord 0 0 tn 0 0x01)
  | .feat _ rd imm => some (sysWord rd 0 0 imm 0x02)
  | .tick _ rd => some (sysWord rd 0 0 0 0x03)
  | .cyc _ rd => some (sysWord rd 0 0 0 0x04)
  | .yield _ => some (sysWord 0 0 0 0 0x05)
  | .fence _ => some (sysWord 0 0 0 0 0x06)
  | .rqsub _ rd a ring mem tn _ _ _ => some (sysWord rd a tn (ring + 4 * mem) 0x08)
  | .rqwait _ rd a _ => some (sysWord rd a 0 0 0x09)
  | _ => none

/-! ### The decoder -/

/-- OP words, by funct (R315). -/
def decodeOp (p w : Nat) : Option Instr :=
  let rd := wRd w
  let a := wRs1 w
  let b := w / 2 ^ 11 % 32
  let sh := w / 2 ^ 6 % 32
  match w % 2 ^ 6 with
  | 0x0 => if sh == 0 then some (.add p rd a b) else none
  | 0x1 => if sh == 0 then some (.sub p rd a b) else none
  | 0x2 => if sh == 0 then some (.and p rd a b) else none
  | 0x3 => if sh == 0 then some (.or p rd a b) else none
  | 0x4 => if sh == 0 then some (.xor p rd a b) else none
  | 0x5 => if sh == 0 then some (.sll p rd a b) else none
  | 0x6 => if sh == 0 then some (.srl p rd a b) else none
  | 0x7 => if sh == 0 then some (.sra p rd a b) else none
  | 0x8 => if sh == 0 then some (.slt p rd a b) else none
  | 0x9 => if sh == 0 then some (.sltu p rd a b) else none
  | 0xA => if sh ≤ 1 then some (.addc p rd a b (sh == 1)) else none
  | 0xB => if sh ≤ 1 then some (.subb p rd a b (sh == 1)) else none
  | 0xC => if b == 0 then some (.slli p rd a sh) else none
  | 0xD => if b == 0 then some (.srli p rd a sh) else none
  | 0xE => if b == 0 then some (.srai p rd a sh) else none
  | 0xF => if sh == 0 then some (.selz p rd a b) else none
  | 0x10 => if sh == 0 then some (.mul p rd a b) else none
  | 0x11 => if sh == 0 then some (.mulhu p rd a b) else none
  | 0x12 => if sh == 0 then some (.mulh p rd a b) else none
  | 0x14 => if sh == 0 && rd == 0 then some (.mac p a b) else none
  | 0x18 => if sh == 0 then some (.accsh p rd) else none
  | 0x19 => if sh == 0 && b ≤ 2 then some (.accrd p rd b) else none
  | 0x1A => if sh == 0 && rd == 0 && a == 0 && b == 0 then some (.accz p) else none
  | 0x1B => if sh == 0 && b ≤ 2 then some (.accwr p a b) else none
  | 0x20 => if sh == 0 then some (.jr p a) else none
  | 0x21 => if sh == 0 then some (.callr p a) else none
  | 0x22 => if sh == 0 then some (.ret p) else none
  | 0x24 => if sh == 0 then some (.rspush p a) else none
  | 0x25 => if sh == 0 then some (.rspop p rd) else none
  | 0x26 => if sh == 0 then some (.rsdepth p rd) else none
  | _ => none

/-- TEN words, by funct (R316). -/
def decodeTen (p w : Nat) : Option Instr :=
  let td := w / 2 ^ 22 % 16
  let ts := w / 2 ^ 18 % 16
  let rs := w / 2 ^ 13 % 32
  let sel := w / 2 ^ 5 % 16
  if w / 2 ^ 9 % 16 != 0 then none
  else match w % 2 ^ 5 with
    | 0x00 => some (.tmov p td ts)
    | 0x01 => some (.tnull p td)
    | 0x02 => some (.tbound p td ts rs)
    | 0x03 => some (.tperm p td ts rs)
    | 0x04 => some (.tseal p td ts rs)
    | 0x05 => some (.tunseal p td ts rs)
    | 0x06 => some (.tcall p td ts)
    | 0x08 => if td == 0 then some (.tget p ts rs sel) else none
    | 0x09 => if td == 0 then some (.ttag p ts rs) else none
    | _ => none

/-- SYS words, by funct (R316). The block that an RQSUB submits and the reply that an RQWAIT loads are no part of the
word. -/
def decodeSys (p w : Nat) : Option Instr :=
  let rd := wRd w
  let a := wRs1 w
  let tn := wTn w
  let imm := w / 2 ^ 6 % 64
  match w % 2 ^ 6 with
  | 0x00 => if rd == 0 && a == 0 && tn == 0 then some (.trap p imm) else none
  | 0x01 => if rd == 0 && a == 0 && imm == 0 then some (.eret p tn) else none
  | 0x02 => if a == 0 && tn == 0 then some (.feat p rd imm) else none
  | 0x03 => if a == 0 && tn == 0 && imm == 0 then some (.tick p rd) else none
  | 0x04 => if a == 0 && tn == 0 && imm == 0 then some (.cyc p rd) else none
  | 0x05 => if rd == 0 && a == 0 && tn == 0 && imm == 0 then some (.yield p) else none
  | 0x06 => if rd == 0 && a == 0 && tn == 0 && imm == 0 then some (.fence p) else none
  | 0x08 => some (.rqsub p rd a (imm % 4) (imm / 4) tn 0 [] ⟨.plain, false⟩)
  | 0x09 => if tn == 0 && imm == 0 then some (.rqwait p rd a 0#32) else none
  | _ => none

/-- The instruction that a word spells on post `p`; none for an ILLEGAL word (R313, R314). -/
def decodeWord (p w : Nat) : Option Instr :=
  match wMajor w with
  | 0x00 => decodeOp p w
  | 0x01 => some (.addi p (wRd w) (wRs1 w) (wImm16 w))
  | 0x02 => some (.slti p (wRd w) (wRs1 w) (wImm16 w))
  | 0x03 => some (.sltiu p (wRd w) (wRs1 w) (wImm16 w))
  | 0x04 => some (.andi p (wRd w) (wRs1 w) (wImm16 w))
  | 0x05 => some (.ori p (wRd w) (wRs1 w) (wImm16 w))
  | 0x06 => some (.xori p (wRd w) (wRs1 w) (wImm16 w))
  | 0x07 => if wRs1 w == 0 then some (.lui p (wRd w) (wImm16 w)) else none
  | 0x10 => some (.lb p (wRd w) (wRs1 w) (wTn w) (wOff12 w))
  | 0x11 => some (.lh p (wRd w) (wRs1 w) (wTn w) (wOff12 w))
  | 0x12 => some (.lw p (wRd w) (wRs1 w) (wTn w) (wOff12 w))
  | 0x13 => some (.lbu p (wRd w) (wRs1 w) (wTn w) (wOff12 w))
  | 0x14 => some (.lhu p (wRd w) (wRs1 w) (wTn w) (wOff12 w))
  | 0x18 => some (.sb p (wRd w) (wRs1 w) (wTn w) (wOff12 w))
  | 0x19 => some (.sh p (wRd w) (wRs1 w) (wTn w) (wOff12 w))
  | 0x1A => some (.sw p (wRd w) (wRs1 w) (wTn w) (wOff12 w))
  | 0x15 => if wRd w < 16 then some (.tld p (wRd w) (wRs1 w) (wTn w) (wOff12 w)) else none
  | 0x1B => if wRd w < 16 then some (.tst p (wRd w) (wRs1 w) (wTn w) (wOff12 w)) else none
  | 0x1C => if w % 2 ^ 10 == 0 then
      some (.dmac p (w / 2 ^ 22 % 16) (w / 2 ^ 17 % 32) (w / 2 ^ 12 % 32) (w / 2 ^ 11 % 2 == 1) (w / 2 ^ 10 % 2 == 1))
    else none
  | 0x20 => some (.beq p (wRd w) (wRs1 w) (wOff16 w))
  | 0x21 => some (.bne p (wRd w) (wRs1 w) (wOff16 w))
  | 0x22 => some (.blt p (wRd w) (wRs1 w) (wOff16 w))
  | 0x23 => some (.bge p (wRd w) (wRs1 w) (wOff16 w))
  | 0x24 => some (.bltu p (wRd w) (wRs1 w) (wOff16 w))
  | 0x25 => some (.bgeu p (wRd w) (wRs1 w) (wOff16 w))
  | 0x28 => some (.j p (wOff26 w))
  | 0x29 => some (.call p (wOff26 w))
  | 0x30 => decodeTen p w
  | 0x3F => decodeSys p w
  | _ => none

/-- An instruction without what its word does not carry. -/
def bareInstr : Instr → Instr
  | .rqsub p rd a ring mem tn _ _ _ => .rqsub p rd a ring mem tn 0 [] ⟨.plain, false⟩
  | .rqwait p rd a _ => .rqwait p rd a 0#32
  | i => i

/-- The post of an instruction of a post. -/
def instrPost : Instr → Nat
  | .add p _ _ _ => p
  | .sub p _ _ _ => p
  | .and p _ _ _ => p
  | .or p _ _ _ => p
  | .xor p _ _ _ => p
  | .sll p _ _ _ => p
  | .srl p _ _ _ => p
  | .sra p _ _ _ => p
  | .slt p _ _ _ => p
  | .sltu p _ _ _ => p
  | .addc p _ _ _ _ => p
  | .subb p _ _ _ _ => p
  | .slli p _ _ _ => p
  | .srli p _ _ _ => p
  | .srai p _ _ _ => p
  | .selz p _ _ _ => p
  | .mul p _ _ _ => p
  | .mulhu p _ _ _ => p
  | .mulh p _ _ _ => p
  | .mac p _ _ => p
  | .accsh p _ => p
  | .accrd p _ _ => p
  | .accz p => p
  | .accwr p _ _ => p
  | .jr p _ => p
  | .callr p _ => p
  | .ret p => p
  | .rspush p _ => p
  | .rspop p _ => p
  | .rsdepth p _ => p
  | .addi p _ _ _ => p
  | .slti p _ _ _ => p
  | .sltiu p _ _ _ => p
  | .andi p _ _ _ => p
  | .ori p _ _ _ => p
  | .xori p _ _ _ => p
  | .lui p _ _ => p
  | .lb p _ _ _ _ => p
  | .lh p _ _ _ _ => p
  | .lw p _ _ _ _ => p
  | .lbu p _ _ _ _ => p
  | .lhu p _ _ _ _ => p
  | .sb p _ _ _ _ => p
  | .sh p _ _ _ _ => p
  | .sw p _ _ _ _ => p
  | .tld p _ _ _ _ => p
  | .tst p _ _ _ _ => p
  | .dmac p _ _ _ _ _ => p
  | .beq p _ _ _ => p
  | .bne p _ _ _ => p
  | .blt p _ _ _ => p
  | .bge p _ _ _ => p
  | .bltu p _ _ _ => p
  | .bgeu p _ _ _ => p
  | .j p _ => p
  | .call p _ => p
  | .tmov p _ _ => p
  | .tnull p _ => p
  | .tbound p _ _ _ => p
  | .tperm p _ _ _ => p
  | .tseal p _ _ _ => p
  | .tunseal p _ _ _ => p
  | .tcall p _ _ => p
  | .tget p _ _ _ => p
  | .ttag p _ _ => p
  | .trap p _ => p
  | .eret p _ => p
  | .feat p _ _ => p
  | .tick p _ => p
  | .cyc p _ => p
  | .yield p => p
  | .fence p => p
  | .rqsub p _ _ _ _ _ _ _ _ => p
  | .rqwait p _ _ _ => p
  | _ => 0

end Sys2Proof.Machine
end

