-- ==== Sys2Proof/Safety.lean ====
section
/-!
DEFINITION. What counts as a sound state and a safe run, in the terms that the statements use: the canonical forms of
memory and of the register file, the alignment of every post's program counter (14_miade_isa R309), and a step that
stops.
-/
namespace Sys2Proof.Safety
open Sys2Proof Sys2Proof.Machine

/-- The register file is canonical: keys rising, and no word listed that equals its reset value. -/
def regsWf (m : List (Nat × Word)) : Bool := trising 0 m && m.all (fun e => !decide (e.2 = regReset e.1))

def aligned4 (w : Word) : Bool := w &&& 3#32 == 0#32

/-- The branch whose delay slot is due, and its target, are aligned. -/
def delayAligned : Option Delay → Bool
  | some d => aligned4 d.at_ && aligned4 (d.target.getD 0#32)
  | none => true

/-- The program counter of a post is aligned, and so are the branch whose delay slot is due and its target. -/
def postAligned (x : Post) : Bool := aligned4 x.pc && delayAligned x.delay

/-- The table of posts is in order, and every post's program counter is aligned. -/
def postsWf (m : List (Nat × Post)) : Bool := trising 0 m && m.all (fun e => postAligned e.2)

/-- The invariant that every command keeps. -/
structure Inv (s : State) : Prop where
  mem : Memory.wf s.mem = true
  regs : regsWf s.regs = true
  posts : postsWf s.posts = true

/-- The step answers no next state. -/
def Stops (s : State) : Prop := ∀ t, step s ≠ .next t

/-- The device is in the safe state (17_faults R378). -/
def InSafeState (s : State) : Prop := s.faults.safe = true

end Sys2Proof.Safety
end

