-- ==== Sys2Proof/Certificates/Slice0/Obligations.lean ====
section
/-!
DEFINITION. The statements for the provers, from the rules of spec/: what each command of the block does and leaves
unchanged, what its posts' instructions do, and what holds of every step. The words they use stand in the namespace Claims.
-/

/-! ### Words used by the statements about posts -/
namespace Sys2Proof.Claims
open Sys2Proof Sys2Proof.Machine

/-- The post issues the instruction at its program counter: nothing stops it, and the fetch raises nothing (R311). -/
def Issues (s : State) (p : Nat) : Prop := postServes s p = true ∧ (fetchPost s p).1 = none

/-- Where a post goes on after an instruction that is no jump: behind it, or, from the delay slot of a branch, at the
branch's target or behind the slot (R320). -/
def nextPc (x : Post) : Word :=
  match x.delay with
  | none => x.pc + 4#32
  | some d => d.target.getD (d.at_ + 8#32)

/-- The return stack after an instruction: the pair of a call or return commits with its delay slot (R320, R322). -/
def nextRs (x : Post) : List Word :=
  match x.delay with
  | none => x.rs
  | some d => match d.push with
    | some w => (w :: x.rs).take 16
    | none => if d.pop then x.rs.drop 1 else x.rs

/-- The post ended one instruction: it goes on at `nextPc`, with no branch waiting, at a later cycle. -/
structure Ended (x y : Post) : Prop where
  pc : y.pc = nextPc x
  rs : y.rs = nextRs x
  delay : y.delay = none
  time : x.cyc < y.cyc

/-- The post `x` with what every instruction may change of `y`: program counter, return stack, delay slot, and times. -/
def movedOn (x y : Post) : Post :=
  { x with pc := y.pc, rs := y.rs, delay := y.delay, cyc := y.cyc, ready := y.ready, granule := y.granule
           issued := y.issued }

/-- Every general register but `rd` is as it was, and `rd` holds `w`; `g0` stays zero (R309). -/
def writesG (x y : Post) (rd : Nat) (w : Word) : Prop :=
  ∀ r, y.getG r = if r % 32 = rd % 32 ∧ rd % 32 ≠ 0 then w else x.getG r

/-- The instruction ended and wrote the general register `rd` alone. -/
structure WroteG (x y : Post) (rd : Nat) (w : Word) : Prop where
  ended : Ended x y
  value : writesG x y rd w
  frame : y = { movedOn x y with g := y.g }

/-- 1 or 0. -/
def bit (c : Prop) [Decidable c] : Word := if c then 1#32 else 0#32

/-- The instructions that write one general register with a value of the post's registers: the post, the register,
and the value (R314–R316, R327, R331). -/
def aluOf (s : State) : Instr → Option (Nat × Nat × (Post → Word))
  | .add p rd a b => some (p, rd, fun x => BitVec.ofNat 32 ((x.getG a).toNat + (x.getG b).toNat))
  | .sub p rd a b => some (p, rd, fun x => BitVec.ofInt 32 ((x.getG a).toNat - (x.getG b).toNat : Int))
  | .and p rd a b => some (p, rd, fun x => x.getG a &&& x.getG b)
  | .or p rd a b => some (p, rd, fun x => x.getG a ||| x.getG b)
  | .xor p rd a b => some (p, rd, fun x => x.getG a ^^^ x.getG b)
  | .sll p rd a b => some (p, rd, fun x => BitVec.ofNat 32 ((x.getG a).toNat * 2 ^ ((x.getG b).toNat % 32)))
  | .srl p rd a b => some (p, rd, fun x => BitVec.ofNat 32 ((x.getG a).toNat / 2 ^ ((x.getG b).toNat % 32)))
  | .sra p rd a b => some (p, rd, fun x => BitVec.ofInt 32 ((x.getG a).toInt / 2 ^ ((x.getG b).toNat % 32)))
  | .slt p rd a b => some (p, rd, fun x => bit ((x.getG a).toInt < (x.getG b).toInt))
  | .sltu p rd a b => some (p, rd, fun x => bit ((x.getG a).toNat < (x.getG b).toNat))
  | .selz p rd a b => some (p, rd, fun x => if x.getG b = 0#32 then x.getG a else x.getG rd)
  | .mul p rd a b => some (p, rd, fun x => BitVec.ofNat 32 ((x.getG a).toNat * (x.getG b).toNat))
  | .mulhu p rd a b => some (p, rd, fun x => BitVec.ofNat 32 ((x.getG a).toNat * (x.getG b).toNat / 2 ^ 32))
  | .mulh p rd a b => some (p, rd, fun x => BitVec.ofInt 32 ((x.getG a).toInt * (x.getG b).toInt / 2 ^ 32))
  | .slli p rd a n => some (p, rd, fun x => BitVec.ofNat 32 ((x.getG a).toNat * 2 ^ (n % 32)))
  | .srli p rd a n => some (p, rd, fun x => BitVec.ofNat 32 ((x.getG a).toNat / 2 ^ (n % 32)))
  | .srai p rd a n => some (p, rd, fun x => BitVec.ofInt 32 ((x.getG a).toInt / 2 ^ (n % 32)))
  | .addi p rd a i => some (p, rd, fun x => x.getG a + (BitVec.ofNat 16 i).signExtend 32)
  | .slti p rd a i => some (p, rd, fun x => bit ((x.getG a).toInt < (BitVec.ofNat 16 i).toInt))
  | .sltiu p rd a i => some (p, rd, fun x => bit ((x.getG a).toNat < ((BitVec.ofNat 16 i).signExtend 32).toNat))
  | .andi p rd a i => some (p, rd, fun x => x.getG a &&& BitVec.ofNat 32 (i % 2 ^ 16))
  | .ori p rd a i => some (p, rd, fun x => x.getG a ||| BitVec.ofNat 32 (i % 2 ^ 16))
  | .xori p rd a i => some (p, rd, fun x => x.getG a ^^^ BitVec.ofNat 32 (i % 2 ^ 16))
  | .lui p rd i => some (p, rd, fun _ => BitVec.ofNat 32 (i % 2 ^ 16 * 2 ^ 16))
  | .accrd p rd k => if k < 3 then some (p, rd, fun x => (x.acc >>> (32 * k)).setWidth 32) else none
  | .rsdepth p rd => some (p, rd, fun x => BitVec.ofNat 32 x.rs.length)
  | .feat p rd i => some (p, rd, fun x => BitVec.ofNat 32 (match i % 64 with
      | 0 => 1 + p * 2 ^ 8 + p / 4 * 2 ^ 16 + p % 4 * 2 ^ 20
      | 1 => 7 + 16 * 2 ^ 8
      | 2 => 1024 + 992 * 2 ^ 16
      | 3 => (if 2 ≤ p then 1 else 0) + (if x.work then 2 else 0) + x.slice * 2 ^ 8
      | 4 => if x.rswrap then 1 else 0
      | _ => 0))
  | .tick p rd => some (p, rd, fun _ => BitVec.ofNat 32 s.tick.count)
  | .tget p ts rs k => if k < 4 then some (p, rs, fun x => ((x.getT ts).bits >>> (32 * k)).setWidth 32) else none
  | .ttag p ts rs => some (p, rs, fun x => if (x.getT ts).tag then 1#32 else 0#32)
  | _ => none

/-- Where a branch or jump goes when it is taken: the post, and the target, none for a branch not taken (R314, R315,
R320). Offsets count words from the delay slot. -/
def branchOf : Instr → Option (Nat × (Post → Option Word))
  | .beq p a b o => some (p, fun x => if x.getG a = x.getG b then some (x.pc + 4#32 + BitVec.ofInt 32 (4 * o)) else none)
  | .bne p a b o => some (p, fun x => if x.getG a ≠ x.getG b then some (x.pc + 4#32 + BitVec.ofInt 32 (4 * o)) else none)
  | .blt p a b o => some (p, fun x =>
      if (x.getG a).toInt < (x.getG b).toInt then some (x.pc + 4#32 + BitVec.ofInt 32 (4 * o)) else none)
  | .bge p a b o => some (p, fun x =>
      if (x.getG b).toInt ≤ (x.getG a).toInt then some (x.pc + 4#32 + BitVec.ofInt 32 (4 * o)) else none)
  | .bltu p a b o => some (p, fun x =>
      if (x.getG a).toNat < (x.getG b).toNat then some (x.pc + 4#32 + BitVec.ofInt 32 (4 * o)) else none)
  | .bgeu p a b o => some (p, fun x =>
      if (x.getG b).toNat ≤ (x.getG a).toNat then some (x.pc + 4#32 + BitVec.ofInt 32 (4 * o)) else none)
  | .j p o => some (p, fun x => some (x.pc + 4#32 + BitVec.ofInt 32 (4 * o)))
  | .jr p a => some (p, fun x => some (x.getG a &&& 0xFFFFFFFC#32))
  | _ => none

/-- A push has room, or replaces the oldest entry (R322). -/
def pushes (s : State) (p : Nat) : Prop :=
  (getPost s p).rs.length < 16 ∨ flag s (pstFld p Reg.PST_CTRL_RSWRAP) = true

/-- The instructions that read or write memory under a tenon: post, register and offset of the address, tenon, width,
the permission, and whether they store (R312, R314). -/
def memOf : Instr → Option (Nat × Nat × Int × Nat × Nat × Nat × Bool)
  | .lb p _ r tn o => some (p, r, o, tn, 1, permR, false)
  | .lbu p _ r tn o => some (p, r, o, tn, 1, permR, false)
  | .lh p _ r tn o => some (p, r, o, tn, 2, permR, false)
  | .lhu p _ r tn o => some (p, r, o, tn, 2, permR, false)
  | .lw p _ r tn o => some (p, r, o, tn, 4, permR, false)
  | .tld p _ r tn o => some (p, r, o, tn, 16, permR, false)
  | .sb p _ r tn o => some (p, r, o, tn, 1, permW, true)
  | .sh p _ r tn o => some (p, r, o, tn, 2, permW, true)
  | .sw p _ r tn o => some (p, r, o, tn, 4, permW, true)
  | .tst p _ r tn o => some (p, r, o, tn, 16, permW, true)
  | _ => none

/-- The post that issues an instruction which a delay slot must not hold (R321). -/
def slotForbidden : Instr → Option Nat
  | .beq p _ _ _ | .bne p _ _ _ | .blt p _ _ _ | .bge p _ _ _ | .bltu p _ _ _ | .bgeu p _ _ _ => some p
  | .j p _ | .call p _ | .jr p _ | .callr p _ => some p
  | .ret p | .rspush p _ | .rspop p _ => some p
  | .tcall p _ _ | .eret p _ | .trap p _ | .yield p => some p
  | _ => none

/-- The exceptions that an instruction raises on its own operands, outside a delay slot's own rule: the post and the
exception (R311, R315, R322, R325, R330, R335, R337, R345). -/
def trapOf (s : State) : Instr → Option (Nat × Trap)
  | .illegal p => some (p, Trap.of xIllegal)
  | .trap p n => some (p, { Trap.of xTrap with detail := n % 64 })
  | .accrd p _ k => if 3 ≤ k then some (p, Trap.of xIllegal) else none
  | .accwr p _ k => if 3 ≤ k then some (p, Trap.of xIllegal) else none
  | .tget p _ _ k => if 4 ≤ k then some (p, Trap.of xIllegal) else none
  | .tbound p _ _ r => if r % 32 = 31 then some (p, Trap.of xIllegal) else none
  | .rqsub p _ _ _ _ _ _ _ _ => if (getPost s p).pct.has permFrame then none else some (p, Trap.of xIllegal)
  | .rqwait p _ _ _ => if (getPost s p).pct.has permFrame then none else some (p, Trap.of xIllegal)
  | .eret p _ => if postDepth s p = 0 ∨ postKp s p = true then some (p, Trap.of xIllegal) else none
  | .call p _ => if 16 ≤ (getPost s p).rs.length ∧ flag s (pstFld p Reg.PST_CTRL_RSWRAP) = false
      then some (p, Trap.of xRsOver) else none
  | .callr p _ => if 16 ≤ (getPost s p).rs.length ∧ flag s (pstFld p Reg.PST_CTRL_RSWRAP) = false
      then some (p, Trap.of xRsOver) else none
  | .rspush p _ => if 16 ≤ (getPost s p).rs.length ∧ flag s (pstFld p Reg.PST_CTRL_RSWRAP) = false
      then some (p, Trap.of xRsOver) else none
  | .ret p => if (getPost s p).rs = [] then some (p, Trap.of xRsUnder) else none
  | .rspop p _ => if (getPost s p).rs = [] then some (p, Trap.of xRsUnder) else none
  | .tcall p td ts =>
      if tcallOk ((getPost s p).getT ts) ((getPost s p).getT td) then none
      else some (p, { Trap.of xTenon with detail := ts % 16 })
  | .dmac p _ ra rb _ _ =>
      if 0x0007FFFF < ((getPost s p).getG ra).toNat then some (p, { Trap.of xDmac with addr := some ((getPost s p).getG ra) })
      else if ((getPost s p).getG rb).toNat < 0x00080000 ∨ 0x000FFBFF < ((getPost s p).getG rb).toNat then
        some (p, { Trap.of xDmac with addr := some ((getPost s p).getG rb) })
      else none
  | i => match memOf i with
    | none => none
    | some (p, r, o, tn, w, perm, st) =>
      let a := (getPost s p).getG r + BitVec.ofInt 32 o
      if a.toNat % w ≠ 0 then some (p, { Trap.of xAlign with store := st, addr := some a })
      else if ((getPost s p).getT tn).allows a.toNat w perm then none
      else some (p, { Trap.of xTenon with detail := tn % 16, store := st, addr := some a })

/-- The return address of an exception: the instruction's own, or in a delay slot the branch's (R320). -/
def backPc (x : Post) : Word :=
  match x.delay with
  | some d => d.at_
  | none => x.pc

/-- The loads of a general register: post, destination, register and offset of the address, tenon, width, and the value
of the bytes read, sign- or zero-extended (R314). -/
def loadOf : Instr → Option (Nat × Nat × Nat × Int × Nat × Nat × (Nat → Word))
  | .lb p rd r tn o => some (p, rd, r, o, tn, 1, fun n => BitVec.ofInt 32 (BitVec.ofNat 8 n).toInt)
  | .lh p rd r tn o => some (p, rd, r, o, tn, 2, fun n => BitVec.ofInt 32 (BitVec.ofNat 16 n).toInt)
  | .lw p rd r tn o => some (p, rd, r, o, tn, 4, BitVec.ofNat 32)
  | .lbu p rd r tn o => some (p, rd, r, o, tn, 1, BitVec.ofNat 32)
  | .lhu p rd r tn o => some (p, rd, r, o, tn, 2, BitVec.ofNat 32)
  | _ => none

/-- A data access of `w` bytes that nothing refuses: aligned, authorised by the tenon and by the live gate (R311). -/
structure Reaches (s : State) (p tn a w perm : Nat) (k : Acc) : Prop where
  aligned : a % w = 0
  tenon : ((getPost s p).getT tn).allows a w perm = true
  gate : gateCheck s s.gates.live p a k = .allow

/-- No posted write of the post waits in the gate's basting buffer (R319, R362). -/
def nonePosted (s : State) (p g : Nat) : Prop := s.gates.basting.filter (ofGate p g) = []

/-- The bytes of memory from `a` upward hold `b`, and every other byte is as it was. -/
def stored (s t : State) (a : Nat) (b : Bytes) : Prop :=
  memRead t a b.length = b ∧ ∀ q, (q < a ∨ a + b.length ≤ q) → memByte t q = memByte s q

/-- The tag of the granule of `a` is `v`, and every other tag is as it was (R336). -/
def tagged (s t : State) (a : Nat) (v : Bool) : Prop :=
  ∀ n, tget false t.tags n = if n = a / 16 then v else tget false s.tags n

/-- The stores of a general register: post, the register stored, register and offset of the address, tenon, width. -/
def storeOf : Instr → Option (Nat × Nat × Nat × Int × Nat × Nat)
  | .sb p r2 r tn o => some (p, r2, r, o, tn, 1)
  | .sh p r2 r tn o => some (p, r2, r, o, tn, 2)
  | .sw p r2 r tn o => some (p, r2, r, o, tn, 4)
  | _ => none

end Sys2Proof.Claims
open Sys2Proof Sys2Proof.Machine Sys2Proof.Claims

/-- R309, R314–R316, R320, R327, R331: each register instruction gives its destination the value of its rule, goes on behind
itself, and changes nothing else: no other register, no tenon, no accumulator, no carry, no memory, no register page.
Model's choices it rests on: notes/assumptions/28.md. -/
def Obligations.RegisterResults : Prop :=
  ∀ (i : Instr) (s : State) (p rd : Nat) (v : Post → Word), aluOf s i = some (p, rd, v) → Safety.Inv s → Issues s p →
    ∃ y, exec i s = .next (setPost s p y) ∧ WroteG (getPost s p) y rd (v (getPost s p))

/-- R315: `ACCSH`, `ACCZ` and `ACCWR` change the accumulator as their rows say; `CYC` reads the cycle of its own issue (R331).
Each changes nothing else.
Model's choices it rests on: notes/assumptions/28.md. -/
def Obligations.AccumulatorMovesAndCycle : Prop :=
  ∀ (s : State) (p : Nat), Safety.Inv s → Issues s p → let x := getPost s p
    (∀ rd, ∃ y, exec (.accsh p rd) s = .next (setPost s p y) ∧ Ended x y ∧ writesG x y rd (x.acc.setWidth 32) ∧
        y = { movedOn x y with g := y.g, acc := BitVec.ofNat 96 (x.acc.toNat / 2 ^ 32) }) ∧
    (∃ y, exec (.accz p) s = .next (setPost s p y) ∧ Ended x y ∧ y = { movedOn x y with acc := 0#96 }) ∧
    (∀ a k, k < 3 → ∃ y, exec (.accwr p a k) s = .next (setPost s p y) ∧ Ended x y ∧
        y = { movedOn x y with acc := y.acc } ∧
        ∀ j, j < 3 → y.acc.extractLsb' (32 * j) 32 = if j = k then x.getG a else x.acc.extractLsb' (32 * j) 32) ∧
    (∀ rd, ∃ y, exec (.cyc p rd) s = .next (setPost s p y) ∧ WroteG x y rd (BitVec.ofNat 32 ((y.cyc - 1) % 1024)))

/-- R314, R315, R320: a branch or jump outside a delay slot reads its condition and target at once and leaves them to the
delay slot behind it; nothing else changes. -/
def Sys2Proof.Claims.BranchesLeaveADelaySlot : Prop :=
  ∀ (i : Instr) (s : State) (p : Nat) (f : Post → Option Word), branchOf i = some (p, f) → Safety.Inv s → Issues s p →
    (getPost s p).delay = none →
    ∃ y, exec i s = .next (setPost s p y) ∧ y.pc = (getPost s p).pc + 4#32 ∧ y.rs = (getPost s p).rs ∧
      y.delay = some ⟨(getPost s p).pc, f (getPost s p), none, false⟩ ∧ (getPost s p).cyc < y.cyc ∧
      y = movedOn (getPost s p) y

/-- R315, R320, R322: calls leave a push of the branch's address plus 8 to the delay slot, and `RET` a pop of the entry it
jumps to; `RSPUSH` and `RSPOP` act at once, and a push onto 16 entries under `RSWRAP` loses the oldest one. -/
def Sys2Proof.Claims.CallsAndReturnStack : Prop :=
  ∀ (s : State) (p : Nat), Safety.Inv s → Issues s p → (getPost s p).delay = none → let x := getPost s p
    let goes := fun (y : Post) (d : Delay) => y.pc = x.pc + 4#32 ∧ y.rs = x.rs ∧ y.delay = some d ∧ x.cyc < y.cyc ∧ y = movedOn x y
    (∀ o, pushes s p → ∃ y, exec (.call p o) s = .next (setPost s p y) ∧
      goes y ⟨x.pc, some (x.pc + 4#32 + BitVec.ofInt 32 (4 * o)), some (x.pc + 8#32), false⟩) ∧
    (∀ a, pushes s p → ∃ y, exec (.callr p a) s = .next (setPost s p y) ∧
      goes y ⟨x.pc, some (x.getG a &&& 0xFFFFFFFC#32), some (x.pc + 8#32), false⟩) ∧
    (∀ w r, x.rs = w :: r → ∃ y, exec (.ret p) s = .next (setPost s p y) ∧
      goes y ⟨x.pc, some (w &&& 0xFFFFFFFC#32), none, true⟩) ∧
    (∀ a, pushes s p → ∃ y, exec (.rspush p a) s = .next (setPost s p y) ∧ y.pc = x.pc + 4#32 ∧ y.delay = none ∧
      y.rs = (x.getG a :: x.rs).take 16 ∧ x.cyc < y.cyc ∧ y = movedOn x y) ∧
    (∀ rd w r, x.rs = w :: r → ∃ y, exec (.rspop p rd) s = .next (setPost s p y) ∧ y.pc = x.pc + 4#32 ∧ y.delay = none ∧
      y.rs = r ∧ writesG x y rd w ∧ x.cyc < y.cyc ∧ y = { movedOn x y with g := y.g })

/-- R311, R315, R320–R322, R325, R330, R335, R337, R345: an instruction whose own operands raise an exception, and one that a
delay slot must not hold, performs nothing and takes the exception its rule names, with the branch's address as the
return address where it stood in a delay slot.
Model's choices it rests on: notes/assumptions/28.md, notes/assumptions/43.md. -/
def Obligations.TrapsBeforeAnyEffect : Prop :=
  ∀ (i : Instr) (s : State) (p : Nat) (t : Trap), Safety.Inv s → Issues s p →
    (if (getPost s p).delay.isSome = true ∧ slotForbidden i = some p then t = Trap.of xDslot else trapOf s i = some (p, t)) →
    ∃ z, z = { getPost s p with cyc := z.cyc, granule := z.granule, issued := true } ∧ (getPost s p).cyc ≤ z.cyc ∧
      exec i s = .next (takeException (setPost s p z) p (backPc (getPost s p)) t)

/-- R314, R318, R336: a load from memory on the posts' map (the own store through the alias, another bent store, the loft,
the bobbin, context RAM) brings the bytes there, least significant first, sign- or zero-extended, into its register, and
`TLD` brings 16 bytes into its tenon register, tagged only from a tagged granule of the own store under a tenon with `LT`.
Nothing else changes. -/
def Sys2Proof.Claims.LoadsFromMemory : Prop :=
  ∀ (s : State) (p : Nat), Safety.Inv s → Issues s p → let x := getPost s p
    (∀ i rd r o tn w ext, loadOf i = some (p, rd, r, o, tn, w, ext) → let a := (x.getG r + BitVec.ofInt 32 o).toNat
      Reaches s p tn a w permR .read → gateOf p a ≤ 10 → nonePosted s p (gateOf p a) →
      ∃ y, exec i s = .next (setPost s p y) ∧ WroteG x y rd (ext (leNat (memRead s (memAddr p a) w)))) ∧
    (∀ td r tn o, let a := (x.getG r + BitVec.ofInt 32 o).toNat
      Reaches s p tn a 16 permR .read → gateOf p a ≤ 10 → nonePosted s p (gateOf p a) →
      ∃ y, exec (.tld p td r tn o) s = .next (setPost s p y) ∧ Ended x y ∧ y = { movedOn x y with t := y.t } ∧
        ∀ n, y.getT n = if n % 16 = td % 16 then ⟨BitVec.ofNat 128 (leNat (memRead s (memAddr p a) 16)),
          decide (a ≤ 0x000FFFFF ∧ tget false s.tags (memAddr p a / 16) = true ∧ (x.getT tn).has permLT = true)⟩ else x.getT n)

/-- R318, R486: `LW` from a register page reads the register through the post's own gate, with what the read itself does
there, into its destination. A read of `RNG_DATA` that finds no word is held, in the order of arrival (R264).
Model's choices it rests on: notes/assumptions/28.md, notes/assumptions/31.md. -/
def Obligations.LoadsFromRegisterPages : Prop :=
  ∀ (s : State) (p rd r tn : Nat) (o : Int), Safety.Inv s → Issues s p → let x := getPost s p
    let a := (x.getG r + BitVec.ofInt 32 o).toNat
    Reaches s p tn a 4 permR .read → gateOf p a = 11 → nonePosted s p 11 →
    (a = 0x40026104 ∧ rngErr s = false ∧ s.rng.fifo = [] →
      ∃ y, exec (.lw p rd r tn o) s = .next (setPost { s with rng := { s.rng with waiting := s.rng.waiting ++ [p] } } p y) ∧
        Ended x y ∧ y = { movedOn x y with held := some rd }) ∧
    (¬ (a = 0x40026104 ∧ rngErr s = false ∧ s.rng.fifo = []) →
      ∃ z y, z = { x with cyc := z.cyc, granule := z.granule, issued := true } ∧
        exec (.lw p rd r tn o) s = .next (setPost (readReg (setPost s p z) p (a - 0x40000000)).2 p y) ∧
        WroteG x y rd (readReg (setPost s p z) p (a - 0x40000000)).1)

/-- R314, R318, R336: a store through the own-store alias replaces exactly the bytes it names and clears the tag of their
granule; `TST` sets that tag only for a tagged register under a tenon with `ST`. No other byte, tag or register changes.
Model's choices it rests on: notes/assumptions/28.md, notes/assumptions/30.md. -/
def Obligations.StoresToTheOwnStore : Prop :=
  ∀ (s : State) (p : Nat), Safety.Inv s → Issues s p → let x := getPost s p
    (∀ i r2 r o tn w, storeOf i = some (p, r2, r, o, tn, w) → let a := (x.getG r + BitVec.ofInt 32 o).toNat
      Reaches s p tn a w permW .write → a ≤ 0x000FFFFF →
      ∃ y t, exec i s = .next t ∧ t = { setPost s p y with mem := t.mem, tags := t.tags } ∧ Ended x y ∧ y = movedOn x y ∧
        stored s t (memAddr p a) (leBytes w (x.getG r2).toNat) ∧ tagged s t (memAddr p a) false) ∧
    (∀ ts r tn o, let a := (x.getG r + BitVec.ofInt 32 o).toNat
      Reaches s p tn a 16 permW .write → a ≤ 0x000FFFFF →
      ∃ y t, exec (.tst p ts r tn o) s = .next t ∧ t = { setPost s p y with mem := t.mem, tags := t.tags } ∧ Ended x y ∧
        y = movedOn x y ∧ stored s t (memAddr p a) (leBytes 16 (x.getT ts).bits.toNat) ∧
        tagged s t (memAddr p a) ((x.getT ts).tag && (x.getT tn).has permST))

/-- R318, R362: a store to any other writable target leaves the post at its issue and waits in the basting buffer of its
gate with the epoch in force; memory and registers are unchanged. A tagged `TST` to a tenon slot enters an empty slot and
is ignored by a locked one (R349).
Model's choices it rests on: notes/assumptions/28.md, notes/assumptions/43.md, notes/assumptions/44.md. -/
def Obligations.StoresElsewhereArePosted : Prop :=
  ∀ (s : State) (p : Nat), Safety.Inv s → Issues s p → let x := getPost s p
    (∀ i r2 r o tn w, storeOf i = some (p, r2, r, o, tn, w) → let a := (x.getG r + BitVec.ofInt 32 o).toNat
      a % w = 0 → (x.getT tn).allows a w permW = true → 0x000FFFFF < a → gateOf p a ≤ 11 →
      ∃ y, exec i s = .next (setPost { s with gates := { s.gates with basting := s.gates.basting ++
          [⟨p, a, leBytes w (x.getG r2).toNat, (getReg s Reg.GTE_EPOCH).toNat⟩] } } p y) ∧
        Ended x y ∧ y = { movedOn x y with stores := y.stores }) ∧
    (∀ ts r tn o, let a := (x.getG r + BitVec.ofInt 32 o).toNat
      a % 16 = 0 → (x.getT tn).allows a 16 permW = true → 0x000FFFFF < a → gateOf p a ≤ 11 →
      (slotOf a = none ∨ (x.getT ts).tag = false) →
      ∃ y, exec (.tst p ts r tn o) s = .next (setPost { s with gates := { s.gates with basting := s.gates.basting ++
          [⟨p, a, leBytes 16 (x.getT ts).bits.toNat, (getReg s Reg.GTE_EPOCH).toNat⟩] } } p y) ∧
        Ended x y ∧ y = { movedOn x y with stores := y.stores }) ∧
    (∀ ts r tn o q kp, let a := (x.getG r + BitVec.ofInt 32 o).toNat
      Reaches s p tn a 16 permW .write → slotOf a = some (q, kp) → (x.getT ts).tag = true → nonePosted s p 11 →
      ∃ t, exec (.tst p ts r tn o) s = .next t ∧
        (getPost t q).dispatch = (if kp = true ∨ (getPost s q).dispatch.tag = true then (getPost s q).dispatch else x.getT ts) ∧
        (getPost t q).kpcode = (if kp = false ∨ (getPost s q).kpcode.tag = true then (getPost s q).kpcode else x.getT ts) ∧
        t = { s with posts := t.posts })

/-- R325: `DMAC` reads its operands from the two halves of the own store, adds their product to the accumulator and steps
both pointers. -/
def Sys2Proof.Claims.DualFetchMultiply : Prop :=
  ∀ (s : State) (p tn ra rb : Nat) (sa sb : Bool), Safety.Inv s → Issues s p → let x := getPost s p
    let a := (x.getG ra).toNat
    let b := (x.getG rb).toNat
    a ≤ 0x0007FFFF → 0x00080000 ≤ b → b ≤ 0x000FFBFF → Reaches s p tn a 4 permR .read → Reaches s p tn b 4 permR .read →
    nonePosted s p (gateOf p a) →
    ∃ y, exec (.dmac p tn ra rb sa sb) s = .next (setPost s p y) ∧ Ended x y ∧ y = { movedOn x y with g := y.g, acc := y.acc } ∧
      y.acc = BitVec.ofNat 96 (x.acc.toNat + leNat (memRead s (memAddr p a) 4) * leNat (memRead s (memAddr p b) 4)) ∧
      y.getG ra = (if ra % 32 = 0 then 0#32 else BitVec.ofInt 32 (if sa then (a : Int) - 4 else a + 4)) ∧
      y.getG rb = BitVec.ofInt 32 (if sb then (b : Int) - 4 else b + 4) ∧
      ∀ r, r % 32 ≠ ra % 32 → r % 32 ≠ rb % 32 → y.getG r = x.getG r

/-- The source of a derivation with its tag cleared (R335). -/
def Sys2Proof.Claims.untagged (t : Tenon) : Tenon := { t with tag := false }

/-- A valid sealer for a permission (R335). -/
def Sys2Proof.Claims.sealerFor (k : Tenon) (perm : Nat) : Prop :=
  k.tag = true ∧ k.otype = 0 ∧ k.kind = 3 ∧ k.base = k.top ∧ 1 ≤ k.base ∧ k.base ≤ 65535 ∧ bitAt k.perm perm = true

/-- Same fields but those named by a derivation (R332). -/
def Sys2Proof.Claims.tenonIs (t : Tenon) (base top cursor perm kind otype : Nat) : Prop :=
  t.tag = true ∧ t.base = base ∧ t.top = top ∧ t.cursor = cursor ∧ t.perm = perm ∧ t.kind = kind ∧ t.otype = otype

/-- R335: the tenon operations give their destination the value of the table, the source with its tag cleared where the
derivation is invalid, and change no other register.
Model's choices it rests on: notes/assumptions/28.md. -/
def Obligations.TenonOperations : Prop :=
  ∀ (s : State) (p td ts rs : Nat), Safety.Inv s → Issues s p → let x := getPost s p
    let t := x.getT ts
    let k := x.getT ((x.getG rs).toNat % 16)
    let gives := fun (i : Instr) (ok : Tenon → Prop) => ∃ y, exec i s = .next (setPost s p y) ∧ Ended x y ∧
      y = { movedOn x y with t := y.t } ∧ ok (y.getT td) ∧ ∀ n, n % 16 ≠ td % 16 → y.getT n = x.getT n
    gives (.tmov p td ts) (fun r => r = t) ∧ gives (.tnull p td) (fun r => r = ⟨0#128, false⟩) ∧
    (rs % 32 ≠ 31 → let lo := (x.getG rs).toNat
      let hi := (x.getG (rs + 1)).toNat
      gives (.tbound p td ts rs) (fun r =>
        if t.tag = true ∧ t.otype = 0 ∧ t.base ≤ lo ∧ lo ≤ hi ∧ hi ≤ t.top then tenonIs r lo hi lo t.perm t.kind 0
        else r = untagged t)) ∧
    gives (.tperm p td ts rs) (fun r =>
      if t.tag = true ∧ t.otype = 0 then
        tenonIs r t.base t.top t.cursor (t.perm &&& (255 - (x.getG rs).toNat % 256)) t.kind 0 else r = untagged t) ∧
    (sealerFor k 0 ∧ t.tag = true ∧ t.otype = 0 ∧ t.kind ≠ 0 →
      gives (.tseal p td ts rs) (fun r => tenonIs r t.base t.top t.cursor t.perm t.kind k.base)) ∧
    (¬ (sealerFor k 0 ∧ t.tag = true ∧ t.otype = 0 ∧ t.kind ≠ 0) → gives (.tseal p td ts rs) (fun r => r = untagged t)) ∧
    (sealerFor k 1 ∧ t.tag = true ∧ t.otype = k.base →
      gives (.tunseal p td ts rs) (fun r => tenonIs r t.base t.top t.cursor t.perm t.kind 0)) ∧
    (¬ (sealerFor k 1 ∧ t.tag = true ∧ t.otype = k.base) → gives (.tunseal p td ts rs) (fun r => r = untagged t))

/-- R335: no tenon operation sets a tag on a value that was not tagged, and none gives a result wider than its source: for
every tenon register after one of them, if it is tagged, some tagged tenon register before had bounds that contain its
bounds and every permission it has.
Model's choices it rests on: notes/assumptions/28.md. -/
def Obligations.TenonsAreNeverWidened : Prop :=
  ∀ (s t : State) (i : Instr) (p td ts rs n : Nat), Safety.Inv s → Issues s p →
    i = .tmov p td ts ∨ i = .tnull p td ∨ i = .tbound p td ts rs ∨ i = .tperm p td ts rs ∨ i = .tseal p td ts rs ∨
      i = .tunseal p td ts rs → rs % 32 ≠ 31 → exec i s = .next t → ((getPost t p).getT n).tag = true →
    ∃ m, let a := (getPost s p).getT m
      let b := (getPost t p).getT n
      a.tag = true ∧ a.base ≤ b.base ∧ b.top ≤ a.top ∧ a.kind = b.kind ∧ ∀ k, k < 8 → bitAt b.perm k = true → bitAt a.perm k = true

/-- What an ordinary exception entry needs (R341, R342): the post is at no kingpost level and below depth 4, the vector's
descriptor may be read and is valid, and the frame may be written. -/
structure Sys2Proof.Claims.EntryOpen (s : State) (p : Nat) (cause : Nat) (desc frame : Nat) (code stack : Tenon) : Prop where
  level : postKp s p = false
  depth : postDepth s p < 4
  descAt : desc = (getReg s (pstKey p Reg.PST_VBASE)).toNat + 32 * cause
  readable : gateCheck s s.gates.live p desc .read = .allow
  isCode : code = memTenon s p desc ∧ code.code = true
  isStack : stack = memTenon s p (desc + 16) ∧ stack.stack = true
  frameAt : frame = stack.cursor - 16 * (postDepth s p + 1)
  writable : gateCheck s s.gates.live p frame .write = .allow

/-- R342 and R343 as one relation: what ordinary entry with trap `t` and return address `a` makes of a state. The frame
holds the flags, the authority's fingerprint, the seal and the return address; `g31`, `t14`, `t15`, `pct` and `pc` are
replaced; no other register of the post, no other byte of memory changes. -/
structure Sys2Proof.Claims.Entered (s u : State) (p : Nat) (a : Word) (t : Trap) (frame : Nat) (code stack : Tenon) : Prop where
  memory : stored s u (memAddr p frame) (frameBytes s p a (frameFlags t) (authPrint s p (getPost s p).pct) (postDepth s p + 1))
  tags : tagged s u (memAddr p frame) false
  framed : getReg u (frameKey p (postDepth s p)) = BitVec.ofNat 32 frame
  depth : postDepth u p = postDepth s p + 1
  cause : getF u (pstFld p Reg.PST_XCAUSE_FLAGS) = frameFlags t % 2 ^ 16
  xaddr : getReg u (pstKey p Reg.PST_XADDR) = t.addr.getD a
  post : getPost u p = { getPost s p with
    pc := BitVec.ofNat 32 code.cursor, pct := code, g := (getPost u p).g, t := (getPost u p).t, delay := none
    cyc := (getPost u p).cyc, ready := (getPost u p).ready, granule := (getPost u p).granule, issued := true }
  general : ∀ r, (getPost u p).getG r = if r % 32 = 31 then BitVec.ofNat 32 frame else (getPost s p).getG r
  tenons : ∀ n, (getPost u p).getT n =
    if n % 16 = 14 then (getPost s p).pct else if n % 16 = 15 then stack else (getPost s p).getT n
  counted : getF u (pstFld p Reg.PST_EXC_CNT_N) = min (getF s (pstFld p Reg.PST_EXC_CNT_N) + 1) 0xFFFF
  registers : ∀ k, k ≠ frameKey p (postDepth s p) → k ≠ pstKey p Reg.PST_STAT → k ≠ pstKey p Reg.PST_XADDR →
    k ≠ pstKey p Reg.PST_XCAUSE → k ≠ pstKey p Reg.PST_EXC_CNT → getReg u k = getReg s k
  others : ∀ q, q ≠ p → getPost u q = getPost s q
  rest : u = { s with posts := u.posts, regs := u.regs, mem := u.mem, tags := u.tags }

/-- R339, R342: `TRAP` and an undefined word take their exceptions: with the vector open, the post saves its frame and goes
on at the handler, the return address being the instruction's own or, in a delay slot, the branch's. -/
def Sys2Proof.Claims.TrapEntersItsVector : Prop :=
  ∀ (s : State) (p : Nat), Safety.Inv s → Issues s p →
    (∀ n desc frame code stack, (getPost s p).delay = none → EntryOpen s p xTrap desc frame code stack →
      ∃ u, exec (.trap p n) s = .next u ∧
        Entered s u p (getPost s p).pc { Trap.of xTrap with detail := n % 64 } frame code stack) ∧
    (∀ desc frame code stack, EntryOpen s p xIllegal desc frame code stack →
      ∃ u, exec (.illegal p) s = .next u ∧
        Entered s u p (backPc (getPost s p)) (Trap.of xIllegal) frame code stack)

/-- R344: a management post at depth 0 takes the lowest enabled pending line as an exception of cause `INTERRUPT` with that
line as its detail, and returns to the next instruction; a slotted post, a post between a branch and its delay slot, and a
post with interrupts off take none, and nothing changes. -/
def Sys2Proof.Claims.InterruptEntersItsVector : Prop :=
  ∀ (s : State) (p : Nat), Safety.Inv s →
    (2 ≤ p ∨ (getPost s p).delay ≠ none ∨ flag s (pstFld p Reg.PST_CTRL_IRQ) = false → exec (.interrupt p) s = .next s) ∧
    (∀ l desc frame code stack, p < 2 → postServes s p = true → (getPost s p).issued = true → (getPost s p).delay = none →
      postDepth s p = 0 → flag s (pstFld p Reg.PST_CTRL_IRQ) = true → EntryOpen s p xInterrupt desc frame code stack →
      l < 6 → bitAt (getF s (pstFld p Reg.PST_IRQ_PEND_LINES)) l = true → bitAt (getF s (pstFld p Reg.PST_IRQ_LEN_LINES)) l = true →
      (∀ k, k < l → ¬ (bitAt (getF s (pstFld p Reg.PST_IRQ_PEND_LINES)) k = true ∧ bitAt (getF s (pstFld p Reg.PST_IRQ_LEN_LINES)) k = true)) →
      ∃ u, exec (.interrupt p) s = .next u ∧
        Entered s u p (getPost s p).pc { Trap.of xInterrupt with detail := l } frame code stack)

/-- R337: `TCALL` of a sealed pair that may be invoked enters the code with both tenons unsealed, in one step, and leaves
everything else, the return stack included. -/
def Sys2Proof.Claims.TcallInvokesASealedPair : Prop :=
  ∀ (s : State) (p td ts : Nat), Safety.Inv s → Issues s p → (getPost s p).delay = none → let x := getPost s p
    let code := x.getT ts
    let data := x.getT td
    code.tag = true → data.tag = true → code.kind = 1 → data.kind = 1 → code.otype ≠ 0 → code.otype = data.otype →
    code.has permX = true → code.cursor % 4 = 0 → code.base ≤ code.cursor → code.cursor ≤ code.top →
    ∃ y, exec (.tcall p td ts) s = .next (setPost s p y) ∧ y.pc = BitVec.ofNat 32 code.cursor ∧
      tenonIs y.pct code.base code.top code.cursor code.perm 1 0 ∧
      tenonIs (y.getT td) data.base data.top data.cursor data.perm 1 0 ∧ (∀ n, n % 16 ≠ td % 16 → y.getT n = x.getT n) ∧
      x.cyc + 4 ≤ y.cyc ∧ y = { movedOn x y with t := y.t, pct := y.pct } ∧ y.rs = x.rs ∧ y.delay = none

/-- R345: `ERET` under a tagged tenon whose fingerprint and whose frame's seal hold returns to the sealed address with exactly
that authority, one level lower, and restores nothing else; a failed check escalates with cause `RET_AUTH` after 8 cycles. -/
def Sys2Proof.Claims.SealedReturn : Prop :=
  ∀ (s : State) (p tn : Nat), Safety.Inv s → Issues s p → (getPost s p).delay = none → 1 ≤ postDepth s p →
    postDepth s p ≤ 4 → postKp s p = false → let x := getPost s p
    let d := postDepth s p
    let b := memRead s (memAddr p (getReg s (frameKey p (d - 1))).toNat) 16
    let flags := leNat (b.take 2)
    let print := leNat ((b.drop 2).take 3)
    let mark := leNat ((b.drop 5).take 3)
    let a := BitVec.ofNat 32 (leNat ((b.drop 8).take 4))
    let good := (x.getT tn).tag = true ∧ authPrint s p (x.getT tn) = print ∧ frameSeal s p a flags print d = mark
    (good → ∃ y, exec (.eret p tn) s = .next (setF (setReg (setPost s p y) (frameKey p (d - 1)) 0#32)
        (pstFld p Reg.PST_STAT_DEPTH) (d - 1)) ∧
      y.pc = a &&& 0xFFFFFFFC#32 ∧ y.pct = x.getT tn ∧ x.cyc + 8 ≤ y.cyc ∧
      y = { movedOn x y with pct := y.pct } ∧ y.rs = x.rs ∧ y.delay = none) ∧
    (¬ good → ∃ z, z = { x with cyc := z.cyc, granule := z.granule, issued := true } ∧
      exec (.eret p tn) s = .next (escalate (setPost s p z) p xRetAuth x.pc 8))

/-- R328, R347, R362: `YIELD` ends a stitch program, restarts a management post that leaves the kingpost level at its dispatch
tenon's cursor with depth 0, null tenons and an empty return stack, and elsewhere on a management post only goes on
(notes/assumptions/41.md); `FENCE` with nothing posted waits until 16 cycles after the post's latest store.
Model's choices it rests on: notes/assumptions/41.md, notes/assumptions/43.md. -/
def Obligations.YieldAndFence : Prop :=
  ∀ (s : State) (p : Nat), Safety.Inv s → Issues s p → let x := getPost s p
    (x.delay = none → 2 ≤ p → ∃ y, exec (.yield p) s = .next (setPost s p y) ∧ y.run = false ∧ y.pc = x.pc + 4#32 ∧
      y.rs = x.rs ∧ y.delay = none ∧ x.cyc < y.cyc ∧ y = { movedOn x y with run := y.run }) ∧
    (x.delay = none → p < 2 → postKp s p = true → ∃ u, exec (.yield p) s = .next u ∧ postDepth u p = 0 ∧
      postKp u p = false ∧ (getPost u p).pct = x.dispatch ∧
      (getPost u p).pc = BitVec.ofNat 32 x.dispatch.cursor &&& 0xFFFFFFFC#32 ∧ (getPost u p).rs = [] ∧
      (∀ n, (getPost u p).getT n = ⟨0#128, false⟩) ∧ (∀ r, (getPost u p).getG r = x.getG r) ∧
      u = { s with posts := u.posts, regs := u.regs }) ∧
    (x.delay = none → p < 2 → postKp s p = false → ∃ y, exec (.yield p) s = .next (setPost s p y) ∧ Ended x y ∧
      y = movedOn x y) ∧
    ((∀ e ∈ s.gates.basting, e.init ≠ p) → ∃ y, exec (.fence p) s = .next (setPost s p y) ∧ Ended x y ∧ y = movedOn x y ∧
      ∀ e ∈ x.stores, e.2 + 16 ≤ y.cyc)

/-- Work on ring 1 that a post asks for as a PIN command: its TDES operations are counted with that command's work (R143). -/
def Sys2Proof.Claims.pinWork (s : State) (x : Post) : Prop :=
  ∃ n c, x.owner = some n ∧ getCtx s n = some c ∧ (eOp c.entry = opPinTranslate ∨ eOp c.entry = opPinVerify)

/-- R143, R226, R230, R231, R265, R330: `RQSUB` in frame firmware, of a block it may read with a key authority over every
handle that the block names, takes a new nonzero ticket when its ring has room in this tick and returns 0 otherwise; the
reply time is exact, and a ring whose work a health failure has cut off ends the command that asked. `RQWAIT` returns the
reply of a ticket: after the reply time on rings 0 and 1, at once on rings 2 and 3, with 0 while the reply is not in.
ENGINE_REQUEST_REPLY records that reply once, not before the engine can have done the operation, and counts the operation:
an HSS signature is verified in the compressions that its sets take, ECDSA and RSA run on the purlin.
Model's choices it rests on: notes/assumptions/28.md, notes/assumptions/33.md, notes/assumptions/88.md. -/
def Obligations.EngineRequests : Prop :=
  ∀ (s : State) (p : Nat), Safety.Inv s → let x := getPost s p
    (∀ rd r ring mem tn size (hs : List Word) ask room, Issues s p → x.pct.has permFrame = true → let a := (x.getG r).toNat
      Reaches s p mem a 64 permR .read → a ≤ 0x000FFFFF → keyTenonOk (x.getT tn) hs = true →
      ∃ y t, exec (.rqsub p rd r ring mem tn size hs ⟨ask, room⟩) s = .next (setPost t p y) ∧ Ended x y ∧
        if reqRoom x (ring % 4) size room = true then
          y.ticket = nextTicket x.ticket ∧ y.ticket ≠ 0 ∧ writesG x y rd (BitVec.ofNat 32 y.ticket) ∧
          y.tickets = x.tickets ++ [⟨y.ticket, ring % 4, y.cyc - 1 + (if ring % 4 = 0 then 32 + 4 * size else 12 + 60 * size), none,
            askOn (ring % 4) ask, s.tick.count, []⟩] ∧
          y = { movedOn x y with g := y.g, ticket := y.ticket, tickets := y.tickets, ring0 := y.ring0, ring1 := y.ring1 } ∧
          t = { s with opCounts := t.opCounts, ctxs := t.ctxs } ∧
          (∀ k, k ≠ 0 → tget 0 t.opCounts k = tget 0 s.opCounts k) ∧
          (ring % 4 = 1 → ¬ pinWork s x → tget 0 t.opCounts 0 = tget 0 s.opCounts 0 + size) ∧
          (ring % 4 ≠ 1 ∨ pinWork s x → tget 0 t.opCounts 0 = tget 0 s.opCounts 0) ∧
          (ringDead s (ring % 4) = false → t.ctxs = s.ctxs) ∧
          (ringDead s (ring % 4) = true → ∀ n c, x.owner = some n → getCtx s n = some c → working c = true →
            getCtx t n = some { c with fail := some (stEntropyFailed, unitsThrough c s.tick.count) })
        else writesG x y rd 0#32 ∧ y = { movedOn x y with g := y.g } ∧ t = s) ∧
    (∀ rd r w k, Issues s p → x.pct.has permFrame = true → x.tickets.find? (fun k => k.id == (x.getG r).toNat) = some k →
      ∃ y, exec (.rqwait p rd r w) s = .next (setPost s p y) ∧ Ended x y ∧
        writesG x y rd (k.reply.getD (if k.ring ≤ 1 then (if ringDead s k.ring = true then Config.ringStatus 2 else w)
          else 0#32)) ∧
        (k.ring ≤ 1 → k.due < y.cyc) ∧ y = { movedOn x y with g := y.g, tickets := y.tickets }) ∧
    (∀ id w k, s.boot.held = false → x.tickets.find? (fun k => k.id == id && 2 ≤ k.ring && k.reply.isNone) = some k →
      let gives := fun (v : Word) (out : Bytes) => x.tickets.map (fun j =>
        if j.id = id ∧ j.reply = none then { j with reply := some v, out := out } else j)
      (s.tick.count < k.tick + askTicks k.ask → exec (.engineRequestReply p id w) s = .next s) ∧
      (k.tick + askTicks k.ask ≤ s.tick.count → ringDead s k.ring = true →
        exec (.engineRequestReply p id w) s = .next (setPost s p { x with tickets := gives (Config.ringStatus 2) [] })) ∧
      (k.tick + askTicks k.ask ≤ s.tick.count → ringDead s k.ring = false →
        ∃ t, exec (.engineRequestReply p id w) s = .next t ∧
          t = { s with posts := t.posts, opCounts := t.opCounts, rng := t.rng, freeCtr := t.freeCtr } ∧
          (∀ q, q ≠ p → getPost t q = getPost s q) ∧ getPost t p = { x with tickets := (getPost t p).tickets } ∧
          (askSigns k.ask = false → t.rng = s.rng ∧ t.freeCtr = s.freeCtr) ∧
          tget 0 t.opCounts (1 + (askEngines s p).1) = tget 0 s.opCounts (1 + (askEngines s p).1) +
            (if (askCost k.ask).2 = 0 then 0 else 1) +
            (if (askEngines s p).1 = 15 + (askEngines s p).2 then (askCost k.ask).1 else 0) ∧
          (match k.ask with
            | .plain => (getPost t p).tickets = gives w [] ∧ t.opCounts = s.opCounts
            | .hash n => (getPost t p).tickets = gives w [] ∧
                tget 0 t.opCounts (16 + (askEngines s p).2) = tget 0 s.opCounts (16 + (askEngines s p).2) + n
            | .hssVerify pub sig msg => (getPost t p).tickets =
                  gives (Config.ringStatus (if (hssAny pub sig msg).1 = true then 0 else 1)) [] ∧
                tget 0 t.opCounts (16 + (askEngines s p).2) =
                  tget 0 s.opCounts (16 + (askEngines s p).2) + (hssAny pub sig msg).2
            | .ecdsaSign d h => ∃ nonce : Bytes, (getPost t p).tickets =
                gives (Config.ringStatus 0) (Sys2Proof.Machine.ecdsaSign p256 d nonce h)
            | .ecdsaVerify q h sig => (getPost t p).tickets =
                gives (Config.ringStatus (if Sys2Proof.Machine.ecdsaVerify p256 q h sig = true then 0 else 1)) []
            | .rsaPublic n e m => (getPost t p).tickets = gives (Config.ringStatus (if beNat m < beNat n then 0 else 1))
                (beBytes n.length (powMod (beNat n) 4200 (beNat m) (beNat e))))))

/-- R314, R318, R325, R336: loads from memory, and the dual fetch of `DMAC`.
Model's choices it rests on: notes/assumptions/30.md, notes/assumptions/43.md, notes/assumptions/44.md. -/
def Obligations.LoadsAndDualFetch : Prop := Sys2Proof.Claims.LoadsFromMemory ∧ Sys2Proof.Claims.DualFetchMultiply

/-- R337, R345: `TCALL` and `ERET`.
Model's choices it rests on: notes/assumptions/27.md, notes/assumptions/28.md. -/
def Obligations.ProtectedCallsAndReturns : Prop := Sys2Proof.Claims.TcallInvokesASealedPair ∧ Sys2Proof.Claims.SealedReturn

/-- R314, R315, R320, R322: branches, jumps, calls and the return stack.
Model's choices it rests on: notes/assumptions/28.md. -/
def Obligations.BranchesAndCalls : Prop := Sys2Proof.Claims.BranchesLeaveADelaySlot ∧ Sys2Proof.Claims.CallsAndReturnStack

/-- R339–R344: `TRAP`, an undefined word and an interrupt enter their vectors.
Model's choices it rests on: notes/assumptions/27.md, notes/assumptions/28.md, notes/assumptions/42.md. -/
def Obligations.ExceptionEntry : Prop := Sys2Proof.Claims.TrapEntersItsVector ∧ Sys2Proof.Claims.InterruptEntersItsVector

/-! ### Queues and the tick -/

/-- What the block does when it runs (R28): reset is released and nothing holds the secure die. -/
def Sys2Proof.Claims.serves (s : State) : Prop := s.boot.held = false ∧ s.faults.safe = false

/-- R61–R65, R67: the doorbells and the enable bit. A tail in range becomes the queue's tail and starts a read of up to 8
entries, within the queue's end and HQ_FETCH.DEPTH, where none is outstanding, and in STRICT pacing within the link slots of
the queue's group;
a head in range becomes the queue's head; a write of another width, above 16 bits or on a queue that is not ENABLED is
ignored and counted. An enable whose configuration passes waits for the next kerf, one that fails records its cause; a
disable of a live queue waits for the next kerf.
Model's choices it rests on: notes/assumptions/52.md, notes/assumptions/95.md. -/
def Obligations.DoorbellsAndQueueControl : Prop :=
  ∀ (s : State) (a k : Nat), windowOpen s a k = true → let q := getQueue s a k
    (∀ v, q.st = .enabled → v.toNat < sqSize q → modSub q.sqTail q.sqHead (sqSize q) ≤ modSub v.toNat q.sqHead (sqSize q) →
      v.toNat < 2 ^ 16 →
      ∃ t, exec (.sqTailDoorbell a k 4 v) s = .next t ∧ (getQueue t a k).sqTail = v.toNat ∧
        getQueue t a k = { q with sqTail := v.toNat, heldFetch := (getQueue t a k).heldFetch } ∧
        t = { s with queues := t.queues, out := t.out, regs := t.regs, tick := t.tick } ∧ (k ≠ adminQ → t.regs = s.regs) ∧
        (∀ b j, qKey b j ≠ qKey a k → getQueue t b j = getQueue s b j) ∧
        let n := min (min 8 (modSub v.toNat q.sqHead (sqSize q)))
          (min (sqSize q - q.sqHead) (getF s Reg.HQ_FETCH_DEPTH - groupFetched s a k))
        let used := fun (u : State) (g : Nat) => tget 0 u.tick.inUsed (gidOf a g)
        let slot := k = adminQ ∨ flag s Reg.TIK_STAT_PACE_ACT = true ∨
          ∃ g c, groupOfQueue s a k = some g ∧ groupOf s a g = some c ∧ used s g < c.linkIn
        let reads := q.heldFetch = 0 ∧ mayFetch s a k = true ∧ n ≠ 0 ∧ slot
        (reads → (getQueue t a k).heldFetch = n ∧
          t.out = .hostRead a (pasidOf s a k) (q.sqBase + 64 * q.sqHead) (64 * n) :: s.out ∧
          t.tick = { s.tick with inUsed := t.tick.inUsed } ∧
          (k ≠ adminQ → ∀ g, groupOfQueue s a k = some g → used t g = used s g + 1)) ∧
        (¬ reads → (getQueue t a k).heldFetch = q.heldFetch ∧ t.out = s.out ∧ t.tick = s.tick)) ∧
    (∀ v, q.st = .enabled → v.toNat < 2 ^ 16 → v.toNat < cqSize q →
      modSub q.cqTail v.toNat (cqSize q) ≤ modSub q.cqTail q.cqHead (cqSize q) →
      exec (.cqHeadDoorbell a k 4 v) s = .next (setQueue s a k { q with cqHead := v.toNat })) ∧
    (∀ w v, w ≠ 4 ∨ 2 ^ 16 ≤ v.toNat ∨ q.st ≠ .enabled → ∃ t, exec (.sqTailDoorbell a k w v) s = .next t ∧
      exec (.cqHeadDoorbell a k w v) s = .next t ∧ t = { s with regs := t.regs } ∧
      (getReg t Reg.HQ_DB_DROP).toNat = min ((getReg s Reg.HQ_DB_DROP).toNat + 1) 0xFFFFFFFF ∧
      flag t Reg.HQ_EVT_DB_DROP = true) ∧
    (q.st = .disabled → exec (.queueEnable a k) s = .next (setQueue s a k
      (if q.sqBase = 0 ∨ q.cqBase = 0 then { q with en := true, staged := none, cause := 1 }
       else if sqLog q < 4 ∨ 16 < sqLog q ∨ cqLog q < 4 ∨ 16 < cqLog q then { q with en := true, staged := none, cause := 2 }
       else if cqLog q < sqLog q then { q with en := true, staged := none, cause := 3 }
       else if (if a = 0 then 2048 else 64) ≤ qVec q then { q with en := true, staged := none, cause := 4 }
       else { q with en := true, staged := some true }))) ∧
    (q.st = .enabled ∨ q.st = .stopped ∨ q.st = .held →
      exec (.queueDisable a k) s = .next (setQueue s a k { q with en := false, staged := some false })) ∧
    (q.st = .disabled ∨ q.st = .disabling →
      exec (.queueDisable a k) s = .next (setQueue s a k { q with en := false, staged := none }))

/-- R67: the answer to a queue's outstanding read brings its entries, in order, with the present tick as their arrival,
and moves the queue's head past them. -/
def Sys2Proof.Claims.EntriesArrive : Prop :=
  ∀ (s : State) (a k : Nat), let q := getQueue s a k
    q.st = .enabled → q.heldFetch ≠ 0 →
    (∀ b : Bytes, b.length = 64 * q.heldFetch → ∃ t, exec (.entryFetch a k (.data b)) s = .next t ∧
      (getQueue t a k).sqHead = (q.sqHead + q.heldFetch) % sqSize q ∧ (getQueue t a k).sqTail = q.sqTail ∧
      t.fetched.map (fun f => (f.slice, f.queue, f.entry, f.arrival, f.order)) =
        s.fetched.map (fun f => (f.slice, f.queue, f.entry, f.arrival, f.order)) ++
        (List.range q.heldFetch).map (fun i => (a, k, (b.drop (64 * i)).take 64, s.tick.count, s.fetchOrder + i)) ∧
      t.fetchOrder = s.fetchOrder + q.heldFetch ∧
      t = { s with queues := t.queues, fetched := t.fetched, fetchOrder := t.fetchOrder, out := t.out, tick := t.tick } ∧
      t.tick = { s.tick with inUsed := t.tick.inUsed })

/-- R34, R68, R72: in the working span, the entry that the order of R34 puts first and that has room is written at its
queue's completion tail as 32 bytes with the phase of this pass; the tail advances, the phase turns when it wraps, the
entry's context is freed in the kerf, and the slice's egress of this tick grows by one. -/
def Sys2Proof.Claims.CompletionEntriesAreWritten : Prop :=
  ∀ (s : State) (a : Nat) (e : Completion), s.tick.span = true → s.faults.safe = false →
    let work := flag s Reg.TIK_STAT_PACE_ACT
    egressFree s work a = true → (∀ x ∈ s.compls, x.slice = a → cqFull (getQueue s x.slice x.queue) = false) →
    pickCompl s work (s.compls.filter (fun x => work || x.slice == a)) none = some e → e.slice = a →
    let q := getQueue s a e.queue
    (∃ t, exec (.completionWrite a true) s = .next t ∧
      .hostWrite a (pasidOf s a e.queue) (q.cqBase + 32 * q.cqTail)
        (complBytes { e with late := e.late || decide ((e.rtick + 1) % 2 ^ 32 ≠ s.tick.count % 2 ^ 32) } q.phase) ∈ t.out ∧
      (getQueue t a e.queue).cqTail = (q.cqTail + 1) % cqSize q ∧
      (getQueue t a e.queue).phase = (if (q.cqTail + 1) % cqSize q = 0 then !q.phase else q.phase) ∧
      (getQueue t a e.queue).aggCount = (if e.noirq then q.aggCount else q.aggCount + 1) ∧
      e ∉ t.compls ∧ (∀ n c, e.ctx = some n → getCtx s n = some c → getCtx t n = some { c with phase := .written }) ∧
      egressUsed t a = egressUsed s a + 1 ∧
      t = { s with out := t.out, slices := t.slices, queues := t.queues, regs := t.regs, compls := t.compls, ctxs := t.ctxs
                   tick := t.tick })

/-- R79: a queue's due interrupt is sent, or set as its vector's pending bit while that is masked, and its count starts
again; unmasking a vector sends the pending message and clears its bit.
Model's choices it rests on: notes/assumptions/9.md, notes/assumptions/64.md. -/
def Obligations.InterruptsOfQueues : Prop :=
  (∀ (s : State) (a k : Nat), let q := getQueue s a k
    q.aggCount ≠ 0 → (max 1 (aggCnt q) ≤ q.aggCount ∨ (aggTime q ≠ 0 ∧ ∃ t, q.aggStart = some t ∧ t + 8 * aggTime q ≤ s.tick.count)) →
    (getSlice s a).busOff = false → s.faults.safe = false →
    ∃ t, exec (.interruptDue a k) s = .next t ∧ getQueue t a k = { q with aggCount := 0, aggStart := none } ∧
      (msixMasked s a (qVec q) = false → t = { setQueue s a k (getQueue t a k) with out := .msix a (qVec q) :: s.out }) ∧
      (msixMasked s a (qVec q) = true → msixPending t a (qVec q) = true ∧
        t = { setQueue s a k (getQueue t a k) with msixPba := t.msixPba })) ∧
  (∀ (s : State) (a v : Nat), s.boot.held = false → (getSlice s a).fnEn = true → v < (if a = 0 then 2048 else 64) →
    ∃ t, exec (.msixUnmask a v) s = .next t ∧ msixMasked t a v = false ∧ msixPending t a v = false ∧
      t.out = (if msixPending s a v then .msix a v :: s.out else s.out) ∧
      t = { s with msixTab := t.msixTab, msixPba := t.msixPba, out := t.out })

/-- R27–R29, R328: outside a span, TICK_START opens the span of the tick that is counted, and every slotted post that holds a
time-slot starts at its dispatch entry; KERF closes the span and the counter moves to the next tick. Neither does anything
while the tick counter does not run.
Model's choices it rests on: notes/assumptions/17.md, notes/assumptions/39.md. -/
def Obligations.TicksOpenAndClose : Prop :=
  ∀ s : State, Safety.Inv s →
    (ticking s = true → s.tick.span = false → ∃ t, exec .tickStart s = .next t ∧ t.tick.span = true ∧
      t.tick.count = s.tick.count ∧
      (s.faults.safe = false → s.faults.safeDue = false → s.rng.waiting = [] → ∀ p, 2 ≤ p → p < 32 →
        (getPost s p).owner ≠ none → postHalted s p = false → flag s (pstFld p Reg.PST_STAT_STOPPED) = false →
        getPost t p = { getPost s p with pct := (getPost s p).dispatch, run := true, cyc := 0
                                         pc := BitVec.ofNat 32 (getPost s p).dispatch.cursor &&& 0xFFFFFFFC#32 })) ∧
    (ticking s = true → s.tick.span = true → ∀ deg vdd, ∃ t, exec (.kerf deg vdd) s = .next t ∧ t.tick.span = false ∧
      t.tick.count = (s.tick.count + 1) % 2 ^ 64) ∧
    (ticking s = false → exec .tickStart s = .next s ∧ ∀ deg vdd, exec (.kerf deg vdd) s = .next s)

/-- The state with another tick counted. -/
def Sys2Proof.Claims.inTick (s : State) (t : Nat) : State := { s with tick := { s.tick with count := t } }

/-- R27, R47, R48, R51, R55, R138, row k of 23_mode_combinations: the governor's up-step and temperature word, the rotating
test, and the phases of a fence, which change in a kerf only, with the tick that ended; the fence's suite skips a halted
unit.
Model's choices it rests on: notes/assumptions/7.md, notes/assumptions/17.md, notes/assumptions/37.md, notes/assumptions/40.md. -/
def Obligations.GovernorTestsAndFences : Prop :=
  ∀ s : State, serves s →
    (s.tick.span = false → 0 < s.tick.count → flag s Reg.GOV_STAT_DROOP = false → upDue (inTick s (s.tick.count - 1)) = true →
      ∃ t, exec .governorStepUp s = .next t ∧
      getF t Reg.GOV_STAT_STEP = getF s Reg.GOV_STAT_STEP - 1 ∧
      (getReg t Reg.GOV_CHG_CNT).toNat = min ((getReg s Reg.GOV_CHG_CNT).toNat + 1) 0xFFFFFFFF ∧
      getReg t Reg.GOV_CHG_TICK = BitVec.ofNat 32 (s.tick.count - 1) ∧
      t = { s with regs := t.regs, tick := { s.tick with calmSince := s.tick.count - 1 } }) ∧
    (s.tick.span = true → exec .governorStepUp s = .next s ∧ exec .fenceSuiteStart s = .next s) ∧
    (∀ deg : Byte, ∃ t, exec (.govTempUpdate deg) s = .next t ∧ getF t Reg.GOV_TEMP_DEG = deg.toNat ∧
      t = { s with regs := t.regs }) ∧
    (∀ n, s.tick.span = true → s.tick.testNeedle = some n →
      (∃ t, exec (.rotatingTest true) s = .next t ∧ getReg t Reg.NDL_KAT_TICK = BitVec.ofNat 32 s.tick.count ∧
        t.tick.testNeedle = none ∧ t.faults = s.faults ∧
        t = { s with regs := t.regs, tick := { s.tick with testNeedle := none } }) ∧
      (∃ t, exec (.rotatingTest false) s = .next t ∧ t.tick.testNeedle = none ∧
        (n < 24 → ∃ f, t.faults.fired = s.faults.fired ++ [f] ∧ f.src = srcNdlKat + n ∧ f.tick = s.tick.count))) ∧
    (∀ f, s.tick.fence = some f → f.l ≠ 0 → f.suite = false → s.tick.span = false → f.k + f.d < s.tick.count →
      (∃ t, exec .fenceSuiteStart s = .next t ∧ t.tick.fence = some { f with suite := true } ∧
        flag t Reg.TIK_STAT_SUITE = true)) ∧
    (∀ f, s.tick.fence = some f → f.l ≠ 0 → f.k + f.l ≤ s.tick.count → s.tick.span = true → ∀ a b c d,
      exec (.fenceEnd a b c d) s = .next { s with tick := { s.tick with suiteFails := [a, b, c, d] } }) ∧
    (∀ f, s.tick.fence = some f → f.l ≠ 0 → f.k + f.l < s.tick.count → s.tick.span = false → ∀ a b c d,
      ∃ t, exec (.fenceEnd a b c d) s = .next t ∧ t.tick.fence = none ∧ flag t Reg.TIK_STAT_FENCE = false ∧
        flag t Reg.TIK_STAT_SUITE = false ∧ flag t Reg.TIK_EVT_FENCE_END = true ∧
        let tested := (∃ i, i < 24 ∧ bitAt a i = true ∧ needleHalted s i = false) ∨
          (∃ i, i < 8 ∧ bitAt b i = true ∧ lduHalted s i = false) ∨ (∃ i, i < 8 ∧ bitAt c i = true ∧ purlinHalted s i = false) ∨
          ∃ i, i < 8 ∧ bitAt d i = true ∧ hashHalted s i = false
        ∀ x, getCtx s f.ctx = some x → x.phase = .running →
          (¬ tested → getCtx t f.ctx = some x) ∧
          (tested → getCtx t f.ctx = some { x with result := some (resStatus 0x0703) }))

/-- R34, R67, R68, R72: the entries of a queue come in, and its completion entries go out.
Model's choices it rests on: notes/assumptions/39.md, notes/assumptions/64.md, notes/assumptions/95.md. -/
def Obligations.EntriesArriveAndCompletionsLeave : Prop := Sys2Proof.Claims.EntriesArrive ∧ Sys2Proof.Claims.CompletionEntriesAreWritten

/-! ### Resets, power and start-up -/

/-- The rows that reset the secure die, with the cause that HLK_RST shows, where the state lets them act (R377, R410, R437,
R462). -/
def Sys2Proof.Claims.resetRow (s : State) : Instr → Option Nat
  | .perstN => some 1
  | .crstN => some 2
  | .fclCold v => if v = 0xC01D#32 ∧ s.boot.held = false then some 3 else none
  | .selfReset => match s.boot.selfReset with
    | some t => if t ≤ s.tick.count ∧ s.boot.held = false then some 3 else none
    | none => none
  | .mainPowerLoss => if s.thm.main = true then some 3 else none
  | _ => none

/-- R28, R377, R410, R441, R462: a reset of the secure die, and the loss of main power, hold the die, set the tick counter to
zero and lose everything volatile; stored keys, killed identities, generations, anchors, officers, the import ledger, the
device number, the thimble domain's key and time, and the waiting commands stand, the vault's key records are lost with it,
and a reset lets a captured anchor complete (R410). The memory's keys stand until main power is lost (R20), and the rate that
DDR_CTRL holds applies after the reset (R209). A management cold reset with another value does nothing. -/
def Sys2Proof.Claims.ResetsHoldTheDie : Prop :=
  (∀ (s : State) (i : Instr) (c : Nat), resetRow s i = some c → ∃ t, exec i s = .next t ∧
    t.boot.held = true ∧ t.boot.begun = false ∧ t.tick = Tick.reset ∧ t.queues = [] ∧ t.fetched = [] ∧ t.ctxs = [] ∧
    t.compls = [] ∧ t.keys = [] ∧ t.mem = [] ∧ t.tags = [] ∧ t.posts = [] ∧ t.chans = [] ∧ t.slices = State.reset.slices ∧
    t.gates = { Gates.reset with kept := s.gates.kept } ∧ running t = false ∧ getF t Reg.HLK_RST_CAUSE = c ∧
    t.pending = s.pending ∧ t.slotBase = s.slotBase ∧ t.tombPend = s.tombPend ∧
    (s.reserveDue = [] → t.slotTable = (zeroiseStore s).slotTable ∧ t.records = s.records.map (fun r =>
      if r.inVault = true then { r with wrapped := [], mac := [] } else r)) ∧
    t.sram = (if i = .mainPowerLoss then ⟨[], []⟩ else s.sram) ∧
    t.boot.rateCap = (if i = .mainPowerLoss then 4 else getF s Reg.DDR_CTRL_MAXRATE) ∧ t.vault.tree = ⟨[], [], [], [], []⟩ ∧
    (s.vault.pendingAnchor = none → t.vault.anchors = s.vault.anchors) ∧
    (∀ a, s.vault.pendingAnchor = some a → i ≠ .mainPowerLoss → t.vault.anchors =
      if s.faults.flashHalted = true then s.vault.anchors else (a :: s.vault.anchors).take 3840) ∧
    t.ofc.stored = s.ofc.stored ∧ t.ofc.officers = [] ∧ t.ledger = s.ledger ∧ t.boot.devNo = s.boot.devNo ∧ t.thmTime = s.thmTime ∧
    t.thm.key = s.thm.key ∧ t.thm.log = s.thm.log ∧ t.thm.main = (if i = .mainPowerLoss then false else s.thm.main)) ∧
  (∀ (s : State) (v : Word), v ≠ 0xC01D#32 → exec (.fclCold v) s = .next s) ∧
  (∀ s : State, s.thm.main = false → exec .mainPowerUp s = .next { s with thm := { s.thm with main := true } }) ∧
  (∀ s : State, s.thm.main = true → exec .mainPowerUp s = .next s)

/-- R20, R148, R393, R411, R439–R443: reset release begins the start-up, with the self-tests of the first tick, advances the
generations of the slots that hold no stored key, and draws the memory's keys where none stand; the sill log's values
are taken once, the registers' and their counters', and advance the boot count; TIK_STAT.RUN is set when every readiness condition holds, and a start-up that
waits at tick 2^19 is stalled and names its first unmet condition. -/
def Sys2Proof.Claims.StartUpToRun : Prop :=
  (∀ (s : State) (m : Nat), s.thm.main = true → (s.boot.begun = false ∨ s.boot.held = true) →
    ∃ t, exec (.resetRelease m) s = .next t ∧ t.boot.begun = true ∧ t.boot.held = false ∧
      t.boot.dead = (s.boot.dead || decide (m % 16 ≠ 0)) ∧ t.faults.safeDue = (s.faults.safeDue || decide (m % 16 ≠ 0)) ∧
      flag t Reg.GTE_STAT_READY = true ∧ getF t Reg.MON_STAT_RAIL_OK = 0x1FF ∧ t.tick = s.tick ∧ t.mem = s.mem ∧
      (∀ n, freshGen t n = if heldByRecord s n = true then freshGen s n else bootGen (freshGen s n)) ∧
      (s.sram.scramble ≠ [] → t.sram = s.sram) ∧
      (s.sram.scramble = [] → t.sram.scramble.length = 8 ∧ t.sram.bind.length = 16)) ∧
  (∀ (s : State) (m : Nat), s.thm.main = false ∨ (s.boot.begun = true ∧ s.boot.held = false) →
    exec (.resetRelease m) s = .next s) ∧
  (∀ s : State, s.boot.begun = true → s.boot.held = false → s.boot.dead = false → flag s Reg.SIL_STAT_READY = false →
    let r := sillRead s
    s.nv.silWait = [] → silCount r 0 < 1000000 →
    ∃ t, exec .sillLogRead s = .next t ∧ flag t Reg.SIL_STAT_READY = true ∧ flag t Reg.OFC_STAT_READY = true ∧
      flag t Reg.LCY_CTRL_APPROVED = !bitAt (sillVal r 10) 0 ∧
      (0, BitVec.ofNat 32 (sillVal r 0 + 1)) ∈ t.nv.silWait ++ t.nv.silProg ∧ t.sill = r.sill ∧ t.lms.booted = true) ∧
  (∀ s : State, booting s = true → (∀ b ∈ runConds s, b = true) → ∃ t, exec .runStart s = .next t ∧
    flag t Reg.TIK_STAT_RUN = true ∧ getF t Reg.LCY_STAT_STAGE = 3 ∧
    getReg t Reg.LCY_BOOT_TIME = BitVec.ofNat 32 s.tick.count ∧ t = { s with regs := t.regs }) ∧
  (∀ (s : State) (k : Nat), booting s = true → 2 ^ 19 ≤ s.tick.count → (runConds s)[k]? = some false →
    (∀ j, j < k → (runConds s)[j]? = some true) → exec .runStart s = .next s ∧ ∃ t, exec .bootStalled s = .next t ∧
      flag t Reg.LCY_STAT_STALLED = true ∧ getF t Reg.LCY_POST_WAIT = k + 1 ∧ t = { s with regs := t.regs })

/-- R28, R377, R393, R410, R411, R439–R443, R462: resets of the secure die and the start-up after them.
Model's choices it rests on: notes/assumptions/54.md, notes/assumptions/56.md, notes/assumptions/57.md, notes/assumptions/71.md, notes/assumptions/87.md, notes/assumptions/93.md. -/
def Obligations.ResetsAndStartUp : Prop := Sys2Proof.Claims.ResetsHoldTheDie ∧ Sys2Proof.Claims.StartUpToRun

/-! ### Sources, the thimble domain, the monitors, wear -/

/-- Exactly one source fired between two states: `src`, with a detail, recorded for the response of the next kerf. -/
def Sys2Proof.Claims.fires (s t : State) (src detail : Nat) : Prop :=
  ∃ f, t.faults.fired = s.faults.fired ++ [f] ∧ f.src = src ∧ f.detail = detail ∧ f.tick = s.tick.count

/-- R383–R391, R398, R190: what each event of the thimble domain does; an alarm zeroises the vault's keys.
Model's choices it rests on: notes/assumptions/15.md. -/
def Obligations.ThimbleDomainEvents : Prop :=
  (∀ s : State, s.thm.main = false → ∃ t, exec .thimblePowerOn s = .next t ∧ t.thmTime = 0 ∧ t.thm = { Thm.reset with main := false } ∧
    (∀ k, getReg t k = if k ∈ thmKeys then regReset k else getReg s k) ∧
    t = { s with regs := t.regs, thmTime := 0, thm := t.thm }) ∧
  (∀ (s : State) (c n ohm : Nat) (detB same : Bool), n < 8 → let l := getLoop s n
    l.mode ≠ 0 → l.window = none → l.a = false → l.b = false →
    ((if detB then ohmBad l.ref ohm else !same) = false → exec (.thimbleLoopCheck c n detB same ohm) s = .next
      (setLoop (thmAdvance s c) n (if detB then { l with ohm := ohm } else l))) ∧
    ((if detB then ohmBad l.ref ohm else !same) = true → ∃ t, exec (.thimbleLoopCheck c n detB same ohm) s = .next t ∧
      t.thmTime = (s.thmTime + c) % 2 ^ 48 ∧
      t.thm.log = (⟨1, n, !detB, detB, !s.thm.main, l.mode == 2, t.thmTime⟩ :: s.thm.log).take 16 ∧
      (getLoop t n).window = some t.thmTime ∧ flag t Reg.THM_EVT_ALARM = true ∧
      t.thm.key = (if l.mode = 2 then [] else s.thm.key) ∧
      (l.mode = 2 → (getReg t Reg.THM_LATCH).getLsbD n = true ∧ flag t Reg.THM_STAT_KEY_VALID = false) ∧
      (s.thm.main = true → s.boot.held = false → t.vault.tree.keys = [] ∧ t.vault.buckets = [] ∧
        flag t Reg.DDR_STAT_SREF = true) ∧
      (s.thm.main = true → fires s t (srcThmLoop + n) (if detB then 2 else 1)))) ∧
  (∀ (s : State) (c n t0 : Nat) (e : ThmEntry), (getLoop s n).window = some t0 → windowOver (thmAdvance s c) t0 = true →
    s.thm.log.find? (fun e => e.kind == 1 && e.unit == n && e.time == t0) = some e → (e.detA && e.detB) = false →
    n < 8 → ∃ t, exec (.disagreementWindowEnd c n) s = .next t ∧ (getLoop t n).window = none ∧
      (getReg t Reg.THM_DISAGREE).getLsbD n = true ∧ t.thm.log = s.thm.log ∧ t.faults = s.faults) ∧
  (∀ (s : State) (c n : Nat) (closed : Bool), n < 4 → let x := getSwitch s n
    x.mode ≠ 0 →
    (closed ≠ x.closed → exec (.switchSample c n closed) s = .next (setSwitch (thmAdvance s c) n { x with run := 0 })) ∧
    (closed = x.closed → x.run ≠ 1 → (x.run = 0 ∨ x.mode ≠ 2 ∨ (getReg s Reg.THM_LATCH).getLsbD (8 + n) = true) →
      exec (.switchSample c n closed) s = .next (setSwitch (thmAdvance s c) n { x with run := min (x.run + 1) 3 })) ∧
    (closed = x.closed → (x.run = 1 ∨ (2 ≤ x.run ∧ x.mode = 2 ∧ (getReg s Reg.THM_LATCH).getLsbD (8 + n) = false)) → ∃ t, exec (.switchSample c n closed) s = .next t ∧
      t.thm.log = (⟨2, n, true, false, !s.thm.main, x.mode == 2, t.thmTime⟩ :: s.thm.log).take 16 ∧
      t.thm.key = (if x.mode = 2 then [] else s.thm.key) ∧ (s.thm.main = true → fires s t (srcThmSwitch + n) 1))) ∧
  (∀ s : State, ∃ t, exec .xtalFail s = .next t ∧ flag t Reg.THM_STAT_XTAL_FAIL = true ∧
    (s.thm.main = true → fires s t srcThmBatt 2) ∧ t.thm = s.thm) ∧
  (∀ (s : State) (c : Nat) (runs : List (List Nat)) (mism : Nat) (w : Word), s.thm.arming = some w →
    ∃ t, exec (.armDone c runs mism) s = .next t ∧ t.thm.arming = none ∧ flag t Reg.THM_STAT_ARM_PEND = false ∧
      flag t Reg.THM_EVT_ARM_DONE = true ∧
      (∀ n, n < 8 → getBits w (2 * n) 2 = 0 → (getLoop t n).mode = 0) ∧
      (∀ n, n < 8 → getBits w (2 * n) 2 ≠ 0 → (getLoop s n).mode ≠ 0 → (getLoop t n).mode = getBits w (2 * n) 2 ∧
        (getLoop t n).ref = (getLoop s n).ref) ∧
      (∀ n, n < 8 → getBits w (2 * n) 2 ≠ 0 → (getLoop s n).mode = 0 → let r := median (runs.getD n [])
        if r < 100 ∨ 100000 < r ∨ bitAt mism n = true then (getLoop t n).mode = 0 ∧ flag t Reg.THM_STAT_CAL_FAIL = true
        else (getLoop t n).mode = getBits w (2 * n) 2 ∧ (getLoop t n).ref = r) ∧
      (∀ n, n < 4 → getSwitch t n = ⟨getBits w (16 + 2 * n) 2, w.getLsbD (24 + n),
        if (getSwitch s n).mode ≠ 0 ∧ getBits w (16 + 2 * n) 2 ≠ 0 ∧ (getSwitch s n).closed = w.getLsbD (24 + n)
        then (getSwitch s n).run else 0⟩)) ∧
  (∀ (s : State) (mv : Nat), s.thm.main = true → ∃ t, exec (.vbatMeasure mv) s = .next t ∧
    getF t Reg.THM_VBAT_MV = mv % 2 ^ Reg.THM_VBAT_MV.width ∧
    flag t Reg.THM_STAT_BATT_LOW = (if mv < 2500 then true else if mv < 2600 then flag s Reg.THM_STAT_BATT_LOW else false) ∧
    (mv < 2500 → fires s t srcThmBatt 1) ∧ (2500 ≤ mv → t = { s with regs := t.regs }))

/-- The measurement rows of the monitors: which condition, which detectors see it out of its window, and the state with the
measurement recorded (R392). -/
def Sys2Proof.Claims.outOf (s : State) : Instr → Option (Nat × Nat × Nat)
  | .monVdd rail mv det => if rail ≤ 8 ∧ railOk rail mv = false then some (rail, det % 4, 0) else none
  | .monClk mhz un det => if un = true ∨ clkOk s mhz = false ∨ bitAt det 1 = true then some (9, det % 4, 0) else none
  | .monTemp d r => if tempOk d = true ∧ tempOk r = true then none
    else some (10, (if tempOk d = true then 0 else 1) + (if tempOk r = true then 0 else 2), 0)
  | .monGlitch mv det => if glitchOut s mv = true then some (11, det % 4, det % 4) else none
  | _ => none

/-- R392, R393: a condition out of its window fires its own source and sets its trip bit once the monitors are armed, unless
its partner has fired it already; before that it resets the die. In its window it fires nothing. A detector that stays
alone for 2 µs is recorded as a disagreement. The monitors arm 2^10 ticks after reset release with every rail in its window.
Model's choices it rests on: notes/assumptions/58.md. -/
def Obligations.MonitorsFireTheirSources : Prop :=
  (∀ (s : State) (i : Instr) (cond det detail : Nat), s.thm.main = true → s.boot.held = false → outOf s i = some (cond, det, detail) →
    det ≠ 0 → flag s Reg.MON_STAT_ARMED = true → tget 0 s.monAlone cond = 0 →
    ∃ t, exec i s = .next t ∧ fires s t (srcMonVdd + cond) detail ∧ (getReg t Reg.MON_TRIP).getLsbD cond = true ∧
      tget 0 t.monAlone cond = (if det = 3 then 0 else det) ∧ t.ctxs = s.ctxs ∧ t.keys = s.keys ∧ t.mem = s.mem) ∧
  (∀ (s : State) (i : Instr) (cond det detail : Nat), s.thm.main = true → s.boot.held = false → outOf s i = some (cond, det, detail) →
    det ≠ 0 → flag s Reg.MON_STAT_ARMED = false → ∃ t, exec i s = .next t ∧ t.boot.held = true ∧ getF t Reg.HLK_RST_CAUSE = 3) ∧
  (∀ (s : State) (rail mv det : Nat), s.thm.main = true → rail ≤ 8 → railOk rail mv = true →
    ∃ t, exec (.monVdd rail mv det) s = .next t ∧ (getReg t Reg.MON_STAT).getLsbD rail = true ∧
      (tget Rail.zero t.rails rail).mv = mv ∧ t = { s with regs := t.regs, rails := t.rails }) ∧
  (∀ (s : State) (mhz : Nat), s.thm.main = true → clkOk s mhz = true → ∃ t, exec (.monClk mhz false 0) s = .next t ∧
    flag t Reg.MON_STAT_CLK_OK = true ∧ t = { s with regs := t.regs }) ∧
  (∀ (s : State) (d r : Byte), s.thm.main = true → tempOk d = true → tempOk r = true → ∃ t, exec (.monTemp d r) s = .next t ∧
    flag t Reg.MON_STAT_TEMP_OK = true ∧ getF t Reg.MON_TEMP_DIODE = d.toNat ∧ getF t Reg.MON_TEMP_RING = r.toNat ∧
    t = { s with regs := t.regs }) ∧
  (∀ (s : State) (mv det : Nat), glitchOut s mv = false → exec (.monGlitch mv det) s = .next s) ∧
  (∀ (s : State) (cond : Nat), cond ≤ 11 → tget 0 s.monAlone cond ≠ 0 → ∃ t, exec (.monDisagree cond) s = .next t ∧
    (getReg t Reg.MON_DISAGREE).getLsbD cond = true ∧ tget 0 t.monAlone cond = 0 ∧ flag t Reg.MON_EVT_DISAGREE = true ∧
    t = { s with regs := t.regs, monAlone := t.monAlone }) ∧
  (∀ s : State, s.boot.held = false → s.boot.begun = true → 2 ^ 10 ≤ s.tick.count → flag s Reg.MON_STAT_ARMED = false →
    getF s Reg.MON_STAT_RAIL_OK = 0x1FF → ∃ t, exec .monitorsArmed s = .next t ∧ flag t Reg.MON_STAT_ARMED = true ∧
      flag t Reg.MON_EVT_ARMED = true ∧
      ((lifeOf (getReg s Reg.LCY_FUSE) (tget 0#32 s.sill 6)).2 = true → t = { s with regs := t.regs }) ∧
      ((lifeOf (getReg s Reg.LCY_FUSE) (tget 0#32 s.sill 6)).2 = false → fires s t srcMonGlitch 0x10))

/-- R473–R476: in the last tick of a wear period the block samples its six indicators and keeps 257 samples; a checkpoint
records thimble time, hours on the cell and the cell's capacity under the next sequence, or that it could not be written.
Model's choices it rests on: notes/assumptions/59.md. -/
def Obligations.WearSamplesAndCheckpoints : Prop :=
  ∀ s : State, serves s →
    (∀ slow, s.tick.count % 2 ^ 24 = 2 ^ 24 - 1 → ∃ t, exec (.wearSample slow) s = .next t ∧
      t.wear.samples = (wearValues s (slow % 4096) :: s.wear.samples).take 257 ∧ t.wear.hours = s.wear.hours ∧
      getF t Reg.WER_AGE_SLOW = slow % 4096 ∧
      (getReg t Reg.WER_SAMPLES).toNat = min ((getReg s Reg.WER_SAMPLES).toNat + 1) 0xFFFFFFFF ∧
      (running s = true → 3277 ≤ slow % 4096 → flag t Reg.WER_STAT_CEILING = true) ∧
      t = { s with regs := t.regs, faults := t.faults, freeCtr := t.freeCtr, wear := { s.wear with samples := t.wear.samples } }) ∧
    (∀ slow, s.tick.count % 2 ^ 24 ≠ 2 ^ 24 - 1 → exec (.wearSample slow) s = .next s) ∧
    (flag s Reg.WER_STAT_READY = true →
      (s.faults.flashHalted = false → ∃ t c, exec (.wearCheckpoint true) s = .next t ∧ t.wear.ckpt = some c ∧ c.thm = s.thmTime ∧
        c.mac = ckptMac c ∧ c.hours = s.wear.hours ∧ c.cap = getF s Reg.WER_CTRL_BATCAP ∧ c.seq = (match s.wear.ckpt with
          | some o => o.seq + 1
          | none => 0) ∧ t = { s with wear := { s.wear with ckpt := some c } }) ∧
      (∃ t, exec (.wearCheckpoint false) s = .next t ∧ flag t Reg.WER_EVT_CHECKPOINT_FAIL = true ∧ t = { s with regs := t.regs }))

/-! ### Data-path commands -/
namespace Sys2Proof.Claims
open Sys2Proof Sys2Proof.Machine

/-- A context holds a running command of an opcode whose source has arrived and whose charged work has all run, and that
has no result yet (R40, R96). -/
structure Due (s : State) (n op : Nat) (c : Ctx) : Prop where
  held : getCtx s n = some c
  data : n < 4032
  op : eOp c.entry = op
  working : working c = true
  begun : c.s0 ≤ begunTick s
  source : srcDone c = true
  done : workDone c (begunTick s) = true
  fresh : c.result = none
  cls : c.cls ≠ clVault

/-- The command's result is kept in its context, and nothing else changes. -/
def keeps (s : State) (n : Nat) (c : Ctx) (r : CmdResult) : State := setCtx s n { c with result := some r }

/-- Success with bytes at the destination and up to 16 inline. -/
def given (dest inline : Bytes) : CmdResult :=
  { status := 0, untrusted := false, scrubbed := false, partialOut := false, len := dest.length, inline := inline
    dest := dest, itemLen := 0 }

/-- A status and nothing else. -/
def failed (st : Nat) : CmdResult :=
  { status := st, untrusted := false, scrubbed := false, partialOut := false, len := 0, inline := [], dest := [], itemLen := 0 }

/-- Plaintext that failed its tag: written, untrusted, and scrubbed where the entry asks for it (R99, R134). -/
def untrustedOut (e dest : Bytes) (len : Nat) : CmdResult :=
  { status := 0x0401, untrusted := true, scrubbed := eScrub e, partialOut := false, len := len, inline := [], dest := dest
    itemLen := 0 }

/-- Success with an inline value alone. -/
def inlined (b : Bytes) : CmdResult :=
  { status := 0, untrusted := false, scrubbed := false, partialOut := false, len := b.length, inline := b, dest := []
    itemLen := 0 }

/-- The output of one text under CBC, CTR or XTS (R98). -/
def textOut (mode : Nat) (decrypt : Bool) (key iv : Bytes) (w : Nat) (text : Bytes) : Bytes :=
  match mode, decrypt with
  | 1, false => cbcEnc key iv text
  | 1, true => cbcDec key iv text
  | 2, _ => ctrXor key iv w text
  | _, d => xts (!d) key iv text

end Sys2Proof.Claims

open Sys2Proof Sys2Proof.Machine Sys2Proof.Claims

/-- The IV of a command whose output mode is CBC: the one it has drawn already, or 16 bytes of its group's child (R128,
R263). -/
def Sys2Proof.Claims.ivDraw (s : State) (c : Ctx) : Bytes × State := if c.iv = [] then drawFrom c.gid 16 s else (c.iv, s)

/-- R98, R99, R128, R134: what CIPHER leaves as its result: the mode's output over its text; for GCM the ciphertext and its
tag, or the plaintext where the tag at the end of the source matches, and where it does not ST_AUTH_FAIL with the output
marked untrusted. The IV is the entry's; with IVGEN the device built it, draws it for CBC, and gives it inline. -/
def Sys2Proof.Claims.CipherResults : Prop :=
  ∀ (s : State) (n : Nat) (c : Ctx), Due s n 0x01 c →
    let e := c.entry
    let key := keyMatA s c
    let text := cipherText e
    let aad := sub c.src 0 (cAad e)
    let body := sub c.src (cAad e) text
    (cIvgen e = false → cMode e ≠ 3 → 1 ≤ cMode e → cMode e ≤ 4 → exec (.cipher n) s = .next (keeps s n c
      (given (textOut (cMode e) (cDecrypt e) key (cIv e) (2 ^ (5 + cCtrw e)) (sub c.src 0 text)) []))) ∧
    (cIvgen e = true → cMode e = 2 → exec (.cipher n) s = .next (keeps s n c
      (given (ctrXor key c.iv (2 ^ (5 + cCtrw e)) (sub c.src 0 text)) (padTo 16 c.iv)))) ∧
    (cIvgen e = true → cMode e = 1 → cDecrypt e = false → let d := ivDraw s c
      exec (.cipher n) s = .next (keeps d.2 n { c with iv := d.1 }
        (given (cbcEnc key d.1 (sub c.src 0 text)) (padTo 16 d.1)))) ∧
    (cMode e = 3 → cDecrypt e = false → let iv := (if cIvgen e then c.iv else cIv e).take 12
      exec (.cipher n) s = .next (keeps s n c (given
        ((gcmEnc key iv aad body (cTagLen e)).1 ++ (gcmEnc key iv aad body (cTagLen e)).2)
        (if cIvgen e then padTo 16 c.iv else [])))) ∧
    (cMode e = 3 → cDecrypt e = true → cIvgen e = false →
      let p := gcmDec key ((cIv e).take 12) aad body (sub c.src (cAad e + text) (cTagLen e))
      exec (.cipher n) s = .next (keeps s n c (if p.2 = true then given p.1 [] else untrustedOut e p.1 text)))

/-- R100, R128: CIPHER_TRANSLATE deciphers under key A and enciphers what that gives under key B, with an IV the device
built; a failed input tag gives ST_AUTH_FAIL, a zero output tag and no IV inline. Of GCM input the result length is the
text's. -/
def Sys2Proof.Claims.TranslateResults : Prop :=
  ∀ (s : State) (n : Nat) (c : Ctx), Due s n 0x02 c →
    let e := c.entry
    let a := keyMatA s c
    let b := keyMatB s c
    let text := translateText e
    let aad := if tInMode e = 3 then sub c.src 0 (cAad e) else []
    let body := sub c.src (if tInMode e = 3 then cAad e else 0) text
    let pt := if tInMode e = 3 then gcmDec a ((cIv e).take 12) aad body (sub c.src (cAad e + text) (tInTag e))
      else (textOut (tInMode e) true a (cIv e) (2 ^ (5 + tInCtrw e)) body, true)
    let out := fun iv => if tOutMode e = 3 then aad ++ (gcmEnc b (iv.take 12) aad pt.1 (tOutTag e)).1 ++
        (if pt.2 = true then (gcmEnc b (iv.take 12) aad pt.1 (tOutTag e)).2 else zeros (tOutTag e))
      else textOut (tOutMode e) false b iv 32 pt.1
    1 ≤ tInMode e → tInMode e ≤ 3 → 1 ≤ tOutMode e → tOutMode e ≤ 3 →
    let d := if tOutMode e = 1 then ivDraw s c else (c.iv, s)
    exec (.cipherTranslate n) s = .next (keeps d.2 n { c with iv := d.1 }
      (if pt.2 = true then { given (out d.1) (padTo 16 d.1) with len := if tInMode e = 3 then text else (out d.1).length }
       else untrustedOut e (out d.1) text))

/-- R101–R103, R114, R263: the leftmost MACLEN bytes of the CMAC, inline; a verification that compares them all; a digest;
random bytes, generated by the group's CTR_DRBG; a slice's self-test, of which a failing needle that carries it and is not
halted raises its source. -/
def Sys2Proof.Claims.MacsDigestsAndSelfTests : Prop :=
  ∀ (s : State) (n : Nat) (c : Ctx), let e := c.entry
    (Due s n 0x03 c → exec (.macGen n) s = .next (keeps s n c
      { inlined ((cmac (keyMatA s c) c.src).take (macLen e)) with len := macLen e })) ∧
    (Due s n 0x04 c → let m := eLen e - macLen e
      ((cmac (keyMatA s c) (sub c.src 0 m)).take (macLen e) = sub c.src m (macLen e) →
        exec (.macVerify n) s = .next (keeps s n c (failed 0x0000))) ∧
      ((cmac (keyMatA s c) (sub c.src 0 m)).take (macLen e) ≠ sub c.src m (macLen e) →
        exec (.macVerify n) s = .next (keeps s n c (failed 0x0401)))) ∧
    (Due s n 0x05 c → exec (.hash n) s = .next (keeps s n c (given (hashAlg (bitsAt (eParam e) 0 4) c.src) []))) ∧
    (Due s n 0x30 c → ∀ x, liveChild s c.gid = some x → let g := drbgGenerate x (eCap e)
      exec (.random n) s = .next { keeps s n c (given g.1 []) with
        rng := { s.rng with drbgs := tinsert c.gid g.2 s.rng.drbgs } }) ∧
    (Due s n 0x30 c → liveChild s c.gid = none → ∃ b k, b.length = eCap e ∧
      exec (.random n) s = .next { keeps s n c (given b []) with freeCtr := k }) ∧
    (Due s n 0x3E c → c.slice ≠ 0 →
      exec (.selftest n none) s = .next (keeps s n c (inlined [0xFF])) ∧
      (∀ k, 24 ≤ k ∨ needleHalted s k = true ∨ (∀ x ∈ c.place, x / 128 ≠ k) →
        exec (.selftest n (some k)) s = exec (.selftest n none) s) ∧
      ∀ k, k < 24 → needleHalted s k = false → (∃ x ∈ c.place, x / 128 = k) → ∃ t f, exec (.selftest n (some k)) s = .next t ∧
        getCtx t n = some { c with result := some { failed 0x0703 with inline := [BitVec.ofNat 8 k] } } ∧
        t.faults.fired = s.faults.fired ++ [f] ∧ f.src = srcNdlKat + k ∧ f.tick = s.tick.count ∧
        t = { s with ctxs := t.ctxs, regs := t.regs, faults := t.faults, freeCtr := t.freeCtr })

/-- R98–R103, R114, R128, R134: the results of the cipher, MAC, digest, random and self-test commands.
Model's choices it rests on: notes/assumptions/4.md, notes/assumptions/5.md, notes/assumptions/50.md, notes/assumptions/74.md, notes/assumptions/91.md. -/
def Obligations.CipherMacAndDigestCommands : Prop := Sys2Proof.Claims.CipherResults ∧ Sys2Proof.Claims.TranslateResults ∧ Sys2Proof.Claims.MacsDigestsAndSelfTests

/-! ### Payment and vault commands -/
namespace Sys2Proof.Claims
open Sys2Proof Sys2Proof.Machine

/-- A context holds a running command of an opcode, in a class that works item by item, and its work has begun. -/
structure Working (s : State) (n op : Nat) (c : Ctx) : Prop where
  held : getCtx s n = some c
  data : n < 4032
  op : eOp c.entry = op
  working : working c = true
  begun : c.s0 ≤ begunTick s
  cls : c.cls ≠ clVault

/-- The destination bytes that a batch has so far. -/
def soFar (c : Ctx) : Bytes := match c.result with
  | some r => r.dest
  | none => []

/-- Items `c.done` to `d` of a batch ran: each put one output item of `size` bytes, which `good` relates to its input, behind
those before it, and nothing else changed but free values (R96). -/
def RanItems (s t : State) (n : Nat) (c : Ctx) (size d : Nat) (good : Bytes → Bytes → Prop) : Prop :=
  ∃ (outs : List Bytes) (k : Nat) (g : Rng), outs.length = d - c.done ∧ g = { s.rng with drbgs := g.drbgs } ∧
    (∀ i o, outs[i]? = some o → o.length = size ∧ good (sub c.src (size * (c.done + i)) size) o) ∧
    t = if outs = [] then s else
      { setCtx s n { c with done := d, result := some { given (soFar c ++ outs.flatten) [] with itemLen := size } }
        with freeCtr := k, rng := g }

/-- Every panel of the vault reads without a failed check (R187). -/
def intact (s : State) : Prop := ∀ p, panelFault s.vault.tree p = none

/-- The vault holds the key of its current generation (R185, R190). -/
def keyed (s : State) : Prop := ∃ key, tfind s.vault.tree.keys s.vault.gen = some key ∧ key.length = 80

/-- Only drawn values moved between two random blocks (R263). -/
def drewOnly (r g : Rng) : Prop := g = { r with drbgs := g.drbgs }

/-- A vault command's slots from its first, `k` of them, are due, with their source and with every panel sound (R187, R218). -/
structure SlotsDue (s : State) (n op : Nat) (c : Ctx) (k : Nat) : Prop where
  held : getCtx s n = some c
  data : n < 4032
  op : eOp c.entry = op
  working : working c = true
  begun : c.s0 ≤ begunTick s
  fed : ∀ j, j < k → slotFed { c with slots := j } = true
  sound : intact s
  vault : c.cls = clVault ∨ compUnits c.entry ≠ 0
  first : c.slots = 0
  due : slotsThrough c (begunTick s) = k

/-- The vault command ended with a result: its context keeps it, with what its slots left each other, and `k` slots have
run. -/
def endsWith (s : State) (n : Nat) (c : Ctx) (k : Nat) (x : List Nat) (r : CmdResult) : State :=
  setCtx s n { c with slots := k, scratch := x, result := some r }

/-- One record more was sealed in a slice's chain, after those before it (R196, R198). -/
def sealedOne (s t : State) (chain : Nat) (ctx : Nat) : Prop :=
  (getChain t chain).seq = (getChain s chain).seq + 1 ∧
  ∃ r, (getChain t chain).waiting = (getChain s chain).waiting ++ [r] ∧ r.ctx = some ctx ∧
    r.seq = (getChain s chain).seq + 1

/-- The entries of a bucket are those of before, with entry `i` now as given. -/
def cellNow (s t : State) (slice table q i : Nat) (v : Option VEntry) : Prop :=
  (∀ j, tfind (cellsOf t slice table q) j = if j = i then v else tfind (cellsOf s slice table q) j) ∧
  (∀ a b p, (a, b, p) ≠ (slice, table, q) → cellsOf t a b p = cellsOf s a b p)

/-- Panels were written, and no entry of a bucket changed: only the counter tree, the pages' recorded generations and the
generation's use moved (R186, R219). -/
def rewritten (v w : Vault) : Prop := w = { v with tree := w.tree, pageGen := w.pageGen, genUse := w.genUse }

end Sys2Proof.Claims

open Sys2Proof Sys2Proof.Machine Sys2Proof.Claims

/-- R96, R104, R168–R174: PIN_TRANSLATE puts one item out for each input item whose grains have run: ST_BAD_FIELD and a zero
block where the PAN or the PIN field is not well formed, else the PIN in the other format under key B; the tag is copied.
PIN_VERIFY succeeds exactly where the PAN and the PIN field are well formed and the 64-bit verifier matches. -/
def Sys2Proof.Claims.PinCommands : Prop :=
  (∀ (s : State) (n : Nat) (c : Ctx), Working s n 0x08 c →
    let e := c.entry
    let per := fmtGrains (pInFmt e) + fmtGrains (pOutFmt e)
    let d := min (min (eLen e / 48) (128 * unitsThrough c (begunTick s) / per)) (c.src.length / 48)
    ∃ t, exec (.pinTranslate n) s = .next t ∧ RanItems s t n c 48 d (fun item out =>
      let count := byteAt item 0
      let pan := panDigits item 4 count
      let field := decodeField (pInFmt e) (keyMatA s c) pan (sub item 0x10 16)
      let good := (if pInFmt e = 1 ∧ pOutFmt e = 1 then count = 0 ∨ (12 ≤ count ∧ count ≤ 19) else panOk count pan = true) ∧
        pinFieldOk (pInFmt e) field = true
      (¬ good → out = leBytes 2 0x0104 ++ zeros 30 ++ sub item 0x20 8 ++ zeros 8) ∧
      (good → ∃ fill : List Nat, fill.length = 16 ∧ (∀ x ∈ fill, x < 16) ∧ out = leBytes 2 0 ++ zeros 14 ++
        padTo 16 (encodeBlock (pOutFmt e) (keyMatB s c) pan (pinOf field) fill) ++ sub item 0x20 8 ++ zeros 8))) ∧
  (∀ (s : State) (n : Nat) (c : Ctx), Due s n 0x09 c →
    let pan := panDigits c.src 4 (byteAt c.src 0)
    let field := decodeField (pInFmt c.entry) (keyMatA s c) pan (sub c.src 0x10 16)
    let good := panOk (byteAt c.src 0) pan = true ∧ pinFieldOk (pInFmt c.entry) field = true ∧
      (cmac (keyMatB s c) (canonicalPin (pinOf field) ++ panField16 pan)).take 8 = sub c.src 0x28 8
    (good → exec (.pinVerify n) s = .next (keeps s n c (failed 0))) ∧
    (¬ good → exec (.pinVerify n) s = .next (keeps s n c (failed 0x0401))))

/-- R96, R106, R175–R179: DUKPT_DERIVE derives each item's working key from the key, the KSN and the usage. With ACTION 0 the
item carries that key wrapped under key B, with ACTION 1 the PIN block enciphered again under key B; ST_BAD_FIELD and
ST_KEY_USAGE items carry nothing. -/
def Sys2Proof.Claims.DukptItems : Prop :=
  ∀ (s : State) (n : Nat) (c : Ctx), Working s n 0x0A c →
    let e := c.entry
    let a := useKey s c.keyA
    let b := useKey s c.keyB
    let d := min (min (eLen e / 64) (128 * unitsThrough c (begunTick s) / dukptGrains e)) (c.src.length / 64)
    ∃ t, exec (.dukptDerive n) s = .next t ∧ RanItems s t n c 64 d (fun item out =>
      let ksn := sub item 0 12
      let tc := beNat (sub ksn 8 4)
      let code := byteAt item 0x0C
      let alg := byteAt item 0x0D
      let pan := panDigits item 0x21 (byteAt item 0x20)
      let wk := dukptWorking a (dKsize e) ksn code alg
      let field := decodeField 4 wk pan (sub item 0x10 16)
      let form := tc ≠ 0 ∧ popCount tc 32 ≤ 16 ∧ 1 ≤ code ∧ code ≤ 7 ∧ 2 ≤ alg ∧ alg ≤ 4 ∧
        (dAction e = 1 → panOk (byteAt item 0x20) pan = true)
      let use := alg - 2 ≤ dKsize e ∧ (a.level = 6 → a.ik = sub ksn 0 8) ∧
        (if dAction e = 1 then code = 1 else dukptPurpose code = aPurpose b.attr)
      let bare := fun st : Nat => leBytes 2 st ++ zeros 46 ++ sub item 0x30 8 ++ zeros 8
      (¬ form → out = bare 0x0104) ∧ (form → ¬ use → out = bare 0x0203) ∧
      (form → use → dAction e ≠ 1 → out = leBytes 2 0 ++ leBytes 2 (kwWrap b.material wk).length ++
        padTo 40 (kwWrap b.material wk) ++ zeros 4 ++ sub item 0x30 8 ++ zeros 8) ∧
      (form → use → dAction e = 1 → pinFieldOk 4 field = false → out = bare 0x0104) ∧
      (form → use → dAction e = 1 → pinFieldOk 4 field = true → ∃ fill : List Nat, fill.length = 16 ∧
        (∀ x ∈ fill, x < 16) ∧ let blk := encodeBlock 4 b.material pan (pinOf field) fill
        out = leBytes 2 0 ++ leBytes 2 blk.length ++ padTo 40 blk ++ zeros 4 ++ sub item 0x30 8 ++ zeros 8))

/-- R96, R107, R211: the derived form of TOKENIZE enciphers the middle digits of each item under FF1 and keeps head and tail;
DETOKENIZE deciphers them; an item of another shape ends with ST_BAD_FIELD. Each output item starts with the status and the
digit count, then the digits as characters. -/
def Sys2Proof.Claims.DerivedTokens : Prop :=
  ∀ (s : State) (n : Nat) (c : Ctx) (detok : Bool), Working s n (if detok then 0x11 else 0x10) c →
    let e := c.entry
    let u := unitsThrough c (begunTick s)
    let m := eLen e / 32
    let d := min (min m (if c.serial then 16 * u / 30 else 16 * u - 29 * m)) (c.src.length / 32)
    let tweak := sub e 0x28 (kTweakLen e)
    ∃ t, exec (if detok then .detokenize n else .tokenize n) s = .next t ∧ RanItems s t n c 32 d (fun item out =>
      let k := tokItem item true
      let mid := (k.digits.drop k.head).take (k.d - k.head - k.tail)
      (k.ok = false → out = leBytes 2 0x0104 ++ sub item 0 1 ++ zeros 21 ++ sub item 0x18 8) ∧
      (k.ok = true → out = leBytes 2 0 ++ sub item 0 1 ++ zeros 1 ++ padTo 20 (digitChars (k.digits.take k.head ++
        (if detok then ff1Dec (keyMatA s c) tweak mid else ff1Enc (keyMatA s c) tweak mid) ++ k.digits.drop (k.d - k.tail))) ++
        sub item 0x18 8))

/-- R107, R212, R218–R221: an item of a vaulted TOKENIZE, in its three slots: a PAN that has a token gets that token; a new one
gets a drawn token with the PAN's head and tail, entered in both tables and journalled, where both buckets have room; else
ST_VAULT_FULL. A vaulted DETOKENIZE item gives the PAN of the token's record, or ST_VAULT_MISS. -/
def Sys2Proof.Claims.VaultedTokens : Prop :=
  (∀ (s : State) (n : Nat) (c : Ctx), SlotsDue s n 0x10 c 3 → c.cls = clVault →
    let item := sub c.src 0 32
    let k := tokItem item true
    let nb := tableBuckets s c.slice tbTok
    let ix := panIndex (keyMatA s c) k
    let found := lookupTwo s c.slice tbTok (candA ix nb) (candB ix nb) (panMatches k (fingerprint ix))
    let out := fun st ds => { given (soFar c ++ (leBytes 2 st ++ sub item 0 1 ++ zeros 1 ++ padTo 20 (digitChars ds) ++
      sub item 0x18 8)) [] with itemLen := 32 }
    let now := fun (x : List Nat) (r : CmdResult) =>
      setCtx s n { c with slots := 3, done := c.done + 1, scratch := x, result := some r }
    (k.ok = false → ∃ x v, rewritten s.vault v ∧
      exec (.tokenize n) s = .next { now x (out 0x0104 []) with vault := v }) ∧
    (∀ q i e, k.ok = true → found = some (q, i, e) → ∃ x v, rewritten s.vault v ∧
      exec (.tokenize n) s = .next { now x (out 0 (recToken e.bytes)) with vault := v }) ∧
    (k.ok = true → found = none → chooseBucket s c.slice tbTok (candA ix nb) (candB ix nb) 0 = none →
      ∃ x v f g, rewritten s.vault v ∧ drewOnly s.rng g ∧
        exec (.tokenize n) s = .next { now x (out 0x0302 []) with vault := v, freeCtr := f, rng := g }) ∧
    (∀ q i, k.ok = true → found = none → chooseBucket s c.slice tbTok (candA ix nb) (candB ix nb) 0 = some q →
      (openCells s c.slice tbTok q 0).head? = some i →
      let tok := (drawToken s c.gid k).1
      let rix := revIndex (keyMatA s c) k.d tok
      let rb := candA rix (tableBuckets s c.slice tbRev)
      let reverse := fingerprint rix ++ leBytes 4 q ++ leBytes 1 i ++ zeros 3
      let taken := (cellsOf s c.slice tbRev rb).any (fun y => sub y.2.bytes 0 8 == fingerprint rix)
      (taken = true ∨ openCells s c.slice tbRev rb 0 = [] → ∃ x v f g, rewritten s.vault v ∧ drewOnly s.rng g ∧
        exec (.tokenize n) s = .next { now x (out 0x0302 []) with vault := v, freeCtr := f, rng := g }) ∧
      (∀ j, taken = false → (openCells s c.slice tbRev rb 0).head? = some j → limitHit s c.slice = true →
        ∃ t x, exec (.tokenize n) s = .next t ∧ cellNow s t c.slice tbRev rb j (some ⟨reverse⟩) ∧
          getCtx t n = getCtx (now x (out 0x0302 [])) n ∧
          t = { s with ctxs := t.ctxs, vault := t.vault, freeCtr := t.freeCtr, rng := t.rng } ∧ drewOnly s.rng t.rng) ∧
      (∀ j, taken = false → (openCells s c.slice tbRev rb 0).head? = some j → limitHit s c.slice = false →
        ∃ t x, exec (.tokenize n) s = .next t ∧
          tfind (cellsOf t c.slice tbRev rb) j = some ⟨reverse⟩ ∧
          tfind (cellsOf t c.slice tbTok q) i = some ⟨tokRecord k tok rb j (fingerprint ix) (fingerprint rix)⟩ ∧
          sealedOne s t c.slice n ∧ getCtx t n = getCtx (now x (out 0 tok)) n ∧
          t = { s with ctxs := t.ctxs, vault := t.vault, freeCtr := t.freeCtr, rng := t.rng } ∧ drewOnly s.rng t.rng))) ∧
  (∀ (s : State) (n : Nat) (c : Ctx), SlotsDue s n 0x11 c 1 → c.cls = clVault →
    let item := sub c.src 0 32
    let k := tokItem item false
    let out := fun st ds => { given (soFar c ++ (leBytes 2 st ++ sub item 0 1 ++ zeros 1 ++ padTo 20 (digitChars ds) ++
      sub item 0x18 8)) [] with itemLen := 32 }
    ∃ f g, drewOnly s.rng g ∧ (k.ok = true → detokEntry s c k ≠ none → f = s.freeCtr ∧ g = s.rng) ∧
      exec (.detokenize n) s = .next { setCtx s n { c with
        slots := 1, done := c.done + 1
        result := some (if k.ok = false then out 0x0104 [] else match detokFind s c k with
          | none => out 0x0301 []
          | some v => out 0 (recPan v.bytes)) } with freeCtr := f, rng := g })

/-- R96, R104–R106, R168–R179: the items of the PIN and DUKPT commands.
Model's choices it rests on: notes/assumptions/5.md, notes/assumptions/48.md, notes/assumptions/81.md, notes/assumptions/91.md. -/
def Obligations.PinAndDukptItems : Prop := Sys2Proof.Claims.PinCommands ∧ Sys2Proof.Claims.DukptItems

/-- R96, R107, R211, R212, R218–R221: the items of TOKENIZE and DETOKENIZE, derived and vaulted.
Model's choices it rests on: notes/assumptions/4.md, notes/assumptions/5.md, notes/assumptions/48.md, notes/assumptions/51.md, notes/assumptions/70.md, notes/assumptions/82.md, notes/assumptions/83.md. -/
def Obligations.TokenItems : Prop := Sys2Proof.Claims.DerivedTokens ∧ Sys2Proof.Claims.VaultedTokens

/-- R108, R216–R221: a whole VAULT_PUT, GET or DELETE. A put replaces the value of a record that stands, in the other extent,
or enters a new record where a bucket has room; it tells inline which, and journals it; otherwise ST_VAULT_FULL. A get gives
the value of the record's active extent cut to its capacity and the length inline, a delete clears the record's cell and
journals it; without a record both end with ST_VAULT_MISS.
Model's choices it rests on: notes/assumptions/12.md, notes/assumptions/51.md, notes/assumptions/70.md, notes/assumptions/83.md, notes/assumptions/84.md. -/
def Obligations.VaultRecords : Prop :=
  ∀ (s : State) (n : Nat) (c : Ctx), c.cls = clVault →
    let rk := sub c.src 0 32
    let ix := genIndex (keyMatA s c) rk
    let nb := tableBuckets s c.slice tbGen
    let found := lookupTwo s c.slice tbGen (candA ix nb) (candB ix nb) (genMatches (fingerprint ix) rk)
    let value := sub c.src 32 (eLen c.entry - 32)
    let put := fun (q i ext told : Nat) => ∃ t x, exec (.vaultPut n) s = .next t ∧
      cellNow s t c.slice tbGen q i (some ⟨genCell ext value.length (fingerprint ix) rk⟩) ∧
      (keyed s → ∀ j, j + 2 < c.units → panelOpen t (extentPanel s c.slice q i ext j) = valuePiece value j) ∧
      getCtx t n = some { c with slots := c.units, scratch := x, result := some (inlined [BitVec.ofNat 8 told]) } ∧
      sealedOne s t c.slice n ∧ t = { s with ctxs := t.ctxs, vault := t.vault }
    (SlotsDue s n 0x12 c c.units → 2 ≤ c.units → c.units ≤ 6 →
      (∀ q i v, found = some (q, i, v) → put q i (1 - byteAt v.bytes 1) 1) ∧
      (∀ q i, found = none → chooseBucket s c.slice tbGen (candA ix nb) (candB ix nb) 0 = some q →
        (openCells s c.slice tbGen q 0).head? = some i → limitHit s c.slice = false → put q i 1 0) ∧
      (found = none → (chooseBucket s c.slice tbGen (candA ix nb) (candB ix nb) 0 = none ∨ limitHit s c.slice = true) →
        ∃ t x, exec (.vaultPut n) s = .next t ∧
          getCtx t n = some { c with slots := c.units, scratch := x, result := some (failed 0x0302) } ∧
          rewritten s.vault t.vault ∧ t = { s with ctxs := t.ctxs, vault := t.vault })) ∧
    (SlotsDue s n 0x13 c c.units → 1 ≤ c.units →
      (found = none → ∃ x b, exec (.vaultGet n) s = .next (setCtx s n { c with
        slots := c.units, scratch := x, code := b, result := some (failed 0x0301) })) ∧
      (∀ q i v, found = some (q, i, v) → let len := leAt v.bytes 2 2
        let b := (List.range (c.units - 1)).flatMap (fun j => panelOpen s (extentPanel s c.slice q i (byteAt v.bytes 1) j))
        ∃ x, exec (.vaultGet n) s = .next (setCtx s n { c with
          slots := c.units, scratch := x, code := b
          result := some (given ((b.take len).take (eCap c.entry)) (leBytes 4 len)) }))) ∧
    (SlotsDue s n 0x14 c 2 →
      (found = none → ∃ x v, rewritten s.vault v ∧
        exec (.vaultDelete n) s = .next { endsWith s n c 2 x (failed 0x0301) with vault := v }) ∧
      (∀ q i v, found = some (q, i, v) → ∃ t x, exec (.vaultDelete n) s = .next t ∧
        cellNow s t c.slice tbGen q i none ∧ sealedOne s t c.slice n ∧
        getCtx t n = some { c with slots := 2, scratch := x, result := some (failed 0) } ∧
        t = { s with ctxs := t.ctxs, vault := t.vault }))

/-- R109, R222–R224: a redemption kills the credential where its code is right and tells how many attempts were left; a wrong
code takes one attempt, and the last locks it; a credential that is expired or killed, locked, or not there ends with its own
status. A kill kills whatever the credential's count. -/
def Sys2Proof.Claims.CredentialUse : Prop :=
  ∀ (s : State) (n : Nat) (c : Ctx), c.cls = clVault →
    let idle := fun (i : Instr) (st : Nat) => ∃ x v, rewritten s.vault v ∧
      exec i s = .next { endsWith s n c 2 x (failed st) with vault := v }
    let writes := fun (i : Instr) (q j st left : Nat) (b : Bytes) (r : CmdResult) => ∃ t x, exec i s = .next t ∧
      cellNow s t c.slice tbCrd q j (some ⟨leBytes 1 st ++ leBytes 1 left ++ b.drop 2⟩) ∧ sealedOne s t c.slice n ∧
      getCtx t n = some { c with slots := 2, scratch := x, result := some r } ∧
      t = { s with ctxs := t.ctxs, vault := t.vault }
    (SlotsDue s n 0x19 c 2 →
      (crdLookup s c = none → idle (.credRedeem n) 0x0301) ∧
      (∀ q i v, crdLookup s c = some (q, i, v) →
        let b := v.bytes
        let left := byteAt b 1
        let dead := leAt b 4 4 ≤ c.hour ∨ byteAt b 0 = 4
        let right := codeRight s c b = true
        (dead → idle (.credRedeem n) 0x0404) ∧
        (¬ dead → byteAt b 0 = 3 → idle (.credRedeem n) 0x0403) ∧
        (¬ dead → byteAt b 0 ≠ 3 → right →
          writes (.credRedeem n) q i 4 left b { inlined [BitVec.ofNat 8 left] with len := 1 }) ∧
        (¬ dead → byteAt b 0 ≠ 3 → ¬ right → writes (.credRedeem n) q i (if left - 1 = 0 then 3 else 2) (left - 1) b
          { failed 0x0401 with inline := [BitVec.ofNat 8 (left - 1)], len := 1 }))) ∧
    (SlotsDue s n 0x1A c 2 →
      (crdLookup s c = none → idle (.credKill n) 0x0301) ∧
      (∀ q i v, crdLookup s c = some (q, i, v) →
        let b := v.bytes
        let dead := leAt b 4 4 ≤ c.hour ∨ byteAt b 0 = 4
        (dead → idle (.credKill n) 0x0404) ∧ (¬ dead → writes (.credKill n) q i 4 (byteAt b 1) b (failed 0))))

/-- R109, R223: the three companion slots of CRED_ISSUE enter the credential as LIVE with its limit, digits, expiry and
verifier, free the record of that id that stood before, journal it, and give the code, the body and the container; without a
bucket or an entry the status is ST_VAULT_FULL and no record changes. -/
def Sys2Proof.Claims.CredentialIssue : Prop :=
  ∀ (s : State) (n : Nat) (c : Ctx), SlotsDue s n 0x18 c 3 →
    let ix := credIndex (keyMatA s c) (credId c.entry)
    let nb := tableBuckets s c.slice tbCrd
    let old := crdLookup s c
    let staged := lookupTwo s c.slice tbCrd (candA ix nb) (candB ix nb) (crdAny (fingerprint ix) (credId c.entry))
    let bucket := match old, staged with
      | some r, _ => some r.1
      | none, some r => some r.1
      | none, none => chooseBucket s c.slice tbCrd (candA ix nb) (candB ix nb) c.hour
    (∀ q i, bucket = some q → (openCells s c.slice tbCrd q c.hour).head? = some i → limitHit s c.slice = false →
      (∀ y ∈ cellsOf s c.slice tbCrd q, y.2.bytes ≠ issueRecord s c 1) →
      ∃ t container x, exec (.credIssue n) s = .next t ∧
        tfind (cellsOf t c.slice tbCrd q) i = some ⟨issueRecord s c 2⟩ ∧
        (∀ r, old = some r → r.2.1 ≠ i → tfind (cellsOf t c.slice tbCrd q) r.2.1 = none) ∧
        sealedOne s t c.slice n ∧
        getCtx t n = some { c with slots := 3, scratch := x
                                   result := some (given (padTo 16 c.code ++ credBody s c ++ container) []) } ∧
        t = { s with ctxs := t.ctxs, vault := t.vault, freeCtr := t.freeCtr, rng := t.rng } ∧ drewOnly s.rng t.rng) ∧
    ((bucket = none ∨ ∃ q, bucket = some q ∧ openCells s c.slice tbCrd q c.hour = []) →
      ∃ t x, exec (.credIssue n) s = .next t ∧ rewritten s.vault t.vault ∧
        getCtx t n = some { c with slots := 3, scratch := x, result := some (failed 0x0302) } ∧
        t = { s with ctxs := t.ctxs, vault := t.vault, freeCtr := t.freeCtr, rng := t.rng } ∧ drewOnly s.rng t.rng)

/-- R109, R222–R224: the credentials of the vault: issued, redeemed, killed.
Model's choices it rests on: notes/assumptions/4.md, notes/assumptions/51.md, notes/assumptions/70.md, notes/assumptions/83.md, notes/assumptions/91.md. -/
def Obligations.Credentials : Prop := Sys2Proof.Claims.CredentialUse ∧ Sys2Proof.Claims.CredentialIssue

/-! ### Seam signatures, keys, and the rows that end with what a post returns -/
namespace Sys2Proof.Claims
open Sys2Proof Sys2Proof.Machine

/-- A container of a pair over a message at an index, with its nonce and its randomiser (R232, R233, R240). -/
def sealOf (p : SeamPair) (i : Nat) (nonce rand msg : Bytes) : Bytes :=
  let h := leBytes 1 1 ++ leBytes 1 p.set ++ leBytes 2 (if p.set = 1 then 5208 else 3420) ++ leBytes 8 i ++ zeros 4 ++
    (sub p.pub 0x9C 32).take 16
  h ++ ecdsaSign p384 p.scalar nonce (sha384 (h ++ msg)) ++ hssSign p.set p.seed i rand (h ++ msg)

/-- A key entered the first slot of a creating command: its header, its identity, and the command's result: the handle and
for a symmetric key its check value inline, the public output at the destination, or ST_KEY_KILLED where a tombstone holds
its identity (R110–R113, R153, R155). -/
def Created (s t : State) (n : Nat) (c : Ctx) (k : NewKey) : Prop :=
  let a := c.newSlots.headD 0
  let x := getKey s a
  let id := (cmac (domainIdKey s) (BitVec.ofNat 8 k.typ :: k.material)).take 16
  let inl := leBytes 4 (x.owner * 2 ^ 24 + a * 2 ^ 10 + x.gen) ++ (if typSym k.typ then checkValue k.typ k.material else [])
  getKey t a = { x with typ := k.typ, attr := k.attr, level := aLevel k.attr, budget := k.budget, material := k.material
                        ik := k.ik, ident := id } ∧
  (∀ b, b ≠ a → getKey t b = getKey s b) ∧
  getCtx t n = some { c with
    slots := 1
    result := some (if tombstoned s id = true then failed 0x0204 else if k.dest = [] then inlined inl else given k.dest inl) } ∧
  t = { s with ctxs := t.ctxs, keys := t.keys, freeCtr := t.freeCtr, rng := t.rng } ∧ drewOnly s.rng t.rng

/-- A key of a type and attribute block with its initial budget. -/
def newKey (typ attr : Nat) (material dest : Bytes) : NewKey :=
  { st := 0, typ := typ, attr := attr, budget := initialBudget typ attr, material := material, ik := [], dest := dest }

/-- The new key of a command that fails. -/
def noKey (st : Nat) : NewKey := { st := st, typ := 0, attr := 0, budget := 0, material := [], ik := [], dest := [] }

end Sys2Proof.Claims

open Sys2Proof Sys2Proof.Machine Sys2Proof.Claims

/-- R233, R239, R240, R247–R251: SIGN_SEAM gives the container of the pair assigned to it over its source, with the index
inline; VERIFY_SEAM succeeds exactly where every field of the header, the HSS half and the ECDSA half are right; ATTEST gives
the 512-byte report with the nonce as submitted, and the device pair's container over it.
Model's choices it rests on: notes/assumptions/4.md, notes/assumptions/5.md, notes/assumptions/6.md, notes/assumptions/91.md. -/
def Obligations.SeamCommands : Prop :=
  (∀ (s : State) (n : Nat) (c : Ctx) (p i : Nat) (x : SeamPair), c.lmsPair = some p → c.lmsIndex = some i →
    getPair s p = some x →
    (Due s n 0x20 c → ∃ nonce rand k g, nonce.length = 56 ∧ rand.length = 24 ∧ drewOnly s.rng g ∧ exec (.signSeam n) s =
      .next { keeps s n c (given (sealOf x i nonce rand c.src) (leBytes 8 i)) with freeCtr := k, rng := g }) ∧
    (Due s n 0x31 c → ∃ m nonce rand k g, nonce.length = 56 ∧ rand.length = 24 ∧ drewOnly s.rng g ∧ m.length = 512 ∧ leAt m 0 4 = 1 ∧ sub m 0x20 24 = padTo 24 (eCls c.entry) ∧
      leAt m 0x38 8 = c.admitted % 2 ^ 64 ∧ (bitAt (eParam c.entry) 0 = false → sub m 0x88 176 = zeros 176) ∧
      exec (.attest n) s = .next { keeps s n c (given (m ++ sealOf x i nonce rand m) []) with freeCtr := k, rng := g })) ∧
  (∀ (s : State) (n : Nat) (c : Ctx), Due s n 0x21 c →
    let e := c.entry
    let set := eSet e
    let pub := if c.code = [] then (useKey s c.keyA).material.take 256 else c.code.take 256
    let msg := c.src.take (vsMsgLen e)
    let w := c.src.drop (vsMsgLen e)
    let h := w.take 32
    let r := hssVerify set (sub pub 0x68 52) (w.drop 0x80) (h ++ msg)
    let good := w.length = (if set = 1 then 5208 else 3420) ∧ byteAt h 0 = 1 ∧ byteAt h 1 = set ∧
      leAt h 2 2 = (if set = 1 then 5208 else 3420) ∧ byteAt pub 1 = set ∧
      sub h 0x10 16 = (sub pub 0x9C 32).take 16 ∧ leAt h 4 8 = seamIndex set r.2 ∧ r.1 = true ∧
      ecdsaVerify p384 (sub pub 4 97) (sha384 (h ++ msg)) (sub w 0x20 96) = true
    (good → exec (.verifySeam n) s = .next (keeps s n c (failed 0))) ∧
    (¬ good → exec (.verifySeam n) s = .next (keeps s n c (failed 0x0402))))

/-- R46, R115, R116: an INFILL_CALL ends with what its entry returned: the destination bytes and 16 bytes inline, or
ST_AUTH_FAIL with the low half of the verdict, or with FFFFH for a length above the capacity. An ABORT, resolved in a kerf
alone, takes a fetched command, or a running one, whose completion comes before its own, or comes too late; it leaves its
command to a change of the slice that commits in the same kerf.
Model's choices it rests on: notes/assumptions/7.md, notes/assumptions/17.md, notes/assumptions/76.md, notes/assumptions/95.md. -/
def Obligations.CallsAndAborts : Prop :=
  (∀ (s : State) (n : Nat) (c : Ctx) (a0 a1 a2 a3 a4 a5 : Word) (out : Bytes),
    getCtx s n = some c → n < 4032 → eOp c.entry = 0x38 → working c = true → c.result = none → c.s0 ≤ begunTick s →
    srcDone c = true →
    (a0 = 0#32 → a1.toNat ≤ eCap c.entry → exec (.infillCall n a0 a1 a2 a3 a4 a5 out) s = .next (keeps s n c
      (given (padTo a1.toNat (out.take a1.toNat)) (leBytes 4 a2.toNat ++ leBytes 4 a3.toNat ++ leBytes 4 a4.toNat ++
        leBytes 4 a5.toNat)))) ∧
    (a0 = 0#32 → eCap c.entry < a1.toNat → exec (.infillCall n a0 a1 a2 a3 a4 a5 out) s = .next (keeps s n c
      { failed 0x0401 with inline := leBytes 2 0xFFFF })) ∧
    (a0 ≠ 0#32 → exec (.infillCall n a0 a1 a2 a3 a4 a5 out) s = .next (keeps s n c
      { failed 0x0401 with inline := leBytes 2 (a0.toNat % 2 ^ 16) }))) ∧
  (∀ (s : State) (a q i : Nat) (f : Fetched),
    s.fetched.find? (fun g => g.slice == a && g.queue == q && eId g.entry == i && eOp g.entry == 0x3F) = some f →
    (s.tick.span = true → exec (.abort a q i) s = .next s) ∧
    (s.faults.safe = false → s.tick.span = false → 0 < s.tick.count → lcyState s ≠ lcyTampered → dupId s f = false →
    (infoAbort f.entry).badField = false → (infoAbort f.entry).badLength = false →
    let tq := bitsAt (eParam f.entry) 16 9
    let id := bitsAt (eParam f.entry) 0 16
    queueHeld s f.slice tq = true →
    let waits := s.fetched.find? (fun g => g.slice == f.slice && g.queue == tq && eId g.entry == id && eOp g.entry != 0x3F)
    let runs := s.ctxs.find? (fun c => c.2.slice == f.slice && c.2.queue == tq && eId c.2.entry == id)
    let alone := ∃ t y, exec (.abort a q i) s = .next t ∧ t.compls = s.compls ++ [y] ∧ y.status = 0 ∧ y.cmdId = eId f.entry ∧
      t = { s with fetched := t.fetched, compls := t.compls } ∧ t.fetched = s.fetched.filter (fun z => z.order != f.order)
    (∀ g, waits = some g → changeGoverns s f.slice tq false = true → alone) ∧
    (∀ g, waits = some g → changeGoverns s f.slice tq false = false → ∃ t x y, exec (.abort a q i) s = .next t ∧
      t.compls = s.compls ++ [x, y] ∧ x.status = 0x0601 ∧ x.cmdId = id ∧ y.status = 0 ∧ y.cmdId = eId f.entry ∧
      t.fetched = (s.fetched.filter (fun z => z.order != g.order)).filter (fun z => z.order != f.order) ∧
      t = { s with fetched := t.fetched, compls := t.compls }) ∧
    (∀ m c, waits = none → runs = some (m, c) → c.phase = .running → tq ≠ adminQ → changeGoverns s f.slice tq true = true →
      alone) ∧
    (∀ m c, waits = none → runs = some (m, c) → getCtx s m = some c → c.phase = .running → tq ≠ adminQ →
      changeGoverns s f.slice tq true = false →
      ∃ t x y, exec (.abort a q i) s = .next t ∧ t.compls = s.compls ++ [x, y] ∧
        x.status = 0x0601 ∧ x.cmdId = id ∧ x.ctx = some m ∧ (x.partialOut = true ↔ writtenPrefix s c ≠ 0) ∧
        x.len = writtenPrefix s c ∧ y.status = 0 ∧ y.cmdId = eId f.entry ∧
        (∃ d, getCtx t m = some d ∧ d.phase = .released ∧ d.release = s.tick.count - 1)) ∧
    (waits = none → (runs = none ∨ ∃ m c, runs = some (m, c) ∧ (c.phase ≠ .running ∨ tq = adminQ)) →
      ∃ t y, exec (.abort a q i) s = .next t ∧ t.compls = s.compls ++ [y] ∧ y.status = 0x0602 ∧ y.cmdId = eId f.entry ∧
        t = { s with fetched := t.fetched, compls := t.compls })))

/-- R110–R113, R148, R153, R155, R159–R162: each command that creates a key enters it in its slot; a derivation gives the
function's output, an unwrapping the key that the block holds where it opens, a generation free material, and an agreement
the shared secret; a command whose input is refused enters nothing. -/
def Sys2Proof.Claims.KeysAreCreated : Prop :=
  ∀ (s : State) (n : Nat) (c : Ctx), let e := c.entry
    let attr := (getKey s (c.newSlots.headD 0)).attr
    let k := (newKeyOf s c attr).1
    (∀ x ∈ [(0x22, Instr.kemEncaps n), (0x23, .kemDecaps n), (0x24, .ecdh n), (0x28, .keyGenerate n), (0x29, .keyImport n),
        (0x2B, .keyDerive n)], SlotsDue s n x.1 c 1 → (getKey s (c.newSlots.headD 0)).st = .loaded →
      (k.st = 0 → ∃ t, exec x.2 s = .next t ∧ Created s t n c k) ∧
      (k.st ≠ 0 → ∃ t, exec x.2 s = .next t ∧ getCtx t n = some { c with slots := 1, result := some (failed k.st) } ∧
        t = { s with ctxs := t.ctxs, freeCtr := t.freeCtr, rng := t.rng } ∧ drewOnly s.rng t.rng)) ∧
    (eOp e = 0x22 → if kemKeyOk (eSet e) c.src = true then ∃ seed m ct, seed.length = 32 ∧ m.length = 32 ∧
        ct.length = (if eSet e = 1 then 1088 else 1568) ∧ m = padTo 32 (kemEncaps (eSet e) c.src seed).1 ∧
        ct = padTo (if eSet e = 1 then 1088 else 1568) (kemEncaps (eSet e) c.src seed).2 ∧
        k = newKey (0x51 + eSet e) attr m ct
      else k = noKey 0x0401) ∧
    (eOp e = 0x23 → ∃ m, m.length = 32 ∧ m = padTo 32 (kemDecaps (eSet e) (keyMatA s c) c.src) ∧
      k = newKey (0x51 + eSet e) attr m []) ∧
    (eOp e = 0x24 → k = match ecdhSecret (curveOf (eSet e)) (keyMatA s c) c.src with
      | some x => newKey (0x4F + eSet e) attr x []
      | none => noKey 0x0401) ∧
    (eOp e = 0x28 → typSym (gType e) = true → ∃ m, m.length = typBytes (gType e) ∧ k = newKey (gType e) attr m [] ∧
      (typXts (gType e) = true → m.take (m.length / 2) ≠ m.drop (m.length / 2))) ∧
    (eOp e = 0x28 → gType e = 0x20 ∨ gType e = 0x21 → ∃ seed, seed.length = 64 ∧
      k = newKey (gType e) attr seed (padTo (genOut (gType e)) (kemPublic (gType e - 0x1F) seed))) ∧
    (eOp e = 0x28 → gType e = 0x10 ∨ gType e = 0x11 → ∃ m, k = newKey (gType e) attr m (ecPublic (curveOf (gType e - 0x0F)) m)) ∧
    (eOp e = 0x29 → xFormat e = 2 ∨ xFormat e = 3 → typSym (xType e) = true → typTdes (xType e) = false →
      k = match (if xFormat e = 2 then kwUnwrap (keyMatA s c) c.src else kwpUnwrap (keyMatA s c) c.src) with
        | some m => if m.length = typBytes (xType e) ∧ ¬ (typXts (xType e) = true ∧ m.take (m.length / 2) = m.drop (m.length / 2))
          then newKey (xType e) attr m [] else noKey 0x0401
        | none => noKey 0x0401) ∧
    (eOp e = 0x2B → vFn e = 0x01 → typAes (useKey s c.keyA).typ = false → ∃ m, m.length = typBytes (vType e) ∧
      k = newKey (vType e) attr m []) ∧
    (eOp e = 0x2B → vFn e = 0x01 → typAes (useKey s c.keyA).typ = true →
      k = newKey (vType e) attr (kdf108 (keyMatA s c) (sub e 0x38 8) (sub e 0x28 16) (typBytes (vType e))) []) ∧
    (eOp e = 0x2B → vFn e = 0x10 → k = { newKey (vType e) attr (dukptDerive (keyMatA s c) 0x8001 (vType e - 1)
      ((sub e 0x28 16).take 8)) [] with ik := (sub e 0x28 16).take 8 })

/-- R112, R154, R157, R161: KEY_EXPORT gives key A wrapped under key B in the format asked for; KEY_KILL's slots put the
identity that it named at its admission among the domain's tombstones and journal it, and fail with ST_VAULT_FULL where there is no room. -/
def Sys2Proof.Claims.KeysLeave : Prop :=
  ∀ (s : State) (n : Nat) (c : Ctx), let a := useKey s c.keyA
    let b := useKey s c.keyB
    let bytes := a.material.take (exportLen a)
    (Due s n 0x2A c → ∃ r f g, r.length = 40 ∧ drewOnly s.rng g ∧ exec (.keyExport n) s = .next { keeps s n c (given
      (if xFormat c.entry = 1 then x9Build b a r else if xFormat c.entry = 2 then kwWrap b.material bytes
       else kwpWrap b.material bytes) []) with freeCtr := f, rng := g }) ∧
    (SlotsDue s n 0x2C c 2 → tableBuckets s 0 tbTmb ≠ 0 →
      let id := leBytes 16 (c.scratch.headD 0)
      let nb := tableBuckets s 0 tbTmb
      let there := lookupTwo s 0 tbTmb (candA id nb) (candB id nb) (fun x => x == id)
      let room := chooseBucket s 0 tbTmb (candA id nb) (candB id nb) 0
      (there ≠ none → ∃ x v, rewritten s.vault v ∧ exec (.keyKill n) s =
        .next { endsWith s n c 2 x (failed 0) with tombPend := s.tombPend.erase id, vault := v }) ∧
      (∀ q, there = none → room = some q → limitHit s 0 = false → ∃ t i x, exec (.keyKill n) s = .next t ∧
        cellNow s t 0 tbTmb q i (some ⟨id⟩) ∧ sealedOne s t 128 n ∧ t.tombPend = s.tombPend.erase id ∧
        getCtx t n = some { c with slots := 2, scratch := x, result := some (failed 0) } ∧
        t = { s with ctxs := t.ctxs, vault := t.vault, tombPend := t.tombPend }) ∧
      (there = none → room = none ∨ limitHit s 0 = true → ∃ x v, rewritten s.vault v ∧
        exec (.keyKill n) s = .next { endsWith s n c 2 x (failed 0x0302) with vault := v }))

/-- R110–R113, R148, R153–R162: the commands that create keys, export them and kill them.
Model's choices it rests on: notes/assumptions/4.md, notes/assumptions/5.md, notes/assumptions/6.md, notes/assumptions/8.md, notes/assumptions/49.md, notes/assumptions/73.md, notes/assumptions/78.md, notes/assumptions/79.md, notes/assumptions/80.md. -/
def Obligations.KeysAreCreatedAndLeave : Prop := Sys2Proof.Claims.KeysAreCreated ∧ Sys2Proof.Claims.KeysLeave

/-! ### Slices -/
namespace Sys2Proof.Claims
open Sys2Proof Sys2Proof.Machine

/-- A context holds a running admin command of an opcode that the management posts have not taken in hand yet (R292). -/
structure AdminDue (s : State) (n op : Nat) (c : Ctx) : Prop where
  held : getCtx s n = some c
  admin : 4032 ≤ n
  runs : c.phase = .running
  passed : c.refused = false
  open_ : c.adminDone = none
  op : eOp c.entry = op
  fresh : c.done = 0

/-- The command ends with a result, and nothing else changes. -/
def ends (s : State) (n : Nat) (c : Ctx) (r : CmdResult) : State := setCtx s n { c with adminDone := some r }

/-- The command ends with a status and a reason, inline and in SLC_ADM (R294). -/
def refusedWith (s : State) (n : Nat) (c : Ctx) (status reason : Nat) : State :=
  ends (setF (setF s Reg.SLC_ADM_OPCODE (eOp c.entry)) Reg.SLC_ADM_REASON reason) n c
    { failed status with inline := leBytes 8 reason }

/-- The command is staged for the next kerf. -/
def stagedCtx (s : State) (n : Nat) (c : Ctx) : State := setCtx s n { c with done := 1 }

/-- A change of a slice that a command asked for. -/
def changeBy (kind : SliceChange) (squash : Bool) (n : Nat) : StagedChange :=
  { kind := kind, squash := squash, ctx := some n, committed := none, byFault := false, byFlr := false
    toDormant := false }

/-- What a record does: its reason, or the staged creation or resize (R288–R290, R294, R295). -/
def recordTaken (s : State) (n k : Nat) (c : Ctx) (row : Instr) (keep : Bool) : Prop :=
  let x := getSlice s k
  (parseCfg c.src = none → exec row s = .next (refusedWith s n c 0x0104 2)) ∧
  (∀ cfg, parseCfg c.src = some cfg →
    (keep = true → cfg.migratable ≠ x.cfg.migratable → exec row s = .next (refusedWith s n c 0x0104 2)) ∧
    ((keep = true → cfg.migratable = x.cfg.migratable) →
      (recordReason s k cfg ≠ 0 → exec row s = .next (refusedWith s n c 0x0104 (recordReason s k cfg))) ∧
      (recordReason s k cfg = 0 →
        exec row s = .next (stagedCtx (setSlice s k { x with stagedCfg := some (cfg, n) }) n c))))

/-- A command's source: asked for once, awaited, or failed at the link (R292). -/
def sourceAwaited (s : State) (n : Nat) (c : Ctx) (row : Instr) : Prop :=
  (c.srcFail = true → exec row s = .next (ends s n c (failed 0x0106))) ∧
  (c.srcFail = false → c.src.length < eLen c.entry → c.asked = 0 →
    exec row s = .next (emit (setCtx s n { c with asked := eLen c.entry }) (.hostRead 0 none (eSrc c.entry) (eLen c.entry)))) ∧
  (c.srcFail = false → c.src.length < eLen c.entry → c.asked ≠ 0 → exec row s = .next s)

end Sys2Proof.Claims

open Sys2Proof Sys2Proof.Machine Sys2Proof.Claims

/-- R292–R299, R301: the admin commands of a slice. A device that serves no slices refuses each with reason 8 and a slice in
another state with reason 1; a record is checked and staged for the next kerf, a quiesce, a resume, a reset or a destruction
is staged while no other change of the slice runs and waits while one does.
Model's choices it rests on: notes/assumptions/7.md, notes/assumptions/53.md. -/
def Obligations.SliceAdmin : Prop :=
  ∀ (s : State) (n : Nat) (c : Ctx), let e := c.entry
    let k := bitsAt (eParam e) 0 7
    let x := getSlice s k
    let ok := slicesServed s = true
    (AdminDue s n 0x80 c →
      (¬ ok → exec (.sliceCreate n) s = .next (refusedWith s n c 0x0104 8)) ∧
      (ok → k = 0 ∨ x.st ≠ .none → exec (.sliceCreate n) s = .next (refusedWith s n c 0x0104 1)) ∧
      (ok → k ≠ 0 → x.st = .none → sourceAwaited s n c (.sliceCreate n) ∧
        (c.srcFail = false → eLen e ≤ c.src.length → recordTaken s n k c (.sliceCreate n) false))) ∧
    (AdminDue s n 0x81 c →
      (¬ ok → exec (.sliceResize n) s = .next (refusedWith s n c 0x0104 8)) ∧
      (ok → x.st = .none ∨ x.st = .changing → exec (.sliceResize n) s = .next (refusedWith s n c 0x0104 1)) ∧
      (ok → x.st ≠ .none → x.st ≠ .changing → sourceAwaited s n c (.sliceResize n) ∧
        (c.srcFail = false → eLen e ≤ c.src.length → recordTaken s n k c (.sliceResize n) true))) ∧
    (AdminDue s n 0x82 c → bitAt (eParam e) 8 = false →
      (¬ ok → exec (.sliceQuiesce n) s = .next (refusedWith s n c 0x0104 8)) ∧
      (ok → x.change ≠ none → exec (.sliceQuiesce n) s = .next s) ∧
      (ok → x.change = none → x.st = .quiesced → exec (.sliceQuiesce n) s = .next (ends s n c (inlined []))) ∧
      (ok → x.change = none → x.st ≠ .quiesced → x.st ≠ .active →
        exec (.sliceQuiesce n) s = .next (refusedWith s n c 0x0104 1)) ∧
      (ok → x.change = none → x.st = .active → exec (.sliceQuiesce n) s = .next (stagedCtx
        (setSlice s k { x with change := some (changeBy .quiesce (bitAt (eParam e) 9) n) }) n c))) ∧
    (AdminDue s n 0x82 c → bitAt (eParam e) 8 = true →
      (¬ ok → exec (.sliceResume n) s = .next (refusedWith s n c 0x0104 8)) ∧
      (ok → x.change ≠ none → exec (.sliceResume n) s = .next s) ∧
      (ok → x.change = none → x.st ≠ .quiesced → exec (.sliceResume n) s = .next (refusedWith s n c 0x0104 1)) ∧
      (ok → x.change = none → x.st = .quiesced → (∃ q ∈ x.quiesceSources, srcPending s q = true) →
        exec (.sliceResume n) s = .next (refusedWith s n c 0x0104 18)) ∧
      (ok → x.change = none → x.st = .quiesced → (∀ q ∈ x.quiesceSources, srcPending s q = false) →
        exec (.sliceResume n) s = .next (stagedCtx (setSlice s k { x with resumeStaged := some n }) n c))) ∧
    (∀ y ∈ [(0x83, SliceChange.reset, Instr.sliceReset n), (0x84, .destroy, .sliceDestroy n)], AdminDue s n y.1 c →
      (¬ ok → exec y.2.2 s = .next (refusedWith s n c 0x0104 8)) ∧
      (ok → k = 0 → exec y.2.2 s = .next (refusedWith s n c 0x0104 1)) ∧
      (ok → k ≠ 0 → x.change ≠ none → exec y.2.2 s = .next s) ∧
      (ok → k ≠ 0 → x.change = none → x.st = .none ∨ x.st = .changing →
        exec y.2.2 s = .next (refusedWith s n c 0x0104 1)) ∧
      (ok → k ≠ 0 → x.change = none → x.st ≠ .none → x.st ≠ .changing → exec y.2.2 s = .next (stagedCtx
        (setSlice s k { x with change := some (changeBy y.2.1 (bitAt (eParam e) 9) n) }) n c)))

/-- R302, R304–R307: a dirty-page log's START is staged for a free log with a sound window, its FLIP and STOP for a running
log, and otherwise refused with reason 14. An export wants a quiesced migratable slice and an offer that passes its checks,
advances the export serial, writes the package and stages the slice's end; an offer is made for a slice that is NONE; a
package that fails its checks leaves the slice NONE, one that passes stages its placement.
Model's choices it rests on: notes/assumptions/5.md, notes/assumptions/16.md, notes/assumptions/53.md, notes/assumptions/91.md. -/
def Obligations.LogsAndMigration : Prop :=
  ∀ (s : State) (n : Nat) (c : Ctx), let e := c.entry
    let k := bitsAt (eParam e) 0 7
    let x := getSlice s k
    let ok := slicesServed s = true
    let log := tfind x.logs (bitsAt (eParam e) 10 2)
    (∀ y ∈ [(0, Instr.dirtyLogStart n), (1, .dirtyLogFlip n), (2, .dirtyLogStop n)], AdminDue s n 0x87 c →
      bitsAt (eParam e) 12 2 = y.1 →
      let fits := if y.1 = 0 then log = none ∧ logBad (startLog e) = false else log ≠ none
      (x.st = .none → exec y.2 s = .next (refusedWith s n c 0x0104 1)) ∧
      (x.st ≠ .none → ¬ fits → exec y.2 s = .next (refusedWith s n c 0x0104 14)) ∧
      (x.st ≠ .none → fits → exec y.2 s = .next (stagedCtx s n c))) ∧
    (AdminDue s n 0x85 c →
      (¬ ok → exec (.sliceExport n) s = .next (refusedWith s n c 0x0104 8)) ∧
      (ok → k = 0 → exec (.sliceExport n) s = .next (refusedWith s n c 0x0104 1)) ∧
      (ok → k ≠ 0 → x.change ≠ none → exec (.sliceExport n) s = .next s) ∧
      (ok → k ≠ 0 → x.change = none → x.st ≠ .quiesced → exec (.sliceExport n) s = .next (refusedWith s n c 0x0104 1)) ∧
      (ok → k ≠ 0 → x.change = none → x.st = .quiesced → x.cfg.migratable = false →
        exec (.sliceExport n) s = .next (refusedWith s n c 0x0104 9)) ∧
      (ok → k ≠ 0 → x.change = none → x.st = .quiesced → x.cfg.migratable = true →
        sourceAwaited s n c (.sliceExport n) ∧
        (c.srcFail = false → eLen e ≤ c.src.length → noPurlin s = false →
          let r := offerReason s (c.src.take 9084)
          (r = 16 → exec (.sliceExport n) s = .next (refusedWith s n c 0x0402 16)) ∧
          (r = 15 → exec (.sliceExport n) s = .next (refusedWith s n c 0x0401 15)) ∧
          (r = 0 → packageLen s k ≤ eCap e → deviceSigns s = some 0 → ∃ t b,
            exec (.sliceExport n) s = .next t ∧ .hostWrite 0 none (eDst e) b ∈ t.out ∧
            sub b 8 16 = padTo 16 x.identity ∧ leAt b 0x18 8 = (x.exportSerial + 1) % 2 ^ 64 ∧
            (getSlice t k).exportSerial = x.exportSerial + 1 ∧
            (getSlice t k).change = some (changeBy .exporting true n) ∧
            getCtx t n = some { c with
              done := 1
              result := some { inlined (leBytes 8 (x.exportSerial + 1) ++ leBytes 4 (packageLen s k)) with
                len := packageLen s k } })))) ∧
    (AdminDue s n 0x86 c → bitsAt (eParam e) 8 3 = 0 →
      (¬ ok → exec (.sliceImportOffer n) s = .next (refusedWith s n c 0x0104 8)) ∧
      (ok → k = 0 ∨ x.st ≠ .none → exec (.sliceImportOffer n) s = .next (refusedWith s n c 0x0104 1)) ∧
      (ok → k ≠ 0 → x.st = .none → noPurlin s = true →
        exec (.sliceImportOffer n) s = .next (ends s n c (failed 0x0103))) ∧
      (ok → k ≠ 0 → x.st = .none → noPurlin s = false → deviceSigns s = some 0 → ∃ t b o,
        exec (.sliceImportOffer n) s = .next t ∧ .hostWrite 0 none (eDst e) b ∈ t.out ∧
        (getSlice t k).offer = some o ∧ sub b 8 16 = o.nonce ∧ (getSlice t k).st = .none ∧
        getCtx t n = some { c with adminDone := some { inlined (leBytes 4 9084) with len := 9084 } })) ∧
    (AdminDue s n 0x86 c → bitsAt (eParam e) 8 3 = 1 →
      (¬ ok → exec (.sliceImport n) s = .next (refusedWith s n c 0x0104 8)) ∧
      (ok → k = 0 ∨ x.st ≠ .none → exec (.sliceImport n) s = .next (refusedWith s n c 0x0104 1)) ∧
      (ok → k ≠ 0 → x.st = .none → sourceAwaited s n c (.sliceImport n) ∧
        (c.srcFail = false → eLen e ≤ c.src.length → noPurlin s = false →
          let r := packageReason s k c.src
          (r ≠ 0 → x.change = none → exec (.sliceImport n) s =
            .next (refusedWith (event s Reg.SLC_EVT_IMPORT_REFUSED) n c (if r = 16 then 0x0402 else 0x0401) r)) ∧
          (r = 0 → exec (.sliceImport n) s = .next (stagedCtx (setSlice s k { x with
            st := .changing, change := some (changeBy .importing false n) }) n c)))))

/-! ### Functions, resets and the host link -/
namespace Sys2Proof.Claims
open Sys2Proof Sys2Proof.Machine

/-- A reset that no admin command asked for: the slice is squashed, and may end DORMANT (R287, R300, R301). -/
def resetChange (byFlr toDormant : Bool) : StagedChange :=
  { kind := .reset, squash := true, ctx := none, committed := none, byFault := false, byFlr := byFlr
    toDormant := toDormant }

/-- No change of the slice runs or is staged. -/
def Quiet (x : Slice) : Prop := x.change = none ∧ x.stagedCfg = none ∧ x.resumeStaged = none

end Sys2Proof.Claims

open Sys2Proof Sys2Proof.Machine Sys2Proof.Claims

/-- R27, R81, R274, R287, R298–R301: in a kerf a committed change of a slice ends once its contexts are free, a quiesce with its queues
HELD, a reset or a destruction after its completions and the read behind its last write; 100 ms after an FLR what holds it
is abandoned. A function-level reset stages the slice's reset, a VF Enable clear one that ends DORMANT for each function
above its number, and a VF Enable set enables the functions up to its number. -/
def Sys2Proof.Claims.SlicesEndTheirChanges : Prop :=
  (∀ (s : State) (k : Nat), s.tick.span = true → exec (.sliceChangeComplete k) s = .next s) ∧
  (∀ (s : State) (k : Nat), s.tick.span = false → 0 < s.tick.count → let x := getSlice s k
    (x.change = none → exec (.sliceChangeComplete k) s = .next s) ∧
    (∀ c, x.change = some c → c.committed = none ∨ noCtx s k = false ∨ c.kind = .importing →
      exec (.sliceChangeComplete k) s = .next s) ∧
    (∀ c, x.change = some c → c.committed ≠ none → noCtx s k = true → c.kind = .quiesce →
      ∃ t, exec (.sliceChangeComplete k) s = .next t ∧
        getSlice t k = { x with st := .quiesced, change := none
                                cause := if x.quiesceSources = [] then .command else .fault } ∧
        (∀ q, q < x.cfg.pairs → getQueue t k q =
          if (getQueue s k q).st = .enabled then { getQueue s k q with st := .held } else getQueue s k q) ∧
        (∀ n d, c.ctx = some n → getCtx s n = some d → getCtx t n = some { d with adminDone := some (failed 0) }) ∧
        t = { s with slices := t.slices, queues := t.queues, ctxs := t.ctxs }) ∧
    (∀ c, x.change = some c → c.committed ≠ none → noCtx s k = true → c.kind ≠ .quiesce → c.kind ≠ .importing →
      (noCompl s k = false → exec (.sliceChangeComplete k) s = .next s) ∧
      (noCompl s k = true → x.unacked = 0 → exec (.sliceChangeComplete k) s =
        .next (emit (setSlice s k { x with unacked := 1 }) (.hostRead k none 0 0))) ∧
      (noCompl s k = true → x.unacked = 1 → exec (.sliceChangeComplete k) s = .next s) ∧
      (noCompl s k = true → 2 ≤ x.unacked → ∃ t, exec (.sliceChangeComplete k) s = .next t ∧
        (getSlice t k).change = none ∧ flag t Reg.SLC_EVT_RESET_DONE = true ∧
        (c.kind = .reset → (getSlice t k).st = .active ∨ (getSlice t k).st = .dormant) ∧
        (c.kind = .reset → c.toDormant = true → (getSlice t k).st = .dormant) ∧
        (c.kind ≠ .reset → getSlice t k = { Slice.none with fnEn := x.fnEn, busOff := x.busOff }) ∧
        (c.byFlr = true → flag t Reg.SLC_EVT_FLR = true) ∧ t.mem = s.mem ∧ t.posts = s.posts)) ∧
    (∀ c, x.change = some c →
      (¬ (c.byFlr = true ∧ c.kind = .reset ∧ c.committed ≠ none) → exec (.flrTimeout k) s = .next s) ∧
      (c.byFlr = true → c.kind = .reset → c.committed ≠ none → ∃ t, exec (.flrTimeout k) s = .next t ∧
        getSlice t k = { x with unacked := 2 } ∧
        t.compls = s.compls.filter (fun e => !(e.slice == k && e.queue != adminQ)) ∧
        t = { s with slices := t.slices, compls := t.compls, ctxs := t.ctxs, regs := t.regs }))) ∧
  (∀ (s : State) (k : Nat), let x := getSlice s k
    (k = 0 ∨ 127 < k ∨ s.faults.safe = true → exec (.vfFlr k) s = .next s) ∧
    (1 ≤ k → k ≤ 127 → s.faults.safe = false → Quiet x → x.st ≠ .none → ∃ t, exec (.vfFlr k) s = .next t ∧
      getSlice t k = { x with busOff := true, change := some (resetChange true false) } ∧
      getF t Reg.HLK_RST_VF_FLR = min (getF s Reg.HLK_RST_VF_FLR + 1) 65535 ∧
      t = { s with slices := t.slices, regs := t.regs, msixTab := t.msixTab, msixPba := t.msixPba })) ∧
  (∀ (s : State) (n : Nat), ∃ t, exec (.vfEnableSet n) s = .next t ∧
    (∀ k, getSlice t k = if 1 ≤ k ∧ k ≤ n ∧ k < 128 then { getSlice s k with fnEn := true } else getSlice s k) ∧
    t = { s with slices := t.slices }) ∧
  (∀ (s : State) (n : Nat),
    (s.faults.safe = true → exec (.vfEnableClear n) s = .next s) ∧
    (s.faults.safe = false → ∃ t, exec (.vfEnableClear n) s = .next t ∧
      (∀ k, k = 0 ∨ k ≤ n ∨ 128 ≤ k ∨ (getSlice s k).fnEn = false → getSlice t k = getSlice s k) ∧
      (∀ k, n < k → 1 ≤ k → k < 128 → (getSlice s k).fnEn = true → Quiet (getSlice s k) →
        getSlice t k = { getSlice s k with
          fnEn := false, busOff := true
          change := if (getSlice s k).st = .none then none else some (resetChange false true) })))

/-- R453, R462: a PF FLR and a hot reset put every stream and session away, take slice 0's queues to DISABLED and stand in
HLK_RST; a function in D3hot makes no access until it returns to D0. -/
def Sys2Proof.Claims.FunctionPowerAndResets : Prop :=
  (∀ s : State, (s.boot.held = true ∨ s.faults.safe = true → exec .pfFlr s = .next s) ∧
    (s.boot.held = false → s.faults.safe = false → ∃ t, exec .pfFlr s = .next t ∧ getF t Reg.HLK_RST_CAUSE = 6 ∧
      t.link.sessions = [] ∧ t.link.secure = [] ∧ t.link.ideKeys = [] ∧ t.link.pfFlr = true ∧
      getF t Reg.HLK_SPDM_SESSIONS = 0 ∧ (∀ f ∈ t.fetched, ¬ (f.slice = 0 ∧ f.queue = adminQ)) ∧
      ((getQueue t 0 adminQ).st = .disabled ∨ (getQueue t 0 adminQ).st = .disabling) ∧ t.mem = s.mem ∧
      t.posts = s.posts)) ∧
  (∀ (s : State) (down : Bool), (s.boot.held = true → exec (.hotReset down) s = .next s) ∧
    (s.boot.held = false → ∃ t, exec (.hotReset down) s = .next t ∧
      getF t Reg.HLK_RST_CAUSE = (if down then 5 else 4) ∧ flag t Reg.HLK_EVT_HOT_RESET = true ∧
      flag t Reg.HLK_EVT_LINK = true ∧ flag t Reg.HLK_LINK_UP = false ∧ t.link.down = true ∧ t.compls = [] ∧
      t.link.sessions = [] ∧ t.link.secure = [] ∧ t.link.ideKeys = [] ∧ t.mem = s.mem ∧ t.posts = s.posts)) ∧
  (∀ (s : State) (k : Nat), k ≤ 127 → exec (.d3hot k) s = .next (setSlice s k { getSlice s k with busOff := true })) ∧
  (∀ (s : State) (k : Nat), k ≤ 127 → s.boot.held = false → ∃ t, exec (.returnToD0 k) s = .next t ∧
    getSlice t k = { getSlice s k with busOff := false } ∧
    t = { s with slices := t.slices, queues := t.queues, out := t.out, tick := { s.tick with inUsed := t.tick.inUsed } })

/-- R456–R460: training takes speed and width within the caps and shows the data link slots they give; RETRAIN asks the link
for the caps written; an ATS invalidation is answered once the slice's reads have come; a stream that fails its integrity
check becomes insecure and fires HLK_IDE; a poisoned write from the host is counted and dropped. -/
def Sys2Proof.Claims.HostLink : Prop :=
  (∀ (s : State) (sp w : Nat) (flit : Bool), let v := min sp (getF s Reg.HLK_CTRL_MAXSPEED)
    let x := min w (getF s Reg.HLK_CTRL_MAXWIDTH)
    (s.boot.held = true ∨ x = 1 → exec (.linkTraining sp w flit) s = .next s) ∧
    (s.boot.held = false → x ≠ 1 → ∃ t, exec (.linkTraining sp w flit) s = .next t ∧ getF t Reg.HLK_LINK_SPEED = v ∧
      getF t Reg.HLK_LINK_WIDTH = x ∧ flag t Reg.HLK_LINK_FLIT = flit ∧ flag t Reg.HLK_LINK_UP = true ∧
      getF t Reg.SHT_LINK_SLOTS = 2048 * (if x = 0 then 1 else if x = 2 then 4 else if x = 3 then 8 else 16) / 16 /
        2 ^ (5 - min v 5) ∧
      flag t Reg.HLK_EVT_LINK = true ∧ t.link = { s.link with trained := true, down := false } ∧
      t = { s with regs := t.regs, link := t.link })) ∧
  (∀ (s : State) (v : Word), (s.faults.safe = true ∨ s.boot.held = true → exec (.retrain v) s = .next s) ∧
    (s.faults.safe = false → s.boot.held = false → ∃ t, exec (.retrain v) s = .next t ∧
      getF t Reg.HLK_CTRL_MAXSPEED = min (getBits v 0 3) 5 ∧
      getF t Reg.HLK_CTRL_MAXWIDTH = (if getBits v 4 3 ∈ [0, 2, 3, 4] then getBits v 4 3 else getF s Reg.HLK_CTRL_MAXWIDTH) ∧
      t.out = .link 1 [getF t Reg.HLK_CTRL_MAXSPEED, getF t Reg.HLK_CTRL_MAXWIDTH] :: s.out ∧
      t = { s with regs := t.regs, out := t.out })) ∧
  (∀ (s : State) (k : Nat), s.boot.held = false → s.link.atsWait = [] →
    (readsOut s k = false → exec (.atsInvalidation k) s = .next (emit s (.link 2 [k]))) ∧
    (readsOut s k = true → exec (.atsInvalidation k) s =
      .next (setLink s { s.link with atsWait := [(k, s.tick.count)] }))) ∧
  (∀ (s : State) (k : Nat), (k ∉ s.link.secure → exec (.ideIntegrityFailure k) s = .next s) ∧
    (k ∈ s.link.secure → k < 256 → ∃ t f, exec (.ideIntegrityFailure k) s = .next t ∧ k ∉ t.link.secure ∧
      (∀ j, j ≠ k → (j ∈ t.link.secure ↔ j ∈ s.link.secure)) ∧ (∀ e ∈ t.link.ideKeys, e.1 ≠ k) ∧
      getF t Reg.HLK_IDE_CNT_N = min (getF s Reg.HLK_IDE_CNT_N + 1) 65535 ∧ getF t Reg.HLK_IDE_FAIL_STREAM = k ∧
      t.faults.fired = s.faults.fired ++ [f] ∧ f.src = srcHlkIde ∧ f.slice = (if k < 128 then some k else none) ∧
      t = { s with regs := t.regs, link := t.link, faults := t.faults, freeCtr := t.freeCtr })) ∧
  (∀ s : State, s.boot.held = false → ∃ t, exec .inboundPoisonedWrite s = .next t ∧
    getF t Reg.HLK_AER_CNT_CORR = min (getF s Reg.HLK_AER_CNT_CORR + 1) 65535 ∧ t = { s with regs := t.regs })

/-- R457, R458, R511: what a host read brings reaches what asked for it: the source of a command, in order and no more than
was asked; a read that fails or times out, or whose translation fails, ends that source and is logged as uncorrectable. -/
def Sys2Proof.Claims.HostReadsAreAnswered : Prop :=
  (∀ (s : State) (n : Nat) (c : Ctx), s.boot.held = false → s.faults.safe = false → getCtx s n = some c →
    c.phase = .running → c.srcFail = false → c.src.length < c.asked →
    (∀ b : Bytes, exec (.hostReadCompletion (.ctx n) (.data b)) s =
      .next (setCtx s n { c with src := c.src ++ b.take (c.asked - c.src.length) })) ∧
    (∃ t f, exec (.hostReadCompletion (.ctx n) .error) s = .next t ∧ getCtx t n = some { c with srcFail := true } ∧
      t.faults.fired = s.faults.fired ++ [f] ∧ f.src = srcHlkAer ∧
      getF t Reg.HLK_AER_CNT_UNCORR = min (getF s Reg.HLK_AER_CNT_UNCORR + 1) 65535 ∧
      t = { s with regs := t.regs, ctxs := t.ctxs, faults := t.faults, freeCtr := t.freeCtr })) ∧
  (∀ (s : State) (d : ReadDest), exec (.completionTimeout d) s = exec (.hostReadCompletion d .error) s ∧
    exec (.atsTranslationCompletion d false) s = exec (.hostReadCompletion d .error) s ∧
    exec (.atsTranslationCompletion d true) s = .next s ∧
    (s.boot.held = true ∨ s.faults.safe = true → exec (.completionTimeout d) s = .next s))

/-- R81, R274, R287, R298–R301, R453, R462: the ends of a slice's changes, and the resets and power states of its function.
Model's choices it rests on: notes/assumptions/14.md, notes/assumptions/17.md, notes/assumptions/46.md, notes/assumptions/62.md. -/
def Obligations.SliceChangesAndFunctionPower : Prop := Sys2Proof.Claims.SlicesEndTheirChanges ∧ Sys2Proof.Claims.FunctionPowerAndResets

/-- R456–R460, R511: the events of the host link, and the answers to host reads.
Model's choices it rests on: notes/assumptions/26.md, notes/assumptions/62.md, notes/assumptions/69.md. -/
def Obligations.HostLinkAndReads : Prop := Sys2Proof.Claims.HostLink ∧ Sys2Proof.Claims.HostReadsAreAnswered

/-! ### The shuttle's firmware channels -/
namespace Sys2Proof.Claims
open Sys2Proof Sys2Proof.Machine

/-- The channel's state once its descriptor has been read (R277, R278). -/
def fetchedChan (c : Chan) (d : Bytes) : Chan :=
  { c with desc := d, read := 0, written := 0, buf := [], fail := none, dropped := none, done := none, barrier := none }

/-- The status that a read-back through the link gives a descriptor (R281). -/
def linkStatus : ReadResult → Nat
  | .data _ => 0
  | .error => 5

/-- The channel moves a descriptor: it runs, the tick is in its span, the descriptor has not ended, no piece has failed and no
barrier waits. -/
def Moves (s : State) (f : Nat) : Prop :=
  chanRuns s f = true ∧ s.tick.span = true ∧ (getChan s f).desc ≠ [] ∧ (getChan s f).done = none ∧ (getChan s f).fail = none ∧
    (getChan s f).stop = false ∧ (getChan s f).barrier = none

/-- R279, R284: a write of SHT_CH_NEXT starts a channel that is not running, or is ignored with START_BUSY; a halted bent
takes neither. A stop ends the descriptor at what has been read and written, or at once when that is written. -/
def ChannelsStartAndStop : Prop :=
  ∀ (s : State) (f : Nat), f < 64 → s.boot.held = false → s.faults.safe = false → let c := getChan s f
    (shuttleHalted s (chanBent f) = true → (∀ v, exec (.shtChNextWrite f v) s = .next s) ∧ exec (.shtChStop f) s = .next s) ∧
    (shuttleHalted s (chanBent f) = false →
      (∀ v, flag s Reg.SHT_STAT_READY = false ∨ chanState s f = 1 →
        exec (.shtChNextWrite f v) s = .next (setFlag s Reg.SHT_EVT_START_BUSY true)) ∧
      (∀ v, flag s Reg.SHT_STAT_READY = true → chanState s f ≠ 1 → ∃ t, exec (.shtChNextWrite f v) s = .next t ∧
        getChan t f = { Chan.zero with addr := v.toNat / 64 * 64, irq := c.irq } ∧ chanState t f = 1 ∧
        t = { s with chans := t.chans, regs := t.regs }) ∧
      (chanState s f ≠ 1 → exec (.shtChStop f) s = .next s) ∧
      (chanState s f = 1 → c.desc = [] → exec (.shtChStop f) s = .next (setChan s f { c with stop := true })) ∧
      (chanState s f = 1 → c.desc ≠ [] → c.done = none → c.fail = none → dFill c.desc = false → c.written ≠ dTotal c.desc →
        (c.written ≠ c.read → exec (.shtChStop f) s = .next (setChan s f { c with stop := true })) ∧
        (c.written = c.read → ∃ t, exec (.shtChStop f) s = .next t ∧
          getChan t f = { c with stop := true, done := some 7, buf := [] } ∧
          getF t (chanFld f Reg.SHT_CH_ERR_OFF) = c.written % 2 ^ 25 ∧ t = { s with chans := t.chans, regs := t.regs })))

/-- R277, R278, R280: the fetch of a descriptor. -/
def DescriptorsAreFetched : Prop :=
  ∀ (s : State) (f : Nat), chanRuns s f = true → (getChan s f).desc = [] →
    let c := getChan s f
    let d := memRead s (memAddr (chanInit f) c.addr) 64
    let good := gateCheck s s.gates.live (chanInit f) c.addr .read = .allow ∧ descHome (chanInit f) c.addr = true
    let wait := if dBarrier d && bentDirty s (chanBent f) then some (hostWrites s (chanBent f)) else none
    (¬ good → ∃ t, exec (.descriptorFetch f) s = .next t ∧ chanState t f = 2 ∧ getF t (chanFld f Reg.SHT_CH_STAT_LAST) = 10 ∧
      getChan t f = c ∧ t.mem = s.mem) ∧
    (good → dValid d = false ∨ dDone d = true → exec (.descriptorFetch f) s = .next (setChanState s f 0)) ∧
    (good → dValid d = true → dDone d = false → dBad d (chanPriv f) = true → ∃ t, exec (.descriptorFetch f) s = .next t ∧
      getChan t f = { fetchedChan c d with done := some 1, barrier := wait } ∧
      t = { s with chans := t.chans, regs := t.regs }) ∧
    (good → dValid d = true → dDone d = false → dBad d (chanPriv f) = false →
      (wait ≠ none → c.stop = false → ∃ t, exec (.descriptorFetch f) s = .next t ∧
        getChan t f = { fetchedChan c d with barrier := wait } ∧ t.out = .hostRead 0 none 0 0 :: s.out ∧
        t = { s with chans := t.chans, out := t.out }) ∧
      (wait = none → c.stop = false →
        exec (.descriptorFetch f) s = .next (setChan s f (fetchedChan c d))) ∧
      (c.stop = true → ∃ t, exec (.descriptorFetch f) s = .next t ∧ (getChan t f).done = some 7 ∧ (getChan t f).desc = d ∧
        t.mem = s.mem))

/-- R276, R281, R282: a piece reads into the channel's bytes, or writes them, at the addresses its descriptor gives; a
write ends the descriptor with its last byte, clears the tags of the granules it touches, and stops it with GATE_WRITE
where its gate refuses. -/
def PiecesMoveBytes : Prop :=
  ∀ (s : State) (f : Nat) (r : ReadResult), Moves s f →
    let c := getChan s f
    let d := c.desc
    let a := dSrc d c.read
    let n := pieceLen d c.read a
    let b := dDst d c.written
    let m := pieceLen d c.written b
    (engineFree s (chanBent f) = true → dFill d = false → c.written ≤ c.read → c.read < dTotal d →
      c.read - c.written + n ≤ 16384 →
      (dSrcHost d = false → s.gates.basting = [] → gateOf (chanInit f) a ≤ 10 →
        gateCheck s s.gates.live (chanInit f) a .read = .allow → ∃ t, exec (.shuttlePiece f false r) s = .next t ∧
          getChan t f = { c with read := c.read + n, buf := c.buf ++ memRead s (memAddr (chanInit f) a) n } ∧
          t = { s with chans := t.chans, pieces := t.pieces }) ∧
      (dSrcHost d = true → linkCheck s 0 a .read = .allow → ∀ x, r = .data x → ∃ t, exec (.shuttlePiece f false r) s = .next t ∧
          getChan t f = { c with read := c.read + n, buf := c.buf ++ padTo n x } ∧
          t.out = .hostRead 0 (dPasid d) a n :: s.out ∧ t = { s with chans := t.chans, pieces := t.pieces, out := t.out })) ∧
    (engineFree s (8 + chanBent f) = true → c.written < dTotal d → 0 < m → m ≤ 64 → (dFill d = false → m ≤ c.buf.length) →
      let x := if dFill d then fillBytes d c.written m else c.buf.take m
      (dDstHost d = false → gateOf (chanInit f) b ≤ 10 → gateCheck s s.gates.live (chanInit f) b .write = .allow →
        ∃ t, exec (.shuttlePiece f true r) s = .next t ∧
          (∀ i, i < m → memByte t (memAddr (chanInit f) b + i) = x.getD i 0) ∧
          (∀ p, p < memAddr (chanInit f) b ∨ memAddr (chanInit f) b + m ≤ p → memByte t p = memByte s p) ∧
          (∀ p, memAddr (chanInit f) b ≤ p → p < memAddr (chanInit f) b + m → tget false t.tags (p / 16) = false) ∧
          (getChan t f).written = c.written + m ∧ (getChan t f).desc = d ∧
          (c.written + m ≠ dTotal d → (getChan t f).done = none ∧ (getChan t f).buf = c.buf.drop m) ∧
          (c.written + m = dTotal d → (getChan t f).done = if dReadback d then none else some 0) ∧
          t = { s with mem := t.mem, tags := t.tags, chans := t.chans, regs := t.regs, pieces := t.pieces }) ∧
      (dDstHost d = false → gateOf (chanInit f) b ≤ 10 → gateCheck s s.gates.live (chanInit f) b .write ≠ .allow →
        ∃ t, exec (.shuttlePiece f true r) s = .next t ∧ (getChan t f).done = some 3 ∧ (getChan t f).written = c.written ∧
          getF t (chanFld f Reg.SHT_CH_ERR_OFF) = c.written % 2 ^ 25 ∧ t.mem = s.mem ∧ t.tags = s.tags) ∧
      (dDstHost d = true → linkCheck s 0 b .write = .allow → (getSlice s 0).logs = [] → ∀ y, r = .data y →
        ∃ t, exec (.shuttlePiece f true r) s = .next t ∧ t.out = .hostWrite 0 (dPasid d) b x :: s.out ∧
          hostWrites t (chanBent f) = hostWrites s (chanBent f) + 1 ∧ (getChan t f).written = c.written + m ∧ t.mem = s.mem))

/-- R278, R281, R282: a descriptor with READBACK ends with what its read-back finds; an ended descriptor is written back
under its gate, counted, and followed by the next of its chain, or by IDLE or STOPPED. -/
def DescriptorsEnd : Prop :=
  (∀ (s : State) (f : Nat) (r : ReadResult) (same : Bool), chanRuns s f = true → (getChan s f).desc ≠ [] →
    (getChan s f).done = none → dReadback (getChan s f).desc = true → (getChan s f).written = dTotal (getChan s f).desc →
    let c := getChan s f
    (dDstHost c.desc = true → ∃ t, exec (.readback f r same) s = .next t ∧
      getChan t f = { c with done := some (linkStatus r), buf := [] } ∧ t.mem = s.mem ∧ t.posts = s.posts) ∧
    (dDstHost c.desc = false → ∀ o, c.dropped = some o → ∃ t, exec (.readback f r same) s = .next t ∧
      getChan t f = { c with done := some 6, buf := [] } ∧ getF t (chanFld f Reg.SHT_CH_ERR_OFF) = o % 2 ^ 25 ∧
      t = { s with chans := t.chans, regs := t.regs }) ∧
    (dDstHost c.desc = false → c.dropped = none → ∃ t, exec (.readback f r same) s = .next t ∧
      getChan t f = { c with done := some (if same then 0 else 6), buf := [] } ∧
      (same = true → t = { s with chans := t.chans, regs := t.regs }) ∧
      (same = false → fires s t srcShtReadback 0 ∧
        t = { s with chans := t.chans, regs := t.regs, faults := t.faults, freeCtr := t.freeCtr }))) ∧
  (∀ (s : State) (f st : Nat), chanRuns s f = true → (getChan s f).done = some st →
    let c := getChan s f
    let a := memAddr (chanInit f) c.addr
    (gateCheck s s.gates.live (chanInit f) c.addr .write = .allow → ∃ t, exec (.descriptorWriteBack f) s = .next t ∧
      memRead t a 4 = backWord c.desc st ∧ (∀ p, p < a ∨ a + 4 ≤ p → memByte t p = memByte s p) ∧
      getF t (chanFld f Reg.SHT_CH_STAT_LAST) = st % 16 ∧
      getF t (chanFld f Reg.SHT_CH_STAT_DONE_CNT) = (getF s (chanFld f Reg.SHT_CH_STAT_DONE_CNT) + 1) % 65536 ∧
      chanState t f = (if st ≠ 0 then 2 else if dChain c.desc then 1 else 0) ∧
      getChan t f = { Chan.zero with
        addr := if st = 0 ∧ dChain c.desc = true then dNext c.desc else c.addr, irq := c.irq || dIrq c.desc, stop := c.stop && st == 0 && dChain c.desc } ∧
      t = { s with mem := t.mem, tags := t.tags, regs := t.regs, chans := t.chans }) ∧
    (gateCheck s s.gates.live (chanInit f) c.addr .write ≠ .allow → ∃ t, exec (.descriptorWriteBack f) s = .next t ∧
      chanState t f = 2 ∧ getF t (chanFld f Reg.SHT_CH_STAT_LAST) = st % 16 ∧ t.mem = s.mem))

/-- R77, R458: a rejected host write of a plan channel is a link error, and its command writes no destination byte any more
(the operand from 64 on names its context: notes/assumptions/68.md). -/
def PlanWritesFail : Prop :=
  (∀ (s : State) (n : Nat) (wr : Bool) (r : ReadResult), ¬ (wr = true ∧ r = .error) →
    exec (.shuttlePiece (64 + n) wr r) s = .next s) ∧
  (∀ (s : State) (n : Nat), s.boot.held = false → s.faults.safe = false → ∃ t,
    exec (.shuttlePiece (64 + n) true .error) s = .next t ∧ fires s t srcHlkAer 0 ∧
    getF t Reg.HLK_AER_CNT_UNCORR = min (getF s Reg.HLK_AER_CNT_UNCORR + 1) 65535 ∧
    (∀ c, getCtx s n = some c → n < 4032 → c.dstStop = false → c.drained ≠ 0 → c.phase ≠ .written →
      getCtx t n = some (stopDst { c with drained := c.drainFrom, dstStop := true } 0x0106 s.tick.count) ∧
      (getReg t Reg.HQ_HOSTERR).toNat = min ((getReg s Reg.HQ_HOSTERR).toNat + 1) 0xFFFFFFFF))

end Sys2Proof.Claims

open Sys2Proof Sys2Proof.Machine Sys2Proof.Claims

/-- R77, R276–R285, R458: the rows of the firmware channels: started and stopped, their descriptors fetched, moved piece by
piece, read back and written back; and the rejected write of a plan channel.
Model's choices it rests on: notes/assumptions/24.md, notes/assumptions/61.md, notes/assumptions/68.md. -/
def Obligations.FirmwareChannels : Prop :=
  ChannelsStartAndStop ∧ DescriptorsAreFetched ∧ PiecesMoveBytes ∧ DescriptorsEnd ∧ PlanWritesFail

/-! ### The gates, the register space, the fault collector -/
namespace Sys2Proof.Claims
open Sys2Proof Sys2Proof.Machine

/-- The initiator has no write before a gate, so an access is judged at once (R362). -/
def NoPosted (s : State) : Prop := s.gates.basting = []

/-- Gate 11 lets an initiator's access to a register through. -/
def Through (s : State) (init key : Nat) (k : Acc) : Prop :=
  s.boot.held = false ∧ NoPosted s ∧ key < 2 ^ 24 ∧ gateCheck s s.gates.live init (regAddr key) k = .allow

/-- Pages whose words take a write by their access codes alone. -/
def plainPages : List Nat := [0x003, 0x006, 0x012, 0x020, 0x021, 0x023, 0x024]

/-- What a write leaves in a word: RW bits as written, W1C bits cleared where written with 1 (R486). -/
def written (r : RegRow) (old v : Word) : Word :=
  ((old &&& ~~~(BitVec.ofNat 32 r.rw)) ||| (v &&& BitVec.ofNat 32 r.rw)) &&& ~~~(v &&& BitVec.ofNat 32 r.w1c)

/-- Guarded words whose change has nothing but its staging at the write. -/
def guardedKeys : List Nat := [Reg.TIK_CTRL, Reg.FCL_RESP, Reg.THM_ARM, Reg.THM_ERASE, Reg.OFC_CTRL]

/-- R360, R362–R364: the oldest posted write of an initiator at a gate is performed under the tables of its own epoch, or
dropped with a notice; one of an epoch whose tables the gate does not hold fires GTE_INTEGRITY. -/
def PostedWrites : Prop :=
  ∀ (s : State) (init g : Nat), s.boot.held = false →
    (s.gates.basting.find? (ofGate init g) = none → exec (.bastingApply init g) s = .next s) ∧
    (∀ p, s.gates.basting.find? (ofGate init g) = some p → epochKnown s p.epoch = false → ∃ t,
      exec (.bastingApply init g) s = .next t ∧ fires s t srcGteInteg 0 ∧
      t = { s with faults := t.faults, freeCtr := t.freeCtr, gates := { s.gates with basting := s.gates.basting.erase p } }) ∧
    (∀ p, s.gates.basting.find? (ofGate init g) = some p → epochKnown s p.epoch = true → gateOf p.init p.addr ≤ 10 →
      let a := memAddr p.init p.addr
      (gateCheck s (tablesAt s p.epoch) p.init p.addr .write = .allow → ∃ t, exec (.bastingApply init g) s = .next t ∧
        (∀ i, i < p.bytes.length → memByte t (a + i) = p.bytes.getD i 0) ∧
        (∀ q, q < a ∨ a + p.bytes.length ≤ q → memByte t q = memByte s q) ∧
        t = { s with mem := t.mem, tags := t.tags, gates := { s.gates with basting := s.gates.basting.erase p } }) ∧
      (gateCheck s (tablesAt s p.epoch) p.init p.addr .write = .deny → ∃ t f, exec (.bastingApply init g) s = .next t ∧
        t.faults.fired = s.faults.fired ++ [f] ∧ f.src = srcGteDeny + gateOf p.init p.addr ∧ f.acc = 4 ∧
        f.init = p.init ∧ f.addr = p.addr / 64 * 64 ∧ f.imprecise = true ∧
        getF t Reg.GTE_NOTICE_INIT = p.init % 512 ∧ getF t Reg.GTE_NOTICE_GATE = gateOf p.init p.addr ∧
        getF t Reg.GTE_NOTICE_EPOCH = p.epoch % 65536 ∧
        getReg t Reg.GTE_NOTICE_ADDR = BitVec.ofNat 32 (p.addr / 64 * 64) ∧
        getF t Reg.GTE_NOTICE_CNT_N = min (getF s Reg.GTE_NOTICE_CNT_N + 1) 65535 ∧
        t = { s with regs := t.regs, faults := t.faults, freeCtr := t.freeCtr
                     gates := { s.gates with basting := s.gates.basting.erase p } }))

/-- R359–R361: the shadow is staged whole, or copied from the live tables; the previous tables are held until released. -/
def TablesAreStaged : Prop :=
  (∀ (s : State) (v : Word), (v.getLsbD 0 = false ∨ s.faults.safe = true ∨ s.gates.staged ≠ none →
      exec (.gteCommitWrite v) s = .next s) ∧
    (v.getLsbD 0 = true → s.faults.safe = false → s.gates.staged = none → ∃ t, exec (.gteCommitWrite v) s = .next t ∧
      flag t Reg.GTE_STAT_STAGED = true ∧
      t = { s with regs := t.regs, gates := { s.gates with staged := some false } })) ∧
  (∀ (s : State) (v : Word), s.faults.safe = false →
    exec (.gteDiscardWrite v) s = .next { s with gates := { s.gates with shadow := s.gates.live } }) ∧
  (∀ s : State, exec .previousTablesRelease s = .next { s with gates := { s.gates with prev := none } })

/-- R454, R455, R491: a host reaches the register pages by aligned words through slice 0 alone, and its own function's
space while that is enabled. -/
def HostAccesses : Prop :=
  (∀ (s : State) (wr : Bool) (a w : Nat) (v : Word), s.boot.held = false → a < 2 ^ 24 →
    (∀ k, k ≠ 0 → exec (.hostRequest k wr a w v) s = .next s) ∧
    (w = 4 → a % 4 = 0 → exec (.hostRequest 0 wr a w v) s =
      if wr then exec (.registerWrite 352 a v) s else exec (.rcRead 352 a) s) ∧
    (w ≠ 4 ∨ a % 4 ≠ 0 → ∃ t f, exec (.hostRequest 0 wr a w v) s = .next t ∧ t.faults.fired = s.faults.fired ++ [f] ∧
      f.src = srcGteDeny + 11 ∧ f.imprecise = wr ∧ t.mem = s.mem ∧ t.gates = s.gates ∧
      (wr = false → t.out = (if s.faults.safe = true then .readReply 352 a 0#32 else .link 3 [352, a]) :: s.out))) ∧
  (∀ (s : State) (k off w : Nat) (v : Word), s.boot.held = false → k < 128 → off < 2 ^ 20 →
    let x := getSlice s k
    (x.fnEn = false → exec (.hostRequest k true (2 ^ 24 + off) w v) s = .next s ∧
      exec (.hostRequest k false (2 ^ 24 + off) w v) s = .next (emit s (.link 4 [352 + k, fnBase k + off]))) ∧
    (x.fnEn = true → off ≠ 0x9010 → off ≠ 0x9014 → off ≠ 0xA004 → exec (.hostRequest k false (2 ^ 24 + off) w v) s =
      .next (emit s (.readReply (352 + k) (fnBase k + off) (fnWord s k off)))) ∧
    (x.fnEn = true → k ≠ 0 → off = 0xA004 → exec (.hostRequest k false (2 ^ 24 + off) w v) s =
      .next (emit { s with faults := { s.faults with sliceCnt := tput 0 s.faults.sliceCnt k 0 } }
        (.readReply (352 + k) (fnBase k + off) (fnWord s k off)))) ∧
    (x.fnEn = true → w = 4 → msixBase k ≤ off → off < msixBase k + 16 * msixSize k → doorbellAt s k off = none →
      (off - msixBase k) % 16 = 4 ∨ (off - msixBase k) % 16 = 8 →
      exec (.hostRequest k true (2 ^ 24 + off) w v) s = .next (setMsixWord s k (off - msixBase k) v)))

/-- R486, R488: a word written through gate 11 takes its RW bits and loses the W1C bits written with 1, and its page is
marked for PG_CHECK where a configuration bit changed; a write the gate refuses changes no page but the gates' and the
collector's; RECHECK marks its page. -/
def WordsAreWritten : Prop :=
  (∀ (s : State) (init key : Nat) (v : Word), exec (.gwWrite init key v) s = exec (.registerWrite init key v) s) ∧
  (∀ (s : State) (init key : Nat) (v : Word), s.boot.held = true → exec (.registerWrite init key v) s = .next s) ∧
  (∀ (s : State) (init key : Nat) (v : Word) (r : RegRow), Through s init key .write → regRow key = some r →
    r.gw = 0 → key / 0x1000 ∈ plainPages → 0x100 ≤ key % 0x1000 → key % 4 = 0 →
    ∃ t, exec (.registerWrite init key v) s = .next t ∧ getReg t key = written r (getReg s key) v ∧
      getReg t (key / 0x1000 * 0x1000 + 0x18) = getReg s Reg.GTE_EPOCH ∧
      (∀ k, k ≠ key → k ≠ key / 0x1000 * 0x1000 + 0x18 → getReg t k = getReg s k) ∧
      ((getReg s key ^^^ written r (getReg s key) v) &&& BitVec.ofNat 32 (imageMask key) = 0#32 →
        t.tick = s.tick) ∧
      ((getReg s key ^^^ written r (getReg s key) v) &&& BitVec.ofNat 32 (imageMask key) ≠ 0#32 →
        key / 0x1000 ∈ t.tick.recheck) ∧
      t = { s with regs := t.regs, tick := { s.tick with recheck := t.tick.recheck } }) ∧
  (∀ (s : State) (init key : Nat) (v : Word), s.boot.held = false → NoPosted s → key < 2 ^ 24 →
    gateCheck s s.gates.live init (regAddr key) .write = .deny → ∃ t f, exec (.registerWrite init key v) s = .next t ∧
      t.faults.fired = s.faults.fired ++ [f] ∧ f.src = srcGteDeny + 11 ∧ f.acc = 4 ∧ f.imprecise = true ∧
      (∀ k, k / 0x1000 ≠ 0x002 → k / 0x1000 ≠ 0x042 → getReg t k = getReg s k) ∧
      t = { s with regs := t.regs, faults := t.faults, freeCtr := t.freeCtr }) ∧
  (∀ (s : State) (init page : Nat), page ∈ assignedPages → Through s init (page * 0x1000 + 8) .write →
    ∃ t, exec (.recheck init page) s = .next t ∧ page ∈ t.tick.recheck ∧ (∀ p, p ≠ page → (p ∈ t.tick.recheck ↔ p ∈ s.tick.recheck)) ∧
      (∀ k, k ≠ page * 0x1000 + 0x18 → getReg t k = getReg s k) ∧
      t = { s with regs := t.regs, tick := { s.tick with recheck := t.tick.recheck } })

/-- R426, R484, R488: a write of a guarded field that its block accepts changes nothing but stages a change of one entry; it
is refused while another change is staged, and where its block refuses the value. -/
def GuardedWritesAreStaged : Prop :=
  ∀ (s : State) (init key : Nat) (v : Word), Through s init key .write → key ∈ guardedKeys → init ∈ [0, 1, 352] →
    lcyState s ≠ lcyTerminated → lcyState s ≠ lcyDiagnostic →
    let x := v &&& gwMask key
    let sel := gwSelect s key
    x ≠ gwValue s key sel &&& gwMask key →
    (s.ofc.change = none → gwAccepted s key sel x = true → ∃ t c, exec (.gwWrite init key v) s = .next t ∧
      t.ofc.change = some c ∧ c.entries = [⟨1, key / 0x1000, key % 0x1000, x, sel, [], [], [], none⟩] ∧
      c.number = bootCount s * 2 ^ 32 + (s.ofc.count + 1) % 2 ^ 32 ∧ c.staged = s.tick.count ∧
      c.expiry = s.tick.count + 2 ^ getF s Reg.OFC_CTRL_TTL ∧ c.approvals = [] ∧ c.commit = none ∧
      flag t Reg.OFC_STAT_STAGED = true ∧ getReg t key = getReg s key ∧ t.faults = s.faults ∧
      t = { s with regs := t.regs, ofc := t.ofc }) ∧
    (s.ofc.change ≠ none ∨ gwAccepted s key sel x = false → ∃ t, exec (.gwWrite init key v) s = .next t ∧
      getF t Reg.OFC_ERR_INFO_OPCODE = 0xFF ∧
      getF t Reg.OFC_ERR_INFO_REASON = (if s.ofc.change ≠ none then 2 else 4) ∧ getReg t key = getReg s key ∧
      t = { s with regs := t.regs })

/-- R486, R490: a read through gate 11 returns the word and clears its RC bits; the read of a `_LO` word latches the high
half for its initiator, which the read of the `_HI` word returns; a refused read brings its initiator no value, and a host
zero in the safe state (R378). -/
def WordsAreRead : Prop :=
  (∀ (s : State) (init key : Nat) (r : RegRow), Through s init key .read → regRow key = some r →
    key ∉ loKeys → key - 4 ∉ loKeys → key / 0x1000 ≠ 0x026 → key % 4 = 0 → key / 0x1000 ∈ assignedPages →
    0x100 ≤ key % 0x1000 → ∃ t, exec (.rcRead init key) s = .next t ∧
      t.out = .readReply init key (readVal (notePage s key) key) :: s.out ∧
      getReg t key = getReg s key &&& ~~~(BitVec.ofNat 32 r.rc) ∧
      (∀ k, k ≠ key → k ≠ key / 0x1000 * 0x1000 + 0x18 → getReg t k = getReg s k) ∧
      t = { s with regs := t.regs, out := t.out }) ∧
  (∀ (s : State) (init key : Nat), Through s init key .read → key ∈ loKeys → pageReady s (key / 0x1000) = true →
    ∃ t, exec (.loRead init key) s = .next t ∧
      t.out = .readReply init key (readVal (notePage s key) key) :: s.out ∧
      getLatch t init key = BitVec.ofNat 32 ((wideValue (notePage s key) key).getD 0 / 2 ^ 32) ∧
      t = { s with regs := t.regs, out := t.out, latches := t.latches }) ∧
  (∀ (s : State) (init key : Nat), Through s init (key + 4) .read → key ∈ loKeys →
    ∃ t, exec (.rcRead init (key + 4)) s = .next t ∧ t.out = .readReply init (key + 4) (getLatch s init key) :: s.out ∧
      t = { s with regs := t.regs, out := t.out }) ∧
  (∀ (s : State) (init key : Nat), s.boot.held = false → NoPosted s → key < 2 ^ 24 →
    gateCheck s s.gates.live init (regAddr key) .read = .deny → ∃ t f, exec (.rcRead init key) s = .next t ∧
      t.faults.fired = s.faults.fired ++ [f] ∧ f.src = srcGteDeny + 11 ∧ f.imprecise = false ∧
      t.out = (if init < 352 then s.out else
        (if s.faults.safe = true then .readReply init key 0#32 else .link 3 [init, key]) :: s.out) ∧
      t = { s with regs := t.regs, faults := t.faults, freeCtr := t.freeCtr, out := t.out })

/-- R367, R372–R376: a source that fires sets its pending bit and its page's summary bit, counts, latches FIRST where none
stands, and waits with the level that applies for step 1 of the next kerf; a reserved index never fires. A failed key slot retires its whole
key (R158), a failed vault check its chain (R207), a failed known-answer test of the entropy block is a health failure
(R258; its cause code is the model's, notes/assumptions/91.md). -/
def SourcesFire : Prop :=
  ∀ (s : State) (src acc init addr detail cycle : Nat) (imp : Bool) (slice ctx : Option Nat),
    (srcRow src = none → exec (.faultSourceFire src acc init addr detail cycle imp slice ctx .other) s = .next s) ∧
    (∀ r, srcRow src = some r → src ≠ srcFlsInteg → src ≠ srcSilInteg → src ≠ srcVltInteg → src ≠ srcRngHealth →
      let f : Firing :=
        { src := src, acc := acc, init := init, imprecise := imp, addr := addr, slice := slice, unit := srcUnit src
          detail := detail, tick := s.tick.count, thm := s.thmTime, cycle := cycle, ctx := ctx, status := none
          level := appliedLevel s src slice }
      ∃ t, exec (.faultSourceFire src acc init addr detail cycle imp slice ctx .other) s = .next t ∧
        t.faults.fired = s.faults.fired ++ [f] ∧ srcPending t src = true ∧
        (getReg t (r.page * 0x1000 + 0x010)).getLsbD r.bit = true ∧ flag t Reg.FCL_STAT_PEND = true ∧
        getF t Reg.FCL_FIRED_N = min (getF s Reg.FCL_FIRED_N + 1) 0xFFFFFFFF ∧ flag t Reg.FCL_EVT_FIRED = true ∧
        t.faults.first = (match s.faults.first with
          | none => some f
          | some g => some g) ∧
        (s.faults.first ≠ none → flag t Reg.FCL_STAT_OVF = true) ∧
        t.faults.safeDue = (s.faults.safeDue || appliedLevel s src slice == 6) ∧
        t = { s with regs := t.regs, faults := t.faults }) ∧
    (src = srcRngHealth → s.rng.failTick = none → ∃ t, exec (.faultSourceFire src acc init addr detail cycle imp slice ctx .other) s =
      .next t ∧ t.rng.failTick = some s.tick.count ∧ flag t Reg.RNG_STAT_ERR = true ∧ flag t Reg.RNG_STAT_FAILED = true ∧
      flag t Reg.RNG_STAT_READY = false ∧ t.rng.fifo = [] ∧ t.rng.waiting = [] ∧ srcPending t src = true) ∧
    (∀ n, src = srcVltInteg → chainOfPanel s (addr * 16 ^ (detail % 8)) = some n → (getChain s n).st ≠ .none → ∃ t f,
      exec (.faultSourceFire src acc init addr detail cycle imp slice ctx .other) s = .next t ∧
      t.faults.fired = s.faults.fired ++ [f] ∧ f.src = src ∧ f.status = some 0x0303 ∧
      getChain t n = { getChain s n with st := .failed, reload := none, rebase := none } ∧
      getF t Reg.VLT_FAULT_INFO_LEVEL = detail % 8) ∧
    (∀ n, src = srcKstInteg → let a := (getKey s n).extOf.getD n
      (getKey s a).st = .active ∨ (getKey s a).st = .spent → ∃ t f,
      exec (.faultSourceFire src acc init addr detail cycle imp slice ctx (.slot n)) s = .next t ∧
        (getKey t a).st = .retired ∧ (getKey t a).failed = true ∧ (∀ m, m ≠ a → tfind t.keys m = tfind s.keys m) ∧
        getF t Reg.KST_FAULT_INFO_SLOT = n % 2 ^ Reg.KST_FAULT_INFO_SLOT.width ∧
        t.faults.fired = s.faults.fired ++ [f] ∧ f.slice = some (getKey s n).owner ∧
        t = { s with regs := t.regs, faults := t.faults, keys := t.keys })

/-- R372, R377, R379: what the collector's own rows do. -/
def CollectorRows : Prop :=
  (∀ s : State, ∃ t, exec (.fclSelf true) s = .next t ∧ fires s t srcFclSelf 0 ∧ t.faults.safeDue = true ∧
    srcPending t srcFclSelf = true ∧ t = { s with regs := t.regs, faults := t.faults, freeCtr := t.freeCtr }) ∧
  (∀ s : State, ∃ t, exec (.fclSelf false) s = .next t ∧ flag t Reg.FCL_STAT_VOTE_OK = false ∧
    t = { s with regs := t.regs, faults := { s.faults with safeDue := true } }) ∧
  (∀ (s : State) (n : Nat) (v : Word), n < 16 → s.faults.safe = false → ∃ t, exec (.fclPendClear n v) s = .next t ∧
    (∀ src, src ∈ t.faults.clears ↔ src ∈ s.faults.clears ∨
      (src / 32 = n ∧ v.getLsbD (src % 32) = true ∧ srcPending s src = true)) ∧
    t = { s with faults := { s.faults with clears := t.faults.clears } }) ∧
  (∀ (s : State) (v : Word), v.getLsbD 0 = true → s.faults.safe = false → ∃ t, exec (.fclRearm v) s = .next t ∧
    flag t Reg.FCL_STAT_OVF = false ∧ t = { s with regs := t.regs, faults := { s.faults with first := none } })

/-- R378, R82, R26, R190, R266: entry to the safe state stops every queue and post, clears every key, the vault, the entropy
block's states and the memory with its keys, and forgets every session; killed identities stay. -/
def SafeStateIsEntered : Prop :=
  ∀ s : State,
    (s.boot.held = true ∨ s.faults.safeDue = false → exec .safeStateEntry s = .next s) ∧
    (s.boot.held = false → s.faults.safeDue = true → s.faults.safe = true →
      exec .safeStateEntry s = .next { s with faults := { s.faults with safeDue := false } }) ∧
    (s.boot.held = false → s.faults.safeDue = true → s.faults.safe = false → ∃ t, exec .safeStateEntry s = .next t ∧
      t.faults.safe = true ∧ flag t Reg.FCL_STAT_SAFE = true ∧ flag t Reg.HQ_STAT_SAFE = true ∧
      t.ctxs = [] ∧ t.fetched = [] ∧ t.compls = [] ∧ t.plans = [] ∧ (∀ e ∈ t.queues, e.2.st = .held) ∧
      (∀ n, getKey t n = { KeySlot.empty with gen := (getKey t n).gen }) ∧ t.tombPend = s.tombPend ∧
      t.mem = [] ∧ t.tags = [] ∧ t.sram = ⟨[], []⟩ ∧ t.vault.buckets = [] ∧ t.vault.tree = ⟨[], [], [], [], []⟩ ∧
      flag t Reg.DDR_STAT_SREF = true ∧ t.rng.seeded = false ∧ t.rng.masks = false ∧ t.rng.maskSeeds = [] ∧
      t.rng.children = [] ∧ t.rng.drbgs = [] ∧ t.rng.root = ⟨[], []⟩ ∧ flag t Reg.RNG_STAT_ERR = true ∧
      flag t Reg.KST_STAT_DOMAIN = false ∧
      (∀ p ∈ t.posts, p.2.run = false) ∧ t.link.sessions = [] ∧ t.link.secure = [] ∧ t.link.ideKeys = [])

end Sys2Proof.Claims

open Sys2Proof Sys2Proof.Machine Sys2Proof.Claims

/-- R359–R364, R454, R455, R491: posted writes, the tables' staging, and the accesses of the hosts.
Model's choices it rests on: notes/assumptions/9.md, notes/assumptions/18.md, notes/assumptions/69.md, notes/assumptions/92.md. -/
def Obligations.GatesAndHostAccesses : Prop := PostedWrites ∧ TablesAreStaged ∧ HostAccesses

/-- R426, R484, R486, R488, R490: reads and writes of register words through gate 11.
Model's choices it rests on: notes/assumptions/25.md, notes/assumptions/60.md, notes/assumptions/69.md. -/
def Obligations.RegisterAccesses : Prop := WordsAreWritten ∧ GuardedWritesAreStaged ∧ WordsAreRead

/-- R367, R372–R379: the fault collector's rows and the safe state.
Model's choices it rests on: notes/assumptions/38.md, notes/assumptions/40.md, notes/assumptions/55.md, notes/assumptions/91.md, notes/assumptions/93.md. -/
def Obligations.FaultsAndSafeState : Prop := SourcesFire ∧ CollectorRows ∧ SafeStateIsEntered

/-! ### The vault's chains and upkeep -/
namespace Sys2Proof.Claims
open Sys2Proof Sys2Proof.Machine

/-- A record of a type was placed in a chain in this tick, as its next sequence (R196, R198). -/
def Placed (s t : State) (chain typ : Nat) (ctx : Option Nat) : Prop :=
  ∃ r : JRecord, (getChain t chain).waiting = (getChain s chain).waiting ++ [r] ∧ r.seq = (getChain s chain).seq + 1 ∧
    (getChain t chain).seq = r.seq ∧ r.ctx = ctx ∧ r.placed = s.tick.count ∧ byteAt r.bytes 0 = typ ∧
    leAt r.bytes 8 8 = r.seq % 2 ^ 64 ∧ leAt r.bytes 4 4 = (getChain t chain).epoch % 2 ^ 32

/-- R195, R196, R198, R210: the first waiting record of a chain goes to its ring after the tick that placed it, behind a PAD
where it would pass the ring's end, or waits for room; the host moves the head forward, never past the tail. -/
def JournalRings : Prop :=
  (∀ (s : State) (ch : Nat), let c := getChain s ch
    (c.waiting = [] → exec (.journalRecordWrite ch) s = .next s) ∧
    (∀ r rest, c.waiting = r :: rest → let n := r.bytes.length / 64
      let pad := ringPad c n
      let at_ := if pad = 0 then c.tail else 0
      (s.tick.count ≤ r.placed → exec (.journalRecordWrite ch) s = .next s) ∧
      (r.placed < s.tick.count → ringRoom c n = false → exec (.journalRecordWrite ch) s =
        .next (if s.tick.count = r.placed + 1 then setFlag s Reg.VLT_EVT_RING_HOLD true else s)) ∧
      (r.placed < s.tick.count → ringRoom c n = true → ∃ t, exec (.journalRecordWrite ch) s = .next t ∧
        getChain t ch = { c with waiting := rest, tail := (at_ + n) % 2 ^ c.ringLog, writtenSeq := r.seq
                                 writtenTag := r.bytes.drop (r.bytes.length - 16) } ∧
        t.out = .hostWrite 0 none (c.ringBase + 64 * at_) r.bytes ::
          (if pad = 0 then s.out else .hostWrite 0 none (c.ringBase + 64 * c.tail) (padRun pad pad) :: s.out) ∧
        t = { s with out := t.out, vault := { s.vault with chains := t.vault.chains } }))) ∧
  (∀ (s : State) (v : Word), let n := getF s Reg.VLT_JSEL_CHAIN
    let c := getChain s n
    let h := getBits v 0 24
    let fits := h < ringSize c ∧ (h + ringSize c - c.head) % ringSize c ≤ ringUsed c
    (fits → exec (.vltJheadWrite v) s = .next (setChain s n { c with head := h })) ∧
    (¬ fits → exec (.vltJheadWrite v) s = .next s))

/-- R199, R200, R206: an anchor is captured at its tick where a chain has advanced, or on a cause, under its AES-CMAC, from
every chain that the device holds, and numbered after the last one whose AES-CMAC verifies; once programmed it stands, and
the VAULT_ANCHOR commands that waited for it end with its number. -/
def AnchorsStand : Prop :=
  (∀ (s : State) (n : Nat) (c : Ctx), AdminDue s n 0x89 c →
    let k := bitsAt (eParam c.entry) 0 8
    let rb := bitAt (eParam c.entry) 8
    (s.vault.pendingAnchor ≠ none → exec (.vaultAnchor n) s = .next s) ∧
    (s.vault.pendingAnchor = none → rb = true → (getChain s k).st ≠ .ready →
      exec (.vaultAnchor n) s = .next (ends s n c (failed 0x0705))) ∧
    (s.vault.pendingAnchor = none → (rb = true → (getChain s k).st = .ready) → ∃ t, exec (.vaultAnchor n) s = .next t ∧
      t.vault.anchorWanted = true ∧ t.vault.anchorCtxs = s.vault.anchorCtxs ++ [n] ∧
      getCtx t n = some { c with done := 1 } ∧
      getChain t k = (if rb = true ∧ (getChain s k).rebase = none then { getChain s k with rebase := some none }
        else getChain s k) ∧
      t = { s with vault := t.vault, ctxs := t.ctxs })) ∧
  (∀ s : State,
    let due := anchorAllowed s = true ∧ flag s Reg.VLT_STAT_PRESENT = true ∧
      (s.vault.anchorWanted = true ∨ (s.tick.count % 2 ^ 20 = 2 ^ 20 - 1 ∧ s.vault.advanced = true))
    (¬ due → exec .anchorCapture s = .next s) ∧
    (due → ∃ a, exec .anchorCapture s = .next { s with vault := { s.vault with
        pendingAnchor := some a, anchorWanted := false, advanced := false, anchorTick := some s.tick.count } } ∧
      a.tick = s.tick.count ∧ a.thimble = s.thmTime ∧ a.mac = anchorMac a ∧
      (∀ b, lastAnchor s = some b → a.number = b.number + 1) ∧ (lastAnchor s = none → a.number = 1) ∧
      (∀ e ∈ s.vault.chains, e.2.held = true → e.2.seq ≠ 0 →
        ⟨e.1, 0, e.2.doneEpoch, e.2.doneSeq, e.2.writtenSeq, e.2.writtenTag.take 8⟩ ∈ a.entries))) ∧
  (∀ s : State,
    (s.vault.pendingAnchor = none ∨ s.faults.flashHalted = true → exec .anchorProgrammed s = .next s) ∧
    (∀ a, s.vault.pendingAnchor = some a → s.faults.flashHalted = false → ∃ t, exec .anchorProgrammed s = .next t ∧
      t.vault = { s.vault with pendingAnchor := none, anchors := (a :: s.vault.anchors).take 3840, anchorCtxs := [] } ∧
      getReg t Reg.VLT_ANCHOR_NUM = BitVec.ofNat 32 a.number ∧ getReg t Reg.VLT_ANCHOR_TICK = BitVec.ofNat 32 a.tick ∧
      flag t Reg.VLT_EVT_ANCHOR = true ∧
      (∀ m d, m ∈ s.vault.anchorCtxs → getCtx s m = some d →
        getCtx t m = some { d with adminDone := some (inlined (leBytes 4 a.number)) }) ∧
      t = { s with regs := t.regs, vault := t.vault, ctxs := t.ctxs }))

/-- A failed check of the tree has failed the chain it belongs to: VLT_INTEG fires, and the chain's entries are gone
(R187, R207). -/
def FailsItsChain (s t : State) (n level : Nat) : Prop :=
  ∃ f, t.faults.fired = s.faults.fired ++ [f] ∧ f.src = srcVltInteg ∧ f.status = some 0x0303 ∧
    f.slice = some (if n = 128 then 0 else n) ∧ getF t Reg.VLT_FAULT_INFO_LEVEL = level % 8 ∧
    ((getChain s n).st ≠ .none → getChain t n = { getChain s n with st := .failed, reload := none, rebase := none } ∧
      (∀ b ∈ t.vault.buckets, ¬ (if n = 128 then b.slice = 0 ∧ b.table = tbTmb else b.slice = n ∧ b.table ≠ tbTmb))) ∧
    t.tombPend = s.tombPend

/-- R154, R186, R191, R201, R207: a rebase begins with a record of the next epoch, the first one with nothing to pass, and
ends behind the last panel, from where on it is what an anchor names; a sweep begins when the generation has encrypted 2^35
panels, under a new key, and ends at the region's end, when nothing stands under the old one, which is zeroised;
re-encryption gives the children of a node a new major counter, where they verify; a pending identity is committed where the
panels of its probe verify. -/
def UpkeepRuns : Prop :=
  (∀ (s : State) (k : Nat), let c := getChain s k
    let due := c.rebase = some none ∧ c.st = .ready ∧ walkRuns s = false ∧ s.vault.sweep = none
    (¬ due → exec (.rebaseStart k) s = .next s) ∧
    (due → ∃ t, exec (.rebaseStart k) s = .next t ∧ Placed s t k jRebaseStart none ∧
      (getChain t k).epoch = c.epoch + 1 ∧ (getChain t k).rebaseSeq = c.seq + 1 ∧
      (getChain t k).rebase = some (some (if c.epoch = 0 then walkPanels s k else 0)) ∧ t = { s with vault := t.vault })) ∧
  (∀ (s : State) (k p : Nat), (getChain s k).rebase = some (some p) →
    (p < walkPanels s k → exec (.baseEnd k) s = .next s) ∧
    (walkPanels s k ≤ p → ∃ t, exec (.baseEnd k) s = .next t ∧ Placed s t k jBaseEnd none ∧
      (getChain t k).rebase = none ∧ (getChain t k).doneEpoch = (getChain s k).epoch ∧
      (getChain t k).doneSeq = (getChain s k).rebaseSeq ∧ t.vault.anchorWanted = true ∧ t = { s with vault := t.vault })) ∧
  (∀ s : State, let v := s.vault
    let g := (v.gen + 1) % 4
    (v.sweep ≠ none ∨ tget 0 v.genUse v.gen < 2 ^ 35 ∨ (tfind v.tree.keys g).isSome = true →
      exec .rekeySweepStart s = .next s) ∧
    (v.sweep = none → 2 ^ 35 ≤ tget 0 v.genUse v.gen → tfind v.tree.keys g = none → ∃ t,
      exec .rekeySweepStart s = .next t ∧
      t.vault = { v with oldGen := some v.gen, gen := g, sweep := some 0, genUse := tput 0 v.genUse g 0
                         tree := { v.tree with keys := tinsert g (drawFrom childVault 80 s).1 v.tree.keys } } ∧
      flag t Reg.VLT_STAT_SWEEP = true ∧ getF t Reg.VLT_STAT_GEN = g ∧ flag t Reg.VLT_EVT_SWEEP_START = true ∧
      t = { (drawFrom childVault 80 s).2 with regs := t.regs, vault := t.vault })) ∧
  (∀ s : State, let v := s.vault
    (v.sweep = none → exec .rekeySweepEnd s = .next s) ∧
    (∀ p, v.sweep = some p →
      let passed := totalPanels s ≤ p ∧ ∀ x ∈ v.tree.seals, some x.2.gen ≠ v.oldGen
      (¬ passed → exec .rekeySweepEnd s = .next s) ∧
      (passed → ∃ t, exec .rekeySweepEnd s = .next t ∧ t.vault.sweep = none ∧ t.vault.oldGen = none ∧
        (∀ g, v.oldGen = some g → tget 0 t.vault.genUse g = 0 ∧ ∀ x ∈ t.vault.tree.keys, x.1 ≠ g) ∧
        flag t Reg.VLT_STAT_SWEEP = false ∧ getF t Reg.VLT_SWEEP_DONE = 0 ∧ flag t Reg.VLT_EVT_SWEEP_END = true ∧
        t = { s with regs := t.regs, vault := { v with
          sweep := none, oldGen := none, genUse := t.vault.genUse, tree := { v.tree with keys := t.vault.tree.keys } } }))) ∧
  (∀ s : State, let v := s.vault
    (v.tree.queue = [] → exec .reencryption s = .next s) ∧
    (∀ q rest, v.tree.queue = q :: rest → renewFault v.tree q = none → (tfind v.tree.keys v.gen).isSome = true →
      ∃ t, exec .reencryption s = .next t ∧ t.vault.tree = treeRenew v.tree v.gen q ∧ q ∉ t.vault.tree.queue ∧
        tget 0 t.vault.tree.majors q = tget 0 v.tree.majors q + 1 ∧
        (∀ k, k ≠ q → tget 0 t.vault.tree.majors k = tget 0 v.tree.majors k) ∧
        (keyLevel q ∈ [1, 2, 3, 4] → ∀ j, j < 16 → tget 0 t.vault.tree.minors (childKey q j) = 1) ∧
        t = { s with vault := { v with tree := t.vault.tree, genUse := t.vault.genUse } }) ∧
    (∀ q rest k n, v.tree.queue = q :: rest → renewFault v.tree q = some k →
      chainOfPanel s (keyIndex q * 16 ^ keyLevel q) = some n → ∃ t, exec .reencryption s = .next t ∧
        FailsItsChain s t n (keyLevel k))) ∧
  (∀ s : State,
    ((∀ i ∈ s.tombPend, killRuns s i = true) → exec .tombstoneCommit s = .next s) ∧
    (∀ i, s.tombPend.find? (fun i => !killRuns s i) = some i →
      (∀ f, readFault s (pairPanels s 0 tbTmb i) = some f → ∃ t, exec .tombstoneCommit s = .next t ∧
        FailsItsChain s t 128 f.1) ∧
      (readFault s (pairPanels s 0 tbTmb i) = none → tableBuckets s 0 tbTmb ≠ 0 → i ≠ [] →
        (tombHeld s i = true → ∃ v, rewritten s.vault v ∧
          exec .tombstoneCommit s = .next { s with tombPend := s.tombPend.erase i, vault := v }) ∧
        (tombHeld s i = false → limitHit s 0 = false → (∃ q, chooseBucket s 0 tbTmb (candA i (tableBuckets s 0 tbTmb))
            (candB i (tableBuckets s 0 tbTmb)) 0 = some q) → ∃ t, exec .tombstoneCommit s = .next t ∧
          Placed s t 128 jTomb none ∧ t.tombPend = s.tombPend.erase i ∧
          t = { s with vault := t.vault, tombPend := t.tombPend }))))

/-- Where the records of a reload's part begin (R202, R203). -/
def reloadFrom (s : State) (chain : Nat) (first : Bool) : State × Reload :=
  let ch := getChain s chain
  if first then (setChain (clearChain s chain) chain { ch with st := .reloading }, newReload false)
  else (s, { ch.reload.getD (newReload false) with applied := 0 })

/-- The part continues a reload of the device's own records, or begins one (R203). -/
def reloadOwn (s : State) (chain : Nat) (first : Bool) (recs : List JRec) : Prop :=
  if first then ((getChain s chain).st = .unloaded ∨ (getChain s chain).st = .failed) ∧
    (chain = 128 → ∀ r, recs.head? = some r → r.dev = devNo s)
  else (getChain s chain).st = .reloading ∧ ∃ l, (getChain s chain).reload = some l ∧ l.foreign = false

/-- R202–R205: a part of a reload runs its records in order; the first failure fails the chain, with its reason, and clears
what it had filled, an override without its permission among them; the last part checks the whole and makes the chain READY
at the sequence it ended with. While the channels rest in self-refresh none runs (notes/assumptions/87.md). -/
def ReloadsRun : Prop :=
  ∀ (s : State) (n : Nat) (c : Ctx), AdminDue s n 0x88 c →
    let p := eParam c.entry
    let k := bitsAt p 0 8
    let first := bitAt p 8
    let own := if first = true then (getChain s k).st = .unloaded ∨ (getChain s k).st = .failed else (getChain s k).st = .reloading
    (c.srcFail = true → own → ∃ t, exec (.vaultReload n) s = .next t ∧
      getCtx t n = some { c with adminDone := some (failed 0x0106) } ∧ (getChain t k).st = .failed ∧
      (getChain t k).reload = none ∧ flag t Reg.VLT_EVT_RELOAD_DONE = true ∧
      (∀ b ∈ t.vault.buckets, ¬ (if k = 128 then b.slice = 0 ∧ b.table = tbTmb else b.slice = k ∧ b.table ≠ tbTmb))) ∧
    (c.srcFail = true → ¬ own → k ≠ 128 → exec (.vaultReload n) s = .next (ends s n c (failed 0x0104))) ∧
    (c.srcFail = false → c.src.length < eLen c.entry → sourceAwaited s n c (.vaultReload n)) ∧
    (c.srcFail = false → eLen c.entry ≤ c.src.length →
      (imageRecords (c.src.length / 64 + 1) c.src = none → exec (.vaultReload n) s = .next (ends s n c (failed 0x0104))) ∧
      (∀ recs, imageRecords (c.src.length / 64 + 1) c.src = some recs →
        ((getChain s k).st = .none → exec (.vaultReload n) s = .next (ends s n c (failed 0x0104))) ∧
        (reloadOwn s k first recs → flag s Reg.DDR_STAT_SREF = true →
          exec (.vaultReload n) s = .next (ends s n c (failed 0x0705))) ∧
        (reloadOwn s k first recs → flag s Reg.DDR_STAT_SREF = false →
          let permitted := flag s Reg.VLT_RBOK_ARM && getF s Reg.VLT_RBOK_SLICE == k
          let r := reloadRun k recs (reloadFrom s k first).1 (reloadFrom s k first).2
          let l := r.2.1
          let bad := match r.2.2 with
            | some x => some x
            | none => match (if bitAt p 9 then reloadLast r.1 k l (bitAt p 10) permitted else none) with
              | some x => some x
              | none => if bitAt p 10 && !permitted then some (7, 0x0401) else none
          (∀ x, bad = some x → ∃ t, exec (.vaultReload n) s = .next t ∧ (getChain t k).st = .failed ∧
            (getChain t k).reload = none ∧ getF t Reg.VLT_RLD_INFO_REASON = x.1 % 16 ∧
            flag t Reg.VLT_EVT_RELOAD_DONE = true ∧
            (∀ b ∈ t.vault.buckets, ¬ (if k = 128 then b.slice = 0 ∧ b.table = tbTmb else b.slice = k ∧ b.table ≠ tbTmb)) ∧
            getCtx t n = some { c with adminDone := some (failed x.2) }) ∧
          (bad = none → bitAt p 9 = false → ∃ t, exec (.vaultReload n) s = .next t ∧
            getChain t k = { getChain r.1 k with reload := some l } ∧
            getCtx t n = some { c with adminDone := some (inlined (leBytes 8 l.applied ++ leBytes 8 l.seq)) }) ∧
          (bad = none → bitAt p 9 = true → ∃ t, exec (.vaultReload n) s = .next t ∧ (getChain t k).st = .ready ∧
            (getChain t k).seq = l.seq ∧ (getChain t k).link = l.link ∧ (getChain t k).epoch = l.epoch ∧
            (getChain t k).held = true ∧ (getChain t k).reload = none ∧ t.vault.anchorWanted = true ∧
            (getChain t k).period = (getChain r.1 k).period + 1 ∧
            (bitAt p 10 = true → permitted = true → flag t Reg.VLT_RBOK_ARM = false ∧
              flag t Reg.VLT_EVT_ROLLBACK = true) ∧
            getReg t Reg.VLT_RLD_CNT = BitVec.ofNat 32 l.applied ∧
            getCtx t n = some { c with adminDone := some (inlined (leBytes 8 l.applied ++ leBytes 8 l.seq)) }))))

/-- R182, R190, R207–R209, R513: the memory controllers. The population is formed from the channels that trained, at no more
than the rate that stood at the reset, and the first generation is drawn; an uncorrectable error in a chain's region fails
that chain and loses its key records; a DIMM that becomes hot fires DDR_THERMAL. -/
def MemoryControllers : Prop :=
  (∀ (s : State) (pop tr rate dimm ranks : Nat), let m := popOf (pop &&& tr)
    let r := min rate s.boot.rateCap
    (pop ≠ 0xF → pop ≠ 3 → pop ≠ 1 → ∃ t, exec (.ddrTrainingDone pop tr rate dimm ranks) s = .next t ∧
      flag t Reg.VLT_STAT_PRESENT = false ∧ flag t Reg.VLT_STAT_READY = true ∧ getF t Reg.DDR_CFG_CHMASK = 0 ∧
      t = { s with regs := t.regs }) ∧
    (pop = 0xF ∨ pop = 3 ∨ pop = 1 → m ≠ 0 → ∃ t, exec (.ddrTrainingDone pop tr rate dimm ranks) s = .next t ∧
      getF t Reg.DDR_CFG_CHMASK = m ∧ getF t Reg.DDR_CFG_RATE = r ∧ getF t Reg.DDR_CFG_DIMM = dimm % 8 ∧
      getF t Reg.DDR_STAT_TRAINED = pop &&& tr ∧ flag t Reg.VLT_STAT_PRESENT = true ∧
      getF t Reg.VLT_STAT_SLOTS = popSlots m r ∧ getF t Reg.VLT_CAP_UNITS = popUnits m dimm ∧
      (s.rng.seeded = true → flag t Reg.VLT_STAT_READY = true ∧ (flag s Reg.DDR_STAT_SREF = false →
        t.vault.tree.keys ≠ [])) ∧ t.devNdl = engineSlots (9 * popSlots m r) ∧
      t.vault = { s.vault with tree := { s.vault.tree with keys := t.vault.tree.keys } } ∧
      (s.rng.seeded = false ∨ s.vault.tree.keys ≠ [] ∨ flag s Reg.DDR_STAT_SREF = true → t.vault = s.vault) ∧
      (pop &&& tr = pop → t = { s with regs := t.regs, devNdl := t.devNdl, vault := t.vault, rng := t.rng
                                       freeCtr := t.freeCtr }) ∧
      (pop &&& tr ≠ pop → fires s t srcDdrTrain (pop - (pop &&& tr)) ∧ flag t Reg.DDR_EVT_TRAIN_FAIL = true))) ∧
  (∀ (s : State) (ch sub_ panel : Nat) (chain ctx : Option Nat), ∃ t,
    exec (.ddrError ch sub_ false chain panel ctx) s = .next t ∧
    (getReg t (Reg.DDR_CE + 4 * (ch % 4))).toNat = min ((getReg s (Reg.DDR_CE + 4 * (ch % 4))).toNat + 1) 0xFFFFFFFF ∧
    getF t Reg.DDR_ERR_INFO_CH = ch % 4 ∧ flag t Reg.DDR_EVT_CE = true ∧ t = { s with regs := t.regs }) ∧
  (∀ (s : State) (ch sub_ panel n : Nat) (ctx : Option Nat), (getChain s n).st ≠ .none →
    ∃ t f, exec (.ddrError ch sub_ true (some n) panel ctx) s = .next t ∧ t.faults.fired = s.faults.fired ++ [f] ∧
      f.src = srcVltInteg ∧ f.slice = some (if n = 128 then 0 else n) ∧ f.ctx = ctx ∧ f.status = some 0x0303 ∧
      getChain t n = { getChain s n with st := .failed, reload := none, rebase := none } ∧
      (∀ b ∈ t.vault.buckets, ¬ (if n = 128 then b.slice = 0 ∧ b.table = tbTmb else b.slice = n ∧ b.table ≠ tbTmb)) ∧
      getF t { Reg.DDR_UE_N with key := Reg.DDR_UE + 4 * (ch % 4) } =
        min (getF s { Reg.DDR_UE_N with key := Reg.DDR_UE + 4 * (ch % 4) } + 1) 65535 ∧
      t.records = s.records.map (fun r => if n ≠ 128 ∧ r.inVault = true ∧ r.owner = n then { r with wrapped := [], mac := [] }
        else r) ∧
      t = { s with regs := t.regs, faults := t.faults, freeCtr := t.freeCtr, vault := t.vault, records := t.records }) ∧
  (∀ (s : State) (deg : Byte) (hot : Bool), ∃ t, exec (.ddrThermal deg hot) s = .next t ∧
    getF t Reg.DDR_TEMP_DEG = deg.toNat ∧ flag t Reg.DDR_STAT_HOT = hot ∧
    (hot = true → flag s Reg.DDR_STAT_HOT = false → fires s t srcDdrThermal 0 ∧ flag t Reg.DDR_EVT_HOT = true) ∧
    (hot = false ∨ flag s Reg.DDR_STAT_HOT = true → t = { s with regs := t.regs }))

end Sys2Proof.Claims

open Sys2Proof Sys2Proof.Machine Sys2Proof.Claims

/-- R186, R191, R195–R206, R210: the journal rings, the anchors, the upkeep and the reloads of the vault's chains. -/
def Sys2Proof.Claims.VaultChainsAndUpkeep : Prop := JournalRings ∧ AnchorsStand ∧ UpkeepRuns ∧ ReloadsRun

/-- R182, R207–R209, R513: the rows of the memory controllers. -/
def Sys2Proof.Claims.MemoryControllerEvents : Prop := MemoryControllers

/-- R182, R186, R191, R195–R210, R513: the chains of the vault and the memory controllers.
Model's choices it rests on: notes/assumptions/12.md, notes/assumptions/17.md, notes/assumptions/54.md, notes/assumptions/82.md, notes/assumptions/83.md, notes/assumptions/87.md. -/
def Obligations.VaultChainsAndMemoryControllers : Prop := Sys2Proof.Claims.VaultChainsAndUpkeep ∧ Sys2Proof.Claims.MemoryControllerEvents

/-- R184–R187, R191: a panel written under the current generation opens as written under one more counter, and its whole path
verifies; every other panel opens as before, and one whose path verified still verifies. Re-encryption of a page leaves its
panels as they were, each under a tag that verifies.
Model's choices it rests on: notes/assumptions/82.md, notes/assumptions/83.md. -/
def Obligations.VaultPanelsOpenAsWritten : Prop :=
  ∀ (s : State) (key : Bytes), tfind s.vault.tree.keys s.vault.gen = some key → key.length = 80 → let v := s.vault
    (∀ (p : Nat) (pt : Bytes), pt.length = 256 → let t := panelWrite s p pt
      panelOpen t p = pt ∧ panelFault t.vault.tree p = none ∧
      treeCtr t.vault.tree (ctrKey 0 p) = treeCtr v.tree (ctrKey 0 p) + 1 ∧
      (∀ q, q ≠ p → panelOpen t q = panelOpen s q ∧ (panelFault v.tree q = none → panelFault t.vault.tree q = none)) ∧
      tget 0 t.vault.genUse v.gen = tget 0 v.genUse v.gen + 1 ∧
      t = { s with vault := { v with tree := t.vault.tree, pageGen := t.vault.pageGen, genUse := t.vault.genUse } }) ∧
    (∀ q j, keyLevel q = 1 → j < 16 → let t := treeRenew v.tree v.gen q
      (openChild v.tree (childKey q j)).length = 256 →
        openChild t (childKey q j) = openChild v.tree (childKey q j) ∧ sealOk t (childKey q j) = true ∧
        treeCtr t (childKey q j) = (tget 0 v.tree.majors q + 1) * 2 ^ 24 + 1)

/-! ### The key store's own work, the LMS state block -/
namespace Sys2Proof.Claims
open Sys2Proof Sys2Proof.Machine

/-- A slot awaits a reservation, or a stored record, the controller can write, and the vault that takes a VAULT key's record
is in service. -/
def Awaits (s : State) (l : List (Nat × Nat)) (slot : Nat) : Prop :=
  (l.any (fun x => x.1 == slot)) = true ∧ s.faults.flashHalted = false ∧ vaultTakes s slot = true

/-- One or more records of a type were placed in a chain in this tick, after the last one (R196, R198). -/
def PlacedSome (s t : State) (chain typ : Nat) : Prop :=
  ∃ rs : List JRecord, rs ≠ [] ∧ (getChain t chain).waiting = (getChain s chain).waiting ++ rs ∧
    (getChain t chain).seq = (getChain s chain).seq + rs.length ∧
    ∀ r ∈ rs, r.ctx = none ∧ r.placed = s.tick.count ∧ byteAt r.bytes 0 = typ

/-- The record of a VAULT key went to its slice's journal; of another key nothing did (R163). -/
def Journalled (s t : State) (slot : Nat) : Prop :=
  (aStore (getKey s slot).attr = 2 → PlacedSome s t (getKey s slot).owner jPut) ∧
  (aStore (getKey s slot).attr ≠ 2 → t.vault = s.vault)

/-- The stored record of a slot after its reservation was written: one record, with the reservation's end, its material
wrapped, under its AES-CMAC (R131, R163). -/
def Reserved (s t : State) (slot : Nat) : Prop :=
  getKey t slot = reserveNext (getKey s slot) ∧
  (∃ r ∈ t.records, r.slot = slot ∧ r.budgetEnd = (reserveNext (getKey s slot)).reserved ∧
    r.ident = (getKey s slot).ident ∧ r.gen = (getKey s slot).gen ∧ r.mac = recordMac r ∧
    r.wrapped = kwpWrap (recordKek s slot (getKey s slot).owner) (getKey s slot).material) ∧
  (∀ r, r.slot ≠ slot → (r ∈ t.records ↔ r ∈ s.records)) ∧
  (∀ x, x ∈ t.reserveDue ↔ x ∈ s.reserveDue ∧ x.1 ≠ slot) ∧
  t.nv = { s.nv with bank1 := t.nv.bank1 } ∧ Journalled s t slot ∧
  (getReg t Reg.NDL_RSV_CNT).toNat = min ((getReg s Reg.NDL_RSV_CNT).toNat + 1) 0xFFFFFFFF

/-- R131, R142, R157, R163, R164, R129: reservations and stored records are written once they are due, and a VAULT key's
also in its slice's journal; a late one fires KST_RESERVE; a slot that nothing holds any more is zeroised with its extension
slots and takes the next generation, its stored record deleted but where an integrity failure retired it (R165); the IV
counter's next value is queued for its register once its low bits pass 2^39. -/
def KeyStoreWorks : Prop :=
  (∀ (s : State) (slot : Nat),
    (¬ Awaits s s.reserveDue slot → exec (.budgetReservation slot) s = .next s) ∧
    (Awaits s s.reserveDue slot → ∃ t, exec (.budgetReservation slot) s = .next t ∧ Reserved s t slot ∧
      t = { s with keys := t.keys, records := t.records, reserveDue := t.reserveDue, regs := t.regs, nv := t.nv
                   vault := t.vault })) ∧
  (∀ (s : State) (slot : Nat),
    (∀ x, (s.reserveDue ++ s.recordDue).find? (fun x => x.1 == slot) = some x →
      (s.tick.count ≤ x.2 + 256 → exec (.kstReserve slot) s = .next s) ∧
      (x.2 + 256 < s.tick.count → ∃ t, exec (.kstReserve slot) s = .next t ∧ fires s t srcKstReserve 0 ∧
        t = { s with regs := t.regs, faults := t.faults, freeCtr := t.freeCtr })) ∧
    ((∀ x ∈ s.reserveDue ++ s.recordDue, x.1 ≠ slot) → exec (.kstReserve slot) s = .next s)) ∧
  (∀ (s : State) (slot : Nat),
    (¬ Awaits s s.recordDue slot → exec (.storedRecordWrite slot) s = .next s) ∧
    (Awaits s s.recordDue slot → ∃ t, exec (.storedRecordWrite slot) s = .next t ∧ Reserved s t slot ∧
      (∀ x, x ∈ t.recordDue ↔ x ∈ s.recordDue ∧ x.1 ≠ slot) ∧
      t = { s with keys := t.keys, records := t.records, reserveDue := t.reserveDue, recordDue := t.recordDue
                   regs := t.regs, nv := t.nv, vault := t.vault })) ∧
  (∀ (s : State) (slot : Nat), let k := getKey s slot
    let free := (k.st = .retired ∨ k.st = .killed) ∧ k.extOf = none ∧ k.changedTick < s.tick.count ∧ keyInUse s slot = false
    (¬ free → exec (.keySlotZeroise slot) s = .next s) ∧
    (free → ∃ t, exec (.keySlotZeroise slot) s = .next t ∧
      (∀ i, i ≤ k.ext → getKey t (slot + i) = { KeySlot.empty with gen := nextGen (getKey s (slot + i)).gen }) ∧
      (∀ m, m < slot ∨ slot + k.ext < m → tfind t.keys m = tfind s.keys m) ∧
      (k.st = .retired → k.failed = true → t.records = s.records) ∧
      (k.st = .killed ∨ k.failed = false → ∀ r, r ∈ t.records ↔ (r ∈ s.records ∧ r.slot ≠ slot) ∨
        ∃ q ∈ s.records, q.slot = slot ∧ q.inVault = true ∧ r = { q with wrapped := [], mac := [], gone := true }) ∧
      (∀ i, i ≤ k.ext → 256 ≤ slot + i → slot + i ∈ t.freed) ∧
      t = { s with keys := t.keys, records := t.records, recordDue := t.recordDue, reserveDue := t.reserveDue
                   freed := t.freed, slotTable := t.slotTable })) ∧
  (∀ s : State, let hi := s.ivCtr / 2 ^ 40 % 2 ^ 24
    let due := 2 ^ 39 < s.ivCtr % 2 ^ 40 ∧ sillVal s 1 % 2 ^ 24 = hi ∧ silPending s 1 = false
    (¬ due → exec .ivReservation s = .next s) ∧
    (due → flag s Reg.SIL_STAT_READY = true → silCount s 1 < 1000000 → s.nv.silWait.length < 8 → ∃ t,
      exec .ivReservation s = .next t ∧
      (1, BitVec.ofNat 32 ((hi + 1) % 2 ^ 24)) ∈ t.nv.silWait ++ t.nv.silProg ∧
      t = { s with regs := t.regs, nv := t.nv }))

/-- An LMS request ended with a code, 0 for DONE (R254). -/
def ReqEnded (t : State) (err : Nat) : Prop :=
  getF t Reg.LMS_REQ_STAT_STATE = (if err = 0 then 2 else 3) ∧ getF t Reg.LMS_REQ_STAT_ERR = err ∧
    flag t Reg.LMS_EVT_REQ_DONE = true

/-- R237, R254: a request is ignored while another runs, ends with its error, or starts. -/
def SeamRequests : Prop :=
  (∀ (s : State) (set slice : Nat), set < 4 → slice < 128 → let e := generateErr s set slice
    (reqBusy s = true → ∃ t, exec (.lmsGenerate set slice) s = .next t ∧ t = { s with regs := t.regs } ∧
      getReg t Reg.LMS_REQ_STAT = getReg s Reg.LMS_REQ_STAT) ∧
    (reqBusy s = false → e ≠ 0 → ∃ t, exec (.lmsGenerate set slice) s = .next t ∧ ReqEnded t e ∧ t = { s with regs := t.regs }) ∧
    (reqBusy s = false → e = 0 → ∃ t n p, exec (.lmsGenerate set slice) s = .next t ∧ freePair s = some n ∧
      getF t Reg.LMS_REQ_STAT_STATE = 1 ∧ getPair t n = some p ∧ p.st = .building ∧ p.set = set ∧ p.slice = slice ∧
      p.next = 0 ∧ p.refSlot = none ∧ t.lms.generating = some n ∧ t.lms.genStart = s.tick.count ∧
      t.lms.trees = s.lms.trees + treeRecords set ∧ (∀ m, m ≠ n → getPair t m = getPair s m) ∧
      p.scalar = beBytes 48 (ecScalar p384 ((drawFrom childLms 88 s).1.take 56)) ∧ p.seed = (drawFrom childLms 88 s).1.drop 56 ∧
      t = { s with regs := t.regs, lms := t.lms, freeCtr := t.freeCtr, rng := t.rng })) ∧
  (∀ (s : State) (slice : Nat), slice < 128 → reqBusy s = false →
    let e := if lmsServed s = false then 8 else if reqAddr s % 256 ≠ 0 then 6 else if (getSlice s slice).st ≠ .active then 1 else 0
    (e ≠ 0 → ∃ t, exec (.lmsLoadPublic slice) s = .next t ∧ ReqEnded t e ∧ t = { s with regs := t.regs }) ∧
    (e = 0 → ∃ t, exec (.lmsLoadPublic slice) s = .next t ∧ getF t Reg.LMS_REQ_STAT_STATE = 1 ∧
      t.out = .hostRead 0 none (reqAddr s) 256 :: s.out ∧
      t = { s with regs := t.regs, out := t.out, lms := { s.lms with loadWait := true } })) ∧
  (∀ s : State, reqBusy s = false →
    let h := (getReg s Reg.LMS_REQ_HANDLE).toNat
    let k := getKey s (hSlot h)
    let good := handleOk s (hSlice h) h = true ∧ typSeam k.typ = true ∧ k.st = .active
    (lmsServed s = false → ∃ t, exec .lmsDestroy s = .next t ∧ ReqEnded t 8 ∧ t = { s with regs := t.regs }) ∧
    (lmsServed s = true → ¬ good → ∃ t, exec .lmsDestroy s = .next t ∧ ReqEnded t 2 ∧ t = { s with regs := t.regs }) ∧
    (lmsServed s = true → good → ∃ t, exec .lmsDestroy s = .next t ∧ getF t Reg.LMS_REQ_STAT_STATE = 1 ∧
      getKey t (hSlot h) = { k with st := .retired, changed := s.ctxOrder, changedTick := s.tick.count } ∧
      t.lms.destroying = some (hSlot h) ∧
      (∀ p, k.typ = 0x40 → getPair s (leAt k.material 256 2) = some p →
        getPair t (leAt k.material 256 2) = some { p with retiring := true }) ∧
      t = { s with regs := t.regs, keys := t.keys, lms := t.lms }))

/-- R237, R230, R241, R244, R246: a generation ends no sooner than its time, with its reference, its serial and its record;
the upkeep builds the bottom tree of the pair with the fewest available indices, no sooner than its shares compute it,
captures and programs reservations, and rebuilds the caches in slot order. -/
def SeamUpkeep : Prop :=
  (∀ (s : State) (n : Nat) (p : SeamPair) (ok : Bool), s.lms.generating = some n → getPair s n = some p →
    let served := lmsServed s = true ∧ (getSlice s p.slice).st = .active ∧ refRoom s p.slice = true
    (s.tick.count < s.lms.genStart + genTicks p.set → exec (.generateDone ok) s = .next s) ∧
    (s.lms.genStart + genTicks p.set ≤ s.tick.count → served → ok = false → ∃ t,
      exec (.generateDone ok) s = .next t ∧ ReqEnded t 7 ∧ t.lms.generating = none ∧ getPair t n = none ∧
      t.lms.trees = s.lms.trees - treeRecords p.set ∧ t = { s with regs := t.regs, lms := t.lms }) ∧
    (s.lms.genStart + genTicks p.set ≤ s.tick.count → lmsServed s = false → ∃ t,
      exec (.generateDone ok) s = .next t ∧ ReqEnded t 8 ∧ getPair t n = none) ∧
    (s.lms.genStart + genTicks p.set ≤ s.tick.count → served → ok = true → n < 256 → ∃ t a r,
      exec (.generateDone ok) s = .next t ∧ ReqEnded t 0 ∧ t.lms.generating = none ∧
      t.out = .hostWrite 0 none (reqAddr s) p.pub :: s.out ∧
      (getKey t a).st = .active ∧ (getKey t a).typ = 0x40 ∧ (getKey t a).owner = p.slice ∧
      (getKey t a).material = p.pub ++ leBytes 2 n ∧ getReg t Reg.LMS_REQ_HANDLE = refHandle t a ∧
      getPair t n = some { p with st := .ready, serial := (sillVal s 2 + 1) % 2 ^ 32, refSlot := some a, next := 0
                                  reservedTo := 0, builtTo := 1, cached := true } ∧
      t.lms.log.head? = some r ∧ byteAt r 0 = 1 ∧ byteAt r 2 = n - 128)) ∧
  (∀ (s : State) (n : Nat) (p : SeamPair), getPair s n = some p →
    let due := servedPair s = some (n, p) ∧ liveHash s ≠ [] ∧ s.lms.workEnd + treeTicks s ≤ s.tick.count
    (¬ due → (∀ q, servedPair s = some (n, q) → q = p) → exec (.bottomTreeBuilt n) s = .next s) ∧
    (due → p.st = .ready ∧ p.cached = true ∧ p.builtTo < p.next / 1024 + 2 ∧ p.builtTo * 1024 < pairIndices p.set ∧
      (∀ e ∈ s.lms.pairs, treeDue e.2 = true → availIndices p ≤ availIndices e.2) ∧
      ∃ t, exec (.bottomTreeBuilt n) s = .next t ∧ getPair t n = some { p with builtTo := p.builtTo + 1 } ∧
      t = { upkeepHash s treeWork with regs := t.regs, lms := { s.lms with pairs := t.lms.pairs, workEnd := s.tick.count } })) ∧
  (∀ (s : State) (n : Nat) (p : SeamPair), getPair s n = some p →
    (captureDue p = true → exec (.reserveCapture n) s = .next (setPair s n { p with capturing := true, capTick := s.tick.count })) ∧
    (captureDue p = false → exec (.reserveCapture n) s = .next s)) ∧
  (∀ (s : State) (n : Nat) (p : SeamPair), getPair s n = some p →
    (∀ ok, p.capturing = false → exec (.reserveProgrammed n ok) s = .next s) ∧
    (p.capturing = true → ∃ t r, exec (.reserveProgrammed n true) s = .next t ∧
      getPair t n = some { p with capturing := false, failed := false, reservedTo := p.reservedTo + 1 } ∧
      t.lms.log.head? = some r ∧ byteAt r 0 = 2 ∧ leAt r 8 8 = p.reservedTo % 2 ^ 64 ∧
      t = { s with regs := t.regs, lms := t.lms }) ∧
    (p.capturing = true → ∃ t, exec (.reserveProgrammed n false) s = .next t ∧
      getPair t n = some { p with capturing := false, failed := true } ∧ fires s t srcLmsLog 0 ∧
      flag t Reg.LMS_EVT_LOG_FAIL = true ∧ t.lms.log = s.lms.log)) ∧
  (∀ (s : State) (n bad : Nat) (p : SeamPair), getPair s n = some p →
    let due := p.cached = false ∧ p.st ≠ .building ∧ running s = true ∧
      (∀ x ∈ s.lms.pairs, x.1 < n → x.2.cached = true ∨ x.2.st = .building)
    (¬ due → exec (.cacheRebuilt n bad) s = .next s) ∧
    (due → ∃ t, exec (.cacheRebuilt n bad) s = .next t ∧
      getPair t n = some { p with cached := true, builtTo := max p.builtTo (p.next / 1024 + 1) } ∧
      getF t Reg.LMS_TREE_BAD_N = min (getF s Reg.LMS_TREE_BAD_N + min bad (treeRecords p.set)) 255 ∧
      t = { s with regs := t.regs, lms := { s.lms with pairs := t.lms.pairs } }))

end Sys2Proof.Claims

open Sys2Proof Sys2Proof.Machine Sys2Proof.Claims

/-- R129, R131, R142, R157, R164: what the key store does by itself. -/
def Sys2Proof.Claims.KeyStoreWork : Prop := KeyStoreWorks

/-- R237, R241, R244, R246, R254: the seam pairs' requests and upkeep. -/
def Sys2Proof.Claims.SeamPairs : Prop := SeamRequests ∧ SeamUpkeep

/-- R129, R131, R142, R157, R164, R237, R241–R246, R254: what the key store and the seam pairs do by themselves.
Model's choices it rests on: notes/assumptions/8.md, notes/assumptions/13.md, notes/assumptions/63.md, notes/assumptions/85.md, notes/assumptions/89.md, notes/assumptions/90.md, notes/assumptions/91.md. -/
def Obligations.KeyStoreAndSeamPairs : Prop := Sys2Proof.Claims.KeyStoreWork ∧ Sys2Proof.Claims.SeamPairs

/-! ### The entropy block -/
namespace Sys2Proof.Claims
open Sys2Proof Sys2Proof.Machine

/-- A health failure in this tick: output stops, readers get nothing more, its cells and cause stand, RNG_HEALTH fires, and
every command that still needs masks, vault slots or a child fails with ST_ENTROPY_FAILED (R258, R265). -/
def EntropyFails (s t : State) (cells cause : Nat) : Prop :=
  flag t Reg.RNG_STAT_ERR = true ∧ flag t Reg.RNG_STAT_FAILED = true ∧ flag t Reg.RNG_STAT_READY = false ∧
    getF t Reg.RNG_FAIL_CELLS = cells ∧ getF t Reg.RNG_FAIL_CAUSE = cause ∧
    flag t Reg.RNG_FAIL_STARTUP = !s.rng.seeded ∧ getReg t Reg.RNG_FAIL_TICK = BitVec.ofNat 32 s.tick.count ∧
    flag t Reg.RNG_EVT_FAIL = true ∧ t.rng.failTick = some s.tick.count ∧ t.rng.waiting = [] ∧ t.rng.fifo = [] ∧
    fires s t srcRngHealth 0 ∧
    (trising 0 s.ctxs = true → ∀ n c, getCtx s n = some c → getCtx t n = some
      (if n < 4032 ∧ working c = true ∧ needsEntropy c.entry = true ∧
          ((∃ f, s.tick.fence = some f ∧ f.ctx = n) ∨ s.tick.count < entropyEnd c) then
        { c with fail := some (0x0701, unitsThrough c s.tick.count) } else c))

/-- R256–R260, R265: health tests fail on a window out of its bounds or a repetition, and their readings go on after it; the
root is instantiated in the kerf of tick 1,551 where the known-answer tests and the cells have passed, and reseeded in the
kerfs of a tick of 1,023 modulo 1,024. -/
def HealthAndSeeding : Prop :=
  (∀ (s : State) (kind : Nat) (m : List (Nat × Nat)),
    let ok := if kind = 0 then aliveOk else if kind = 1 then lockOk else aptOk
    (s.tick.count < 512 ∨ s.faults.safe = true ∨ 2 < kind → exec (.healthTestWindow kind m) s = .next s) ∧
    (512 ≤ s.tick.count → s.faults.safe = false → kind ≤ 2 → ∃ t, exec (.healthTestWindow kind m) s = .next t ∧
      (∀ i x, i < 4 → m[i]? = some x →
        tget Cell.zero t.rng.cells i = cellMeasure kind (tget Cell.zero s.rng.cells i) x) ∧
      ((∀ x ∈ m.take 4, ok x = true) →
        (4 ≤ m.length → tget 0 t.rng.windows kind = tget 0 s.rng.windows kind + 1) ∧
        (m.length < 4 → t.rng.windows = s.rng.windows) ∧
        t = { s with rng := { s.rng with cells := t.rng.cells, windows := t.rng.windows } }) ∧
      ((∃ x ∈ m.take 4, ok x = false) →
        (s.rng.failTick = none → EntropyFails s t (failMask ok m) (if kind = 2 then 4 else kind + 1)) ∧
        (s.rng.failTick ≠ none → t = { s with rng := { s.rng with cells := t.rng.cells } })))) ∧
  (∀ (s : State) (cells : Nat),
    (s.tick.count < 512 ∨ cells % 16 = 0 ∨ s.rng.failTick ≠ none ∨ s.faults.safe = true → exec (.repetitionCountFailure cells) s = .next s) ∧
    (512 ≤ s.tick.count → cells % 16 ≠ 0 → s.rng.failTick = none → s.faults.safe = false → ∃ t,
      exec (.repetitionCountFailure cells) s = .next t ∧ EntropyFails s t (cells % 16) 3)) ∧
  (∀ s : State, s.rng.failTick = none → s.faults.safe = false → s.boot.held = false →
    let due := s.tick.span = false ∧ s.tick.count = 1552 ∧ s.rng.seeded = false ∧ startupPassed s.rng = true
    (¬ due → exec (.rngFirstSeeding true) s = .next s) ∧
    (due → ∃ t, exec (.rngFirstSeeding true) s = .next t ∧
      t.rng = rootGenerate { s.rng with seeded := true, root := rootInstance s.rng } ∧ t.rng.seeded = true ∧
      t.rng.masks = true ∧ t.rng.services = true ∧
      (s.rng.services = false → ∀ who ∈ [childVault, childLms, childPosts], liveChild t who ≠ none) ∧
      flag t Reg.RNG_STAT_READY = true ∧ flag t Reg.RNG_STAT_ERR = false ∧
      flag t Reg.RNG_EVT_READY = true ∧ flag t Reg.NDL_STAT_MASK_OK = true ∧ flag t Reg.LDU_STAT_MASK_OK = true ∧
      flag t Reg.PUR_STAT_MASK_OK = true ∧ t = { s with regs := t.regs, rng := t.rng }) ∧
    (s.tick.count < 1536 → exec (.rngFirstSeeding false) s = .next s) ∧
    (1536 ≤ s.tick.count → ∃ t, exec (.rngFirstSeeding false) s = .next t ∧ EntropyFails s t 0 5)) ∧
  (∀ (s : State) (katOk : Bool), s.rng.failTick ≠ none ∨ s.faults.safe = true ∨ s.boot.held = true →
    exec (.rngFirstSeeding katOk) s = .next s) ∧
  (∀ s : State, let n := (getReg s Reg.RNG_RESEEDS).toNat
    let due := s.tick.span = false ∧ 0 < s.tick.count ∧ s.rng.seeded = true ∧ s.rng.failTick = none ∧
      s.tick.count % 1024 = 0 ∧ n + 1 < s.tick.count / 1024
    (¬ due → exec .rootReseed s = .next s) ∧
    (due → ∃ t, exec .rootReseed s = .next t ∧ (getReg t Reg.RNG_RESEEDS).toNat = min (n + 1) 0xFFFFFFFF ∧
      t.rng = rootReseeded s.rng ∧ t = { s with regs := t.regs, rng := t.rng }))

/-- The post that a word answers, after it: a held read's register takes the word (R264). -/
def answered (s : State) (i : Nat) (w : Word) : List (Nat × Post) :=
  let x := tget (Post.reset i) s.posts i
  match x.held with
  | none => s.posts
  | some rd => tput (Post.reset i) s.posts i (Post.setG { x with held := none } rd w)

/-- The words of the channels that wait on RNG_DATA, after one to initiator `i`. -/
def chanWords (s : State) (i : Nat) (w : Word) : List (Nat × Option Word) := (chanAnswered s i w).rng.chanReads

/-- R264, R266, R267: a read of RNG_DATA that gate 11 lets through gets the next word, or zero under ERR, or is held until a
word is ready or its time ends; one that it refuses gets none; a read of RNG_RAW gets samples while the tap is on. -/
def RandomReads : Prop :=
  (∀ (s : State) (i : Nat), gateCheck s s.gates.live i (regAddr Reg.RNG_DATA) .read = .deny → ∃ t f,
    exec (.rngDataRead i) s = .next t ∧ t.faults.fired = s.faults.fired ++ [f] ∧ f.src = srcGteDeny + 11 ∧
    t = { s with regs := t.regs, faults := t.faults, freeCtr := t.freeCtr }) ∧
  (∀ (s : State) (i : Nat), gateCheck s s.gates.live i (regAddr Reg.RNG_DATA) .read = .allow → (rngErr s = true → exec (.rngDataRead i) s = .next (emit s (.readReply i Reg.RNG_DATA 0#32))) ∧
    (rngErr s = false → s.rng.fifo = [] → exec (.rngDataRead i) s =
      .next (setRng s { s.rng with waiting := s.rng.waiting ++ [i] })) ∧
    (∀ w ws, rngErr s = false → s.rng.waiting = [] → s.rng.fifo = w :: ws → ∃ t, exec (.rngDataRead i) s = .next t ∧
      t.posts = answered s i w ∧
      t = { s with out := .readReply i Reg.RNG_DATA w :: s.out, posts := t.posts
                   rng := { s.rng with waiting := [], fifo := ws, chanReads := chanWords s i w } })) ∧
  (∀ s : State, (s.rng.waiting = [] → exec .rngDataTimeout s = .next s) ∧
    (∀ i is, s.rng.waiting = i :: is → ∃ t, exec .rngDataTimeout s = .next t ∧ t.posts = answered s i 0#32 ∧
      getF t Reg.RNG_UNDER_N = min (getF s Reg.RNG_UNDER_N + 1) 65535 ∧ flag t Reg.RNG_EVT_UNDER = true ∧
      t = { s with out := .readReply i Reg.RNG_DATA 0#32 :: s.out, posts := t.posts, regs := t.regs
                   rng := { s.rng with waiting := is, chanReads := chanWords s i 0#32 } })) ∧
  (∀ (s : State) (i : Nat) (w : Word), exec (.rngRawRead i w) s =
    .next (emit s (.readReply i Reg.RNG_RAW (if flag s Reg.RNG_RAW_SEL_EN then w else 0#32))))

end Sys2Proof.Claims

open Sys2Proof Sys2Proof.Machine Sys2Proof.Claims

/-- R256–R267: health tests, first seeding, reseeding, and the reads of random words.
Model's choices it rests on: notes/assumptions/7.md, notes/assumptions/47.md, notes/assumptions/91.md. -/
def Obligations.EntropyBlock : Prop := HealthAndSeeding ∧ RandomReads

/-! ### The SPDM responder, the SMBus target -/
namespace Sys2Proof.Claims
open Sys2Proof Sys2Proof.Machine

/-- Requests of the responder with their code bytes, those for which it signs or has a session, and those that need a
finished negotiation (R460, R461). -/
def spdmRows (ses : Nat) (r : Bytes) : List (Instr × Nat × Bool × Bool) :=
  [(.getVersion r, 0x84, false, false), (.getCapabilities r, 0xE1, false, false), (.negotiateAlgorithms r, 0xE3, false, false),
   (.getDigests r, 0x81, false, true), (.getCertificate r, 0x82, false, true), (.spdmChallenge r, 0x83, true, true),
   (.keyExchange r, 0xE4, true, true), (.finish ses r, 0xE5, true, true), (.heartbeat ses r, 0xE8, true, true),
   (.keyUpdate ses r, 0xE9, true, true), (.endSession ses r, 0xEC, true, true),
   (.vendorDefinedRequest ses r, 0xFE, true, true)]

/-- The answer goes out; what the link holds, its registers, the draws and the count of the device's own operations may
change, and nothing else. -/
def Answers (s : State) (row : Instr) (m : Bytes) (link : Link) : Prop :=
  ∃ t, exec row s = .next t ∧ t.link = link ∧ getF t Reg.HLK_SPDM_SESSIONS = link.sessions.length % 4 ∧
    getF t Reg.HLK_SPDM_VERSION = link.version % 256 ∧
    t = { s with out := .spdm m :: s.out, regs := t.regs, link := t.link, freeCtr := t.freeCtr, rng := t.rng
                 opCounts := t.opCounts }

/-- A request the device can answer: it is not held in reset, the code is the request's own, the negotiation is finished,
and it runs data service outside the states in which it gives its identity alone, with its identity key there (R371). -/
def Speaks (s : State) (r : Bytes) (code : Nat) : Prop :=
  s.boot.held = false ∧ byteAt r 1 = code ∧ s.link.algs = true ∧ identityOnly s = false ∧ running s = true ∧
    s.faults.zeroised = []

/-- The session is open, its handshake finished. -/
def InSession (s : State) (id : Nat) (x : Session) : Prop := findSession s id = some x ∧ x.established = true

/-- R460, R461: a request under another code, or while the device is held in reset, is no request; one that needs a
signature or a session is refused in the identity-only states, before the negotiation, before data service, and while a ZEROISE
response stands (R371). -/
def SpdmRefuses : Prop :=
  ∀ (s : State) (ses : Nat) (r : Bytes), ∀ x ∈ spdmRows ses r,
    (s.boot.held = true ∨ byteAt r 1 ≠ x.2.1 → exec x.1 s = .next s) ∧
    (s.boot.held = false → byteAt r 1 = x.2.1 → x.2.2.1 = true → identityOnly s = true →
      exec x.1 s = .next (emit s (.spdm (spdmMsg s 0x7F 0x04 0 [])))) ∧
    (s.boot.held = false → byteAt r 1 = x.2.1 → (x.2.2.1 = true → identityOnly s = false) → x.2.2.2 = true →
      s.link.algs = false → exec x.1 s = .next (emit s (.spdm (spdmMsg s 0x7F 0x04 0 [])))) ∧
    (s.boot.held = false → byteAt r 1 = x.2.1 → x.2.2.1 = true → identityOnly s = false → s.link.algs = true →
      running s = false ∨ s.faults.zeroised ≠ [] → exec x.1 s = .next (emit s (.spdm (spdmMsg s 0x7F 0x42 0 []))))

/-- R460: the negotiation, the certificates, the challenge and the measurements. -/
def SpdmIdentifies : Prop :=
  ∀ (s : State) (r : Bytes),
    (s.boot.held = false → byteAt r 1 = 0x84 → let m : Bytes := [0x10, 0x04, 0, 0, 0, 2, 0x00, 0x12, 0x00, 0x13]
      Answers s (.getVersion r) m { s.link with
        version := 0, algs := false, transA := r ++ m, transB := [], transL := [] }) ∧
    (s.boot.held = false → byteAt r 1 = 0xE1 → s.link.transA ≠ [] → byteAt r 0 = 0x12 ∨ byteAt r 0 = 0x13 →
      ∃ m, byteAt m 0 = byteAt r 0 ∧ byteAt m 1 = 0x61 ∧ byteAt m 5 = 12 ∧
        Answers s (.getCapabilities r) m { s.link with version := byteAt r 0, transA := s.link.transA ++ (r ++ m) }) ∧
    (s.boot.held = false → byteAt r 1 = 0xE3 → s.link.version ≠ 0 → bitAt (leAt r 8 4) 7 = true →
      bitAt (leAt r 12 4) 1 = true → ∃ m, byteAt m 1 = 0x63 ∧ leAt m 0x0C 4 = 0x80 ∧ leAt m 0x10 4 = 2 ∧
        Answers s (.negotiateAlgorithms r) m { s.link with algs := true, transA := s.link.transA ++ (r ++ m) }) ∧
    (s.boot.held = false → byteAt r 1 = 0x81 → s.link.algs = true →
      let m := spdmMsg s 0x01 0 1 (sha384 certChain)
      Answers s (.getDigests r) m { s.link with transB := s.link.transB ++ (r ++ m) }) ∧
    (s.boot.held = false → byteAt r 1 = 0x82 → s.link.algs = true → reqP1 r % 16 = 0 → leAt r 4 2 < certChain.length →
      let n := min (leAt r 6 2) (certChain.length - leAt r 4 2)
      let m := spdmMsg s 0x02 0 0 (leBytes 2 n ++ leBytes 2 (certChain.length - leAt r 4 2 - n) ++ sub certChain (leAt r 4 2) n)
      Answers s (.getCertificate r) m { s.link with transB := s.link.transB ++ (r ++ m) }) ∧
    (Speaks s r 0x83 → reqP1 r = 0 → ∃ nonce k, nonce.length = 32 ∧
      (let m := spdmMsg s 0x03 0 1 (sha384 certChain ++ nonce ++ measSummary s (reqP2 r) ++ leBytes 2 0)
       let sig := ecdsaSign p384 identityScalar k (sha384 (signPrefix s "responder-challenge_auth signing" ++
         sha384 (s.link.transA ++ s.link.transB ++ r ++ m)))
       Answers s (.spdmChallenge r) (m ++ sig) { s.link with transB := [] })) ∧
    (Speaks s r 0xE0 → 1 ≤ reqP2 r → reqP2 r ≤ 4 → ∃ nonce k, nonce.length = 32 ∧
      (let b := measBlock s (reqP2 r)
       let m := spdmMsg s 0x60 0 0 (leBytes 1 1 ++ leBytes 3 b.length ++ b ++ nonce ++ leBytes 2 0)
       let l := s.link.transL ++ r ++ m
       let sig := ecdsaSign p384 identityScalar k (sha384 (signPrefix s "responder-measurements signing" ++
         sha384 (s.link.transA ++ l)))
       (reqP1 r % 2 = 1 → Answers s (.getMeasurements r) (m ++ sig) { s.link with transL := [] }) ∧
       (reqP1 r % 2 = 0 → Answers s (.getMeasurements r) m { s.link with transL := l })))

/-- R459–R461: sessions. A key exchange opens one of two, where its Diffie-Hellman with the drawn scalar has a secret;
FINISH establishes it, or ends it on wrong verify data; within it
the heartbeat, the key update and the end are answered, and IDE_KM programs a stream's keys and takes it in or out of
Secure state. -/
def SpdmSessions : Prop :=
  (∀ (s : State) (r : Bytes), Speaks s r 0xE4 →
    (freeSession s = none → Answers s (.keyExchange r) (spdmMsg s 0x7F 0x0A 0 []) s.link) ∧
    (∀ id, freeSession s = some id →
      (∃ m t x, exec (.keyExchange r) s = .next t ∧ t.out = .spdm m :: s.out ∧ byteAt m 1 = 0x64 ∧
        t.link = { s.link with sessions := s.link.sessions ++ [x] } ∧ x.id = id ∧ x.established = false) ∨
      Answers s (.keyExchange r) (spdmMsg s 0x7F 0x01 0 []) s.link) ∧
    (∀ id x, freeSession s = some id →
      let d := drawFrom childPosts 88 s
      let k := beBytes 48 (ecScalar p384 (d.1.take 56))
      let m := spdmMsg s 0x64 0 0 (leBytes 2 id ++ [0, 0] ++ d.1.drop 56 ++ (ecPublic p384 k).drop 1 ++
        measSummary s (reqP1 r) ++ leBytes 2 0)
      let tr := s.link.transA ++ sha384 certChain ++ r ++ m
      let g := spdmSign d.2 "responder-key_exchange_rsp signing" tr
      let key := x ++ sha384 (tr ++ g.1)
      ecdhSecret p384 k ([4] ++ sub r 40 96) = some x →
        Answers s (.keyExchange r) (m ++ g.1 ++ verifyData key tr) { s.link with
          sessions := s.link.sessions ++ [⟨id, false, key, 0⟩] })) ∧
  (∀ (s : State) (id : Nat) (r : Bytes) (x : Session), Speaks s r 0xE5 → findSession s id = some x →
    (x.established = true → Answers s (.finish id r) (spdmMsg s 0x7F 0x04 0 []) s.link) ∧
    (x.established = false → Config.pkOk 4 [x.secret, r.take 4, r.drop 4] = true →
      Answers s (.finish id r) (spdmMsg s 0x65 0 0 []) { s.link with
        sessions := s.link.sessions.map (fun y => if y.id == x.id then { x with established := true } else y) }) ∧
    (x.established = false → Config.pkOk 4 [x.secret, r.take 4, r.drop 4] = false →
      Answers s (.finish id r) (spdmMsg s 0x7F 0x06 0 []) { s.link with
        sessions := s.link.sessions.filter (fun y => y.id != id) })) ∧
  (∀ (s : State) (id : Nat) (r : Bytes) (x : Session), InSession s id x →
    (Speaks s r 0xE8 → Answers s (.heartbeat id r) (spdmMsg s 0x68 0 0 []) s.link) ∧
    (Speaks s r 0xE9 → reqP1 r = 3 → Answers s (.keyUpdate id r) (spdmMsg s 0x69 3 (reqP2 r) []) s.link) ∧
    (Speaks s r 0xE9 → reqP1 r = 1 ∨ reqP1 r = 2 → Answers s (.keyUpdate id r) (spdmMsg s 0x69 (reqP1 r) (reqP2 r) [])
      { s.link with
        sessions := s.link.sessions.map (fun y => if y.id == x.id then { x with updates := x.updates + 1 } else y) }) ∧
    (Speaks s r 0xEC → Answers s (.endSession id r) (spdmMsg s 0x6C 0 0 []) { s.link with
      sessions := s.link.sessions.filter (fun y => y.id != x.id) }) ∧
    (Speaks s r 0xFE → leAt r 4 2 = 3 → byteAt r 6 = 2 → leAt r 7 2 = 1 → byteAt r 11 = 0 →
      let o := r.drop 12
      let k := byteAt o 3
      streamOk k = true →
      (byteAt o 0 = 2 → ∃ m, Answers s (.vendorDefinedRequest id r) m { s.link with
        ideKeys := tinsert k (sub o 7 40) s.link.ideKeys }) ∧
      (byteAt o 0 = 4 → (tfind s.link.ideKeys k).isSome = true → ∃ m t, exec (.vendorDefinedRequest id r) s = .next t ∧
        t.out = .spdm m :: s.out ∧ (∀ j, j ∈ t.link.secure ↔ j ∈ s.link.secure ∨ j = k) ∧
        (k = 255 → flag t Reg.HLK_IDE_LINK = true)) ∧
      (byteAt o 0 = 5 → ∃ m t, exec (.vendorDefinedRequest id r) s = .next t ∧ t.out = .spdm m :: s.out ∧
        (∀ j, j ∈ t.link.secure ↔ j ∈ s.link.secure ∧ j ≠ k) ∧ (k = 255 → flag t Reg.HLK_IDE_LINK = false)) ∧
      (byteAt o 0 = 4 → tfind s.link.ideKeys k = none →
        Answers s (.vendorDefinedRequest id r) (spdmMsg s 0x7F 0x01 0 []) s.link)))

/-- R463: every block read answers from the state it names, zeros while the die is held, and changes nothing; an alert is
released by its response. -/
def SmbusReads : Prop :=
  (∀ s : State, s.thm.main = true →
    exec .status s = .next (emit s (.smbus (leBytes 1 (smbusStatus s)))) ∧
    (∀ x ∈ [(Instr.temp, leBytes 1 (getF s Reg.GOV_TEMP_DEG) ++ leBytes 1 (getF s Reg.DDR_TEMP_DEG)),
        (.lifecycle, leBytes 2 (getReg s Reg.LCY_STAT).toNat),
        (.fault, leBytes 4 (getReg s Reg.FCL_STAT).toNat ++ leBytes 4 (fclFirst0 s).toNat ++
          leBytes 4 (getReg s Reg.FCL_FIRED).toNat),
        (.revision, leBytes 4 siliconRevision)],
      exec x.1 s = .next (emit s (.smbus (if s.boot.held then zeros x.2.length else x.2)))) ∧
    (s.smbAlert = true → exec .alertResponse s = .next (emit { s with smbAlert := false } (.smbus [0x5A]))) ∧
    (s.smbAlert = false → exec .alertResponse s = .next s)) ∧
  (∀ s : State, s.boot.held = true → smbusStatus s = 0x80) ∧
  (∀ s : State, s.boot.held = false → smbusStatus s = (if running s then 1 else 0) + (if s.faults.safe then 2 else 0) +
    (if flag s Reg.FCL_STAT_PEND = true ∨ s.faults.safe = true then 4 else 0) +
    (if lcyState s = lcyTampered then 8 else 0) + (if flag s Reg.THM_STAT_BATT_LOW then 16 else 0)) ∧
  (∀ s : State, s.thm.main = false → ∀ i ∈ [Instr.status, .temp, .lifecycle, .fault, .revision, .alertResponse],
    exec i s = .next s) ∧
  (∀ s : State, exec .smbusTimeout s = .next s)

end Sys2Proof.Claims

open Sys2Proof Sys2Proof.Machine Sys2Proof.Claims

/-- R459–R461: the requests of the SPDM responder. -/
def Sys2Proof.Claims.SpdmResponder : Prop := SpdmRefuses ∧ SpdmIdentifies ∧ SpdmSessions

/-- R463, R505: the SMBus target's rows. -/
def Sys2Proof.Claims.SmbusTarget : Prop := SmbusReads

/-- R459–R461, R463, R505: the SPDM responder and the SMBus target.
Model's choices it rests on: notes/assumptions/4.md, notes/assumptions/6.md, notes/assumptions/7.md, notes/assumptions/23.md, notes/assumptions/89.md, notes/assumptions/91.md. -/
def Obligations.ManagementInterfaces : Prop := Sys2Proof.Claims.SpdmResponder ∧ Sys2Proof.Claims.SmbusTarget

/-! ### The flash controller and the sill registers -/
namespace Sys2Proof.Claims
open Sys2Proof Sys2Proof.Machine

/-- The controller takes a request: it is ready, runs none, and is neither halted nor in the safe state (R403). -/
def FlsTakes (s : State) : Prop :=
  s.faults.safe = false ∧ s.faults.flashHalted = false ∧ flag s Reg.FLS_STAT_READY = true ∧ flsBusy s = false

/-- A request ended with an error, 0 for DONE (R403). -/
def FlsEnded (t : State) (err : Nat) : Prop :=
  getF t Reg.FLS_CMD_STAT_STATE = (if err = 0 then 2 else 3) ∧ getF t Reg.FLS_CMD_STAT_ERR = err ∧
    flag t Reg.FLS_EVT_CMD_DONE = true

/-- Nothing waits for a bank, and no sill batch is on its way. -/
def NothingWaits (s : State) : Prop := s.nv.wait = none ∧ s.nv.silWait = [] ∧ s.nv.silProg = []

/-- R403, R404, R407, R409: a program, an erase or a zeroing ends with the first error its checks find, waits for its bank, or
starts on it; an erase that starts counts, and has its OPEN record in the journal. -/
def FlashRequests : Prop :=
  ∀ (s : State), ∀ y ∈ [(1, Instr.programPage), (2, .programUnit), (3, .erase), (6, .zeroUnit)], FlsTakes s →
    let e := flsError s y.1
    let blk := flsOff s / 65536
    let b := getBank s (bankOf blk)
    let units := if y.1 = 3 then [] else flsUnits s y.1
    (e ≠ 0 → e ≠ 5 → ∃ t, exec y.2 s = .next t ∧ FlsEnded t e ∧ t = { s with regs := t.regs }) ∧
    (e = 5 → ∃ t f, exec y.2 s = .next t ∧ FlsEnded t 5 ∧ t.faults.fired = s.faults.fired ++ [f] ∧ f.init = initFlash ∧
      t = { s with regs := t.regs, faults := t.faults, freeCtr := t.freeCtr }) ∧
    (e = 0 → bankProgramming s (bankOf blk) = true ∨ b.op = 2 → ∃ t, exec y.2 s = .next t ∧
      getF t Reg.FLS_CMD_STAT_STATE = 1 ∧
      t = { s with regs := t.regs, nv := { s.nv with wait := some (blk, units, y.1 == 3) } }) ∧
    (e = 0 → y.1 ≠ 3 → bankProgramming s (bankOf blk) = false → b.op = 0 → ∃ t, exec y.2 s = .next t ∧
      getF t Reg.FLS_CMD_STAT_STATE = 1 ∧ getBank t (bankOf blk) = ⟨1, blk, units, true, false, 0, none⟩ ∧
      t.nv.units = s.nv.units ∧ t = { s with regs := t.regs, nv := t.nv }) ∧
    (e = 0 → y.1 = 3 → bankProgramming s (bankOf blk) = false → b.op = 0 → ∃ t, exec y.2 s = .next t ∧
      getF t Reg.FLS_CMD_STAT_STATE = 1 ∧ getBank t (bankOf blk) = ⟨2, blk, [], true, false, 1, none⟩ ∧
      getBlock t blk = { getBlock s blk with erases := (getBlock s blk).erases + 1 } ∧ t.nv.units = s.nv.units ∧
      (journalTurns s = false →
        (∃ r, t.nv.journal = s.nv.journal ++ [r] ∧ r.mac = eraseMac r ∧
          r = ⟨1, 0, blk, (getBlock s blk).erases + 1, s.nv.jseq, sillVal s 0, r.mac⟩) ∧
        (getReg t Reg.FLS_ERASE_CNT).toNat = min ((getReg s Reg.FLS_ERASE_CNT).toNat + 1) 0xFFFFFFFF ∧
        ((getBlock s blk).erases + 1 = 90000 → fires s t srcFlsWear 1) ∧
        ((getBlock s blk).erases + 1 = 100000 → fires s t srcFlsWear 2)))

/-- R403, R404: SUSPEND ends its request with the erase suspended, RESUME runs it on; each ends with error 7 where there is
nothing to act on. -/
def ErasesAreSuspended : Prop :=
  (∀ s : State, s.faults.safe = false → flag s Reg.FLS_STAT_READY = true →
    (∀ k, eraseBank s 2 = some k → ∃ t, exec .suspend s = .next t ∧ FlsEnded t 0 ∧ flag t Reg.FLS_EVT_SUSPENDED = true ∧
      getBank t k = { getBank s k with op := 3 } ∧ t = { s with regs := t.regs, nv := t.nv }) ∧
    (eraseBank s 2 = none → flsBusy s = false → ∃ t, exec .suspend s = .next t ∧ FlsEnded t 7 ∧
      t = { s with regs := t.regs })) ∧
  (∀ s : State, FlsTakes s →
    (∀ k, eraseBank s 3 = some k → bankProgramming s k = false → ∃ t, exec .resume s = .next t ∧
      getF t Reg.FLS_CMD_STAT_STATE = 1 ∧ getBank t k = { getBank s k with op := 2 } ∧
      t = { s with regs := t.regs, nv := t.nv }) ∧
    (eraseBank s 3 = none → ∃ t, exec .resume s = .next t ∧ FlsEnded t 7 ∧ t = { s with regs := t.regs }))

/-- R404, R407–R409: a program that ends leaves its units with what they took; an erase leaves its block erased with a DONE
record, tries again, or at its third failure leaves it indeterminate; the reset scan takes each block's count from its latest
record in the journal, and makes a block indeterminate that this record leaves open. -/
def FlashOperationsEnd : Prop :=
  (∀ (s : State) (k : Nat), k ≤ 1 → let b := getBank s k
    (∀ ok, b.op ≠ 1 → exec (.flashProgramDone k ok) s = .next s) ∧
    (b.op = 1 → (b.units.map (·.1)).Nodup → ∃ t, exec (.flashProgramDone k true) s = .next t ∧
      (∀ u ∈ b.units, getUnit t u.1 = u.2) ∧
      (∀ n, n ∉ b.units.map (·.1) → getUnit t n = getUnit s n) ∧
      (NothingWaits s → b.saved = none → getBank t k = FBank.idle ∧ (b.cmd = true → FlsEnded t 0)) ∧
      t.mem = s.mem) ∧
    (b.op = 1 → NothingWaits s → b.saved = none → ∃ t, exec (.flashProgramDone k false) s = .next t ∧
      getBank t k = FBank.idle ∧ (b.cmd = true → FlsEnded t 6))) ∧
  (∀ (s : State) (k : Nat), k ≤ 1 → let b := getBank s k
    (∀ ok, b.op ≠ 2 → exec (.flashEraseDone k ok) s = .next s) ∧
    (b.op = 2 → b.attempts < 3 →
      exec (.flashEraseDone k false) s = .next (setBank s k { b with attempts := b.attempts + 1 })) ∧
    (b.op = 2 → NothingWaits s → b.saved = none →
      (∃ t, exec (.flashEraseDone k true) s = .next t ∧
        (∀ u, getUnit t u = if u / 2048 = b.block then .erased else getUnit s u) ∧
        (journalTurns s = false → getBlock t b.block = { getBlock s b.block with indet := false } ∧
          ∃ r, t.nv.journal = s.nv.journal ++ [r] ∧ r.mac = eraseMac r ∧
            r = ⟨2, 0, b.block, (getBlock s b.block).erases, s.nv.jseq, sillVal s 0, r.mac⟩) ∧
        getBank t k = FBank.idle ∧ (b.cmd = true → FlsEnded t 0)) ∧
      (3 ≤ b.attempts → ∃ t, exec (.flashEraseDone k false) s = .next t ∧
        getBlock t b.block = { getBlock s b.block with indet := true } ∧ t.nv.journal = s.nv.journal ∧ fires s t srcFlsWear 3 ∧
        getBank t k = FBank.idle ∧ (b.cmd = true → FlsEnded t 6)))) ∧
  (∀ s : State, (flag s Reg.FLS_STAT_READY = true ∨ s.boot.held = true → exec .resetScanDone s = .next s) ∧
    (flag s Reg.FLS_STAT_READY = false → s.boot.held = false → flsBusy s = false → ∃ t, exec .resetScanDone s = .next t ∧
      flag t Reg.FLS_STAT_READY = true ∧
      t.nv.blocks = s.nv.blocks.map (fun b => (b.1, match lastErase s b.1 with
        | some r => ⟨r.count, r.typ == 1 || (r.typ == 3 && r.flag == 1)⟩
        | none => ⟨b.2.erases, false⟩)) ∧
      (flag t Reg.FLS_STAT_WEAR = true ↔ ∃ b ∈ t.nv.blocks, 90000 ≤ b.2.erases) ∧
      t = { s with regs := t.regs, nv := { s.nv with blocks := t.nv.blocks } }))

/-- The write of a sill register was dropped (R412). -/
def SillDropped (s t : State) : Prop :=
  getF t Reg.SIL_DROP_N = min (getF s Reg.SIL_DROP_N + 1) 65535 ∧ flag t Reg.SIL_EVT_FULL = true ∧ t.sill = s.sill

/-- R411–R415: a write of a sill register is queued, replaces one that waits, or is dropped; a batch that ends gives its
registers their values and counts a write of each, and the IV counter's sets IV_RSV (R142). -/
def SillRegisters : Prop :=
  (∀ (s : State) (n : Nat) (v : Word),
    (512 ≤ n → exec (.sillWrite n v) s = .next s) ∧
    (n < 16 ∨ (n < 512 ∧ (flag s Reg.SIL_STAT_READY = false ∨ (silCount s n < 1000000 ∧ 8 ≤ s.nv.silWait.length ∧
        (∀ x ∈ s.nv.silWait, x.1 ≠ n)))) → ∃ t, exec (.sillWrite n v) s = .next t ∧ SillDropped s t ∧
      t = { s with regs := t.regs }) ∧
    (16 ≤ n → n < 512 → flag s Reg.SIL_STAT_READY = true →
      (1000000 ≤ silCount s n → ∃ t, exec (.sillWrite n v) s = .next t ∧ SillDropped s t ∧ n ∈ t.nv.silTold ∧
        (n ∉ s.nv.silTold → fires s t srcSilLimit 0) ∧ (n ∈ s.nv.silTold → t.faults = s.faults)) ∧
      (silCount s n < 1000000 → (∃ x ∈ s.nv.silWait, x.1 = n) →
        exec (.sillWrite n v) s = .next (setNv s { s.nv with
          silWait := s.nv.silWait.map (fun x => if x.1 == n then (n, v) else x) })) ∧
      (silCount s n < 1000000 → (∀ x ∈ s.nv.silWait, x.1 ≠ n) → s.nv.silWait.length < 8 → ∃ t,
        exec (.sillWrite n v) s = .next t ∧ (n, v) ∈ t.nv.silWait ++ t.nv.silProg ∧ t.sill = s.sill ∧
        t = { s with regs := t.regs, nv := t.nv }))) ∧
  (∀ s : State, (s.nv.silProg = [] → exec .sillBatchDone s = .next s) ∧
    (s.nv.silProg ≠ [] → (s.nv.silProg.map (·.1)).Nodup → ∃ t, exec .sillBatchDone s = .next t ∧
      (∀ x ∈ s.nv.silProg, tget 0#32 t.sill x.1 = x.2 ∧ silCount t x.1 = silCount s x.1 + 1) ∧
      (∀ n, n ∉ s.nv.silProg.map (·.1) → tget 0#32 t.sill n = tget 0#32 s.sill n ∧ silCount t n = silCount s n) ∧
      (s.nv.silWait = [] → t.nv.silProg = []) ∧
      ((∃ x ∈ s.nv.silProg, x.1 = 1) → flag t Reg.NDL_EVT_IV_RSV = true) ∧
      (s.nv.silWait ≠ [] → s.nv.bank0.op ≠ 1 → s.faults.flashHalted = false →
        t.nv.silProg = s.nv.silWait ∧ t.nv.silWait = [])))

end Sys2Proof.Claims

open Sys2Proof Sys2Proof.Machine Sys2Proof.Claims

/-- R403, R404, R407–R409: the requests of the flash controller and the ends of its operations. -/
def Sys2Proof.Claims.FlashController : Prop := FlashRequests ∧ ErasesAreSuspended ∧ FlashOperationsEnd

/-- R411–R415: writes of the sill registers. -/
def Sys2Proof.Claims.SillWrites : Prop := SillRegisters

/-- R403, R404, R407–R409, R411–R415: the flash controller and the sill registers.
Model's choices it rests on: notes/assumptions/7.md, notes/assumptions/11.md, notes/assumptions/20.md. -/
def Obligations.NonvolatileDie : Prop := Sys2Proof.Claims.FlashController ∧ Sys2Proof.Claims.SillWrites

/-! ### Cards, the two-party guard, domain ceremonies, the lifecycle -/
namespace Sys2Proof.Claims
open Sys2Proof Sys2Proof.Machine

/-- An officer command ends with a status and a reason, inline and in OFC_ERR_INFO (R431). -/
def guardRefused (s : State) (n : Nat) (c : Ctx) (reason : Nat) : State :=
  ends (setF (setF s Reg.OFC_ERR_INFO_OPCODE (eOp c.entry)) Reg.OFC_ERR_INFO_REASON reason) n c
    { failed (ofcStatus reason) with inline := leBytes 8 reason }

/-- The command ended with a reason, whatever else followed from it (R431). -/
def EndedWith (t : State) (n : Nat) (c : Ctx) (reason : Nat) : Prop :=
  getCtx t n = some { c with adminDone := some { failed (ofcStatus reason) with inline := leBytes 8 reason } } ∧
    getF t Reg.OFC_ERR_INFO_REASON = reason

/-- The card has a command from the slot: CLA 0x80, the instruction and its parameters, then the data (R422). -/
def cardCmd (i ins p1 p3 : Nat) (data : Bytes) : Out :=
  .card i ([0x80, BitVec.ofNat 8 ins, BitVec.ofNat 8 p1, 0, BitVec.ofNat 8 p3] ++ data)

/-- A slot's card error: the code stands, the event is set, no exchange runs and no session is left (R421, R434). -/
def CardFailed (t : State) (i code : Nat) : Prop :=
  getF t (slotFld i Reg.OFC_SLOTA_ERR) = code ∧ flag t Reg.OFC_EVT_CARD_ERR = true ∧ (getCard t i).job = .none ∧
    (getCard t i).serial = [] ∧ slotOfficer t i = 0

/-- R419–R422: a card that comes in is activated, or fails where it does not offer T=0; one that leaves ends its slot's
session; GET_INFO makes it READY; a time-out or a wrong status word is a card error. -/
def CardsComeAndGo : Prop :=
  (∀ (s : State) (i : Nat), i ≤ 1 → cardsServed s = true → (getCard s i).present = false →
    (∃ t, exec (.cardInsert i true) s = .next t ∧ getCard t i = ⟨true, [], .info, 0⟩ ∧ slotSt t i = 2 ∧
      flag t Reg.OFC_EVT_INSERT = true ∧ t.out = cardCmd i 0x10 0 32 [] :: s.out ∧
      t = { s with regs := t.regs, ofc := t.ofc, out := t.out }) ∧
    (∃ t, exec (.cardInsert i false) s = .next t ∧ CardFailed t i 2 ∧ slotSt t i = 6 ∧ t.out = s.out)) ∧
  (∀ (s : State) (i : Nat), i ≤ 1 → s.boot.held = false → (getCard s i).present = true →
    ((getCard s i).job = .none → ∃ t, exec (.cardRemove i) s = .next t ∧ (getCard t i).present = false ∧ slotSt t i = 0 ∧
      slotOfficer t i = 0 ∧ slotKind t i = 0 ∧ flag t Reg.OFC_EVT_REMOVE = true ∧ t = { s with regs := t.regs, ofc := t.ofc }) ∧
    ((getCard s i).job = .info → ∃ t, exec (.cardRemove i) s = .next t ∧ (getCard t i).present = false ∧ CardFailed t i 7 ∧
      slotSt t i = 0)) ∧
  (∀ (s : State) (i sw : Nat) (data : Bytes), i ≤ 1 → (getCard s i).job = .info →
    (sw = 0x9000 → s.ofc.ceremony = none → ∃ t, exec (.getInfo i sw data) s = .next t ∧
      getCard t i = { getCard s i with job := .none, serial := sub data 1 16 } ∧ slotSt t i = 3 ∧
      slotKind t i = (if byteAt data 0 = 1 ∨ byteAt data 0 = 2 then byteAt data 0 else 0) ∧
      t = { s with regs := t.regs, ofc := t.ofc }) ∧
    (sw ≠ 0x9000 → ∃ t, exec (.getInfo i sw data) s = .next t ∧ CardFailed t i 6) ∧
    (∃ t, exec (.cardTimeout i false) s = .next t ∧ CardFailed t i 1 ∧ slotSt t i = 6)) ∧
  (∀ (s : State) (i : Nat) (busy : Bool), i ≤ 1 →
    ((getCard s i).job = .none → exec (.cardTimeout i busy) s = .next s) ∧
    (∀ k, (getCard s i).job = .enrol k → ∃ t f, exec (.cardTimeout i busy) s = .next t ∧
      CardFailed t i (if busy then 5 else 4) ∧ t.faults.fired = s.faults.fired ++ [f] ∧ f.src = srcOfcCard ∧
      f.detail = (if busy then 5 else 4)))

/-- R424, R425, R429: the answers of the cards. A right response opens the officer's session, or lets the approval stand; a
wrong one counts, and the third locks the officer. -/
def CardsAnswer : Prop :=
  (∀ (s : State) (i n o : Nat) (d v resp : Bytes) (c : Ctx), i ≤ 1 → o < 17 → (getCard s i).job = .login n o d v →
    getCtx s n = some c → let x := getOfficer s o
    (cmac x.key d = padTo 16 resp → (getCard s i).serial = x.serial → ∃ t, exec (.challenge i 0x9000 resp) s = .next t ∧
      slotSt t i = 4 ∧ slotOfficer t i = o ∧ getOfficer t o = { x with st := 2, verifier := v } ∧
      (getCard t i).job = .none ∧ (getCard t i).used = s.tick.count ∧
      getCtx t n = some { c with adminDone := some (inlined []) }) ∧
    (cmac x.key d = padTo 16 resp → (getCard s i).serial ≠ x.serial → ∃ t, exec (.challenge i 0x9000 resp) s = .next t ∧
      EndedWith t n c 6 ∧ slotOfficer t i = 0) ∧
    (cmac x.key d ≠ padTo 16 resp → ∃ t, exec (.challenge i 0x9000 resp) s = .next t ∧ EndedWith t n c 8 ∧
      slotOfficer t i = 0 ∧ (getCard t i).job = .none ∧ (3 ≤ attempts s o + 1 → (getOfficer t o).st = 3 ∧
        flag t Reg.OFC_EVT_LOCKED = true ∧ ∃ f ∈ t.faults.fired, f.src = srcOfcLock))) ∧
  (∀ (s : State) (i n : Nat) (d resp : Bytes) (c : Ctx) (ch : Change), i ≤ 1 → (getCard s i).job = .approve n d →
    getCtx s n = some c → s.ofc.change = some ch → let o := slotOfficer s i
    cmac (getOfficer s o).key d = padTo 16 resp →
    (ch.digest.take 16 ++ deviceId s ≠ d → ∃ t, exec (.challenge i 0x9000 resp) s = .next t ∧ EndedWith t n c 1 ∧
      t.ofc.change = some ch) ∧
    (ch.digest.take 16 ++ deviceId s = d → approvalReason s ch o false ≠ 0 → ∃ t,
      exec (.challenge i 0x9000 resp) s = .next t ∧ EndedWith t n c 10 ∧ t.ofc.change = some ch) ∧
    (ch.digest.take 16 ++ deviceId s = d → approvalReason s ch o false = 0 → ∃ t,
      exec (.challenge i 0x9000 resp) s = .next t ∧
      t.ofc.change = some { ch with approvals := ch.approvals ++ [⟨o, false, i⟩] } ∧ slotSt t i = 4 ∧
      getF t Reg.OFC_GUARD_APPROVALS = min 2 (ch.approvals.length + 1) ∧
      getCtx t n = some { c with adminDone := some (inlined []) } ∧
      t = { s with regs := t.regs, ofc := t.ofc, ctxs := t.ctxs }))

/-- R422, R432, R433: the answers of share cards: the blocks of a card are read in turn, its share is written to the block
chosen and read back; and the WRITE_KEY of an enrolment. -/
def ShareCardsAnswer : Prop :=
  (∀ (s : State) (i b : Nat) (data : Bytes) (c : Ceremony), i ≤ 1 → s.ofc.ceremony = some c →
    let done := getF s Reg.OFC_CER_DONE_CNT
    ((getCard s i).job = .read b → b < 3 → ∃ t, exec (.readBlock i 0x9000 data) s = .next t ∧
      t.ofc.ceremony = some { c with blocks := c.blocks ++ [padTo 128 data] } ∧ (getCard t i).job = .read (b + 1) ∧
      t.out = cardCmd i 0x30 (b + 1) 128 [] :: s.out ∧ t = { s with regs := t.regs, ofc := t.ofc, out := t.out }) ∧
    ((getCard s i).job = .read 3 → c.kind ≠ 0x11 → ∃ t, exec (.readBlock i 0x9000 data) s = .next t ∧
      (let k := targetBlock (c.blocks ++ [padTo 128 data])
       (getCard t i).job = .write k ∧ t.out = cardCmd i 0x32 k 128 (shareBlock c (done + 1)) :: s.out) ∧
      getF t Reg.OFC_CER_STATE = 2) ∧
    ((getCard s i).job = .read 3 → c.kind = 0x11 →
      (∃ y ∈ c.blocks ++ [padTo 128 data], blockOk y = true) → ∃ t, exec (.readBlock i 0x9000 data) s = .next t ∧
      getF t Reg.OFC_CER_DONE_CNT = (bestShares (c.found ++ (c.blocks ++ [padTo 128 data]).filter blockOk)).length % 16 ∧
      (∃ c2, t.ofc.ceremony = some c2 ∧ c2.found = c.found ++ (c.blocks ++ [padTo 128 data]).filter blockOk)) ∧
    ((getCard s i).job = .verify b → data = shareBlock c (done + 1) → ∃ t, exec (.readBlock i 0x9000 data) s = .next t ∧
      getF t Reg.OFC_CER_DONE_CNT = min (done + 1) 15 ∧ getF t Reg.OFC_CER_RETRY = getF s Reg.OFC_CER_RETRY) ∧
    ((getCard s i).job = .verify b → data ≠ shareBlock c (done + 1) → ∃ t, exec (.readBlock i 0x9000 data) s = .next t ∧
      getF t Reg.OFC_CER_DONE_CNT = done ∧ getF t Reg.OFC_CER_RETRY = min (getF s Reg.OFC_CER_RETRY + 1) 255) ∧
    ((getCard s i).job = .write b → ∃ t, exec (.writeBlock i 0x9000) s = .next t ∧ (getCard t i).job = .verify b ∧
      t.out = cardCmd i 0x30 b 128 [] :: s.out ∧ t = { s with regs := t.regs, ofc := t.ofc, out := t.out })) ∧
  (∀ (s : State) (i k sw : Nat) (ch : Change) (e : GuardEntry), i ≤ 1 → (getCard s i).job = .enrol k →
    s.ofc.change = some ch → ch.entries[k]? = some e → ∃ t c2, exec (.writeKey i sw) s = .next t ∧ t.ofc.change = some c2 ∧
      c2.entries[k]? = some { e with written := some (sw == 0x9000) } ∧
      (∀ j, j ≠ k → c2.entries[j]? = ch.entries[j]?) ∧ slotOfficer t i = 0 ∧ (getCard t i).job = .none)

/-- R426, R427: a change is staged from its source under the next number, with its digest at the destination; while one is
staged, and where an entry is malformed or refused, the command ends with its reason. -/
def ChangesAreStaged : Prop :=
  ∀ (s : State) (n : Nat) (c : Ctx), AdminDue s n 0x8C c → let e := c.entry
    let len := eLen e
    (s.ofc.change ≠ none → exec (.guardStage n) s = .next (guardRefused s n c 2)) ∧
    (s.ofc.change = none → len < 32 ∨ 4368 < len → exec (.guardStage n) s = .next (guardRefused s n c 3)) ∧
    (s.ofc.change = none → 32 ≤ len → len ≤ 4368 → sourceAwaited s n c (.guardStage n) ∧
      (c.srcFail = false → len ≤ c.src.length →
        (parseChange (c.src.take len) = none → exec (.guardStage n) s = .next (guardRefused s n c 3)) ∧
        (∀ es, parseChange (c.src.take len) = some es →
          (entriesReason s es ≠ 0 → exec (.guardStage n) s = .next (guardRefused s n c (entriesReason s es))) ∧
          (entriesReason s es = 0 → (getSlice s 0).logs = [] → ∃ t, exec (.guardStage n) s = .next t ∧
            (let num := bootCount s * 2 ^ 32 + (s.ofc.count + 1) % 2 ^ 32
             let d := sha384 (leBytes 8 num ++ deviceId s ++ c.src.take len)
             t.ofc.change = some { number := num, entries := es, digest := d, staged := s.tick.count
                                   expiry := s.tick.count + 2 ^ getF s Reg.OFC_CTRL_TTL, approvals := [], commit := none } ∧
             t.out = .hostWrite 0 none (eDst e) d :: s.out ∧
             getCtx t n = some { c with adminDone := some { inlined (leBytes 8 num) with len := 48 } }) ∧
            flag t Reg.OFC_STAT_STAGED = true ∧
            t = { s with regs := t.regs, ofc := t.ofc, out := t.out, ctxs := t.ctxs }))))

/-- R424, R425, R428, R429: LOGIN checks the slot, the officer and the PIN before it challenges the card; APPROVE challenges
the card of a session over the change's digest; a remote approval carries the officer's signature; LOGOUT ends a session. -/
def OfficersAct : Prop :=
  ∀ (s : State) (n : Nat) (c : Ctx), AdminDue s n 0x8D c → let e := c.entry
    let i := b2n (bitAt (eParam e) 8)
    let op := bitsAt (eParam e) 0 2
    let o := leAt e 0x28 4
    (op = 0 → ownJob s i n = false → let a := slotAnswer s i
      (a ≠ 0 → a ≠ 1 → exec (.login n) s = .next (guardRefused s n c a)) ∧
      (a = 0 → (getOfficer s o).st = 0 → exec (.login n) s = .next (guardRefused s n c 6)) ∧
      (a = 0 → (getOfficer s o).st = 3 → exec (.login n) s = .next (guardRefused s n c 7)) ∧
      (a = 0 → (getOfficer s o).st = 1 ∨ (getOfficer s o).st = 2 → sourceAwaited s n c (.login n) ∧
        (c.srcFail = false → eLen e ≤ c.src.length →
          (loginKey s (c.src.take 97) = none → exec (.login n) s = .next (guardRefused s n c 3)) ∧
          (∀ k v, loginKey s (c.src.take 97) = some k → pinVerifier k o (sub c.src 97 16) = some v →
            (getOfficer s o).st = 1 ∨ v = (getOfficer s o).verifier → ∃ t r, exec (.login n) s = .next t ∧ r.length = 16 ∧
              (getCard t i).job = .login n o (r ++ deviceId s) v ∧ slotSt t i = 5 ∧
              t.out = cardCmd i 0x20 0 32 (r ++ deviceId s) :: s.out) ∧
          (∀ k, loginKey s (c.src.take 97) = some k → (pinVerifier k o (sub c.src 97 16) = none ∨
              ((getOfficer s o).st = 2 ∧ pinVerifier k o (sub c.src 97 16) ≠ some (getOfficer s o).verifier)) → ∃ t,
            exec (.login n) s = .next t ∧ EndedWith t n c 8 ∧ slotOfficer t i = 0)))) ∧
    (op = 1 → bitAt (eParam e) 9 = false → ownJob s i n = false →
      (namedChange s c = none → exec (.approve n) s = .next (guardRefused s n c 1)) ∧
      (∀ ch, namedChange s c = some ch →
        (slotSt s i ≠ 4 → exec (.approve n) s = .next (guardRefused s n c 9)) ∧
        (slotSt s i = 4 → approvalReason s ch (slotOfficer s i) false ≠ 0 →
          exec (.approve n) s = .next (guardRefused s n c 10)) ∧
        (slotSt s i = 4 → approvalReason s ch (slotOfficer s i) false = 0 → ∃ t, exec (.approve n) s = .next t ∧
          (getCard t i).job = .approve n (ch.digest.take 16 ++ deviceId s) ∧ slotSt t i = 5 ∧
          t.out = cardCmd i 0x20 0 32 (ch.digest.take 16 ++ deviceId s) :: s.out ∧
          t = { s with regs := t.regs, ofc := t.ofc, out := t.out }))) ∧
    (op = 1 → bitAt (eParam e) 9 = true →
      (namedChange s c = none → exec (.remoteApprove n) s = .next (guardRefused s n c 1)) ∧
      (∀ ch, namedChange s c = some ch → sourceAwaited s n c (.remoteApprove n) ∧
        (c.srcFail = false → eLen e ≤ c.src.length → let m := c.src.take 96
          let x := getOfficer s (leAt m 4 4)
          let r := if messageOk s ch m = false then 3 else if x.st = 0 ∨ x.st = 1 then 6 else if x.st = 3 then 7
            else if approvalReason s ch (leAt m 4 4) true ≠ 0 then 10 else if x.seam = [] then 11 else 0
          (r ≠ 0 → exec (.remoteApprove n) s = .next (guardRefused s n c r)) ∧
          (r = 0 → noPurlin s = false → containerOk 2 x.seam m (sub c.src 96 3420) = false →
            exec (.remoteApprove n) s = .next (guardRefused s n c 11)) ∧
          (r = 0 → noPurlin s = false → containerOk 2 x.seam m (sub c.src 96 3420) = true → ∃ t,
            exec (.remoteApprove n) s = .next t ∧
            t.ofc.change = some { ch with approvals := ch.approvals ++ [⟨leAt m 4 4, true, 0⟩] } ∧
            getCtx t n = some { c with adminDone := some (inlined []) } ∧
            t = { s with regs := t.regs, ofc := t.ofc, ctxs := t.ctxs })))) ∧
    (op = 2 →
      (slotSt s i ≠ 4 → exec (.logout n) s = .next (guardRefused s n c 9)) ∧
      (slotSt s i = 4 → ∃ t, exec (.logout n) s = .next t ∧ slotOfficer t i = 0 ∧
        slotSt t i = (if (getCard s i).present then 1 else 0) ∧
        getCtx t n = some { c with adminDone := some (inlined []) } ∧
        t = { s with regs := t.regs, ofc := t.ofc, ctxs := t.ctxs }))

/-- R426, R430, R434: a commit waits for its kerf, a discard drops the change, and time ends a change and a session. -/
def ChangesEnd : Prop :=
  (∀ (s : State) (n : Nat) (c : Ctx), AdminDue s n 0x8E c → bitAt (eParam c.entry) 0 = false →
    (namedChange s c = none → exec (.guardCommit n) s = .next (guardRefused s n c 1)) ∧
    (∀ ch, namedChange s c = some ch →
      (ch.commit ≠ none → exec (.guardCommit n) s = .next s) ∧
      (ch.commit = none → (∀ e ∈ ch.entries, e.typ ≠ 2) → ∃ t, exec (.guardCommit n) s = .next t ∧
        t.ofc = { s.ofc with change := some { ch with commit := some n } } ∧
        t = { s with regs := t.regs, ofc := t.ofc }))) ∧
  (∀ (s : State) (n : Nat) (c : Ctx), AdminDue s n 0x8E c → bitAt (eParam c.entry) 0 = true →
    (namedChange s c = none → exec (.guardDiscard n) s = .next (guardRefused s n c 1)) ∧
    (∀ ch, namedChange s c = some ch → ch.commit = none → ∃ t, exec (.guardDiscard n) s = .next t ∧ t.ofc.change = none ∧
      flag t Reg.OFC_STAT_STAGED = false ∧ getCtx t n = some { c with adminDone := some (inlined []) } ∧
      t = { s with regs := t.regs, ofc := t.ofc, ctxs := t.ctxs })) ∧
  (∀ s : State, (s.ofc.change = none → exec .changeExpiry s = .next s) ∧
    (∀ ch, s.ofc.change = some ch →
      (s.tick.count < ch.expiry → exec .changeExpiry s = .next s) ∧
      (ch.expiry ≤ s.tick.count → ∃ t, exec .changeExpiry s = .next t ∧ t.ofc.change = none ∧
        flag t Reg.OFC_EVT_EXPIRED = true ∧ (∀ m d, ch.commit = some m → getCtx s m = some d → EndedWith t m d 13)))) ∧
  (∀ s : State, ∃ t, exec .sessionExpiry s = .next t ∧
    (∀ i, i ≤ 1 → slotSt s i = 4 → (getCard s i).used + guardTtl s ≤ s.tick.count →
      slotSt t i = (if (getCard s i).present then 1 else 0) ∧ slotOfficer t i = 0) ∧
    (∀ i, i ≤ 1 → slotSt s i = 4 → s.tick.count < (getCard s i).used + guardTtl s →
      slotSt t i = 4 ∧ slotOfficer t i = slotOfficer s i) ∧ t = { s with regs := t.regs, ofc := t.ofc })

/-- R432, R433: a ceremony that begins draws what its kind needs and prompts for the first card; its time ends it. -/
def CeremoniesRun : Prop :=
  (∀ (s : State) (c : Ceremony), ∀ y ∈ [(0x10, Instr.domainNew), (0x11, .domainJoin), (0x12, .reshare)],
    s.ofc.ceremony = some c →
    (c.kind ≠ y.1 ∨ getF s Reg.OFC_CER_STATE ≠ 0 → exec y.2 s = .next s) ∧
    (c.kind = y.1 → getF s Reg.OFC_CER_STATE = 0 → (∀ i, i ≤ 1 → ¬ (slotSt s i = 3 ∧ slotKind s i = 2)) → ∃ t c2,
      exec y.2 s = .next t ∧ t.ofc.ceremony = some c2 ∧
      c2.version = (if y.1 = 0x12 then s.ofc.version + 1 else 1) ∧
      (y.1 = 0x10 → c2.l2.length = 32) ∧ (y.1 = 0x11 → c2.l2 = [] ∧ c2.coefs = []) ∧
      (y.1 = 0x12 → c2.l2 = (getKey s 0).material) ∧
      (y.1 ≠ 0x11 → 1 ≤ c.k → c2.coefs.length = c.k - 1 ∧ ∀ p ∈ c2.coefs, p.length = 32) ∧
      getF t Reg.OFC_CER_STATE = 1 ∧
      getF t Reg.OFC_CER_NEXT = (if y.1 = 0x11 then 0 else (getF s Reg.OFC_CER_DONE_CNT + 1) % 16) ∧
      flag t Reg.OFC_EVT_CER_PROMPT = true ∧ t.keys = s.keys ∧
      t = { s with regs := t.regs, ofc := t.ofc, freeCtr := t.freeCtr, rng := t.rng })) ∧
  (∀ (s : State) (c : Ceremony), s.ofc.ceremony = some c →
    (s.tick.count < c.started + guardTtl s → exec .ceremonyTimeout s = .next s) ∧
    (c.started + guardTtl s ≤ s.tick.count → ∃ t, exec .ceremonyTimeout s = .next t ∧ t.ofc.ceremony = none ∧
      getF t Reg.OFC_CER_STATE = 5 ∧ t.keys = s.keys ∧
      (∀ m d, c.ctx = some m → getCtx s m = some d → EndedWith t m d 16)))

/-- A firmware command ends with a reason, inline and in LCY_STAGE (R447). -/
def FwFails (s t : State) (n : Nat) (c : Ctx) (r : Nat) : Prop :=
  getF t Reg.LCY_STAGE_REASON = r ∧
    getCtx t n = some { c with adminDone := some { failed (fwStatus r) with inline := leBytes 8 r } } ∧
    t = { s with regs := t.regs, ctxs := t.ctxs, opCounts := t.opCounts }

/-- R444–R449: FW_STAGE checks an image and writes it to the other partition, or enrols an infill package; FW_ACTIVATE puts
the staged image on trial; CONFIRM makes the running trial image ACTIVE and raises the floor; LIFECYCLE shows the state, and
takes a vendor token in TERMINATED alone. -/
def FirmwareAndLifecycle : Prop :=
  (∀ (s : State) (n : Nat) (c : Ctx) (ok : Bool), AdminDue s n 0x8A c → bitAt (eParam c.entry) 0 = false →
    let len := eLen c.entry
    let part := 1 - sillNext s 5 % 2
    let b := c.src.take len
    (bitAt (sillNext s 5) 1 = true → ∃ t, exec (.fwStageFrame n ok) s = .next t ∧ FwFails s t n c 4) ∧
    (bitAt (sillNext s 5) 1 = false → 2 ^ 25 < len ∨ len < 3932 → ∃ t, exec (.fwStageFrame n ok) s = .next t ∧
      FwFails s t n c 1) ∧
    (bitAt (sillNext s 5) 1 = false → 3932 ≤ len → len ≤ 2 ^ 25 → c.srcFail = false → len ≤ c.src.length →
      (frameReason s b ≠ 0 → ∃ t, exec (.fwStageFrame n ok) s = .next t ∧ FwFails s t n c (frameReason s b)) ∧
      (frameReason s b = 0 → ok = true → flag s Reg.LCY_STAT_RECOVERY = false → ∃ t,
        exec (.fwStageFrame n ok) s = .next t ∧ getF t Reg.LCY_STAGE_STATE = 2 ∧ t.fw = { s.fw with staged := true } ∧
        (∀ i x, (chunks 32 b)[i]? = some x → getUnit t (partBlock part * 2048 + i) = .data (padTo 32 x)) ∧
        (∀ u, u / 2048 < partBlock part ∨ partBlock part + 512 ≤ u / 2048 → getUnit t u = getUnit s u) ∧
        getCtx t n = some { c with adminDone := some (inlined (leBytes 1 part)) }) ∧
      (frameReason s b = 0 → ok = false → ∃ t, exec (.fwStageFrame n ok) s = .next t ∧
        getF t Reg.LCY_STAGE_REASON = 7 ∧ t.fw.staged = false ∧
        getCtx t n = some { c with adminDone := some { failed (fwStatus 7) with inline := leBytes 8 7 } }))) ∧
  (∀ (s : State) (n : Nat) (c : Ctx) (ok : Bool), AdminDue s n 0x8A c → bitAt (eParam c.entry) 0 = true →
    4188 ≤ eLen c.entry → eLen c.entry ≤ 2 ^ 23 + 3932 → c.srcFail = false → eLen c.entry ≤ c.src.length →
    let k := bitsAt (eParam c.entry) 8 7
    let b := c.src.take (eLen c.entry)
    (infillReason s k b ≠ 0 → ∃ t, exec (.fwStageInfill n ok) s = .next t ∧ FwFails s t n c (infillReason s k b)) ∧
    (infillReason s k b = 0 → ok = true → noPurlin s = false → deviceSigns s = some 0 → ∃ t f,
      exec (.fwStageInfill n ok) s = .next t ∧ infillFit s (infillBlocks (imgCode b)) = some f ∧
      (getSlice t k).infill = some ⟨imgEntries b, imgHash b, imgSv b, f, infillBlocks (imgCode b)⟩ ∧
      (getSlice t k).infillFloor = imgSv b ∧ t.fw.tableCnt = sillNext s 7 + 1 ∧
      (∃ e, tfind t.fw.table k = some e ∧ e.2 = imgSv b) ∧ tableOk t.fw = true ∧ getF t Reg.LCY_STAGE_STATE = 2)) ∧
  (∀ (s : State) (n : Nat) (c : Ctx), AdminDue s n 0x8B c →
    (bitAt (eParam c.entry) 0 = false → bitAt (sillNext s 5) 1 = true ∨ s.fw.staged = false → ∃ t,
      exec (.fwActivate n) s = .next t ∧ FwFails s t n c 4) ∧
    (bitAt (eParam c.entry) 0 = false → bitAt (sillNext s 5) 1 = false → s.fw.staged = true →
      flag s Reg.SIL_STAT_READY = true → silCount s 5 < 1000000 → (∀ x ∈ s.nv.silWait, x.1 ≠ 5) →
      s.nv.silWait.length < 8 → ∃ t, exec (.fwActivate n) s = .next t ∧ sillNext t 5 = sillNext s 5 % 2 + 2 ∧
      getCtx t n = some { c with adminDone := some (inlined (leBytes 8 (frameFloor s))) } ∧
      t = { s with regs := t.regs, nv := t.nv, ctxs := t.ctxs }) ∧
    (bitAt (eParam c.entry) 0 = true → flag s Reg.LCY_STAT_FW_TRIAL = false → ∃ t,
      exec (.fwActivateConfirm n) s = .next t ∧ FwFails s t n c 4) ∧
    (bitAt (eParam c.entry) 0 = true → flag s Reg.LCY_STAT_FW_TRIAL = true → ∃ t, exec (.fwActivateConfirm n) s = .next t ∧
      flag t Reg.LCY_STAT_FW_TRIAL = false ∧ t.fw = { s.fw with staged := false } ∧
      getCtx t n = some { c with adminDone := some (inlined (leBytes 8 (max (frameFloor s) s.fw.sv))) })) ∧
  (∀ (s : State) (n : Nat) (c : Ctx), AdminDue s n 0x8F c →
    (bitsAt (eParam c.entry) 0 2 = 0 → exec (.lifecycleQuery n) s = .next (ends s n c
      (inlined (leBytes 1 (lcyState s) ++ leBytes 1 (getBits (getReg s Reg.LCY_STAT) 8 8))))) ∧
    (bitsAt (eParam c.entry) 0 2 = 2 → lcyState s ≠ lcyTerminated → ∃ t, exec (.lifecycleVendor n) s = .next t ∧
      FwFails s t n c 8) ∧
    (bitsAt (eParam c.entry) 0 2 = 2 → lcyState s = lcyTerminated → sourceAwaited s n c (.lifecycleVendor n) ∧
      (c.srcFail = false → eLen c.entry ≤ c.src.length → let r := tokenReason s (c.src.take 3484)
        (r ≠ 0 → ∃ t, exec (.lifecycleVendor n) s = .next t ∧ FwFails s t n c r) ∧
        (r = 0 → exec (.lifecycleVendor n) s = .next { s with boot := { s.boot with vendor := some n } }))))

end Sys2Proof.Claims

open Sys2Proof Sys2Proof.Machine Sys2Proof.Claims

/-- R419–R429, R432, R433: the cards in the two slots and their answers.
Model's choices it rests on: notes/assumptions/7.md, notes/assumptions/21.md, notes/assumptions/22.md, notes/assumptions/91.md. -/
def Obligations.OfficerCards : Prop := CardsComeAndGo ∧ CardsAnswer ∧ ShareCardsAnswer

/-- R424–R431, R434: the changes of the two-party guard: staged, approved, committed, discarded, expired.
Model's choices it rests on: notes/assumptions/6.md, notes/assumptions/21.md, notes/assumptions/22.md, notes/assumptions/72.md. -/
def Obligations.TwoPartyGuard : Prop := ChangesAreStaged ∧ OfficersAct ∧ ChangesEnd

/-- R432, R433, R444–R449: domain ceremonies, firmware and the lifecycle's commands.
Model's choices it rests on: notes/assumptions/6.md, notes/assumptions/17.md, notes/assumptions/22.md, notes/assumptions/54.md, notes/assumptions/88.md, notes/assumptions/91.md. -/
def Obligations.DomainFirmwareLifecycle : Prop := CeremoniesRun ∧ FirmwareAndLifecycle

/-! ### Rules stated whole -/
namespace Sys2Proof.Claims
open Sys2Proof Sys2Proof.Machine

/-- The multiplications of a post into a register (R315). -/
def multiplies (p rd a b : Nat) : List Instr := [.mul p rd a b, .mulhu p rd a b, .mulh p rd a b]

/-- The instructions whose time R317 gives as a number: arithmetic, shifts, compares, chains, multiplication, accumulator
moves, branches and jumps, and the tenon register operations. -/
def timed (s : State) (p : Nat) (i : Instr) : Prop :=
  (∃ rd v, aluOf s i = some (p, rd, v)) ∨ (∃ f, branchOf i = some (p, f)) ∨
  (∃ rd a b st, i = .addc p rd a b st ∨ i = .subb p rd a b st) ∨ (∃ a b, i = .mac p a b) ∨ (∃ rd, i = .accsh p rd) ∨
  i = .accz p ∨ (∃ a k, k < 3 ∧ i = .accwr p a k) ∨ (∃ td ts, i = .tmov p td ts) ∨ (∃ td, i = .tnull p td) ∨
  (∃ td ts rs, i = .tperm p td ts rs ∨ i = .tseal p td ts rs ∨ i = .tunseal p td ts rs ∨
    (rs % 32 ≠ 31 ∧ i = .tbound p td ts rs))

/-- A queue as a failure leaves it: STOPPED with a cause, with no read outstanding, and the cause loaded in HQ_ERR_INFO. -/
def Stopped (t : State) (a k cause : Nat) : Prop :=
  (getQueue t a k).st = .stopped ∧ (getQueue t a k).cause = cause ∧ (getQueue t a k).heldFetch = 0 ∧
  flag t Reg.HQ_EVT_QSTOP = true ∧ getF t Reg.HQ_ERR_INFO_SLICE = a % 128 ∧ getF t Reg.HQ_ERR_INFO_QUEUE = k % 512 ∧
  getF t Reg.HQ_ERR_INFO_CAUSE = cause

/-- A host access that failed is counted, and reported at the link as an uncorrectable error. -/
def Reported (s t : State) : Prop :=
  (getReg t Reg.HQ_HOSTERR).toNat = min ((getReg s Reg.HQ_HOSTERR).toNat + 1) 0xFFFFFFFF ∧
  getF t Reg.HLK_AER_CNT_UNCORR = min (getF s Reg.HLK_AER_CNT_UNCORR + 1) 65535 ∧ flag t Reg.HLK_EVT_AER = true ∧
  fires s t srcHlkAer 0

end Sys2Proof.Claims

open Sys2Proof Sys2Proof.Machine Sys2Proof.Claims

/-- R324: `MUL`, `MULHU` and `MULH` take one cycle, once they are fetched and their sources are ready, and their result is
usable after two (R317), for every operand: with any other register contents the times are the same. `MAC` takes one cycle,
its sum is usable after two, and it adds the unsigned 64-bit product to `acc` modulo 2^96. -/
def Obligations.MultiplyTakesTheSameTimeForEveryOperand : Prop :=
  ∀ (s : State) (p a b : Nat), Safety.Inv s → Issues s p → let x := getPost s p
    (∀ rd, ∀ i ∈ multiplies p rd a b, ∃ y, exec i s = .next (setPost s p y) ∧ Ended x y ∧ y = { movedOn x y with g := y.g } ∧
      ((∀ e ∈ x.ready, e.2 ≤ x.cyc) → fetchTime x p x.pc.toNat = 1 → y.cyc = x.cyc + 1) ∧
      (rd % 32 ≠ 0 → (rd % 32, y.cyc + 1) ∈ y.ready) ∧ (∀ c, (rd % 32, c) ∈ y.ready → c = y.cyc + 1) ∧
      ∀ g, ∃ z, exec i (setPost s p { x with g := g }) = .next (setPost s p z) ∧ z.cyc = y.cyc ∧ z.ready = y.ready) ∧
    (∃ y, exec (.mac p a b) s = .next (setPost s p y) ∧ Ended x y ∧
      y = { movedOn x y with acc := BitVec.ofNat 96 (x.acc.toNat + (x.getG a).toNat * (x.getG b).toNat) } ∧
      ((∀ e ∈ x.ready, e.2 ≤ x.cyc) → fetchTime x p x.pc.toNat = 1 → y.cyc = x.cyc + 1) ∧ (32, y.cyc + 1) ∈ y.ready ∧
      ∀ g acc, ∃ z, exec (.mac p a b) (setPost s p { x with g := g, acc := acc }) = .next (setPost s p z) ∧
        z.cyc = y.cyc ∧ z.ready = y.ready)

/-- R317: the time of these instructions depends on no operand value, not on `cf`, not on `acc` and on no tenon register: a
post with other contents ends the instruction in the same cycle, with the same readiness of every register. -/
def Obligations.InstructionTimesIgnoreValues : Prop :=
  ∀ (s : State) (p : Nat) (i : Instr) g cf acc t, Safety.Inv s → Issues s p → (getPost s p).delay = none → timed s p i →
    ∃ y z, exec i s = .next (setPost s p y) ∧
      exec i (setPost s p { getPost s p with g := g, cf := cf, acc := acc, t := t }) = .next (setPost s p z) ∧
      z.cyc = y.cyc ∧ z.ready = y.ready

/-- R326: `ADDC` and `SUBB` chain words through `cf`; sh[0] = 1 takes the incoming carry or borrow as zero. Entry to an
exception saves neither `cf` nor `acc`: both stay in the post, and what it writes to memory and to the register pages does
not depend on them. -/
def Obligations.CarryChainsAndExceptionEntry : Prop :=
  (∀ (s : State) (p : Nat), Safety.Inv s → Issues s p → let x := getPost s p
    (∀ rd a b st, let n := (x.getG a).toNat + (x.getG b).toNat + (if st = false ∧ x.cf = true then 1 else 0)
      ∃ y, exec (.addc p rd a b st) s = .next (setPost s p y) ∧ Ended x y ∧ writesG x y rd (BitVec.ofNat 32 n) ∧
        y = { movedOn x y with g := y.g, cf := decide (2 ^ 32 ≤ n) }) ∧
    (∀ rd a b st, let d : Int := (x.getG a).toNat - (x.getG b).toNat - (if st = false ∧ x.cf = true then 1 else 0)
      ∃ y, exec (.subb p rd a b st) s = .next (setPost s p y) ∧ Ended x y ∧ writesG x y rd (BitVec.ofInt 32 d) ∧
        y = { movedOn x y with g := y.g, cf := decide (d < 0) })) ∧
  (∀ (s : State) (p : Nat) (a : Word) (t : Trap) (cf : Bool) (acc : BitVec 96), let u := takeException s p a t
    let v := takeException (setPost s p { getPost s p with cf := cf, acc := acc }) p a t
    (getPost u p).cf = (getPost s p).cf ∧ (getPost u p).acc = (getPost s p).acc ∧ v.mem = u.mem ∧ v.regs = u.regs ∧
      (getPost v p).cf = cf ∧ (getPost v p).acc = acc)

/-- R66: which doorbell values are out of range; such a value is not accepted and stops the queue with cause 5 or 6, which
sets HQ_EVT.QSTOP and loads HQ_ERR_INFO. -/
def Obligations.DoorbellValuesOutOfRangeStopTheQueue : Prop :=
  ∀ (s : State) (a k : Nat) (v : Word), windowOpen s a k = true → let q := getQueue s a k
    q.st = .enabled → v.toNat < 2 ^ 16 →
    (sqSize q ≤ v.toNat ∨ ((v.toNat : Int) - q.sqHead) % sqSize q < ((q.sqTail : Int) - q.sqHead) % sqSize q →
      ∃ t, exec (.sqTailDoorbell a k 4 v) s = .next t ∧ Stopped t a k 5 ∧
        getQueue t a k = { q with st := .stopped, cause := 5, heldFetch := 0 } ∧
        t = { s with queues := t.queues, regs := t.regs }) ∧
    (cqSize q ≤ v.toNat ∨ ((q.cqTail : Int) - q.cqHead) % cqSize q < ((q.cqTail : Int) - v.toNat) % cqSize q →
      ∃ t, exec (.cqHeadDoorbell a k 4 v) s = .next t ∧ Stopped t a k 6 ∧
        getQueue t a k = { q with st := .stopped, cause := 6, heldFetch := 0 } ∧
        t = { s with queues := t.queues, regs := t.regs })

/-- R84: a failed fetch of a queue's entries stops the queue with cause 7, a failed completion write with cause 8; what was
concerned is not retried, and the error is counted in HQ_HOSTERR and reported at the link. -/
def Obligations.FailedQueueAccessesStopTheQueue : Prop :=
  (∀ (s : State) (a k : Nat), (getQueue s a k).st = .enabled → (getQueue s a k).heldFetch ≠ 0 →
    ∃ t, exec (.entryFetch a k .error) s = .next t ∧ Stopped t a k 7 ∧ Reported s t ∧ t.fetched = s.fetched ∧
      t.out = s.out ∧ (∀ b j, qKey b j ≠ qKey a k → getQueue t b j = getQueue s b j) ∧
      t = { s with queues := t.queues, regs := t.regs, faults := t.faults, freeCtr := t.freeCtr }) ∧
  (∀ (s : State) (a : Nat) (e : Completion), s.tick.span = true → s.faults.safe = false →
    let work := flag s Reg.TIK_STAT_PACE_ACT
    egressFree s work a = true → (∀ x ∈ s.compls, x.slice = a → cqFull (getQueue s x.slice x.queue) = false) →
    pickCompl s work (s.compls.filter (fun x => work || x.slice == a)) none = some e → e.slice = a →
    ∃ t, exec (.completionWrite a false) s = .next t ∧ Stopped t a e.queue 8 ∧ Reported s t ∧ e ∉ t.compls ∧
      t.out = s.out ∧ (∀ b j, qKey b j ≠ qKey a e.queue → getQueue t b j = getQueue s b j) ∧
      (∀ x ∈ t.compls, x ∈ s.compls) ∧
      t = { s with queues := t.queues, regs := t.regs, faults := t.faults, freeCtr := t.freeCtr, compls := t.compls
                   ctxs := t.ctxs })

/-- R480: an unassigned page, page 0x000 included, reads as zero, ignores writes and raises no source. -/
def Obligations.UnassignedPagesReadAsZero : Prop :=
  0 ∉ assignedPages ∧
  (∀ (s : State) (init key : Nat), key / 0x1000 ∉ assignedPages →
    (Through s init key .read →
      exec (.rcRead init key) s = .next { s with out := .readReply init key 0#32 :: s.out }) ∧
    (Through s init key .write → ∀ v, exec (.registerWrite init key v) s = .next s))

/-! ### The block as a whole -/

open Sys2Proof Sys2Proof.Machine Sys2Proof.Claims

/-- A step takes the command at the front of the queue and runs it on the state with the queue's rest. On an empty queue the step leaves the state (notes/assumptions/1.md: the model's choice). -/
def Obligations.StepRunsTheFrontCommand : Prop :=
  (∀ (c : Instr) (rest : List Instr) (s : State), s.pending = c :: rest → step s = exec c { s with pending := rest }) ∧
  (∀ s : State, s.pending = [] → step s = .next s)

/-- No step changes the queue but by taking its front, and none ends in a fault or a refusal. -/
def Obligations.EveryStepAnswersAndKeepsTheQueue : Prop :=
  ∀ s : State, Safety.Inv s → ∃ t, step s = .next t ∧ t.pending = s.pending.tail

/-- The machine after reset keeps the invariant: its memory and its register file are canonical, and every program counter
is aligned. Its queue is empty, every register word holds its reset value, no byte of memory is written, and the tick
counter is zero (R28).
Model's choices it rests on: notes/assumptions/2.md, notes/assumptions/30.md. -/
def Obligations.ResetIsSound : Prop :=
  Safety.Inv State.reset ∧ State.reset.pending = [] ∧ (∀ key, getReg State.reset key = regReset key) ∧
    (∀ a, memByte State.reset a = 0#8) ∧ State.reset.tick.count = 0

/-- Every step keeps the invariant: the memory's canonical form, the canonical register file, and the alignment of the
program counter of every post, of the branch whose delay slot is due and of its target (R309, R320). -/
def Obligations.EveryStepKeepsTheInvariant : Prop :=
  ∀ s t : State, Safety.Inv s → step s = .next t → Safety.Inv t

/-- R312–R316: the word of every well-formed instruction of a post decodes to that instruction, with every operand that the
word carries, and fits 32 bits.
Model's choices it rests on: notes/assumptions/29.md. -/
def Obligations.DecodeOfEncodeGivesTheInstruction : Prop :=
  ∀ (i : Instr) (w : Nat), wellFormed i = true → encodeWord i = some w →
    w < 2 ^ 32 ∧ decodeWord (instrPost i) w = some (bareInstr i)

/-- R312–R316: words written out from the tables, and the instructions they stand for; R313: the all-zero word adds `g0` to
`g0`, the erased word is undefined. -/
def Obligations.WordsDecodeAsWritten : Prop :=
  ∀ p : Nat, decodeWord p 0x49141008 = some (.lw p 8 20 1 8) ∧ decodeWord p 0x0022184A = some (.addc p 1 2 3 true) ∧
    decodeWord p 0x71043400 = some (.dmac p 4 2 3 false true) ∧ decodeWord p 0x8022FFFF = some (.beq p 1 2 (-1)) ∧
    decodeWord p 0xA4000003 = some (.call p 3) ∧ decodeWord p 0xC0D54002 = some (.tbound p 3 5 10) ∧
    decodeWord p 0xFC000140 = some (.trap p 5) ∧ decodeWord p 0x00000000 = some (.add p 0 0 0) ∧
    decodeWord p 0xFFFFFFFF = none ∧ decodeWord p 0x00201819 = none
end

