-- ==== Sys2Proof/Laws/State.lean ====
section
/-!
SUPPORT. What each shared setter leaves alone: one lemma per setter and field of State, true by computation.
-/
namespace Sys2Proof.Machine
open Sys2Proof
variable (s : State)

/-! ### `setReg` -/

@[simp] theorem setReg_pending (k : Nat) (w : Word) : (setReg s k w).pending = s.pending := rfl
@[simp] theorem setReg_latches (k : Nat) (w : Word) : (setReg s k w).latches = s.latches := rfl
@[simp] theorem setReg_out (k : Nat) (w : Word) : (setReg s k w).out = s.out := rfl
@[simp] theorem setReg_freeCtr (k : Nat) (w : Word) : (setReg s k w).freeCtr = s.freeCtr := rfl
@[simp] theorem setReg_tick (k : Nat) (w : Word) : (setReg s k w).tick = s.tick := rfl
@[simp] theorem setReg_slices (k : Nat) (w : Word) : (setReg s k w).slices = s.slices := rfl
@[simp] theorem setReg_queues (k : Nat) (w : Word) : (setReg s k w).queues = s.queues := rfl
@[simp] theorem setReg_fetched (k : Nat) (w : Word) : (setReg s k w).fetched = s.fetched := rfl
@[simp] theorem setReg_fetchOrder (k : Nat) (w : Word) : (setReg s k w).fetchOrder = s.fetchOrder := rfl
@[simp] theorem setReg_ctxs (k : Nat) (w : Word) : (setReg s k w).ctxs = s.ctxs := rfl
@[simp] theorem setReg_ghosts (k : Nat) (w : Word) : (setReg s k w).ghosts = s.ghosts := rfl
@[simp] theorem setReg_ctxOrder (k : Nat) (w : Word) : (setReg s k w).ctxOrder = s.ctxOrder := rfl
@[simp] theorem setReg_compls (k : Nat) (w : Word) : (setReg s k w).compls = s.compls := rfl
@[simp] theorem setReg_plans (k : Nat) (w : Word) : (setReg s k w).plans = s.plans := rfl
@[simp] theorem setReg_ctrlUse (k : Nat) (w : Word) : (setReg s k w).ctrlUse = s.ctrlUse := rfl
@[simp] theorem setReg_compEnd (k : Nat) (w : Word) : (setReg s k w).compEnd = s.compEnd := rfl
@[simp] theorem setReg_keys (k : Nat) (w : Word) : (setReg s k w).keys = s.keys := rfl
@[simp] theorem setReg_freed (k : Nat) (w : Word) : (setReg s k w).freed = s.freed := rfl
@[simp] theorem setReg_fresh (k : Nat) (w : Word) : (setReg s k w).fresh = s.fresh := rfl
@[simp] theorem setReg_slotTable (k : Nat) (w : Word) : (setReg s k w).slotTable = s.slotTable := rfl
@[simp] theorem setReg_slotBase (k : Nat) (w : Word) : (setReg s k w).slotBase = s.slotBase := rfl
@[simp] theorem setReg_records (k : Nat) (w : Word) : (setReg s k w).records = s.records := rfl
@[simp] theorem setReg_recordDue (k : Nat) (w : Word) : (setReg s k w).recordDue = s.recordDue := rfl
@[simp] theorem setReg_reserveDue (k : Nat) (w : Word) : (setReg s k w).reserveDue = s.reserveDue := rfl
@[simp] theorem setReg_tombPend (k : Nat) (w : Word) : (setReg s k w).tombPend = s.tombPend := rfl
@[simp] theorem setReg_ivCtr (k : Nat) (w : Word) : (setReg s k w).ivCtr = s.ivCtr := rfl
@[simp] theorem setReg_vault (k : Nat) (w : Word) : (setReg s k w).vault = s.vault := rfl
@[simp] theorem setReg_lms (k : Nat) (w : Word) : (setReg s k w).lms = s.lms := rfl
@[simp] theorem setReg_rng (k : Nat) (w : Word) : (setReg s k w).rng = s.rng := rfl
@[simp] theorem setReg_faults (k : Nat) (w : Word) : (setReg s k w).faults = s.faults := rfl
@[simp] theorem setReg_thmTime (k : Nat) (w : Word) : (setReg s k w).thmTime = s.thmTime := rfl
@[simp] theorem setReg_mem (k : Nat) (w : Word) : (setReg s k w).mem = s.mem := rfl
@[simp] theorem setReg_tags (k : Nat) (w : Word) : (setReg s k w).tags = s.tags := rfl
@[simp] theorem setReg_sill (k : Nat) (w : Word) : (setReg s k w).sill = s.sill := rfl
@[simp] theorem setReg_msixTab (k : Nat) (w : Word) : (setReg s k w).msixTab = s.msixTab := rfl
@[simp] theorem setReg_msixPba (k : Nat) (w : Word) : (setReg s k w).msixPba = s.msixPba := rfl
@[simp] theorem setReg_smbAlert (k : Nat) (w : Word) : (setReg s k w).smbAlert = s.smbAlert := rfl
@[simp] theorem setReg_returning (k : Nat) (w : Word) : (setReg s k w).returning = s.returning := rfl
@[simp] theorem setReg_devNdl (k : Nat) (w : Word) : (setReg s k w).devNdl = s.devNdl := rfl
@[simp] theorem setReg_upkeep (k : Nat) (w : Word) : (setReg s k w).upkeep = s.upkeep := rfl
@[simp] theorem setReg_ledger (k : Nat) (w : Word) : (setReg s k w).ledger = s.ledger := rfl
@[simp] theorem setReg_nv (k : Nat) (w : Word) : (setReg s k w).nv = s.nv := rfl
@[simp] theorem setReg_fw (k : Nat) (w : Word) : (setReg s k w).fw = s.fw := rfl
@[simp] theorem setReg_thm (k : Nat) (w : Word) : (setReg s k w).thm = s.thm := rfl
@[simp] theorem setReg_rails (k : Nat) (w : Word) : (setReg s k w).rails = s.rails := rfl
@[simp] theorem setReg_monAlone (k : Nat) (w : Word) : (setReg s k w).monAlone = s.monAlone := rfl
@[simp] theorem setReg_wear (k : Nat) (w : Word) : (setReg s k w).wear = s.wear := rfl
@[simp] theorem setReg_gates (k : Nat) (w : Word) : (setReg s k w).gates = s.gates := rfl
@[simp] theorem setReg_boot (k : Nat) (w : Word) : (setReg s k w).boot = s.boot := rfl
@[simp] theorem setReg_ofc (k : Nat) (w : Word) : (setReg s k w).ofc = s.ofc := rfl
@[simp] theorem setReg_link (k : Nat) (w : Word) : (setReg s k w).link = s.link := rfl
@[simp] theorem setReg_chans (k : Nat) (w : Word) : (setReg s k w).chans = s.chans := rfl
@[simp] theorem setReg_hostSent (k : Nat) (w : Word) : (setReg s k w).hostSent = s.hostSent := rfl
@[simp] theorem setReg_posts (k : Nat) (w : Word) : (setReg s k w).posts = s.posts := rfl
@[simp] theorem setReg_sram (k : Nat) (w : Word) : (setReg s k w).sram = s.sram := rfl
@[simp] theorem setReg_opCounts (k : Nat) (w : Word) : (setReg s k w).opCounts = s.opCounts := rfl
@[simp] theorem setReg_pieces (k : Nat) (w : Word) : (setReg s k w).pieces = s.pieces := rfl

/-! ### `setF` -/

@[simp] theorem setF_pending (f : Fld) (v : Nat) : (setF s f v).pending = s.pending := rfl
@[simp] theorem setF_latches (f : Fld) (v : Nat) : (setF s f v).latches = s.latches := rfl
@[simp] theorem setF_out (f : Fld) (v : Nat) : (setF s f v).out = s.out := rfl
@[simp] theorem setF_freeCtr (f : Fld) (v : Nat) : (setF s f v).freeCtr = s.freeCtr := rfl
@[simp] theorem setF_tick (f : Fld) (v : Nat) : (setF s f v).tick = s.tick := rfl
@[simp] theorem setF_slices (f : Fld) (v : Nat) : (setF s f v).slices = s.slices := rfl
@[simp] theorem setF_queues (f : Fld) (v : Nat) : (setF s f v).queues = s.queues := rfl
@[simp] theorem setF_fetched (f : Fld) (v : Nat) : (setF s f v).fetched = s.fetched := rfl
@[simp] theorem setF_fetchOrder (f : Fld) (v : Nat) : (setF s f v).fetchOrder = s.fetchOrder := rfl
@[simp] theorem setF_ctxs (f : Fld) (v : Nat) : (setF s f v).ctxs = s.ctxs := rfl
@[simp] theorem setF_ghosts (f : Fld) (v : Nat) : (setF s f v).ghosts = s.ghosts := rfl
@[simp] theorem setF_ctxOrder (f : Fld) (v : Nat) : (setF s f v).ctxOrder = s.ctxOrder := rfl
@[simp] theorem setF_compls (f : Fld) (v : Nat) : (setF s f v).compls = s.compls := rfl
@[simp] theorem setF_plans (f : Fld) (v : Nat) : (setF s f v).plans = s.plans := rfl
@[simp] theorem setF_ctrlUse (f : Fld) (v : Nat) : (setF s f v).ctrlUse = s.ctrlUse := rfl
@[simp] theorem setF_compEnd (f : Fld) (v : Nat) : (setF s f v).compEnd = s.compEnd := rfl
@[simp] theorem setF_keys (f : Fld) (v : Nat) : (setF s f v).keys = s.keys := rfl
@[simp] theorem setF_freed (f : Fld) (v : Nat) : (setF s f v).freed = s.freed := rfl
@[simp] theorem setF_fresh (f : Fld) (v : Nat) : (setF s f v).fresh = s.fresh := rfl
@[simp] theorem setF_slotTable (f : Fld) (v : Nat) : (setF s f v).slotTable = s.slotTable := rfl
@[simp] theorem setF_slotBase (f : Fld) (v : Nat) : (setF s f v).slotBase = s.slotBase := rfl
@[simp] theorem setF_records (f : Fld) (v : Nat) : (setF s f v).records = s.records := rfl
@[simp] theorem setF_recordDue (f : Fld) (v : Nat) : (setF s f v).recordDue = s.recordDue := rfl
@[simp] theorem setF_reserveDue (f : Fld) (v : Nat) : (setF s f v).reserveDue = s.reserveDue := rfl
@[simp] theorem setF_tombPend (f : Fld) (v : Nat) : (setF s f v).tombPend = s.tombPend := rfl
@[simp] theorem setF_ivCtr (f : Fld) (v : Nat) : (setF s f v).ivCtr = s.ivCtr := rfl
@[simp] theorem setF_vault (f : Fld) (v : Nat) : (setF s f v).vault = s.vault := rfl
@[simp] theorem setF_lms (f : Fld) (v : Nat) : (setF s f v).lms = s.lms := rfl
@[simp] theorem setF_rng (f : Fld) (v : Nat) : (setF s f v).rng = s.rng := rfl
@[simp] theorem setF_faults (f : Fld) (v : Nat) : (setF s f v).faults = s.faults := rfl
@[simp] theorem setF_thmTime (f : Fld) (v : Nat) : (setF s f v).thmTime = s.thmTime := rfl
@[simp] theorem setF_mem (f : Fld) (v : Nat) : (setF s f v).mem = s.mem := rfl
@[simp] theorem setF_tags (f : Fld) (v : Nat) : (setF s f v).tags = s.tags := rfl
@[simp] theorem setF_sill (f : Fld) (v : Nat) : (setF s f v).sill = s.sill := rfl
@[simp] theorem setF_msixTab (f : Fld) (v : Nat) : (setF s f v).msixTab = s.msixTab := rfl
@[simp] theorem setF_msixPba (f : Fld) (v : Nat) : (setF s f v).msixPba = s.msixPba := rfl
@[simp] theorem setF_smbAlert (f : Fld) (v : Nat) : (setF s f v).smbAlert = s.smbAlert := rfl
@[simp] theorem setF_returning (f : Fld) (v : Nat) : (setF s f v).returning = s.returning := rfl
@[simp] theorem setF_devNdl (f : Fld) (v : Nat) : (setF s f v).devNdl = s.devNdl := rfl
@[simp] theorem setF_upkeep (f : Fld) (v : Nat) : (setF s f v).upkeep = s.upkeep := rfl
@[simp] theorem setF_ledger (f : Fld) (v : Nat) : (setF s f v).ledger = s.ledger := rfl
@[simp] theorem setF_nv (f : Fld) (v : Nat) : (setF s f v).nv = s.nv := rfl
@[simp] theorem setF_fw (f : Fld) (v : Nat) : (setF s f v).fw = s.fw := rfl
@[simp] theorem setF_thm (f : Fld) (v : Nat) : (setF s f v).thm = s.thm := rfl
@[simp] theorem setF_rails (f : Fld) (v : Nat) : (setF s f v).rails = s.rails := rfl
@[simp] theorem setF_monAlone (f : Fld) (v : Nat) : (setF s f v).monAlone = s.monAlone := rfl
@[simp] theorem setF_wear (f : Fld) (v : Nat) : (setF s f v).wear = s.wear := rfl
@[simp] theorem setF_gates (f : Fld) (v : Nat) : (setF s f v).gates = s.gates := rfl
@[simp] theorem setF_boot (f : Fld) (v : Nat) : (setF s f v).boot = s.boot := rfl
@[simp] theorem setF_ofc (f : Fld) (v : Nat) : (setF s f v).ofc = s.ofc := rfl
@[simp] theorem setF_link (f : Fld) (v : Nat) : (setF s f v).link = s.link := rfl
@[simp] theorem setF_chans (f : Fld) (v : Nat) : (setF s f v).chans = s.chans := rfl
@[simp] theorem setF_hostSent (f : Fld) (v : Nat) : (setF s f v).hostSent = s.hostSent := rfl
@[simp] theorem setF_posts (f : Fld) (v : Nat) : (setF s f v).posts = s.posts := rfl
@[simp] theorem setF_sram (f : Fld) (v : Nat) : (setF s f v).sram = s.sram := rfl
@[simp] theorem setF_opCounts (f : Fld) (v : Nat) : (setF s f v).opCounts = s.opCounts := rfl
@[simp] theorem setF_pieces (f : Fld) (v : Nat) : (setF s f v).pieces = s.pieces := rfl

/-! ### `setFlag` -/

@[simp] theorem setFlag_pending (f : Fld) (b : Bool) : (setFlag s f b).pending = s.pending := rfl
@[simp] theorem setFlag_latches (f : Fld) (b : Bool) : (setFlag s f b).latches = s.latches := rfl
@[simp] theorem setFlag_out (f : Fld) (b : Bool) : (setFlag s f b).out = s.out := rfl
@[simp] theorem setFlag_freeCtr (f : Fld) (b : Bool) : (setFlag s f b).freeCtr = s.freeCtr := rfl
@[simp] theorem setFlag_tick (f : Fld) (b : Bool) : (setFlag s f b).tick = s.tick := rfl
@[simp] theorem setFlag_slices (f : Fld) (b : Bool) : (setFlag s f b).slices = s.slices := rfl
@[simp] theorem setFlag_queues (f : Fld) (b : Bool) : (setFlag s f b).queues = s.queues := rfl
@[simp] theorem setFlag_fetched (f : Fld) (b : Bool) : (setFlag s f b).fetched = s.fetched := rfl
@[simp] theorem setFlag_fetchOrder (f : Fld) (b : Bool) : (setFlag s f b).fetchOrder = s.fetchOrder := rfl
@[simp] theorem setFlag_ctxs (f : Fld) (b : Bool) : (setFlag s f b).ctxs = s.ctxs := rfl
@[simp] theorem setFlag_ghosts (f : Fld) (b : Bool) : (setFlag s f b).ghosts = s.ghosts := rfl
@[simp] theorem setFlag_ctxOrder (f : Fld) (b : Bool) : (setFlag s f b).ctxOrder = s.ctxOrder := rfl
@[simp] theorem setFlag_compls (f : Fld) (b : Bool) : (setFlag s f b).compls = s.compls := rfl
@[simp] theorem setFlag_plans (f : Fld) (b : Bool) : (setFlag s f b).plans = s.plans := rfl
@[simp] theorem setFlag_ctrlUse (f : Fld) (b : Bool) : (setFlag s f b).ctrlUse = s.ctrlUse := rfl
@[simp] theorem setFlag_compEnd (f : Fld) (b : Bool) : (setFlag s f b).compEnd = s.compEnd := rfl
@[simp] theorem setFlag_keys (f : Fld) (b : Bool) : (setFlag s f b).keys = s.keys := rfl
@[simp] theorem setFlag_freed (f : Fld) (b : Bool) : (setFlag s f b).freed = s.freed := rfl
@[simp] theorem setFlag_fresh (f : Fld) (b : Bool) : (setFlag s f b).fresh = s.fresh := rfl
@[simp] theorem setFlag_slotTable (f : Fld) (b : Bool) : (setFlag s f b).slotTable = s.slotTable := rfl
@[simp] theorem setFlag_slotBase (f : Fld) (b : Bool) : (setFlag s f b).slotBase = s.slotBase := rfl
@[simp] theorem setFlag_records (f : Fld) (b : Bool) : (setFlag s f b).records = s.records := rfl
@[simp] theorem setFlag_recordDue (f : Fld) (b : Bool) : (setFlag s f b).recordDue = s.recordDue := rfl
@[simp] theorem setFlag_reserveDue (f : Fld) (b : Bool) : (setFlag s f b).reserveDue = s.reserveDue := rfl
@[simp] theorem setFlag_tombPend (f : Fld) (b : Bool) : (setFlag s f b).tombPend = s.tombPend := rfl
@[simp] theorem setFlag_ivCtr (f : Fld) (b : Bool) : (setFlag s f b).ivCtr = s.ivCtr := rfl
@[simp] theorem setFlag_vault (f : Fld) (b : Bool) : (setFlag s f b).vault = s.vault := rfl
@[simp] theorem setFlag_lms (f : Fld) (b : Bool) : (setFlag s f b).lms = s.lms := rfl
@[simp] theorem setFlag_rng (f : Fld) (b : Bool) : (setFlag s f b).rng = s.rng := rfl
@[simp] theorem setFlag_faults (f : Fld) (b : Bool) : (setFlag s f b).faults = s.faults := rfl
@[simp] theorem setFlag_thmTime (f : Fld) (b : Bool) : (setFlag s f b).thmTime = s.thmTime := rfl
@[simp] theorem setFlag_mem (f : Fld) (b : Bool) : (setFlag s f b).mem = s.mem := rfl
@[simp] theorem setFlag_tags (f : Fld) (b : Bool) : (setFlag s f b).tags = s.tags := rfl
@[simp] theorem setFlag_sill (f : Fld) (b : Bool) : (setFlag s f b).sill = s.sill := rfl
@[simp] theorem setFlag_msixTab (f : Fld) (b : Bool) : (setFlag s f b).msixTab = s.msixTab := rfl
@[simp] theorem setFlag_msixPba (f : Fld) (b : Bool) : (setFlag s f b).msixPba = s.msixPba := rfl
@[simp] theorem setFlag_smbAlert (f : Fld) (b : Bool) : (setFlag s f b).smbAlert = s.smbAlert := rfl
@[simp] theorem setFlag_returning (f : Fld) (b : Bool) : (setFlag s f b).returning = s.returning := rfl
@[simp] theorem setFlag_devNdl (f : Fld) (b : Bool) : (setFlag s f b).devNdl = s.devNdl := rfl
@[simp] theorem setFlag_upkeep (f : Fld) (b : Bool) : (setFlag s f b).upkeep = s.upkeep := rfl
@[simp] theorem setFlag_ledger (f : Fld) (b : Bool) : (setFlag s f b).ledger = s.ledger := rfl
@[simp] theorem setFlag_nv (f : Fld) (b : Bool) : (setFlag s f b).nv = s.nv := rfl
@[simp] theorem setFlag_fw (f : Fld) (b : Bool) : (setFlag s f b).fw = s.fw := rfl
@[simp] theorem setFlag_thm (f : Fld) (b : Bool) : (setFlag s f b).thm = s.thm := rfl
@[simp] theorem setFlag_rails (f : Fld) (b : Bool) : (setFlag s f b).rails = s.rails := rfl
@[simp] theorem setFlag_monAlone (f : Fld) (b : Bool) : (setFlag s f b).monAlone = s.monAlone := rfl
@[simp] theorem setFlag_wear (f : Fld) (b : Bool) : (setFlag s f b).wear = s.wear := rfl
@[simp] theorem setFlag_gates (f : Fld) (b : Bool) : (setFlag s f b).gates = s.gates := rfl
@[simp] theorem setFlag_boot (f : Fld) (b : Bool) : (setFlag s f b).boot = s.boot := rfl
@[simp] theorem setFlag_ofc (f : Fld) (b : Bool) : (setFlag s f b).ofc = s.ofc := rfl
@[simp] theorem setFlag_link (f : Fld) (b : Bool) : (setFlag s f b).link = s.link := rfl
@[simp] theorem setFlag_chans (f : Fld) (b : Bool) : (setFlag s f b).chans = s.chans := rfl
@[simp] theorem setFlag_hostSent (f : Fld) (b : Bool) : (setFlag s f b).hostSent = s.hostSent := rfl
@[simp] theorem setFlag_posts (f : Fld) (b : Bool) : (setFlag s f b).posts = s.posts := rfl
@[simp] theorem setFlag_sram (f : Fld) (b : Bool) : (setFlag s f b).sram = s.sram := rfl
@[simp] theorem setFlag_opCounts (f : Fld) (b : Bool) : (setFlag s f b).opCounts = s.opCounts := rfl
@[simp] theorem setFlag_pieces (f : Fld) (b : Bool) : (setFlag s f b).pieces = s.pieces := rfl

/-! ### `countF` -/

@[simp] theorem countF_pending (f : Fld) (n : Nat) : (countF s f n).pending = s.pending := rfl
@[simp] theorem countF_latches (f : Fld) (n : Nat) : (countF s f n).latches = s.latches := rfl
@[simp] theorem countF_out (f : Fld) (n : Nat) : (countF s f n).out = s.out := rfl
@[simp] theorem countF_freeCtr (f : Fld) (n : Nat) : (countF s f n).freeCtr = s.freeCtr := rfl
@[simp] theorem countF_tick (f : Fld) (n : Nat) : (countF s f n).tick = s.tick := rfl
@[simp] theorem countF_slices (f : Fld) (n : Nat) : (countF s f n).slices = s.slices := rfl
@[simp] theorem countF_queues (f : Fld) (n : Nat) : (countF s f n).queues = s.queues := rfl
@[simp] theorem countF_fetched (f : Fld) (n : Nat) : (countF s f n).fetched = s.fetched := rfl
@[simp] theorem countF_fetchOrder (f : Fld) (n : Nat) : (countF s f n).fetchOrder = s.fetchOrder := rfl
@[simp] theorem countF_ctxs (f : Fld) (n : Nat) : (countF s f n).ctxs = s.ctxs := rfl
@[simp] theorem countF_ghosts (f : Fld) (n : Nat) : (countF s f n).ghosts = s.ghosts := rfl
@[simp] theorem countF_ctxOrder (f : Fld) (n : Nat) : (countF s f n).ctxOrder = s.ctxOrder := rfl
@[simp] theorem countF_compls (f : Fld) (n : Nat) : (countF s f n).compls = s.compls := rfl
@[simp] theorem countF_plans (f : Fld) (n : Nat) : (countF s f n).plans = s.plans := rfl
@[simp] theorem countF_ctrlUse (f : Fld) (n : Nat) : (countF s f n).ctrlUse = s.ctrlUse := rfl
@[simp] theorem countF_compEnd (f : Fld) (n : Nat) : (countF s f n).compEnd = s.compEnd := rfl
@[simp] theorem countF_keys (f : Fld) (n : Nat) : (countF s f n).keys = s.keys := rfl
@[simp] theorem countF_freed (f : Fld) (n : Nat) : (countF s f n).freed = s.freed := rfl
@[simp] theorem countF_fresh (f : Fld) (n : Nat) : (countF s f n).fresh = s.fresh := rfl
@[simp] theorem countF_slotTable (f : Fld) (n : Nat) : (countF s f n).slotTable = s.slotTable := rfl
@[simp] theorem countF_slotBase (f : Fld) (n : Nat) : (countF s f n).slotBase = s.slotBase := rfl
@[simp] theorem countF_records (f : Fld) (n : Nat) : (countF s f n).records = s.records := rfl
@[simp] theorem countF_recordDue (f : Fld) (n : Nat) : (countF s f n).recordDue = s.recordDue := rfl
@[simp] theorem countF_reserveDue (f : Fld) (n : Nat) : (countF s f n).reserveDue = s.reserveDue := rfl
@[simp] theorem countF_tombPend (f : Fld) (n : Nat) : (countF s f n).tombPend = s.tombPend := rfl
@[simp] theorem countF_ivCtr (f : Fld) (n : Nat) : (countF s f n).ivCtr = s.ivCtr := rfl
@[simp] theorem countF_vault (f : Fld) (n : Nat) : (countF s f n).vault = s.vault := rfl
@[simp] theorem countF_lms (f : Fld) (n : Nat) : (countF s f n).lms = s.lms := rfl
@[simp] theorem countF_rng (f : Fld) (n : Nat) : (countF s f n).rng = s.rng := rfl
@[simp] theorem countF_faults (f : Fld) (n : Nat) : (countF s f n).faults = s.faults := rfl
@[simp] theorem countF_thmTime (f : Fld) (n : Nat) : (countF s f n).thmTime = s.thmTime := rfl
@[simp] theorem countF_mem (f : Fld) (n : Nat) : (countF s f n).mem = s.mem := rfl
@[simp] theorem countF_tags (f : Fld) (n : Nat) : (countF s f n).tags = s.tags := rfl
@[simp] theorem countF_sill (f : Fld) (n : Nat) : (countF s f n).sill = s.sill := rfl
@[simp] theorem countF_msixTab (f : Fld) (n : Nat) : (countF s f n).msixTab = s.msixTab := rfl
@[simp] theorem countF_msixPba (f : Fld) (n : Nat) : (countF s f n).msixPba = s.msixPba := rfl
@[simp] theorem countF_smbAlert (f : Fld) (n : Nat) : (countF s f n).smbAlert = s.smbAlert := rfl
@[simp] theorem countF_returning (f : Fld) (n : Nat) : (countF s f n).returning = s.returning := rfl
@[simp] theorem countF_devNdl (f : Fld) (n : Nat) : (countF s f n).devNdl = s.devNdl := rfl
@[simp] theorem countF_upkeep (f : Fld) (n : Nat) : (countF s f n).upkeep = s.upkeep := rfl
@[simp] theorem countF_ledger (f : Fld) (n : Nat) : (countF s f n).ledger = s.ledger := rfl
@[simp] theorem countF_nv (f : Fld) (n : Nat) : (countF s f n).nv = s.nv := rfl
@[simp] theorem countF_fw (f : Fld) (n : Nat) : (countF s f n).fw = s.fw := rfl
@[simp] theorem countF_thm (f : Fld) (n : Nat) : (countF s f n).thm = s.thm := rfl
@[simp] theorem countF_rails (f : Fld) (n : Nat) : (countF s f n).rails = s.rails := rfl
@[simp] theorem countF_monAlone (f : Fld) (n : Nat) : (countF s f n).monAlone = s.monAlone := rfl
@[simp] theorem countF_wear (f : Fld) (n : Nat) : (countF s f n).wear = s.wear := rfl
@[simp] theorem countF_gates (f : Fld) (n : Nat) : (countF s f n).gates = s.gates := rfl
@[simp] theorem countF_boot (f : Fld) (n : Nat) : (countF s f n).boot = s.boot := rfl
@[simp] theorem countF_ofc (f : Fld) (n : Nat) : (countF s f n).ofc = s.ofc := rfl
@[simp] theorem countF_link (f : Fld) (n : Nat) : (countF s f n).link = s.link := rfl
@[simp] theorem countF_chans (f : Fld) (n : Nat) : (countF s f n).chans = s.chans := rfl
@[simp] theorem countF_hostSent (f : Fld) (n : Nat) : (countF s f n).hostSent = s.hostSent := rfl
@[simp] theorem countF_posts (f : Fld) (n : Nat) : (countF s f n).posts = s.posts := rfl
@[simp] theorem countF_sram (f : Fld) (n : Nat) : (countF s f n).sram = s.sram := rfl
@[simp] theorem countF_opCounts (f : Fld) (n : Nat) : (countF s f n).opCounts = s.opCounts := rfl
@[simp] theorem countF_pieces (f : Fld) (n : Nat) : (countF s f n).pieces = s.pieces := rfl

/-! ### `countReg` -/

@[simp] theorem countReg_pending (k n : Nat) : (countReg s k n).pending = s.pending := rfl
@[simp] theorem countReg_latches (k n : Nat) : (countReg s k n).latches = s.latches := rfl
@[simp] theorem countReg_out (k n : Nat) : (countReg s k n).out = s.out := rfl
@[simp] theorem countReg_freeCtr (k n : Nat) : (countReg s k n).freeCtr = s.freeCtr := rfl
@[simp] theorem countReg_tick (k n : Nat) : (countReg s k n).tick = s.tick := rfl
@[simp] theorem countReg_slices (k n : Nat) : (countReg s k n).slices = s.slices := rfl
@[simp] theorem countReg_queues (k n : Nat) : (countReg s k n).queues = s.queues := rfl
@[simp] theorem countReg_fetched (k n : Nat) : (countReg s k n).fetched = s.fetched := rfl
@[simp] theorem countReg_fetchOrder (k n : Nat) : (countReg s k n).fetchOrder = s.fetchOrder := rfl
@[simp] theorem countReg_ctxs (k n : Nat) : (countReg s k n).ctxs = s.ctxs := rfl
@[simp] theorem countReg_ghosts (k n : Nat) : (countReg s k n).ghosts = s.ghosts := rfl
@[simp] theorem countReg_ctxOrder (k n : Nat) : (countReg s k n).ctxOrder = s.ctxOrder := rfl
@[simp] theorem countReg_compls (k n : Nat) : (countReg s k n).compls = s.compls := rfl
@[simp] theorem countReg_plans (k n : Nat) : (countReg s k n).plans = s.plans := rfl
@[simp] theorem countReg_ctrlUse (k n : Nat) : (countReg s k n).ctrlUse = s.ctrlUse := rfl
@[simp] theorem countReg_compEnd (k n : Nat) : (countReg s k n).compEnd = s.compEnd := rfl
@[simp] theorem countReg_keys (k n : Nat) : (countReg s k n).keys = s.keys := rfl
@[simp] theorem countReg_freed (k n : Nat) : (countReg s k n).freed = s.freed := rfl
@[simp] theorem countReg_fresh (k n : Nat) : (countReg s k n).fresh = s.fresh := rfl
@[simp] theorem countReg_slotTable (k n : Nat) : (countReg s k n).slotTable = s.slotTable := rfl
@[simp] theorem countReg_slotBase (k n : Nat) : (countReg s k n).slotBase = s.slotBase := rfl
@[simp] theorem countReg_records (k n : Nat) : (countReg s k n).records = s.records := rfl
@[simp] theorem countReg_recordDue (k n : Nat) : (countReg s k n).recordDue = s.recordDue := rfl
@[simp] theorem countReg_reserveDue (k n : Nat) : (countReg s k n).reserveDue = s.reserveDue := rfl
@[simp] theorem countReg_tombPend (k n : Nat) : (countReg s k n).tombPend = s.tombPend := rfl
@[simp] theorem countReg_ivCtr (k n : Nat) : (countReg s k n).ivCtr = s.ivCtr := rfl
@[simp] theorem countReg_vault (k n : Nat) : (countReg s k n).vault = s.vault := rfl
@[simp] theorem countReg_lms (k n : Nat) : (countReg s k n).lms = s.lms := rfl
@[simp] theorem countReg_rng (k n : Nat) : (countReg s k n).rng = s.rng := rfl
@[simp] theorem countReg_faults (k n : Nat) : (countReg s k n).faults = s.faults := rfl
@[simp] theorem countReg_thmTime (k n : Nat) : (countReg s k n).thmTime = s.thmTime := rfl
@[simp] theorem countReg_mem (k n : Nat) : (countReg s k n).mem = s.mem := rfl
@[simp] theorem countReg_tags (k n : Nat) : (countReg s k n).tags = s.tags := rfl
@[simp] theorem countReg_sill (k n : Nat) : (countReg s k n).sill = s.sill := rfl
@[simp] theorem countReg_msixTab (k n : Nat) : (countReg s k n).msixTab = s.msixTab := rfl
@[simp] theorem countReg_msixPba (k n : Nat) : (countReg s k n).msixPba = s.msixPba := rfl
@[simp] theorem countReg_smbAlert (k n : Nat) : (countReg s k n).smbAlert = s.smbAlert := rfl
@[simp] theorem countReg_returning (k n : Nat) : (countReg s k n).returning = s.returning := rfl
@[simp] theorem countReg_devNdl (k n : Nat) : (countReg s k n).devNdl = s.devNdl := rfl
@[simp] theorem countReg_upkeep (k n : Nat) : (countReg s k n).upkeep = s.upkeep := rfl
@[simp] theorem countReg_ledger (k n : Nat) : (countReg s k n).ledger = s.ledger := rfl
@[simp] theorem countReg_nv (k n : Nat) : (countReg s k n).nv = s.nv := rfl
@[simp] theorem countReg_fw (k n : Nat) : (countReg s k n).fw = s.fw := rfl
@[simp] theorem countReg_thm (k n : Nat) : (countReg s k n).thm = s.thm := rfl
@[simp] theorem countReg_rails (k n : Nat) : (countReg s k n).rails = s.rails := rfl
@[simp] theorem countReg_monAlone (k n : Nat) : (countReg s k n).monAlone = s.monAlone := rfl
@[simp] theorem countReg_wear (k n : Nat) : (countReg s k n).wear = s.wear := rfl
@[simp] theorem countReg_gates (k n : Nat) : (countReg s k n).gates = s.gates := rfl
@[simp] theorem countReg_boot (k n : Nat) : (countReg s k n).boot = s.boot := rfl
@[simp] theorem countReg_ofc (k n : Nat) : (countReg s k n).ofc = s.ofc := rfl
@[simp] theorem countReg_link (k n : Nat) : (countReg s k n).link = s.link := rfl
@[simp] theorem countReg_chans (k n : Nat) : (countReg s k n).chans = s.chans := rfl
@[simp] theorem countReg_hostSent (k n : Nat) : (countReg s k n).hostSent = s.hostSent := rfl
@[simp] theorem countReg_posts (k n : Nat) : (countReg s k n).posts = s.posts := rfl
@[simp] theorem countReg_sram (k n : Nat) : (countReg s k n).sram = s.sram := rfl
@[simp] theorem countReg_opCounts (k n : Nat) : (countReg s k n).opCounts = s.opCounts := rfl
@[simp] theorem countReg_pieces (k n : Nat) : (countReg s k n).pieces = s.pieces := rfl

/-! ### `orReg` -/

@[simp] theorem orReg_pending (k n : Nat) : (orReg s k n).pending = s.pending := rfl
@[simp] theorem orReg_latches (k n : Nat) : (orReg s k n).latches = s.latches := rfl
@[simp] theorem orReg_out (k n : Nat) : (orReg s k n).out = s.out := rfl
@[simp] theorem orReg_freeCtr (k n : Nat) : (orReg s k n).freeCtr = s.freeCtr := rfl
@[simp] theorem orReg_tick (k n : Nat) : (orReg s k n).tick = s.tick := rfl
@[simp] theorem orReg_slices (k n : Nat) : (orReg s k n).slices = s.slices := rfl
@[simp] theorem orReg_queues (k n : Nat) : (orReg s k n).queues = s.queues := rfl
@[simp] theorem orReg_fetched (k n : Nat) : (orReg s k n).fetched = s.fetched := rfl
@[simp] theorem orReg_fetchOrder (k n : Nat) : (orReg s k n).fetchOrder = s.fetchOrder := rfl
@[simp] theorem orReg_ctxs (k n : Nat) : (orReg s k n).ctxs = s.ctxs := rfl
@[simp] theorem orReg_ghosts (k n : Nat) : (orReg s k n).ghosts = s.ghosts := rfl
@[simp] theorem orReg_ctxOrder (k n : Nat) : (orReg s k n).ctxOrder = s.ctxOrder := rfl
@[simp] theorem orReg_compls (k n : Nat) : (orReg s k n).compls = s.compls := rfl
@[simp] theorem orReg_plans (k n : Nat) : (orReg s k n).plans = s.plans := rfl
@[simp] theorem orReg_ctrlUse (k n : Nat) : (orReg s k n).ctrlUse = s.ctrlUse := rfl
@[simp] theorem orReg_compEnd (k n : Nat) : (orReg s k n).compEnd = s.compEnd := rfl
@[simp] theorem orReg_keys (k n : Nat) : (orReg s k n).keys = s.keys := rfl
@[simp] theorem orReg_freed (k n : Nat) : (orReg s k n).freed = s.freed := rfl
@[simp] theorem orReg_fresh (k n : Nat) : (orReg s k n).fresh = s.fresh := rfl
@[simp] theorem orReg_slotTable (k n : Nat) : (orReg s k n).slotTable = s.slotTable := rfl
@[simp] theorem orReg_slotBase (k n : Nat) : (orReg s k n).slotBase = s.slotBase := rfl
@[simp] theorem orReg_records (k n : Nat) : (orReg s k n).records = s.records := rfl
@[simp] theorem orReg_recordDue (k n : Nat) : (orReg s k n).recordDue = s.recordDue := rfl
@[simp] theorem orReg_reserveDue (k n : Nat) : (orReg s k n).reserveDue = s.reserveDue := rfl
@[simp] theorem orReg_tombPend (k n : Nat) : (orReg s k n).tombPend = s.tombPend := rfl
@[simp] theorem orReg_ivCtr (k n : Nat) : (orReg s k n).ivCtr = s.ivCtr := rfl
@[simp] theorem orReg_vault (k n : Nat) : (orReg s k n).vault = s.vault := rfl
@[simp] theorem orReg_lms (k n : Nat) : (orReg s k n).lms = s.lms := rfl
@[simp] theorem orReg_rng (k n : Nat) : (orReg s k n).rng = s.rng := rfl
@[simp] theorem orReg_faults (k n : Nat) : (orReg s k n).faults = s.faults := rfl
@[simp] theorem orReg_thmTime (k n : Nat) : (orReg s k n).thmTime = s.thmTime := rfl
@[simp] theorem orReg_mem (k n : Nat) : (orReg s k n).mem = s.mem := rfl
@[simp] theorem orReg_tags (k n : Nat) : (orReg s k n).tags = s.tags := rfl
@[simp] theorem orReg_sill (k n : Nat) : (orReg s k n).sill = s.sill := rfl
@[simp] theorem orReg_msixTab (k n : Nat) : (orReg s k n).msixTab = s.msixTab := rfl
@[simp] theorem orReg_msixPba (k n : Nat) : (orReg s k n).msixPba = s.msixPba := rfl
@[simp] theorem orReg_smbAlert (k n : Nat) : (orReg s k n).smbAlert = s.smbAlert := rfl
@[simp] theorem orReg_returning (k n : Nat) : (orReg s k n).returning = s.returning := rfl
@[simp] theorem orReg_devNdl (k n : Nat) : (orReg s k n).devNdl = s.devNdl := rfl
@[simp] theorem orReg_upkeep (k n : Nat) : (orReg s k n).upkeep = s.upkeep := rfl
@[simp] theorem orReg_ledger (k n : Nat) : (orReg s k n).ledger = s.ledger := rfl
@[simp] theorem orReg_nv (k n : Nat) : (orReg s k n).nv = s.nv := rfl
@[simp] theorem orReg_fw (k n : Nat) : (orReg s k n).fw = s.fw := rfl
@[simp] theorem orReg_thm (k n : Nat) : (orReg s k n).thm = s.thm := rfl
@[simp] theorem orReg_rails (k n : Nat) : (orReg s k n).rails = s.rails := rfl
@[simp] theorem orReg_monAlone (k n : Nat) : (orReg s k n).monAlone = s.monAlone := rfl
@[simp] theorem orReg_wear (k n : Nat) : (orReg s k n).wear = s.wear := rfl
@[simp] theorem orReg_gates (k n : Nat) : (orReg s k n).gates = s.gates := rfl
@[simp] theorem orReg_boot (k n : Nat) : (orReg s k n).boot = s.boot := rfl
@[simp] theorem orReg_ofc (k n : Nat) : (orReg s k n).ofc = s.ofc := rfl
@[simp] theorem orReg_link (k n : Nat) : (orReg s k n).link = s.link := rfl
@[simp] theorem orReg_chans (k n : Nat) : (orReg s k n).chans = s.chans := rfl
@[simp] theorem orReg_hostSent (k n : Nat) : (orReg s k n).hostSent = s.hostSent := rfl
@[simp] theorem orReg_posts (k n : Nat) : (orReg s k n).posts = s.posts := rfl
@[simp] theorem orReg_sram (k n : Nat) : (orReg s k n).sram = s.sram := rfl
@[simp] theorem orReg_opCounts (k n : Nat) : (orReg s k n).opCounts = s.opCounts := rfl
@[simp] theorem orReg_pieces (k n : Nat) : (orReg s k n).pieces = s.pieces := rfl

/-! ### `event` -/

@[simp] theorem event_pending (f : Fld) : (event s f).pending = s.pending := rfl
@[simp] theorem event_latches (f : Fld) : (event s f).latches = s.latches := rfl
@[simp] theorem event_out (f : Fld) : (event s f).out = s.out := rfl
@[simp] theorem event_freeCtr (f : Fld) : (event s f).freeCtr = s.freeCtr := rfl
@[simp] theorem event_tick (f : Fld) : (event s f).tick = s.tick := rfl
@[simp] theorem event_slices (f : Fld) : (event s f).slices = s.slices := rfl
@[simp] theorem event_queues (f : Fld) : (event s f).queues = s.queues := rfl
@[simp] theorem event_fetched (f : Fld) : (event s f).fetched = s.fetched := rfl
@[simp] theorem event_fetchOrder (f : Fld) : (event s f).fetchOrder = s.fetchOrder := rfl
@[simp] theorem event_ctxs (f : Fld) : (event s f).ctxs = s.ctxs := rfl
@[simp] theorem event_ghosts (f : Fld) : (event s f).ghosts = s.ghosts := rfl
@[simp] theorem event_ctxOrder (f : Fld) : (event s f).ctxOrder = s.ctxOrder := rfl
@[simp] theorem event_compls (f : Fld) : (event s f).compls = s.compls := rfl
@[simp] theorem event_plans (f : Fld) : (event s f).plans = s.plans := rfl
@[simp] theorem event_ctrlUse (f : Fld) : (event s f).ctrlUse = s.ctrlUse := rfl
@[simp] theorem event_compEnd (f : Fld) : (event s f).compEnd = s.compEnd := rfl
@[simp] theorem event_keys (f : Fld) : (event s f).keys = s.keys := rfl
@[simp] theorem event_freed (f : Fld) : (event s f).freed = s.freed := rfl
@[simp] theorem event_fresh (f : Fld) : (event s f).fresh = s.fresh := rfl
@[simp] theorem event_slotTable (f : Fld) : (event s f).slotTable = s.slotTable := rfl
@[simp] theorem event_slotBase (f : Fld) : (event s f).slotBase = s.slotBase := rfl
@[simp] theorem event_records (f : Fld) : (event s f).records = s.records := rfl
@[simp] theorem event_recordDue (f : Fld) : (event s f).recordDue = s.recordDue := rfl
@[simp] theorem event_reserveDue (f : Fld) : (event s f).reserveDue = s.reserveDue := rfl
@[simp] theorem event_tombPend (f : Fld) : (event s f).tombPend = s.tombPend := rfl
@[simp] theorem event_ivCtr (f : Fld) : (event s f).ivCtr = s.ivCtr := rfl
@[simp] theorem event_vault (f : Fld) : (event s f).vault = s.vault := rfl
@[simp] theorem event_lms (f : Fld) : (event s f).lms = s.lms := rfl
@[simp] theorem event_rng (f : Fld) : (event s f).rng = s.rng := rfl
@[simp] theorem event_faults (f : Fld) : (event s f).faults = s.faults := rfl
@[simp] theorem event_thmTime (f : Fld) : (event s f).thmTime = s.thmTime := rfl
@[simp] theorem event_mem (f : Fld) : (event s f).mem = s.mem := rfl
@[simp] theorem event_tags (f : Fld) : (event s f).tags = s.tags := rfl
@[simp] theorem event_sill (f : Fld) : (event s f).sill = s.sill := rfl
@[simp] theorem event_msixTab (f : Fld) : (event s f).msixTab = s.msixTab := rfl
@[simp] theorem event_msixPba (f : Fld) : (event s f).msixPba = s.msixPba := rfl
@[simp] theorem event_smbAlert (f : Fld) : (event s f).smbAlert = s.smbAlert := rfl
@[simp] theorem event_returning (f : Fld) : (event s f).returning = s.returning := rfl
@[simp] theorem event_devNdl (f : Fld) : (event s f).devNdl = s.devNdl := rfl
@[simp] theorem event_upkeep (f : Fld) : (event s f).upkeep = s.upkeep := rfl
@[simp] theorem event_ledger (f : Fld) : (event s f).ledger = s.ledger := rfl
@[simp] theorem event_nv (f : Fld) : (event s f).nv = s.nv := rfl
@[simp] theorem event_fw (f : Fld) : (event s f).fw = s.fw := rfl
@[simp] theorem event_thm (f : Fld) : (event s f).thm = s.thm := rfl
@[simp] theorem event_rails (f : Fld) : (event s f).rails = s.rails := rfl
@[simp] theorem event_monAlone (f : Fld) : (event s f).monAlone = s.monAlone := rfl
@[simp] theorem event_wear (f : Fld) : (event s f).wear = s.wear := rfl
@[simp] theorem event_gates (f : Fld) : (event s f).gates = s.gates := rfl
@[simp] theorem event_boot (f : Fld) : (event s f).boot = s.boot := rfl
@[simp] theorem event_ofc (f : Fld) : (event s f).ofc = s.ofc := rfl
@[simp] theorem event_link (f : Fld) : (event s f).link = s.link := rfl
@[simp] theorem event_chans (f : Fld) : (event s f).chans = s.chans := rfl
@[simp] theorem event_hostSent (f : Fld) : (event s f).hostSent = s.hostSent := rfl
@[simp] theorem event_posts (f : Fld) : (event s f).posts = s.posts := rfl
@[simp] theorem event_sram (f : Fld) : (event s f).sram = s.sram := rfl
@[simp] theorem event_opCounts (f : Fld) : (event s f).opCounts = s.opCounts := rfl
@[simp] theorem event_pieces (f : Fld) : (event s f).pieces = s.pieces := rfl

/-! ### `emit` -/

@[simp] theorem emit_pending (o : Out) : (emit s o).pending = s.pending := rfl
@[simp] theorem emit_regs (o : Out) : (emit s o).regs = s.regs := rfl
@[simp] theorem emit_latches (o : Out) : (emit s o).latches = s.latches := rfl
@[simp] theorem emit_freeCtr (o : Out) : (emit s o).freeCtr = s.freeCtr := rfl
@[simp] theorem emit_tick (o : Out) : (emit s o).tick = s.tick := rfl
@[simp] theorem emit_slices (o : Out) : (emit s o).slices = s.slices := rfl
@[simp] theorem emit_queues (o : Out) : (emit s o).queues = s.queues := rfl
@[simp] theorem emit_fetched (o : Out) : (emit s o).fetched = s.fetched := rfl
@[simp] theorem emit_fetchOrder (o : Out) : (emit s o).fetchOrder = s.fetchOrder := rfl
@[simp] theorem emit_ctxs (o : Out) : (emit s o).ctxs = s.ctxs := rfl
@[simp] theorem emit_ghosts (o : Out) : (emit s o).ghosts = s.ghosts := rfl
@[simp] theorem emit_ctxOrder (o : Out) : (emit s o).ctxOrder = s.ctxOrder := rfl
@[simp] theorem emit_compls (o : Out) : (emit s o).compls = s.compls := rfl
@[simp] theorem emit_plans (o : Out) : (emit s o).plans = s.plans := rfl
@[simp] theorem emit_ctrlUse (o : Out) : (emit s o).ctrlUse = s.ctrlUse := rfl
@[simp] theorem emit_compEnd (o : Out) : (emit s o).compEnd = s.compEnd := rfl
@[simp] theorem emit_keys (o : Out) : (emit s o).keys = s.keys := rfl
@[simp] theorem emit_freed (o : Out) : (emit s o).freed = s.freed := rfl
@[simp] theorem emit_fresh (o : Out) : (emit s o).fresh = s.fresh := rfl
@[simp] theorem emit_slotTable (o : Out) : (emit s o).slotTable = s.slotTable := rfl
@[simp] theorem emit_slotBase (o : Out) : (emit s o).slotBase = s.slotBase := rfl
@[simp] theorem emit_records (o : Out) : (emit s o).records = s.records := rfl
@[simp] theorem emit_recordDue (o : Out) : (emit s o).recordDue = s.recordDue := rfl
@[simp] theorem emit_reserveDue (o : Out) : (emit s o).reserveDue = s.reserveDue := rfl
@[simp] theorem emit_tombPend (o : Out) : (emit s o).tombPend = s.tombPend := rfl
@[simp] theorem emit_ivCtr (o : Out) : (emit s o).ivCtr = s.ivCtr := rfl
@[simp] theorem emit_vault (o : Out) : (emit s o).vault = s.vault := rfl
@[simp] theorem emit_lms (o : Out) : (emit s o).lms = s.lms := rfl
@[simp] theorem emit_rng (o : Out) : (emit s o).rng = s.rng := rfl
@[simp] theorem emit_faults (o : Out) : (emit s o).faults = s.faults := rfl
@[simp] theorem emit_thmTime (o : Out) : (emit s o).thmTime = s.thmTime := rfl
@[simp] theorem emit_mem (o : Out) : (emit s o).mem = s.mem := rfl
@[simp] theorem emit_tags (o : Out) : (emit s o).tags = s.tags := rfl
@[simp] theorem emit_sill (o : Out) : (emit s o).sill = s.sill := rfl
@[simp] theorem emit_msixTab (o : Out) : (emit s o).msixTab = s.msixTab := rfl
@[simp] theorem emit_msixPba (o : Out) : (emit s o).msixPba = s.msixPba := rfl
@[simp] theorem emit_smbAlert (o : Out) : (emit s o).smbAlert = s.smbAlert := rfl
@[simp] theorem emit_returning (o : Out) : (emit s o).returning = s.returning := rfl
@[simp] theorem emit_devNdl (o : Out) : (emit s o).devNdl = s.devNdl := rfl
@[simp] theorem emit_upkeep (o : Out) : (emit s o).upkeep = s.upkeep := rfl
@[simp] theorem emit_ledger (o : Out) : (emit s o).ledger = s.ledger := rfl
@[simp] theorem emit_nv (o : Out) : (emit s o).nv = s.nv := rfl
@[simp] theorem emit_fw (o : Out) : (emit s o).fw = s.fw := rfl
@[simp] theorem emit_thm (o : Out) : (emit s o).thm = s.thm := rfl
@[simp] theorem emit_rails (o : Out) : (emit s o).rails = s.rails := rfl
@[simp] theorem emit_monAlone (o : Out) : (emit s o).monAlone = s.monAlone := rfl
@[simp] theorem emit_wear (o : Out) : (emit s o).wear = s.wear := rfl
@[simp] theorem emit_gates (o : Out) : (emit s o).gates = s.gates := rfl
@[simp] theorem emit_boot (o : Out) : (emit s o).boot = s.boot := rfl
@[simp] theorem emit_ofc (o : Out) : (emit s o).ofc = s.ofc := rfl
@[simp] theorem emit_link (o : Out) : (emit s o).link = s.link := rfl
@[simp] theorem emit_chans (o : Out) : (emit s o).chans = s.chans := rfl
@[simp] theorem emit_hostSent (o : Out) : (emit s o).hostSent = s.hostSent := rfl
@[simp] theorem emit_posts (o : Out) : (emit s o).posts = s.posts := rfl
@[simp] theorem emit_sram (o : Out) : (emit s o).sram = s.sram := rfl
@[simp] theorem emit_opCounts (o : Out) : (emit s o).opCounts = s.opCounts := rfl
@[simp] theorem emit_pieces (o : Out) : (emit s o).pieces = s.pieces := rfl

/-! ### `setSlice` -/

@[simp] theorem setSlice_pending (n : Nat) (x : Slice) : (setSlice s n x).pending = s.pending := rfl
@[simp] theorem setSlice_regs (n : Nat) (x : Slice) : (setSlice s n x).regs = s.regs := rfl
@[simp] theorem setSlice_latches (n : Nat) (x : Slice) : (setSlice s n x).latches = s.latches := rfl
@[simp] theorem setSlice_out (n : Nat) (x : Slice) : (setSlice s n x).out = s.out := rfl
@[simp] theorem setSlice_freeCtr (n : Nat) (x : Slice) : (setSlice s n x).freeCtr = s.freeCtr := rfl
@[simp] theorem setSlice_tick (n : Nat) (x : Slice) : (setSlice s n x).tick = s.tick := rfl
@[simp] theorem setSlice_queues (n : Nat) (x : Slice) : (setSlice s n x).queues = s.queues := rfl
@[simp] theorem setSlice_fetched (n : Nat) (x : Slice) : (setSlice s n x).fetched = s.fetched := rfl
@[simp] theorem setSlice_fetchOrder (n : Nat) (x : Slice) : (setSlice s n x).fetchOrder = s.fetchOrder := rfl
@[simp] theorem setSlice_ctxs (n : Nat) (x : Slice) : (setSlice s n x).ctxs = s.ctxs := rfl
@[simp] theorem setSlice_ghosts (n : Nat) (x : Slice) : (setSlice s n x).ghosts = s.ghosts := rfl
@[simp] theorem setSlice_ctxOrder (n : Nat) (x : Slice) : (setSlice s n x).ctxOrder = s.ctxOrder := rfl
@[simp] theorem setSlice_compls (n : Nat) (x : Slice) : (setSlice s n x).compls = s.compls := rfl
@[simp] theorem setSlice_plans (n : Nat) (x : Slice) : (setSlice s n x).plans = s.plans := rfl
@[simp] theorem setSlice_ctrlUse (n : Nat) (x : Slice) : (setSlice s n x).ctrlUse = s.ctrlUse := rfl
@[simp] theorem setSlice_compEnd (n : Nat) (x : Slice) : (setSlice s n x).compEnd = s.compEnd := rfl
@[simp] theorem setSlice_keys (n : Nat) (x : Slice) : (setSlice s n x).keys = s.keys := rfl
@[simp] theorem setSlice_freed (n : Nat) (x : Slice) : (setSlice s n x).freed = s.freed := rfl
@[simp] theorem setSlice_fresh (n : Nat) (x : Slice) : (setSlice s n x).fresh = s.fresh := rfl
@[simp] theorem setSlice_slotTable (n : Nat) (x : Slice) : (setSlice s n x).slotTable = s.slotTable := rfl
@[simp] theorem setSlice_slotBase (n : Nat) (x : Slice) : (setSlice s n x).slotBase = s.slotBase := rfl
@[simp] theorem setSlice_records (n : Nat) (x : Slice) : (setSlice s n x).records = s.records := rfl
@[simp] theorem setSlice_recordDue (n : Nat) (x : Slice) : (setSlice s n x).recordDue = s.recordDue := rfl
@[simp] theorem setSlice_reserveDue (n : Nat) (x : Slice) : (setSlice s n x).reserveDue = s.reserveDue := rfl
@[simp] theorem setSlice_tombPend (n : Nat) (x : Slice) : (setSlice s n x).tombPend = s.tombPend := rfl
@[simp] theorem setSlice_ivCtr (n : Nat) (x : Slice) : (setSlice s n x).ivCtr = s.ivCtr := rfl
@[simp] theorem setSlice_vault (n : Nat) (x : Slice) : (setSlice s n x).vault = s.vault := rfl
@[simp] theorem setSlice_lms (n : Nat) (x : Slice) : (setSlice s n x).lms = s.lms := rfl
@[simp] theorem setSlice_rng (n : Nat) (x : Slice) : (setSlice s n x).rng = s.rng := rfl
@[simp] theorem setSlice_faults (n : Nat) (x : Slice) : (setSlice s n x).faults = s.faults := rfl
@[simp] theorem setSlice_thmTime (n : Nat) (x : Slice) : (setSlice s n x).thmTime = s.thmTime := rfl
@[simp] theorem setSlice_mem (n : Nat) (x : Slice) : (setSlice s n x).mem = s.mem := rfl
@[simp] theorem setSlice_tags (n : Nat) (x : Slice) : (setSlice s n x).tags = s.tags := rfl
@[simp] theorem setSlice_sill (n : Nat) (x : Slice) : (setSlice s n x).sill = s.sill := rfl
@[simp] theorem setSlice_msixTab (n : Nat) (x : Slice) : (setSlice s n x).msixTab = s.msixTab := rfl
@[simp] theorem setSlice_msixPba (n : Nat) (x : Slice) : (setSlice s n x).msixPba = s.msixPba := rfl
@[simp] theorem setSlice_smbAlert (n : Nat) (x : Slice) : (setSlice s n x).smbAlert = s.smbAlert := rfl
@[simp] theorem setSlice_returning (n : Nat) (x : Slice) : (setSlice s n x).returning = s.returning := rfl
@[simp] theorem setSlice_devNdl (n : Nat) (x : Slice) : (setSlice s n x).devNdl = s.devNdl := rfl
@[simp] theorem setSlice_upkeep (n : Nat) (x : Slice) : (setSlice s n x).upkeep = s.upkeep := rfl
@[simp] theorem setSlice_ledger (n : Nat) (x : Slice) : (setSlice s n x).ledger = s.ledger := rfl
@[simp] theorem setSlice_nv (n : Nat) (x : Slice) : (setSlice s n x).nv = s.nv := rfl
@[simp] theorem setSlice_fw (n : Nat) (x : Slice) : (setSlice s n x).fw = s.fw := rfl
@[simp] theorem setSlice_thm (n : Nat) (x : Slice) : (setSlice s n x).thm = s.thm := rfl
@[simp] theorem setSlice_rails (n : Nat) (x : Slice) : (setSlice s n x).rails = s.rails := rfl
@[simp] theorem setSlice_monAlone (n : Nat) (x : Slice) : (setSlice s n x).monAlone = s.monAlone := rfl
@[simp] theorem setSlice_wear (n : Nat) (x : Slice) : (setSlice s n x).wear = s.wear := rfl
@[simp] theorem setSlice_gates (n : Nat) (x : Slice) : (setSlice s n x).gates = s.gates := rfl
@[simp] theorem setSlice_boot (n : Nat) (x : Slice) : (setSlice s n x).boot = s.boot := rfl
@[simp] theorem setSlice_ofc (n : Nat) (x : Slice) : (setSlice s n x).ofc = s.ofc := rfl
@[simp] theorem setSlice_link (n : Nat) (x : Slice) : (setSlice s n x).link = s.link := rfl
@[simp] theorem setSlice_chans (n : Nat) (x : Slice) : (setSlice s n x).chans = s.chans := rfl
@[simp] theorem setSlice_hostSent (n : Nat) (x : Slice) : (setSlice s n x).hostSent = s.hostSent := rfl
@[simp] theorem setSlice_posts (n : Nat) (x : Slice) : (setSlice s n x).posts = s.posts := rfl
@[simp] theorem setSlice_sram (n : Nat) (x : Slice) : (setSlice s n x).sram = s.sram := rfl
@[simp] theorem setSlice_opCounts (n : Nat) (x : Slice) : (setSlice s n x).opCounts = s.opCounts := rfl
@[simp] theorem setSlice_pieces (n : Nat) (x : Slice) : (setSlice s n x).pieces = s.pieces := rfl

/-! ### `setQueue` -/

@[simp] theorem setQueue_pending (a q : Nat) (x : Queue) : (setQueue s a q x).pending = s.pending := rfl
@[simp] theorem setQueue_regs (a q : Nat) (x : Queue) : (setQueue s a q x).regs = s.regs := rfl
@[simp] theorem setQueue_latches (a q : Nat) (x : Queue) : (setQueue s a q x).latches = s.latches := rfl
@[simp] theorem setQueue_out (a q : Nat) (x : Queue) : (setQueue s a q x).out = s.out := rfl
@[simp] theorem setQueue_freeCtr (a q : Nat) (x : Queue) : (setQueue s a q x).freeCtr = s.freeCtr := rfl
@[simp] theorem setQueue_tick (a q : Nat) (x : Queue) : (setQueue s a q x).tick = s.tick := rfl
@[simp] theorem setQueue_slices (a q : Nat) (x : Queue) : (setQueue s a q x).slices = s.slices := rfl
@[simp] theorem setQueue_fetched (a q : Nat) (x : Queue) : (setQueue s a q x).fetched = s.fetched := rfl
@[simp] theorem setQueue_fetchOrder (a q : Nat) (x : Queue) : (setQueue s a q x).fetchOrder = s.fetchOrder := rfl
@[simp] theorem setQueue_ctxs (a q : Nat) (x : Queue) : (setQueue s a q x).ctxs = s.ctxs := rfl
@[simp] theorem setQueue_ghosts (a q : Nat) (x : Queue) : (setQueue s a q x).ghosts = s.ghosts := rfl
@[simp] theorem setQueue_ctxOrder (a q : Nat) (x : Queue) : (setQueue s a q x).ctxOrder = s.ctxOrder := rfl
@[simp] theorem setQueue_compls (a q : Nat) (x : Queue) : (setQueue s a q x).compls = s.compls := rfl
@[simp] theorem setQueue_plans (a q : Nat) (x : Queue) : (setQueue s a q x).plans = s.plans := rfl
@[simp] theorem setQueue_ctrlUse (a q : Nat) (x : Queue) : (setQueue s a q x).ctrlUse = s.ctrlUse := rfl
@[simp] theorem setQueue_compEnd (a q : Nat) (x : Queue) : (setQueue s a q x).compEnd = s.compEnd := rfl
@[simp] theorem setQueue_keys (a q : Nat) (x : Queue) : (setQueue s a q x).keys = s.keys := rfl
@[simp] theorem setQueue_freed (a q : Nat) (x : Queue) : (setQueue s a q x).freed = s.freed := rfl
@[simp] theorem setQueue_fresh (a q : Nat) (x : Queue) : (setQueue s a q x).fresh = s.fresh := rfl
@[simp] theorem setQueue_slotTable (a q : Nat) (x : Queue) : (setQueue s a q x).slotTable = s.slotTable := rfl
@[simp] theorem setQueue_slotBase (a q : Nat) (x : Queue) : (setQueue s a q x).slotBase = s.slotBase := rfl
@[simp] theorem setQueue_records (a q : Nat) (x : Queue) : (setQueue s a q x).records = s.records := rfl
@[simp] theorem setQueue_recordDue (a q : Nat) (x : Queue) : (setQueue s a q x).recordDue = s.recordDue := rfl
@[simp] theorem setQueue_reserveDue (a q : Nat) (x : Queue) : (setQueue s a q x).reserveDue = s.reserveDue := rfl
@[simp] theorem setQueue_tombPend (a q : Nat) (x : Queue) : (setQueue s a q x).tombPend = s.tombPend := rfl
@[simp] theorem setQueue_ivCtr (a q : Nat) (x : Queue) : (setQueue s a q x).ivCtr = s.ivCtr := rfl
@[simp] theorem setQueue_vault (a q : Nat) (x : Queue) : (setQueue s a q x).vault = s.vault := rfl
@[simp] theorem setQueue_lms (a q : Nat) (x : Queue) : (setQueue s a q x).lms = s.lms := rfl
@[simp] theorem setQueue_rng (a q : Nat) (x : Queue) : (setQueue s a q x).rng = s.rng := rfl
@[simp] theorem setQueue_faults (a q : Nat) (x : Queue) : (setQueue s a q x).faults = s.faults := rfl
@[simp] theorem setQueue_thmTime (a q : Nat) (x : Queue) : (setQueue s a q x).thmTime = s.thmTime := rfl
@[simp] theorem setQueue_mem (a q : Nat) (x : Queue) : (setQueue s a q x).mem = s.mem := rfl
@[simp] theorem setQueue_tags (a q : Nat) (x : Queue) : (setQueue s a q x).tags = s.tags := rfl
@[simp] theorem setQueue_sill (a q : Nat) (x : Queue) : (setQueue s a q x).sill = s.sill := rfl
@[simp] theorem setQueue_msixTab (a q : Nat) (x : Queue) : (setQueue s a q x).msixTab = s.msixTab := rfl
@[simp] theorem setQueue_msixPba (a q : Nat) (x : Queue) : (setQueue s a q x).msixPba = s.msixPba := rfl
@[simp] theorem setQueue_smbAlert (a q : Nat) (x : Queue) : (setQueue s a q x).smbAlert = s.smbAlert := rfl
@[simp] theorem setQueue_returning (a q : Nat) (x : Queue) : (setQueue s a q x).returning = s.returning := rfl
@[simp] theorem setQueue_devNdl (a q : Nat) (x : Queue) : (setQueue s a q x).devNdl = s.devNdl := rfl
@[simp] theorem setQueue_upkeep (a q : Nat) (x : Queue) : (setQueue s a q x).upkeep = s.upkeep := rfl
@[simp] theorem setQueue_ledger (a q : Nat) (x : Queue) : (setQueue s a q x).ledger = s.ledger := rfl
@[simp] theorem setQueue_nv (a q : Nat) (x : Queue) : (setQueue s a q x).nv = s.nv := rfl
@[simp] theorem setQueue_fw (a q : Nat) (x : Queue) : (setQueue s a q x).fw = s.fw := rfl
@[simp] theorem setQueue_thm (a q : Nat) (x : Queue) : (setQueue s a q x).thm = s.thm := rfl
@[simp] theorem setQueue_rails (a q : Nat) (x : Queue) : (setQueue s a q x).rails = s.rails := rfl
@[simp] theorem setQueue_monAlone (a q : Nat) (x : Queue) : (setQueue s a q x).monAlone = s.monAlone := rfl
@[simp] theorem setQueue_wear (a q : Nat) (x : Queue) : (setQueue s a q x).wear = s.wear := rfl
@[simp] theorem setQueue_gates (a q : Nat) (x : Queue) : (setQueue s a q x).gates = s.gates := rfl
@[simp] theorem setQueue_boot (a q : Nat) (x : Queue) : (setQueue s a q x).boot = s.boot := rfl
@[simp] theorem setQueue_ofc (a q : Nat) (x : Queue) : (setQueue s a q x).ofc = s.ofc := rfl
@[simp] theorem setQueue_link (a q : Nat) (x : Queue) : (setQueue s a q x).link = s.link := rfl
@[simp] theorem setQueue_chans (a q : Nat) (x : Queue) : (setQueue s a q x).chans = s.chans := rfl
@[simp] theorem setQueue_hostSent (a q : Nat) (x : Queue) : (setQueue s a q x).hostSent = s.hostSent := rfl
@[simp] theorem setQueue_posts (a q : Nat) (x : Queue) : (setQueue s a q x).posts = s.posts := rfl
@[simp] theorem setQueue_sram (a q : Nat) (x : Queue) : (setQueue s a q x).sram = s.sram := rfl
@[simp] theorem setQueue_opCounts (a q : Nat) (x : Queue) : (setQueue s a q x).opCounts = s.opCounts := rfl
@[simp] theorem setQueue_pieces (a q : Nat) (x : Queue) : (setQueue s a q x).pieces = s.pieces := rfl

/-! ### `setCtx` -/

@[simp] theorem setCtx_pending (n : Nat) (c : Ctx) : (setCtx s n c).pending = s.pending := rfl
@[simp] theorem setCtx_regs (n : Nat) (c : Ctx) : (setCtx s n c).regs = s.regs := rfl
@[simp] theorem setCtx_latches (n : Nat) (c : Ctx) : (setCtx s n c).latches = s.latches := rfl
@[simp] theorem setCtx_out (n : Nat) (c : Ctx) : (setCtx s n c).out = s.out := rfl
@[simp] theorem setCtx_freeCtr (n : Nat) (c : Ctx) : (setCtx s n c).freeCtr = s.freeCtr := rfl
@[simp] theorem setCtx_tick (n : Nat) (c : Ctx) : (setCtx s n c).tick = s.tick := rfl
@[simp] theorem setCtx_slices (n : Nat) (c : Ctx) : (setCtx s n c).slices = s.slices := rfl
@[simp] theorem setCtx_queues (n : Nat) (c : Ctx) : (setCtx s n c).queues = s.queues := rfl
@[simp] theorem setCtx_fetched (n : Nat) (c : Ctx) : (setCtx s n c).fetched = s.fetched := rfl
@[simp] theorem setCtx_fetchOrder (n : Nat) (c : Ctx) : (setCtx s n c).fetchOrder = s.fetchOrder := rfl
@[simp] theorem setCtx_ghosts (n : Nat) (c : Ctx) : (setCtx s n c).ghosts = s.ghosts := rfl
@[simp] theorem setCtx_ctxOrder (n : Nat) (c : Ctx) : (setCtx s n c).ctxOrder = s.ctxOrder := rfl
@[simp] theorem setCtx_compls (n : Nat) (c : Ctx) : (setCtx s n c).compls = s.compls := rfl
@[simp] theorem setCtx_plans (n : Nat) (c : Ctx) : (setCtx s n c).plans = s.plans := rfl
@[simp] theorem setCtx_ctrlUse (n : Nat) (c : Ctx) : (setCtx s n c).ctrlUse = s.ctrlUse := rfl
@[simp] theorem setCtx_compEnd (n : Nat) (c : Ctx) : (setCtx s n c).compEnd = s.compEnd := rfl
@[simp] theorem setCtx_keys (n : Nat) (c : Ctx) : (setCtx s n c).keys = s.keys := rfl
@[simp] theorem setCtx_freed (n : Nat) (c : Ctx) : (setCtx s n c).freed = s.freed := rfl
@[simp] theorem setCtx_fresh (n : Nat) (c : Ctx) : (setCtx s n c).fresh = s.fresh := rfl
@[simp] theorem setCtx_slotTable (n : Nat) (c : Ctx) : (setCtx s n c).slotTable = s.slotTable := rfl
@[simp] theorem setCtx_slotBase (n : Nat) (c : Ctx) : (setCtx s n c).slotBase = s.slotBase := rfl
@[simp] theorem setCtx_records (n : Nat) (c : Ctx) : (setCtx s n c).records = s.records := rfl
@[simp] theorem setCtx_recordDue (n : Nat) (c : Ctx) : (setCtx s n c).recordDue = s.recordDue := rfl
@[simp] theorem setCtx_reserveDue (n : Nat) (c : Ctx) : (setCtx s n c).reserveDue = s.reserveDue := rfl
@[simp] theorem setCtx_tombPend (n : Nat) (c : Ctx) : (setCtx s n c).tombPend = s.tombPend := rfl
@[simp] theorem setCtx_ivCtr (n : Nat) (c : Ctx) : (setCtx s n c).ivCtr = s.ivCtr := rfl
@[simp] theorem setCtx_vault (n : Nat) (c : Ctx) : (setCtx s n c).vault = s.vault := rfl
@[simp] theorem setCtx_lms (n : Nat) (c : Ctx) : (setCtx s n c).lms = s.lms := rfl
@[simp] theorem setCtx_rng (n : Nat) (c : Ctx) : (setCtx s n c).rng = s.rng := rfl
@[simp] theorem setCtx_faults (n : Nat) (c : Ctx) : (setCtx s n c).faults = s.faults := rfl
@[simp] theorem setCtx_thmTime (n : Nat) (c : Ctx) : (setCtx s n c).thmTime = s.thmTime := rfl
@[simp] theorem setCtx_mem (n : Nat) (c : Ctx) : (setCtx s n c).mem = s.mem := rfl
@[simp] theorem setCtx_tags (n : Nat) (c : Ctx) : (setCtx s n c).tags = s.tags := rfl
@[simp] theorem setCtx_sill (n : Nat) (c : Ctx) : (setCtx s n c).sill = s.sill := rfl
@[simp] theorem setCtx_msixTab (n : Nat) (c : Ctx) : (setCtx s n c).msixTab = s.msixTab := rfl
@[simp] theorem setCtx_msixPba (n : Nat) (c : Ctx) : (setCtx s n c).msixPba = s.msixPba := rfl
@[simp] theorem setCtx_smbAlert (n : Nat) (c : Ctx) : (setCtx s n c).smbAlert = s.smbAlert := rfl
@[simp] theorem setCtx_returning (n : Nat) (c : Ctx) : (setCtx s n c).returning = s.returning := rfl
@[simp] theorem setCtx_devNdl (n : Nat) (c : Ctx) : (setCtx s n c).devNdl = s.devNdl := rfl
@[simp] theorem setCtx_upkeep (n : Nat) (c : Ctx) : (setCtx s n c).upkeep = s.upkeep := rfl
@[simp] theorem setCtx_ledger (n : Nat) (c : Ctx) : (setCtx s n c).ledger = s.ledger := rfl
@[simp] theorem setCtx_nv (n : Nat) (c : Ctx) : (setCtx s n c).nv = s.nv := rfl
@[simp] theorem setCtx_fw (n : Nat) (c : Ctx) : (setCtx s n c).fw = s.fw := rfl
@[simp] theorem setCtx_thm (n : Nat) (c : Ctx) : (setCtx s n c).thm = s.thm := rfl
@[simp] theorem setCtx_rails (n : Nat) (c : Ctx) : (setCtx s n c).rails = s.rails := rfl
@[simp] theorem setCtx_monAlone (n : Nat) (c : Ctx) : (setCtx s n c).monAlone = s.monAlone := rfl
@[simp] theorem setCtx_wear (n : Nat) (c : Ctx) : (setCtx s n c).wear = s.wear := rfl
@[simp] theorem setCtx_gates (n : Nat) (c : Ctx) : (setCtx s n c).gates = s.gates := rfl
@[simp] theorem setCtx_boot (n : Nat) (c : Ctx) : (setCtx s n c).boot = s.boot := rfl
@[simp] theorem setCtx_ofc (n : Nat) (c : Ctx) : (setCtx s n c).ofc = s.ofc := rfl
@[simp] theorem setCtx_link (n : Nat) (c : Ctx) : (setCtx s n c).link = s.link := rfl
@[simp] theorem setCtx_chans (n : Nat) (c : Ctx) : (setCtx s n c).chans = s.chans := rfl
@[simp] theorem setCtx_hostSent (n : Nat) (c : Ctx) : (setCtx s n c).hostSent = s.hostSent := rfl
@[simp] theorem setCtx_posts (n : Nat) (c : Ctx) : (setCtx s n c).posts = s.posts := rfl
@[simp] theorem setCtx_sram (n : Nat) (c : Ctx) : (setCtx s n c).sram = s.sram := rfl
@[simp] theorem setCtx_opCounts (n : Nat) (c : Ctx) : (setCtx s n c).opCounts = s.opCounts := rfl
@[simp] theorem setCtx_pieces (n : Nat) (c : Ctx) : (setCtx s n c).pieces = s.pieces := rfl

/-! ### `dropCtx` -/

@[simp] theorem dropCtx_pending (n : Nat) : (dropCtx s n).pending = s.pending := rfl
@[simp] theorem dropCtx_regs (n : Nat) : (dropCtx s n).regs = s.regs := rfl
@[simp] theorem dropCtx_latches (n : Nat) : (dropCtx s n).latches = s.latches := rfl
@[simp] theorem dropCtx_out (n : Nat) : (dropCtx s n).out = s.out := rfl
@[simp] theorem dropCtx_freeCtr (n : Nat) : (dropCtx s n).freeCtr = s.freeCtr := rfl
@[simp] theorem dropCtx_tick (n : Nat) : (dropCtx s n).tick = s.tick := rfl
@[simp] theorem dropCtx_slices (n : Nat) : (dropCtx s n).slices = s.slices := rfl
@[simp] theorem dropCtx_queues (n : Nat) : (dropCtx s n).queues = s.queues := rfl
@[simp] theorem dropCtx_fetched (n : Nat) : (dropCtx s n).fetched = s.fetched := rfl
@[simp] theorem dropCtx_fetchOrder (n : Nat) : (dropCtx s n).fetchOrder = s.fetchOrder := rfl
@[simp] theorem dropCtx_ghosts (n : Nat) : (dropCtx s n).ghosts = s.ghosts := rfl
@[simp] theorem dropCtx_ctxOrder (n : Nat) : (dropCtx s n).ctxOrder = s.ctxOrder := rfl
@[simp] theorem dropCtx_compls (n : Nat) : (dropCtx s n).compls = s.compls := rfl
@[simp] theorem dropCtx_plans (n : Nat) : (dropCtx s n).plans = s.plans := rfl
@[simp] theorem dropCtx_ctrlUse (n : Nat) : (dropCtx s n).ctrlUse = s.ctrlUse := rfl
@[simp] theorem dropCtx_compEnd (n : Nat) : (dropCtx s n).compEnd = s.compEnd := rfl
@[simp] theorem dropCtx_keys (n : Nat) : (dropCtx s n).keys = s.keys := rfl
@[simp] theorem dropCtx_freed (n : Nat) : (dropCtx s n).freed = s.freed := rfl
@[simp] theorem dropCtx_fresh (n : Nat) : (dropCtx s n).fresh = s.fresh := rfl
@[simp] theorem dropCtx_slotTable (n : Nat) : (dropCtx s n).slotTable = s.slotTable := rfl
@[simp] theorem dropCtx_slotBase (n : Nat) : (dropCtx s n).slotBase = s.slotBase := rfl
@[simp] theorem dropCtx_records (n : Nat) : (dropCtx s n).records = s.records := rfl
@[simp] theorem dropCtx_recordDue (n : Nat) : (dropCtx s n).recordDue = s.recordDue := rfl
@[simp] theorem dropCtx_reserveDue (n : Nat) : (dropCtx s n).reserveDue = s.reserveDue := rfl
@[simp] theorem dropCtx_tombPend (n : Nat) : (dropCtx s n).tombPend = s.tombPend := rfl
@[simp] theorem dropCtx_ivCtr (n : Nat) : (dropCtx s n).ivCtr = s.ivCtr := rfl
@[simp] theorem dropCtx_vault (n : Nat) : (dropCtx s n).vault = s.vault := rfl
@[simp] theorem dropCtx_lms (n : Nat) : (dropCtx s n).lms = s.lms := rfl
@[simp] theorem dropCtx_rng (n : Nat) : (dropCtx s n).rng = s.rng := rfl
@[simp] theorem dropCtx_faults (n : Nat) : (dropCtx s n).faults = s.faults := rfl
@[simp] theorem dropCtx_thmTime (n : Nat) : (dropCtx s n).thmTime = s.thmTime := rfl
@[simp] theorem dropCtx_mem (n : Nat) : (dropCtx s n).mem = s.mem := rfl
@[simp] theorem dropCtx_tags (n : Nat) : (dropCtx s n).tags = s.tags := rfl
@[simp] theorem dropCtx_sill (n : Nat) : (dropCtx s n).sill = s.sill := rfl
@[simp] theorem dropCtx_msixTab (n : Nat) : (dropCtx s n).msixTab = s.msixTab := rfl
@[simp] theorem dropCtx_msixPba (n : Nat) : (dropCtx s n).msixPba = s.msixPba := rfl
@[simp] theorem dropCtx_smbAlert (n : Nat) : (dropCtx s n).smbAlert = s.smbAlert := rfl
@[simp] theorem dropCtx_returning (n : Nat) : (dropCtx s n).returning = s.returning := rfl
@[simp] theorem dropCtx_devNdl (n : Nat) : (dropCtx s n).devNdl = s.devNdl := rfl
@[simp] theorem dropCtx_upkeep (n : Nat) : (dropCtx s n).upkeep = s.upkeep := rfl
@[simp] theorem dropCtx_ledger (n : Nat) : (dropCtx s n).ledger = s.ledger := rfl
@[simp] theorem dropCtx_nv (n : Nat) : (dropCtx s n).nv = s.nv := rfl
@[simp] theorem dropCtx_fw (n : Nat) : (dropCtx s n).fw = s.fw := rfl
@[simp] theorem dropCtx_thm (n : Nat) : (dropCtx s n).thm = s.thm := rfl
@[simp] theorem dropCtx_rails (n : Nat) : (dropCtx s n).rails = s.rails := rfl
@[simp] theorem dropCtx_monAlone (n : Nat) : (dropCtx s n).monAlone = s.monAlone := rfl
@[simp] theorem dropCtx_wear (n : Nat) : (dropCtx s n).wear = s.wear := rfl
@[simp] theorem dropCtx_gates (n : Nat) : (dropCtx s n).gates = s.gates := rfl
@[simp] theorem dropCtx_boot (n : Nat) : (dropCtx s n).boot = s.boot := rfl
@[simp] theorem dropCtx_ofc (n : Nat) : (dropCtx s n).ofc = s.ofc := rfl
@[simp] theorem dropCtx_link (n : Nat) : (dropCtx s n).link = s.link := rfl
@[simp] theorem dropCtx_chans (n : Nat) : (dropCtx s n).chans = s.chans := rfl
@[simp] theorem dropCtx_hostSent (n : Nat) : (dropCtx s n).hostSent = s.hostSent := rfl
@[simp] theorem dropCtx_posts (n : Nat) : (dropCtx s n).posts = s.posts := rfl
@[simp] theorem dropCtx_sram (n : Nat) : (dropCtx s n).sram = s.sram := rfl
@[simp] theorem dropCtx_opCounts (n : Nat) : (dropCtx s n).opCounts = s.opCounts := rfl
@[simp] theorem dropCtx_pieces (n : Nat) : (dropCtx s n).pieces = s.pieces := rfl

/-! ### `setKey` -/

@[simp] theorem setKey_pending (n : Nat) (k : KeySlot) : (setKey s n k).pending = s.pending := rfl
@[simp] theorem setKey_regs (n : Nat) (k : KeySlot) : (setKey s n k).regs = s.regs := rfl
@[simp] theorem setKey_latches (n : Nat) (k : KeySlot) : (setKey s n k).latches = s.latches := rfl
@[simp] theorem setKey_out (n : Nat) (k : KeySlot) : (setKey s n k).out = s.out := rfl
@[simp] theorem setKey_freeCtr (n : Nat) (k : KeySlot) : (setKey s n k).freeCtr = s.freeCtr := rfl
@[simp] theorem setKey_tick (n : Nat) (k : KeySlot) : (setKey s n k).tick = s.tick := rfl
@[simp] theorem setKey_slices (n : Nat) (k : KeySlot) : (setKey s n k).slices = s.slices := rfl
@[simp] theorem setKey_queues (n : Nat) (k : KeySlot) : (setKey s n k).queues = s.queues := rfl
@[simp] theorem setKey_fetched (n : Nat) (k : KeySlot) : (setKey s n k).fetched = s.fetched := rfl
@[simp] theorem setKey_fetchOrder (n : Nat) (k : KeySlot) : (setKey s n k).fetchOrder = s.fetchOrder := rfl
@[simp] theorem setKey_ctxs (n : Nat) (k : KeySlot) : (setKey s n k).ctxs = s.ctxs := rfl
@[simp] theorem setKey_ghosts (n : Nat) (k : KeySlot) : (setKey s n k).ghosts = s.ghosts := rfl
@[simp] theorem setKey_ctxOrder (n : Nat) (k : KeySlot) : (setKey s n k).ctxOrder = s.ctxOrder := rfl
@[simp] theorem setKey_compls (n : Nat) (k : KeySlot) : (setKey s n k).compls = s.compls := rfl
@[simp] theorem setKey_plans (n : Nat) (k : KeySlot) : (setKey s n k).plans = s.plans := rfl
@[simp] theorem setKey_ctrlUse (n : Nat) (k : KeySlot) : (setKey s n k).ctrlUse = s.ctrlUse := rfl
@[simp] theorem setKey_compEnd (n : Nat) (k : KeySlot) : (setKey s n k).compEnd = s.compEnd := rfl
@[simp] theorem setKey_freed (n : Nat) (k : KeySlot) : (setKey s n k).freed = s.freed := rfl
@[simp] theorem setKey_fresh (n : Nat) (k : KeySlot) : (setKey s n k).fresh = s.fresh := rfl
@[simp] theorem setKey_slotTable (n : Nat) (k : KeySlot) : (setKey s n k).slotTable = s.slotTable := rfl
@[simp] theorem setKey_slotBase (n : Nat) (k : KeySlot) : (setKey s n k).slotBase = s.slotBase := rfl
@[simp] theorem setKey_records (n : Nat) (k : KeySlot) : (setKey s n k).records = s.records := rfl
@[simp] theorem setKey_recordDue (n : Nat) (k : KeySlot) : (setKey s n k).recordDue = s.recordDue := rfl
@[simp] theorem setKey_reserveDue (n : Nat) (k : KeySlot) : (setKey s n k).reserveDue = s.reserveDue := rfl
@[simp] theorem setKey_tombPend (n : Nat) (k : KeySlot) : (setKey s n k).tombPend = s.tombPend := rfl
@[simp] theorem setKey_ivCtr (n : Nat) (k : KeySlot) : (setKey s n k).ivCtr = s.ivCtr := rfl
@[simp] theorem setKey_vault (n : Nat) (k : KeySlot) : (setKey s n k).vault = s.vault := rfl
@[simp] theorem setKey_lms (n : Nat) (k : KeySlot) : (setKey s n k).lms = s.lms := rfl
@[simp] theorem setKey_rng (n : Nat) (k : KeySlot) : (setKey s n k).rng = s.rng := rfl
@[simp] theorem setKey_faults (n : Nat) (k : KeySlot) : (setKey s n k).faults = s.faults := rfl
@[simp] theorem setKey_thmTime (n : Nat) (k : KeySlot) : (setKey s n k).thmTime = s.thmTime := rfl
@[simp] theorem setKey_mem (n : Nat) (k : KeySlot) : (setKey s n k).mem = s.mem := rfl
@[simp] theorem setKey_tags (n : Nat) (k : KeySlot) : (setKey s n k).tags = s.tags := rfl
@[simp] theorem setKey_sill (n : Nat) (k : KeySlot) : (setKey s n k).sill = s.sill := rfl
@[simp] theorem setKey_msixTab (n : Nat) (k : KeySlot) : (setKey s n k).msixTab = s.msixTab := rfl
@[simp] theorem setKey_msixPba (n : Nat) (k : KeySlot) : (setKey s n k).msixPba = s.msixPba := rfl
@[simp] theorem setKey_smbAlert (n : Nat) (k : KeySlot) : (setKey s n k).smbAlert = s.smbAlert := rfl
@[simp] theorem setKey_returning (n : Nat) (k : KeySlot) : (setKey s n k).returning = s.returning := rfl
@[simp] theorem setKey_devNdl (n : Nat) (k : KeySlot) : (setKey s n k).devNdl = s.devNdl := rfl
@[simp] theorem setKey_upkeep (n : Nat) (k : KeySlot) : (setKey s n k).upkeep = s.upkeep := rfl
@[simp] theorem setKey_ledger (n : Nat) (k : KeySlot) : (setKey s n k).ledger = s.ledger := rfl
@[simp] theorem setKey_nv (n : Nat) (k : KeySlot) : (setKey s n k).nv = s.nv := rfl
@[simp] theorem setKey_fw (n : Nat) (k : KeySlot) : (setKey s n k).fw = s.fw := rfl
@[simp] theorem setKey_thm (n : Nat) (k : KeySlot) : (setKey s n k).thm = s.thm := rfl
@[simp] theorem setKey_rails (n : Nat) (k : KeySlot) : (setKey s n k).rails = s.rails := rfl
@[simp] theorem setKey_monAlone (n : Nat) (k : KeySlot) : (setKey s n k).monAlone = s.monAlone := rfl
@[simp] theorem setKey_wear (n : Nat) (k : KeySlot) : (setKey s n k).wear = s.wear := rfl
@[simp] theorem setKey_gates (n : Nat) (k : KeySlot) : (setKey s n k).gates = s.gates := rfl
@[simp] theorem setKey_boot (n : Nat) (k : KeySlot) : (setKey s n k).boot = s.boot := rfl
@[simp] theorem setKey_ofc (n : Nat) (k : KeySlot) : (setKey s n k).ofc = s.ofc := rfl
@[simp] theorem setKey_link (n : Nat) (k : KeySlot) : (setKey s n k).link = s.link := rfl
@[simp] theorem setKey_chans (n : Nat) (k : KeySlot) : (setKey s n k).chans = s.chans := rfl
@[simp] theorem setKey_hostSent (n : Nat) (k : KeySlot) : (setKey s n k).hostSent = s.hostSent := rfl
@[simp] theorem setKey_posts (n : Nat) (k : KeySlot) : (setKey s n k).posts = s.posts := rfl
@[simp] theorem setKey_sram (n : Nat) (k : KeySlot) : (setKey s n k).sram = s.sram := rfl
@[simp] theorem setKey_opCounts (n : Nat) (k : KeySlot) : (setKey s n k).opCounts = s.opCounts := rfl
@[simp] theorem setKey_pieces (n : Nat) (k : KeySlot) : (setKey s n k).pieces = s.pieces := rfl

/-! ### `setChain` -/

@[simp] theorem setChain_pending (n : Nat) (c : Chain) : (setChain s n c).pending = s.pending := rfl
@[simp] theorem setChain_regs (n : Nat) (c : Chain) : (setChain s n c).regs = s.regs := rfl
@[simp] theorem setChain_latches (n : Nat) (c : Chain) : (setChain s n c).latches = s.latches := rfl
@[simp] theorem setChain_out (n : Nat) (c : Chain) : (setChain s n c).out = s.out := rfl
@[simp] theorem setChain_freeCtr (n : Nat) (c : Chain) : (setChain s n c).freeCtr = s.freeCtr := rfl
@[simp] theorem setChain_tick (n : Nat) (c : Chain) : (setChain s n c).tick = s.tick := rfl
@[simp] theorem setChain_slices (n : Nat) (c : Chain) : (setChain s n c).slices = s.slices := rfl
@[simp] theorem setChain_queues (n : Nat) (c : Chain) : (setChain s n c).queues = s.queues := rfl
@[simp] theorem setChain_fetched (n : Nat) (c : Chain) : (setChain s n c).fetched = s.fetched := rfl
@[simp] theorem setChain_fetchOrder (n : Nat) (c : Chain) : (setChain s n c).fetchOrder = s.fetchOrder := rfl
@[simp] theorem setChain_ctxs (n : Nat) (c : Chain) : (setChain s n c).ctxs = s.ctxs := rfl
@[simp] theorem setChain_ghosts (n : Nat) (c : Chain) : (setChain s n c).ghosts = s.ghosts := rfl
@[simp] theorem setChain_ctxOrder (n : Nat) (c : Chain) : (setChain s n c).ctxOrder = s.ctxOrder := rfl
@[simp] theorem setChain_compls (n : Nat) (c : Chain) : (setChain s n c).compls = s.compls := rfl
@[simp] theorem setChain_plans (n : Nat) (c : Chain) : (setChain s n c).plans = s.plans := rfl
@[simp] theorem setChain_ctrlUse (n : Nat) (c : Chain) : (setChain s n c).ctrlUse = s.ctrlUse := rfl
@[simp] theorem setChain_compEnd (n : Nat) (c : Chain) : (setChain s n c).compEnd = s.compEnd := rfl
@[simp] theorem setChain_keys (n : Nat) (c : Chain) : (setChain s n c).keys = s.keys := rfl
@[simp] theorem setChain_freed (n : Nat) (c : Chain) : (setChain s n c).freed = s.freed := rfl
@[simp] theorem setChain_fresh (n : Nat) (c : Chain) : (setChain s n c).fresh = s.fresh := rfl
@[simp] theorem setChain_slotTable (n : Nat) (c : Chain) : (setChain s n c).slotTable = s.slotTable := rfl
@[simp] theorem setChain_slotBase (n : Nat) (c : Chain) : (setChain s n c).slotBase = s.slotBase := rfl
@[simp] theorem setChain_records (n : Nat) (c : Chain) : (setChain s n c).records = s.records := rfl
@[simp] theorem setChain_recordDue (n : Nat) (c : Chain) : (setChain s n c).recordDue = s.recordDue := rfl
@[simp] theorem setChain_reserveDue (n : Nat) (c : Chain) : (setChain s n c).reserveDue = s.reserveDue := rfl
@[simp] theorem setChain_tombPend (n : Nat) (c : Chain) : (setChain s n c).tombPend = s.tombPend := rfl
@[simp] theorem setChain_ivCtr (n : Nat) (c : Chain) : (setChain s n c).ivCtr = s.ivCtr := rfl
@[simp] theorem setChain_lms (n : Nat) (c : Chain) : (setChain s n c).lms = s.lms := rfl
@[simp] theorem setChain_rng (n : Nat) (c : Chain) : (setChain s n c).rng = s.rng := rfl
@[simp] theorem setChain_faults (n : Nat) (c : Chain) : (setChain s n c).faults = s.faults := rfl
@[simp] theorem setChain_thmTime (n : Nat) (c : Chain) : (setChain s n c).thmTime = s.thmTime := rfl
@[simp] theorem setChain_mem (n : Nat) (c : Chain) : (setChain s n c).mem = s.mem := rfl
@[simp] theorem setChain_tags (n : Nat) (c : Chain) : (setChain s n c).tags = s.tags := rfl
@[simp] theorem setChain_sill (n : Nat) (c : Chain) : (setChain s n c).sill = s.sill := rfl
@[simp] theorem setChain_msixTab (n : Nat) (c : Chain) : (setChain s n c).msixTab = s.msixTab := rfl
@[simp] theorem setChain_msixPba (n : Nat) (c : Chain) : (setChain s n c).msixPba = s.msixPba := rfl
@[simp] theorem setChain_smbAlert (n : Nat) (c : Chain) : (setChain s n c).smbAlert = s.smbAlert := rfl
@[simp] theorem setChain_returning (n : Nat) (c : Chain) : (setChain s n c).returning = s.returning := rfl
@[simp] theorem setChain_devNdl (n : Nat) (c : Chain) : (setChain s n c).devNdl = s.devNdl := rfl
@[simp] theorem setChain_upkeep (n : Nat) (c : Chain) : (setChain s n c).upkeep = s.upkeep := rfl
@[simp] theorem setChain_ledger (n : Nat) (c : Chain) : (setChain s n c).ledger = s.ledger := rfl
@[simp] theorem setChain_nv (n : Nat) (c : Chain) : (setChain s n c).nv = s.nv := rfl
@[simp] theorem setChain_fw (n : Nat) (c : Chain) : (setChain s n c).fw = s.fw := rfl
@[simp] theorem setChain_thm (n : Nat) (c : Chain) : (setChain s n c).thm = s.thm := rfl
@[simp] theorem setChain_rails (n : Nat) (c : Chain) : (setChain s n c).rails = s.rails := rfl
@[simp] theorem setChain_monAlone (n : Nat) (c : Chain) : (setChain s n c).monAlone = s.monAlone := rfl
@[simp] theorem setChain_wear (n : Nat) (c : Chain) : (setChain s n c).wear = s.wear := rfl
@[simp] theorem setChain_gates (n : Nat) (c : Chain) : (setChain s n c).gates = s.gates := rfl
@[simp] theorem setChain_boot (n : Nat) (c : Chain) : (setChain s n c).boot = s.boot := rfl
@[simp] theorem setChain_ofc (n : Nat) (c : Chain) : (setChain s n c).ofc = s.ofc := rfl
@[simp] theorem setChain_link (n : Nat) (c : Chain) : (setChain s n c).link = s.link := rfl
@[simp] theorem setChain_chans (n : Nat) (c : Chain) : (setChain s n c).chans = s.chans := rfl
@[simp] theorem setChain_hostSent (n : Nat) (c : Chain) : (setChain s n c).hostSent = s.hostSent := rfl
@[simp] theorem setChain_posts (n : Nat) (c : Chain) : (setChain s n c).posts = s.posts := rfl
@[simp] theorem setChain_sram (n : Nat) (c : Chain) : (setChain s n c).sram = s.sram := rfl
@[simp] theorem setChain_opCounts (n : Nat) (c : Chain) : (setChain s n c).opCounts = s.opCounts := rfl
@[simp] theorem setChain_pieces (n : Nat) (c : Chain) : (setChain s n c).pieces = s.pieces := rfl

/-! ### `setPost` -/

@[simp] theorem setPost_pending (p : Nat) (x : Post) : (setPost s p x).pending = s.pending := rfl
@[simp] theorem setPost_regs (p : Nat) (x : Post) : (setPost s p x).regs = s.regs := rfl
@[simp] theorem setPost_latches (p : Nat) (x : Post) : (setPost s p x).latches = s.latches := rfl
@[simp] theorem setPost_out (p : Nat) (x : Post) : (setPost s p x).out = s.out := rfl
@[simp] theorem setPost_freeCtr (p : Nat) (x : Post) : (setPost s p x).freeCtr = s.freeCtr := rfl
@[simp] theorem setPost_tick (p : Nat) (x : Post) : (setPost s p x).tick = s.tick := rfl
@[simp] theorem setPost_slices (p : Nat) (x : Post) : (setPost s p x).slices = s.slices := rfl
@[simp] theorem setPost_queues (p : Nat) (x : Post) : (setPost s p x).queues = s.queues := rfl
@[simp] theorem setPost_fetched (p : Nat) (x : Post) : (setPost s p x).fetched = s.fetched := rfl
@[simp] theorem setPost_fetchOrder (p : Nat) (x : Post) : (setPost s p x).fetchOrder = s.fetchOrder := rfl
@[simp] theorem setPost_ctxs (p : Nat) (x : Post) : (setPost s p x).ctxs = s.ctxs := rfl
@[simp] theorem setPost_ghosts (p : Nat) (x : Post) : (setPost s p x).ghosts = s.ghosts := rfl
@[simp] theorem setPost_ctxOrder (p : Nat) (x : Post) : (setPost s p x).ctxOrder = s.ctxOrder := rfl
@[simp] theorem setPost_compls (p : Nat) (x : Post) : (setPost s p x).compls = s.compls := rfl
@[simp] theorem setPost_plans (p : Nat) (x : Post) : (setPost s p x).plans = s.plans := rfl
@[simp] theorem setPost_ctrlUse (p : Nat) (x : Post) : (setPost s p x).ctrlUse = s.ctrlUse := rfl
@[simp] theorem setPost_compEnd (p : Nat) (x : Post) : (setPost s p x).compEnd = s.compEnd := rfl
@[simp] theorem setPost_keys (p : Nat) (x : Post) : (setPost s p x).keys = s.keys := rfl
@[simp] theorem setPost_freed (p : Nat) (x : Post) : (setPost s p x).freed = s.freed := rfl
@[simp] theorem setPost_fresh (p : Nat) (x : Post) : (setPost s p x).fresh = s.fresh := rfl
@[simp] theorem setPost_slotTable (p : Nat) (x : Post) : (setPost s p x).slotTable = s.slotTable := rfl
@[simp] theorem setPost_slotBase (p : Nat) (x : Post) : (setPost s p x).slotBase = s.slotBase := rfl
@[simp] theorem setPost_records (p : Nat) (x : Post) : (setPost s p x).records = s.records := rfl
@[simp] theorem setPost_recordDue (p : Nat) (x : Post) : (setPost s p x).recordDue = s.recordDue := rfl
@[simp] theorem setPost_reserveDue (p : Nat) (x : Post) : (setPost s p x).reserveDue = s.reserveDue := rfl
@[simp] theorem setPost_tombPend (p : Nat) (x : Post) : (setPost s p x).tombPend = s.tombPend := rfl
@[simp] theorem setPost_ivCtr (p : Nat) (x : Post) : (setPost s p x).ivCtr = s.ivCtr := rfl
@[simp] theorem setPost_vault (p : Nat) (x : Post) : (setPost s p x).vault = s.vault := rfl
@[simp] theorem setPost_lms (p : Nat) (x : Post) : (setPost s p x).lms = s.lms := rfl
@[simp] theorem setPost_rng (p : Nat) (x : Post) : (setPost s p x).rng = s.rng := rfl
@[simp] theorem setPost_faults (p : Nat) (x : Post) : (setPost s p x).faults = s.faults := rfl
@[simp] theorem setPost_thmTime (p : Nat) (x : Post) : (setPost s p x).thmTime = s.thmTime := rfl
@[simp] theorem setPost_mem (p : Nat) (x : Post) : (setPost s p x).mem = s.mem := rfl
@[simp] theorem setPost_tags (p : Nat) (x : Post) : (setPost s p x).tags = s.tags := rfl
@[simp] theorem setPost_sill (p : Nat) (x : Post) : (setPost s p x).sill = s.sill := rfl
@[simp] theorem setPost_msixTab (p : Nat) (x : Post) : (setPost s p x).msixTab = s.msixTab := rfl
@[simp] theorem setPost_msixPba (p : Nat) (x : Post) : (setPost s p x).msixPba = s.msixPba := rfl
@[simp] theorem setPost_smbAlert (p : Nat) (x : Post) : (setPost s p x).smbAlert = s.smbAlert := rfl
@[simp] theorem setPost_returning (p : Nat) (x : Post) : (setPost s p x).returning = s.returning := rfl
@[simp] theorem setPost_devNdl (p : Nat) (x : Post) : (setPost s p x).devNdl = s.devNdl := rfl
@[simp] theorem setPost_upkeep (p : Nat) (x : Post) : (setPost s p x).upkeep = s.upkeep := rfl
@[simp] theorem setPost_ledger (p : Nat) (x : Post) : (setPost s p x).ledger = s.ledger := rfl
@[simp] theorem setPost_nv (p : Nat) (x : Post) : (setPost s p x).nv = s.nv := rfl
@[simp] theorem setPost_fw (p : Nat) (x : Post) : (setPost s p x).fw = s.fw := rfl
@[simp] theorem setPost_thm (p : Nat) (x : Post) : (setPost s p x).thm = s.thm := rfl
@[simp] theorem setPost_rails (p : Nat) (x : Post) : (setPost s p x).rails = s.rails := rfl
@[simp] theorem setPost_monAlone (p : Nat) (x : Post) : (setPost s p x).monAlone = s.monAlone := rfl
@[simp] theorem setPost_wear (p : Nat) (x : Post) : (setPost s p x).wear = s.wear := rfl
@[simp] theorem setPost_gates (p : Nat) (x : Post) : (setPost s p x).gates = s.gates := rfl
@[simp] theorem setPost_boot (p : Nat) (x : Post) : (setPost s p x).boot = s.boot := rfl
@[simp] theorem setPost_ofc (p : Nat) (x : Post) : (setPost s p x).ofc = s.ofc := rfl
@[simp] theorem setPost_link (p : Nat) (x : Post) : (setPost s p x).link = s.link := rfl
@[simp] theorem setPost_chans (p : Nat) (x : Post) : (setPost s p x).chans = s.chans := rfl
@[simp] theorem setPost_hostSent (p : Nat) (x : Post) : (setPost s p x).hostSent = s.hostSent := rfl
@[simp] theorem setPost_sram (p : Nat) (x : Post) : (setPost s p x).sram = s.sram := rfl
@[simp] theorem setPost_opCounts (p : Nat) (x : Post) : (setPost s p x).opCounts = s.opCounts := rfl
@[simp] theorem setPost_pieces (p : Nat) (x : Post) : (setPost s p x).pieces = s.pieces := rfl

/-! ### `setGates` -/

@[simp] theorem setGates_pending (g : Gates) : (setGates s g).pending = s.pending := rfl
@[simp] theorem setGates_regs (g : Gates) : (setGates s g).regs = s.regs := rfl
@[simp] theorem setGates_latches (g : Gates) : (setGates s g).latches = s.latches := rfl
@[simp] theorem setGates_out (g : Gates) : (setGates s g).out = s.out := rfl
@[simp] theorem setGates_freeCtr (g : Gates) : (setGates s g).freeCtr = s.freeCtr := rfl
@[simp] theorem setGates_tick (g : Gates) : (setGates s g).tick = s.tick := rfl
@[simp] theorem setGates_slices (g : Gates) : (setGates s g).slices = s.slices := rfl
@[simp] theorem setGates_queues (g : Gates) : (setGates s g).queues = s.queues := rfl
@[simp] theorem setGates_fetched (g : Gates) : (setGates s g).fetched = s.fetched := rfl
@[simp] theorem setGates_fetchOrder (g : Gates) : (setGates s g).fetchOrder = s.fetchOrder := rfl
@[simp] theorem setGates_ctxs (g : Gates) : (setGates s g).ctxs = s.ctxs := rfl
@[simp] theorem setGates_ghosts (g : Gates) : (setGates s g).ghosts = s.ghosts := rfl
@[simp] theorem setGates_ctxOrder (g : Gates) : (setGates s g).ctxOrder = s.ctxOrder := rfl
@[simp] theorem setGates_compls (g : Gates) : (setGates s g).compls = s.compls := rfl
@[simp] theorem setGates_plans (g : Gates) : (setGates s g).plans = s.plans := rfl
@[simp] theorem setGates_ctrlUse (g : Gates) : (setGates s g).ctrlUse = s.ctrlUse := rfl
@[simp] theorem setGates_compEnd (g : Gates) : (setGates s g).compEnd = s.compEnd := rfl
@[simp] theorem setGates_keys (g : Gates) : (setGates s g).keys = s.keys := rfl
@[simp] theorem setGates_freed (g : Gates) : (setGates s g).freed = s.freed := rfl
@[simp] theorem setGates_fresh (g : Gates) : (setGates s g).fresh = s.fresh := rfl
@[simp] theorem setGates_slotTable (g : Gates) : (setGates s g).slotTable = s.slotTable := rfl
@[simp] theorem setGates_slotBase (g : Gates) : (setGates s g).slotBase = s.slotBase := rfl
@[simp] theorem setGates_records (g : Gates) : (setGates s g).records = s.records := rfl
@[simp] theorem setGates_recordDue (g : Gates) : (setGates s g).recordDue = s.recordDue := rfl
@[simp] theorem setGates_reserveDue (g : Gates) : (setGates s g).reserveDue = s.reserveDue := rfl
@[simp] theorem setGates_tombPend (g : Gates) : (setGates s g).tombPend = s.tombPend := rfl
@[simp] theorem setGates_ivCtr (g : Gates) : (setGates s g).ivCtr = s.ivCtr := rfl
@[simp] theorem setGates_vault (g : Gates) : (setGates s g).vault = s.vault := rfl
@[simp] theorem setGates_lms (g : Gates) : (setGates s g).lms = s.lms := rfl
@[simp] theorem setGates_rng (g : Gates) : (setGates s g).rng = s.rng := rfl
@[simp] theorem setGates_faults (g : Gates) : (setGates s g).faults = s.faults := rfl
@[simp] theorem setGates_thmTime (g : Gates) : (setGates s g).thmTime = s.thmTime := rfl
@[simp] theorem setGates_mem (g : Gates) : (setGates s g).mem = s.mem := rfl
@[simp] theorem setGates_tags (g : Gates) : (setGates s g).tags = s.tags := rfl
@[simp] theorem setGates_sill (g : Gates) : (setGates s g).sill = s.sill := rfl
@[simp] theorem setGates_msixTab (g : Gates) : (setGates s g).msixTab = s.msixTab := rfl
@[simp] theorem setGates_msixPba (g : Gates) : (setGates s g).msixPba = s.msixPba := rfl
@[simp] theorem setGates_smbAlert (g : Gates) : (setGates s g).smbAlert = s.smbAlert := rfl
@[simp] theorem setGates_returning (g : Gates) : (setGates s g).returning = s.returning := rfl
@[simp] theorem setGates_devNdl (g : Gates) : (setGates s g).devNdl = s.devNdl := rfl
@[simp] theorem setGates_upkeep (g : Gates) : (setGates s g).upkeep = s.upkeep := rfl
@[simp] theorem setGates_ledger (g : Gates) : (setGates s g).ledger = s.ledger := rfl
@[simp] theorem setGates_nv (g : Gates) : (setGates s g).nv = s.nv := rfl
@[simp] theorem setGates_fw (g : Gates) : (setGates s g).fw = s.fw := rfl
@[simp] theorem setGates_thm (g : Gates) : (setGates s g).thm = s.thm := rfl
@[simp] theorem setGates_rails (g : Gates) : (setGates s g).rails = s.rails := rfl
@[simp] theorem setGates_monAlone (g : Gates) : (setGates s g).monAlone = s.monAlone := rfl
@[simp] theorem setGates_wear (g : Gates) : (setGates s g).wear = s.wear := rfl
@[simp] theorem setGates_boot (g : Gates) : (setGates s g).boot = s.boot := rfl
@[simp] theorem setGates_ofc (g : Gates) : (setGates s g).ofc = s.ofc := rfl
@[simp] theorem setGates_link (g : Gates) : (setGates s g).link = s.link := rfl
@[simp] theorem setGates_chans (g : Gates) : (setGates s g).chans = s.chans := rfl
@[simp] theorem setGates_hostSent (g : Gates) : (setGates s g).hostSent = s.hostSent := rfl
@[simp] theorem setGates_posts (g : Gates) : (setGates s g).posts = s.posts := rfl
@[simp] theorem setGates_sram (g : Gates) : (setGates s g).sram = s.sram := rfl
@[simp] theorem setGates_opCounts (g : Gates) : (setGates s g).opCounts = s.opCounts := rfl
@[simp] theorem setGates_pieces (g : Gates) : (setGates s g).pieces = s.pieces := rfl

/-! ### `setMemByte` -/

@[simp] theorem setMemByte_pending (a : Nat) (b : Byte) : (setMemByte s a b).pending = s.pending := rfl
@[simp] theorem setMemByte_regs (a : Nat) (b : Byte) : (setMemByte s a b).regs = s.regs := rfl
@[simp] theorem setMemByte_latches (a : Nat) (b : Byte) : (setMemByte s a b).latches = s.latches := rfl
@[simp] theorem setMemByte_out (a : Nat) (b : Byte) : (setMemByte s a b).out = s.out := rfl
@[simp] theorem setMemByte_freeCtr (a : Nat) (b : Byte) : (setMemByte s a b).freeCtr = s.freeCtr := rfl
@[simp] theorem setMemByte_tick (a : Nat) (b : Byte) : (setMemByte s a b).tick = s.tick := rfl
@[simp] theorem setMemByte_slices (a : Nat) (b : Byte) : (setMemByte s a b).slices = s.slices := rfl
@[simp] theorem setMemByte_queues (a : Nat) (b : Byte) : (setMemByte s a b).queues = s.queues := rfl
@[simp] theorem setMemByte_fetched (a : Nat) (b : Byte) : (setMemByte s a b).fetched = s.fetched := rfl
@[simp] theorem setMemByte_fetchOrder (a : Nat) (b : Byte) : (setMemByte s a b).fetchOrder = s.fetchOrder := rfl
@[simp] theorem setMemByte_ctxs (a : Nat) (b : Byte) : (setMemByte s a b).ctxs = s.ctxs := rfl
@[simp] theorem setMemByte_ghosts (a : Nat) (b : Byte) : (setMemByte s a b).ghosts = s.ghosts := rfl
@[simp] theorem setMemByte_ctxOrder (a : Nat) (b : Byte) : (setMemByte s a b).ctxOrder = s.ctxOrder := rfl
@[simp] theorem setMemByte_compls (a : Nat) (b : Byte) : (setMemByte s a b).compls = s.compls := rfl
@[simp] theorem setMemByte_plans (a : Nat) (b : Byte) : (setMemByte s a b).plans = s.plans := rfl
@[simp] theorem setMemByte_ctrlUse (a : Nat) (b : Byte) : (setMemByte s a b).ctrlUse = s.ctrlUse := rfl
@[simp] theorem setMemByte_compEnd (a : Nat) (b : Byte) : (setMemByte s a b).compEnd = s.compEnd := rfl
@[simp] theorem setMemByte_keys (a : Nat) (b : Byte) : (setMemByte s a b).keys = s.keys := rfl
@[simp] theorem setMemByte_freed (a : Nat) (b : Byte) : (setMemByte s a b).freed = s.freed := rfl
@[simp] theorem setMemByte_fresh (a : Nat) (b : Byte) : (setMemByte s a b).fresh = s.fresh := rfl
@[simp] theorem setMemByte_slotTable (a : Nat) (b : Byte) : (setMemByte s a b).slotTable = s.slotTable := rfl
@[simp] theorem setMemByte_slotBase (a : Nat) (b : Byte) : (setMemByte s a b).slotBase = s.slotBase := rfl
@[simp] theorem setMemByte_records (a : Nat) (b : Byte) : (setMemByte s a b).records = s.records := rfl
@[simp] theorem setMemByte_recordDue (a : Nat) (b : Byte) : (setMemByte s a b).recordDue = s.recordDue := rfl
@[simp] theorem setMemByte_reserveDue (a : Nat) (b : Byte) : (setMemByte s a b).reserveDue = s.reserveDue := rfl
@[simp] theorem setMemByte_tombPend (a : Nat) (b : Byte) : (setMemByte s a b).tombPend = s.tombPend := rfl
@[simp] theorem setMemByte_ivCtr (a : Nat) (b : Byte) : (setMemByte s a b).ivCtr = s.ivCtr := rfl
@[simp] theorem setMemByte_vault (a : Nat) (b : Byte) : (setMemByte s a b).vault = s.vault := rfl
@[simp] theorem setMemByte_lms (a : Nat) (b : Byte) : (setMemByte s a b).lms = s.lms := rfl
@[simp] theorem setMemByte_rng (a : Nat) (b : Byte) : (setMemByte s a b).rng = s.rng := rfl
@[simp] theorem setMemByte_faults (a : Nat) (b : Byte) : (setMemByte s a b).faults = s.faults := rfl
@[simp] theorem setMemByte_thmTime (a : Nat) (b : Byte) : (setMemByte s a b).thmTime = s.thmTime := rfl
@[simp] theorem setMemByte_tags (a : Nat) (b : Byte) : (setMemByte s a b).tags = s.tags := rfl
@[simp] theorem setMemByte_sill (a : Nat) (b : Byte) : (setMemByte s a b).sill = s.sill := rfl
@[simp] theorem setMemByte_msixTab (a : Nat) (b : Byte) : (setMemByte s a b).msixTab = s.msixTab := rfl
@[simp] theorem setMemByte_msixPba (a : Nat) (b : Byte) : (setMemByte s a b).msixPba = s.msixPba := rfl
@[simp] theorem setMemByte_smbAlert (a : Nat) (b : Byte) : (setMemByte s a b).smbAlert = s.smbAlert := rfl
@[simp] theorem setMemByte_returning (a : Nat) (b : Byte) : (setMemByte s a b).returning = s.returning := rfl
@[simp] theorem setMemByte_devNdl (a : Nat) (b : Byte) : (setMemByte s a b).devNdl = s.devNdl := rfl
@[simp] theorem setMemByte_upkeep (a : Nat) (b : Byte) : (setMemByte s a b).upkeep = s.upkeep := rfl
@[simp] theorem setMemByte_ledger (a : Nat) (b : Byte) : (setMemByte s a b).ledger = s.ledger := rfl
@[simp] theorem setMemByte_nv (a : Nat) (b : Byte) : (setMemByte s a b).nv = s.nv := rfl
@[simp] theorem setMemByte_fw (a : Nat) (b : Byte) : (setMemByte s a b).fw = s.fw := rfl
@[simp] theorem setMemByte_thm (a : Nat) (b : Byte) : (setMemByte s a b).thm = s.thm := rfl
@[simp] theorem setMemByte_rails (a : Nat) (b : Byte) : (setMemByte s a b).rails = s.rails := rfl
@[simp] theorem setMemByte_monAlone (a : Nat) (b : Byte) : (setMemByte s a b).monAlone = s.monAlone := rfl
@[simp] theorem setMemByte_wear (a : Nat) (b : Byte) : (setMemByte s a b).wear = s.wear := rfl
@[simp] theorem setMemByte_gates (a : Nat) (b : Byte) : (setMemByte s a b).gates = s.gates := rfl
@[simp] theorem setMemByte_boot (a : Nat) (b : Byte) : (setMemByte s a b).boot = s.boot := rfl
@[simp] theorem setMemByte_ofc (a : Nat) (b : Byte) : (setMemByte s a b).ofc = s.ofc := rfl
@[simp] theorem setMemByte_link (a : Nat) (b : Byte) : (setMemByte s a b).link = s.link := rfl
@[simp] theorem setMemByte_chans (a : Nat) (b : Byte) : (setMemByte s a b).chans = s.chans := rfl
@[simp] theorem setMemByte_hostSent (a : Nat) (b : Byte) : (setMemByte s a b).hostSent = s.hostSent := rfl
@[simp] theorem setMemByte_posts (a : Nat) (b : Byte) : (setMemByte s a b).posts = s.posts := rfl
@[simp] theorem setMemByte_sram (a : Nat) (b : Byte) : (setMemByte s a b).sram = s.sram := rfl
@[simp] theorem setMemByte_opCounts (a : Nat) (b : Byte) : (setMemByte s a b).opCounts = s.opCounts := rfl
@[simp] theorem setMemByte_pieces (a : Nat) (b : Byte) : (setMemByte s a b).pieces = s.pieces := rfl

/-! ### `setRng` -/

@[simp] theorem setRng_pending (r : Rng) : (setRng s r).pending = s.pending := rfl
@[simp] theorem setRng_regs (r : Rng) : (setRng s r).regs = s.regs := rfl
@[simp] theorem setRng_latches (r : Rng) : (setRng s r).latches = s.latches := rfl
@[simp] theorem setRng_out (r : Rng) : (setRng s r).out = s.out := rfl
@[simp] theorem setRng_freeCtr (r : Rng) : (setRng s r).freeCtr = s.freeCtr := rfl
@[simp] theorem setRng_tick (r : Rng) : (setRng s r).tick = s.tick := rfl
@[simp] theorem setRng_slices (r : Rng) : (setRng s r).slices = s.slices := rfl
@[simp] theorem setRng_queues (r : Rng) : (setRng s r).queues = s.queues := rfl
@[simp] theorem setRng_fetched (r : Rng) : (setRng s r).fetched = s.fetched := rfl
@[simp] theorem setRng_fetchOrder (r : Rng) : (setRng s r).fetchOrder = s.fetchOrder := rfl
@[simp] theorem setRng_ctxs (r : Rng) : (setRng s r).ctxs = s.ctxs := rfl
@[simp] theorem setRng_ghosts (r : Rng) : (setRng s r).ghosts = s.ghosts := rfl
@[simp] theorem setRng_ctxOrder (r : Rng) : (setRng s r).ctxOrder = s.ctxOrder := rfl
@[simp] theorem setRng_compls (r : Rng) : (setRng s r).compls = s.compls := rfl
@[simp] theorem setRng_plans (r : Rng) : (setRng s r).plans = s.plans := rfl
@[simp] theorem setRng_ctrlUse (r : Rng) : (setRng s r).ctrlUse = s.ctrlUse := rfl
@[simp] theorem setRng_compEnd (r : Rng) : (setRng s r).compEnd = s.compEnd := rfl
@[simp] theorem setRng_keys (r : Rng) : (setRng s r).keys = s.keys := rfl
@[simp] theorem setRng_freed (r : Rng) : (setRng s r).freed = s.freed := rfl
@[simp] theorem setRng_fresh (r : Rng) : (setRng s r).fresh = s.fresh := rfl
@[simp] theorem setRng_slotTable (r : Rng) : (setRng s r).slotTable = s.slotTable := rfl
@[simp] theorem setRng_slotBase (r : Rng) : (setRng s r).slotBase = s.slotBase := rfl
@[simp] theorem setRng_records (r : Rng) : (setRng s r).records = s.records := rfl
@[simp] theorem setRng_recordDue (r : Rng) : (setRng s r).recordDue = s.recordDue := rfl
@[simp] theorem setRng_reserveDue (r : Rng) : (setRng s r).reserveDue = s.reserveDue := rfl
@[simp] theorem setRng_tombPend (r : Rng) : (setRng s r).tombPend = s.tombPend := rfl
@[simp] theorem setRng_ivCtr (r : Rng) : (setRng s r).ivCtr = s.ivCtr := rfl
@[simp] theorem setRng_vault (r : Rng) : (setRng s r).vault = s.vault := rfl
@[simp] theorem setRng_lms (r : Rng) : (setRng s r).lms = s.lms := rfl
@[simp] theorem setRng_faults (r : Rng) : (setRng s r).faults = s.faults := rfl
@[simp] theorem setRng_thmTime (r : Rng) : (setRng s r).thmTime = s.thmTime := rfl
@[simp] theorem setRng_mem (r : Rng) : (setRng s r).mem = s.mem := rfl
@[simp] theorem setRng_tags (r : Rng) : (setRng s r).tags = s.tags := rfl
@[simp] theorem setRng_sill (r : Rng) : (setRng s r).sill = s.sill := rfl
@[simp] theorem setRng_msixTab (r : Rng) : (setRng s r).msixTab = s.msixTab := rfl
@[simp] theorem setRng_msixPba (r : Rng) : (setRng s r).msixPba = s.msixPba := rfl
@[simp] theorem setRng_smbAlert (r : Rng) : (setRng s r).smbAlert = s.smbAlert := rfl
@[simp] theorem setRng_returning (r : Rng) : (setRng s r).returning = s.returning := rfl
@[simp] theorem setRng_devNdl (r : Rng) : (setRng s r).devNdl = s.devNdl := rfl
@[simp] theorem setRng_upkeep (r : Rng) : (setRng s r).upkeep = s.upkeep := rfl
@[simp] theorem setRng_ledger (r : Rng) : (setRng s r).ledger = s.ledger := rfl
@[simp] theorem setRng_nv (r : Rng) : (setRng s r).nv = s.nv := rfl
@[simp] theorem setRng_fw (r : Rng) : (setRng s r).fw = s.fw := rfl
@[simp] theorem setRng_thm (r : Rng) : (setRng s r).thm = s.thm := rfl
@[simp] theorem setRng_rails (r : Rng) : (setRng s r).rails = s.rails := rfl
@[simp] theorem setRng_monAlone (r : Rng) : (setRng s r).monAlone = s.monAlone := rfl
@[simp] theorem setRng_wear (r : Rng) : (setRng s r).wear = s.wear := rfl
@[simp] theorem setRng_gates (r : Rng) : (setRng s r).gates = s.gates := rfl
@[simp] theorem setRng_boot (r : Rng) : (setRng s r).boot = s.boot := rfl
@[simp] theorem setRng_ofc (r : Rng) : (setRng s r).ofc = s.ofc := rfl
@[simp] theorem setRng_link (r : Rng) : (setRng s r).link = s.link := rfl
@[simp] theorem setRng_chans (r : Rng) : (setRng s r).chans = s.chans := rfl
@[simp] theorem setRng_hostSent (r : Rng) : (setRng s r).hostSent = s.hostSent := rfl
@[simp] theorem setRng_posts (r : Rng) : (setRng s r).posts = s.posts := rfl
@[simp] theorem setRng_sram (r : Rng) : (setRng s r).sram = s.sram := rfl
@[simp] theorem setRng_opCounts (r : Rng) : (setRng s r).opCounts = s.opCounts := rfl
@[simp] theorem setRng_pieces (r : Rng) : (setRng s r).pieces = s.pieces := rfl

/-! ### `setLatch` -/

@[simp] theorem setLatch_pending (i k : Nat) (w : Word) : (setLatch s i k w).pending = s.pending := rfl
@[simp] theorem setLatch_regs (i k : Nat) (w : Word) : (setLatch s i k w).regs = s.regs := rfl
@[simp] theorem setLatch_out (i k : Nat) (w : Word) : (setLatch s i k w).out = s.out := rfl
@[simp] theorem setLatch_freeCtr (i k : Nat) (w : Word) : (setLatch s i k w).freeCtr = s.freeCtr := rfl
@[simp] theorem setLatch_tick (i k : Nat) (w : Word) : (setLatch s i k w).tick = s.tick := rfl
@[simp] theorem setLatch_slices (i k : Nat) (w : Word) : (setLatch s i k w).slices = s.slices := rfl
@[simp] theorem setLatch_queues (i k : Nat) (w : Word) : (setLatch s i k w).queues = s.queues := rfl
@[simp] theorem setLatch_fetched (i k : Nat) (w : Word) : (setLatch s i k w).fetched = s.fetched := rfl
@[simp] theorem setLatch_fetchOrder (i k : Nat) (w : Word) : (setLatch s i k w).fetchOrder = s.fetchOrder := rfl
@[simp] theorem setLatch_ctxs (i k : Nat) (w : Word) : (setLatch s i k w).ctxs = s.ctxs := rfl
@[simp] theorem setLatch_ghosts (i k : Nat) (w : Word) : (setLatch s i k w).ghosts = s.ghosts := rfl
@[simp] theorem setLatch_ctxOrder (i k : Nat) (w : Word) : (setLatch s i k w).ctxOrder = s.ctxOrder := rfl
@[simp] theorem setLatch_compls (i k : Nat) (w : Word) : (setLatch s i k w).compls = s.compls := rfl
@[simp] theorem setLatch_plans (i k : Nat) (w : Word) : (setLatch s i k w).plans = s.plans := rfl
@[simp] theorem setLatch_ctrlUse (i k : Nat) (w : Word) : (setLatch s i k w).ctrlUse = s.ctrlUse := rfl
@[simp] theorem setLatch_compEnd (i k : Nat) (w : Word) : (setLatch s i k w).compEnd = s.compEnd := rfl
@[simp] theorem setLatch_keys (i k : Nat) (w : Word) : (setLatch s i k w).keys = s.keys := rfl
@[simp] theorem setLatch_freed (i k : Nat) (w : Word) : (setLatch s i k w).freed = s.freed := rfl
@[simp] theorem setLatch_fresh (i k : Nat) (w : Word) : (setLatch s i k w).fresh = s.fresh := rfl
@[simp] theorem setLatch_slotTable (i k : Nat) (w : Word) : (setLatch s i k w).slotTable = s.slotTable := rfl
@[simp] theorem setLatch_slotBase (i k : Nat) (w : Word) : (setLatch s i k w).slotBase = s.slotBase := rfl
@[simp] theorem setLatch_records (i k : Nat) (w : Word) : (setLatch s i k w).records = s.records := rfl
@[simp] theorem setLatch_recordDue (i k : Nat) (w : Word) : (setLatch s i k w).recordDue = s.recordDue := rfl
@[simp] theorem setLatch_reserveDue (i k : Nat) (w : Word) : (setLatch s i k w).reserveDue = s.reserveDue := rfl
@[simp] theorem setLatch_tombPend (i k : Nat) (w : Word) : (setLatch s i k w).tombPend = s.tombPend := rfl
@[simp] theorem setLatch_ivCtr (i k : Nat) (w : Word) : (setLatch s i k w).ivCtr = s.ivCtr := rfl
@[simp] theorem setLatch_vault (i k : Nat) (w : Word) : (setLatch s i k w).vault = s.vault := rfl
@[simp] theorem setLatch_lms (i k : Nat) (w : Word) : (setLatch s i k w).lms = s.lms := rfl
@[simp] theorem setLatch_rng (i k : Nat) (w : Word) : (setLatch s i k w).rng = s.rng := rfl
@[simp] theorem setLatch_faults (i k : Nat) (w : Word) : (setLatch s i k w).faults = s.faults := rfl
@[simp] theorem setLatch_thmTime (i k : Nat) (w : Word) : (setLatch s i k w).thmTime = s.thmTime := rfl
@[simp] theorem setLatch_mem (i k : Nat) (w : Word) : (setLatch s i k w).mem = s.mem := rfl
@[simp] theorem setLatch_tags (i k : Nat) (w : Word) : (setLatch s i k w).tags = s.tags := rfl
@[simp] theorem setLatch_sill (i k : Nat) (w : Word) : (setLatch s i k w).sill = s.sill := rfl
@[simp] theorem setLatch_msixTab (i k : Nat) (w : Word) : (setLatch s i k w).msixTab = s.msixTab := rfl
@[simp] theorem setLatch_msixPba (i k : Nat) (w : Word) : (setLatch s i k w).msixPba = s.msixPba := rfl
@[simp] theorem setLatch_smbAlert (i k : Nat) (w : Word) : (setLatch s i k w).smbAlert = s.smbAlert := rfl
@[simp] theorem setLatch_returning (i k : Nat) (w : Word) : (setLatch s i k w).returning = s.returning := rfl
@[simp] theorem setLatch_devNdl (i k : Nat) (w : Word) : (setLatch s i k w).devNdl = s.devNdl := rfl
@[simp] theorem setLatch_upkeep (i k : Nat) (w : Word) : (setLatch s i k w).upkeep = s.upkeep := rfl
@[simp] theorem setLatch_ledger (i k : Nat) (w : Word) : (setLatch s i k w).ledger = s.ledger := rfl
@[simp] theorem setLatch_nv (i k : Nat) (w : Word) : (setLatch s i k w).nv = s.nv := rfl
@[simp] theorem setLatch_fw (i k : Nat) (w : Word) : (setLatch s i k w).fw = s.fw := rfl
@[simp] theorem setLatch_thm (i k : Nat) (w : Word) : (setLatch s i k w).thm = s.thm := rfl
@[simp] theorem setLatch_rails (i k : Nat) (w : Word) : (setLatch s i k w).rails = s.rails := rfl
@[simp] theorem setLatch_monAlone (i k : Nat) (w : Word) : (setLatch s i k w).monAlone = s.monAlone := rfl
@[simp] theorem setLatch_wear (i k : Nat) (w : Word) : (setLatch s i k w).wear = s.wear := rfl
@[simp] theorem setLatch_gates (i k : Nat) (w : Word) : (setLatch s i k w).gates = s.gates := rfl
@[simp] theorem setLatch_boot (i k : Nat) (w : Word) : (setLatch s i k w).boot = s.boot := rfl
@[simp] theorem setLatch_ofc (i k : Nat) (w : Word) : (setLatch s i k w).ofc = s.ofc := rfl
@[simp] theorem setLatch_link (i k : Nat) (w : Word) : (setLatch s i k w).link = s.link := rfl
@[simp] theorem setLatch_chans (i k : Nat) (w : Word) : (setLatch s i k w).chans = s.chans := rfl
@[simp] theorem setLatch_hostSent (i k : Nat) (w : Word) : (setLatch s i k w).hostSent = s.hostSent := rfl
@[simp] theorem setLatch_posts (i k : Nat) (w : Word) : (setLatch s i k w).posts = s.posts := rfl
@[simp] theorem setLatch_sram (i k : Nat) (w : Word) : (setLatch s i k w).sram = s.sram := rfl
@[simp] theorem setLatch_opCounts (i k : Nat) (w : Word) : (setLatch s i k w).opCounts = s.opCounts := rfl
@[simp] theorem setLatch_pieces (i k : Nat) (w : Word) : (setLatch s i k w).pieces = s.pieces := rfl

/-! ### `setOfc` -/

@[simp] theorem setOfc_pending (o : Ofc) : (setOfc s o).pending = s.pending := rfl
@[simp] theorem setOfc_regs (o : Ofc) : (setOfc s o).regs = s.regs := rfl
@[simp] theorem setOfc_latches (o : Ofc) : (setOfc s o).latches = s.latches := rfl
@[simp] theorem setOfc_out (o : Ofc) : (setOfc s o).out = s.out := rfl
@[simp] theorem setOfc_freeCtr (o : Ofc) : (setOfc s o).freeCtr = s.freeCtr := rfl
@[simp] theorem setOfc_tick (o : Ofc) : (setOfc s o).tick = s.tick := rfl
@[simp] theorem setOfc_slices (o : Ofc) : (setOfc s o).slices = s.slices := rfl
@[simp] theorem setOfc_queues (o : Ofc) : (setOfc s o).queues = s.queues := rfl
@[simp] theorem setOfc_fetched (o : Ofc) : (setOfc s o).fetched = s.fetched := rfl
@[simp] theorem setOfc_fetchOrder (o : Ofc) : (setOfc s o).fetchOrder = s.fetchOrder := rfl
@[simp] theorem setOfc_ctxs (o : Ofc) : (setOfc s o).ctxs = s.ctxs := rfl
@[simp] theorem setOfc_ghosts (o : Ofc) : (setOfc s o).ghosts = s.ghosts := rfl
@[simp] theorem setOfc_ctxOrder (o : Ofc) : (setOfc s o).ctxOrder = s.ctxOrder := rfl
@[simp] theorem setOfc_compls (o : Ofc) : (setOfc s o).compls = s.compls := rfl
@[simp] theorem setOfc_plans (o : Ofc) : (setOfc s o).plans = s.plans := rfl
@[simp] theorem setOfc_ctrlUse (o : Ofc) : (setOfc s o).ctrlUse = s.ctrlUse := rfl
@[simp] theorem setOfc_compEnd (o : Ofc) : (setOfc s o).compEnd = s.compEnd := rfl
@[simp] theorem setOfc_keys (o : Ofc) : (setOfc s o).keys = s.keys := rfl
@[simp] theorem setOfc_freed (o : Ofc) : (setOfc s o).freed = s.freed := rfl
@[simp] theorem setOfc_fresh (o : Ofc) : (setOfc s o).fresh = s.fresh := rfl
@[simp] theorem setOfc_slotTable (o : Ofc) : (setOfc s o).slotTable = s.slotTable := rfl
@[simp] theorem setOfc_slotBase (o : Ofc) : (setOfc s o).slotBase = s.slotBase := rfl
@[simp] theorem setOfc_records (o : Ofc) : (setOfc s o).records = s.records := rfl
@[simp] theorem setOfc_recordDue (o : Ofc) : (setOfc s o).recordDue = s.recordDue := rfl
@[simp] theorem setOfc_reserveDue (o : Ofc) : (setOfc s o).reserveDue = s.reserveDue := rfl
@[simp] theorem setOfc_tombPend (o : Ofc) : (setOfc s o).tombPend = s.tombPend := rfl
@[simp] theorem setOfc_ivCtr (o : Ofc) : (setOfc s o).ivCtr = s.ivCtr := rfl
@[simp] theorem setOfc_vault (o : Ofc) : (setOfc s o).vault = s.vault := rfl
@[simp] theorem setOfc_lms (o : Ofc) : (setOfc s o).lms = s.lms := rfl
@[simp] theorem setOfc_rng (o : Ofc) : (setOfc s o).rng = s.rng := rfl
@[simp] theorem setOfc_faults (o : Ofc) : (setOfc s o).faults = s.faults := rfl
@[simp] theorem setOfc_thmTime (o : Ofc) : (setOfc s o).thmTime = s.thmTime := rfl
@[simp] theorem setOfc_mem (o : Ofc) : (setOfc s o).mem = s.mem := rfl
@[simp] theorem setOfc_tags (o : Ofc) : (setOfc s o).tags = s.tags := rfl
@[simp] theorem setOfc_sill (o : Ofc) : (setOfc s o).sill = s.sill := rfl
@[simp] theorem setOfc_msixTab (o : Ofc) : (setOfc s o).msixTab = s.msixTab := rfl
@[simp] theorem setOfc_msixPba (o : Ofc) : (setOfc s o).msixPba = s.msixPba := rfl
@[simp] theorem setOfc_smbAlert (o : Ofc) : (setOfc s o).smbAlert = s.smbAlert := rfl
@[simp] theorem setOfc_returning (o : Ofc) : (setOfc s o).returning = s.returning := rfl
@[simp] theorem setOfc_devNdl (o : Ofc) : (setOfc s o).devNdl = s.devNdl := rfl
@[simp] theorem setOfc_upkeep (o : Ofc) : (setOfc s o).upkeep = s.upkeep := rfl
@[simp] theorem setOfc_ledger (o : Ofc) : (setOfc s o).ledger = s.ledger := rfl
@[simp] theorem setOfc_nv (o : Ofc) : (setOfc s o).nv = s.nv := rfl
@[simp] theorem setOfc_fw (o : Ofc) : (setOfc s o).fw = s.fw := rfl
@[simp] theorem setOfc_thm (o : Ofc) : (setOfc s o).thm = s.thm := rfl
@[simp] theorem setOfc_rails (o : Ofc) : (setOfc s o).rails = s.rails := rfl
@[simp] theorem setOfc_monAlone (o : Ofc) : (setOfc s o).monAlone = s.monAlone := rfl
@[simp] theorem setOfc_wear (o : Ofc) : (setOfc s o).wear = s.wear := rfl
@[simp] theorem setOfc_gates (o : Ofc) : (setOfc s o).gates = s.gates := rfl
@[simp] theorem setOfc_boot (o : Ofc) : (setOfc s o).boot = s.boot := rfl
@[simp] theorem setOfc_link (o : Ofc) : (setOfc s o).link = s.link := rfl
@[simp] theorem setOfc_chans (o : Ofc) : (setOfc s o).chans = s.chans := rfl
@[simp] theorem setOfc_hostSent (o : Ofc) : (setOfc s o).hostSent = s.hostSent := rfl
@[simp] theorem setOfc_posts (o : Ofc) : (setOfc s o).posts = s.posts := rfl
@[simp] theorem setOfc_sram (o : Ofc) : (setOfc s o).sram = s.sram := rfl
@[simp] theorem setOfc_opCounts (o : Ofc) : (setOfc s o).opCounts = s.opCounts := rfl
@[simp] theorem setOfc_pieces (o : Ofc) : (setOfc s o).pieces = s.pieces := rfl

/-! ### `setNv` -/

@[simp] theorem setNv_pending (n : Nv) : (setNv s n).pending = s.pending := rfl
@[simp] theorem setNv_regs (n : Nv) : (setNv s n).regs = s.regs := rfl
@[simp] theorem setNv_latches (n : Nv) : (setNv s n).latches = s.latches := rfl
@[simp] theorem setNv_out (n : Nv) : (setNv s n).out = s.out := rfl
@[simp] theorem setNv_freeCtr (n : Nv) : (setNv s n).freeCtr = s.freeCtr := rfl
@[simp] theorem setNv_tick (n : Nv) : (setNv s n).tick = s.tick := rfl
@[simp] theorem setNv_slices (n : Nv) : (setNv s n).slices = s.slices := rfl
@[simp] theorem setNv_queues (n : Nv) : (setNv s n).queues = s.queues := rfl
@[simp] theorem setNv_fetched (n : Nv) : (setNv s n).fetched = s.fetched := rfl
@[simp] theorem setNv_fetchOrder (n : Nv) : (setNv s n).fetchOrder = s.fetchOrder := rfl
@[simp] theorem setNv_ctxs (n : Nv) : (setNv s n).ctxs = s.ctxs := rfl
@[simp] theorem setNv_ghosts (n : Nv) : (setNv s n).ghosts = s.ghosts := rfl
@[simp] theorem setNv_ctxOrder (n : Nv) : (setNv s n).ctxOrder = s.ctxOrder := rfl
@[simp] theorem setNv_compls (n : Nv) : (setNv s n).compls = s.compls := rfl
@[simp] theorem setNv_plans (n : Nv) : (setNv s n).plans = s.plans := rfl
@[simp] theorem setNv_ctrlUse (n : Nv) : (setNv s n).ctrlUse = s.ctrlUse := rfl
@[simp] theorem setNv_compEnd (n : Nv) : (setNv s n).compEnd = s.compEnd := rfl
@[simp] theorem setNv_keys (n : Nv) : (setNv s n).keys = s.keys := rfl
@[simp] theorem setNv_freed (n : Nv) : (setNv s n).freed = s.freed := rfl
@[simp] theorem setNv_fresh (n : Nv) : (setNv s n).fresh = s.fresh := rfl
@[simp] theorem setNv_slotTable (n : Nv) : (setNv s n).slotTable = s.slotTable := rfl
@[simp] theorem setNv_slotBase (n : Nv) : (setNv s n).slotBase = s.slotBase := rfl
@[simp] theorem setNv_records (n : Nv) : (setNv s n).records = s.records := rfl
@[simp] theorem setNv_recordDue (n : Nv) : (setNv s n).recordDue = s.recordDue := rfl
@[simp] theorem setNv_reserveDue (n : Nv) : (setNv s n).reserveDue = s.reserveDue := rfl
@[simp] theorem setNv_tombPend (n : Nv) : (setNv s n).tombPend = s.tombPend := rfl
@[simp] theorem setNv_ivCtr (n : Nv) : (setNv s n).ivCtr = s.ivCtr := rfl
@[simp] theorem setNv_vault (n : Nv) : (setNv s n).vault = s.vault := rfl
@[simp] theorem setNv_lms (n : Nv) : (setNv s n).lms = s.lms := rfl
@[simp] theorem setNv_rng (n : Nv) : (setNv s n).rng = s.rng := rfl
@[simp] theorem setNv_faults (n : Nv) : (setNv s n).faults = s.faults := rfl
@[simp] theorem setNv_thmTime (n : Nv) : (setNv s n).thmTime = s.thmTime := rfl
@[simp] theorem setNv_mem (n : Nv) : (setNv s n).mem = s.mem := rfl
@[simp] theorem setNv_tags (n : Nv) : (setNv s n).tags = s.tags := rfl
@[simp] theorem setNv_sill (n : Nv) : (setNv s n).sill = s.sill := rfl
@[simp] theorem setNv_msixTab (n : Nv) : (setNv s n).msixTab = s.msixTab := rfl
@[simp] theorem setNv_msixPba (n : Nv) : (setNv s n).msixPba = s.msixPba := rfl
@[simp] theorem setNv_smbAlert (n : Nv) : (setNv s n).smbAlert = s.smbAlert := rfl
@[simp] theorem setNv_returning (n : Nv) : (setNv s n).returning = s.returning := rfl
@[simp] theorem setNv_devNdl (n : Nv) : (setNv s n).devNdl = s.devNdl := rfl
@[simp] theorem setNv_upkeep (n : Nv) : (setNv s n).upkeep = s.upkeep := rfl
@[simp] theorem setNv_ledger (n : Nv) : (setNv s n).ledger = s.ledger := rfl
@[simp] theorem setNv_fw (n : Nv) : (setNv s n).fw = s.fw := rfl
@[simp] theorem setNv_thm (n : Nv) : (setNv s n).thm = s.thm := rfl
@[simp] theorem setNv_rails (n : Nv) : (setNv s n).rails = s.rails := rfl
@[simp] theorem setNv_monAlone (n : Nv) : (setNv s n).monAlone = s.monAlone := rfl
@[simp] theorem setNv_wear (n : Nv) : (setNv s n).wear = s.wear := rfl
@[simp] theorem setNv_gates (n : Nv) : (setNv s n).gates = s.gates := rfl
@[simp] theorem setNv_boot (n : Nv) : (setNv s n).boot = s.boot := rfl
@[simp] theorem setNv_ofc (n : Nv) : (setNv s n).ofc = s.ofc := rfl
@[simp] theorem setNv_link (n : Nv) : (setNv s n).link = s.link := rfl
@[simp] theorem setNv_chans (n : Nv) : (setNv s n).chans = s.chans := rfl
@[simp] theorem setNv_hostSent (n : Nv) : (setNv s n).hostSent = s.hostSent := rfl
@[simp] theorem setNv_posts (n : Nv) : (setNv s n).posts = s.posts := rfl
@[simp] theorem setNv_sram (n : Nv) : (setNv s n).sram = s.sram := rfl
@[simp] theorem setNv_opCounts (n : Nv) : (setNv s n).opCounts = s.opCounts := rfl
@[simp] theorem setNv_pieces (n : Nv) : (setNv s n).pieces = s.pieces := rfl

/-! ### `setThm` -/

@[simp] theorem setThm_pending (t : Thm) : (setThm s t).pending = s.pending := rfl
@[simp] theorem setThm_regs (t : Thm) : (setThm s t).regs = s.regs := rfl
@[simp] theorem setThm_latches (t : Thm) : (setThm s t).latches = s.latches := rfl
@[simp] theorem setThm_out (t : Thm) : (setThm s t).out = s.out := rfl
@[simp] theorem setThm_freeCtr (t : Thm) : (setThm s t).freeCtr = s.freeCtr := rfl
@[simp] theorem setThm_tick (t : Thm) : (setThm s t).tick = s.tick := rfl
@[simp] theorem setThm_slices (t : Thm) : (setThm s t).slices = s.slices := rfl
@[simp] theorem setThm_queues (t : Thm) : (setThm s t).queues = s.queues := rfl
@[simp] theorem setThm_fetched (t : Thm) : (setThm s t).fetched = s.fetched := rfl
@[simp] theorem setThm_fetchOrder (t : Thm) : (setThm s t).fetchOrder = s.fetchOrder := rfl
@[simp] theorem setThm_ctxs (t : Thm) : (setThm s t).ctxs = s.ctxs := rfl
@[simp] theorem setThm_ghosts (t : Thm) : (setThm s t).ghosts = s.ghosts := rfl
@[simp] theorem setThm_ctxOrder (t : Thm) : (setThm s t).ctxOrder = s.ctxOrder := rfl
@[simp] theorem setThm_compls (t : Thm) : (setThm s t).compls = s.compls := rfl
@[simp] theorem setThm_plans (t : Thm) : (setThm s t).plans = s.plans := rfl
@[simp] theorem setThm_ctrlUse (t : Thm) : (setThm s t).ctrlUse = s.ctrlUse := rfl
@[simp] theorem setThm_compEnd (t : Thm) : (setThm s t).compEnd = s.compEnd := rfl
@[simp] theorem setThm_keys (t : Thm) : (setThm s t).keys = s.keys := rfl
@[simp] theorem setThm_freed (t : Thm) : (setThm s t).freed = s.freed := rfl
@[simp] theorem setThm_fresh (t : Thm) : (setThm s t).fresh = s.fresh := rfl
@[simp] theorem setThm_slotTable (t : Thm) : (setThm s t).slotTable = s.slotTable := rfl
@[simp] theorem setThm_slotBase (t : Thm) : (setThm s t).slotBase = s.slotBase := rfl
@[simp] theorem setThm_records (t : Thm) : (setThm s t).records = s.records := rfl
@[simp] theorem setThm_recordDue (t : Thm) : (setThm s t).recordDue = s.recordDue := rfl
@[simp] theorem setThm_reserveDue (t : Thm) : (setThm s t).reserveDue = s.reserveDue := rfl
@[simp] theorem setThm_tombPend (t : Thm) : (setThm s t).tombPend = s.tombPend := rfl
@[simp] theorem setThm_ivCtr (t : Thm) : (setThm s t).ivCtr = s.ivCtr := rfl
@[simp] theorem setThm_vault (t : Thm) : (setThm s t).vault = s.vault := rfl
@[simp] theorem setThm_lms (t : Thm) : (setThm s t).lms = s.lms := rfl
@[simp] theorem setThm_rng (t : Thm) : (setThm s t).rng = s.rng := rfl
@[simp] theorem setThm_faults (t : Thm) : (setThm s t).faults = s.faults := rfl
@[simp] theorem setThm_thmTime (t : Thm) : (setThm s t).thmTime = s.thmTime := rfl
@[simp] theorem setThm_mem (t : Thm) : (setThm s t).mem = s.mem := rfl
@[simp] theorem setThm_tags (t : Thm) : (setThm s t).tags = s.tags := rfl
@[simp] theorem setThm_sill (t : Thm) : (setThm s t).sill = s.sill := rfl
@[simp] theorem setThm_msixTab (t : Thm) : (setThm s t).msixTab = s.msixTab := rfl
@[simp] theorem setThm_msixPba (t : Thm) : (setThm s t).msixPba = s.msixPba := rfl
@[simp] theorem setThm_smbAlert (t : Thm) : (setThm s t).smbAlert = s.smbAlert := rfl
@[simp] theorem setThm_returning (t : Thm) : (setThm s t).returning = s.returning := rfl
@[simp] theorem setThm_devNdl (t : Thm) : (setThm s t).devNdl = s.devNdl := rfl
@[simp] theorem setThm_upkeep (t : Thm) : (setThm s t).upkeep = s.upkeep := rfl
@[simp] theorem setThm_ledger (t : Thm) : (setThm s t).ledger = s.ledger := rfl
@[simp] theorem setThm_nv (t : Thm) : (setThm s t).nv = s.nv := rfl
@[simp] theorem setThm_fw (t : Thm) : (setThm s t).fw = s.fw := rfl
@[simp] theorem setThm_rails (t : Thm) : (setThm s t).rails = s.rails := rfl
@[simp] theorem setThm_monAlone (t : Thm) : (setThm s t).monAlone = s.monAlone := rfl
@[simp] theorem setThm_wear (t : Thm) : (setThm s t).wear = s.wear := rfl
@[simp] theorem setThm_gates (t : Thm) : (setThm s t).gates = s.gates := rfl
@[simp] theorem setThm_boot (t : Thm) : (setThm s t).boot = s.boot := rfl
@[simp] theorem setThm_ofc (t : Thm) : (setThm s t).ofc = s.ofc := rfl
@[simp] theorem setThm_link (t : Thm) : (setThm s t).link = s.link := rfl
@[simp] theorem setThm_chans (t : Thm) : (setThm s t).chans = s.chans := rfl
@[simp] theorem setThm_hostSent (t : Thm) : (setThm s t).hostSent = s.hostSent := rfl
@[simp] theorem setThm_posts (t : Thm) : (setThm s t).posts = s.posts := rfl
@[simp] theorem setThm_sram (t : Thm) : (setThm s t).sram = s.sram := rfl
@[simp] theorem setThm_opCounts (t : Thm) : (setThm s t).opCounts = s.opCounts := rfl
@[simp] theorem setThm_pieces (t : Thm) : (setThm s t).pieces = s.pieces := rfl

/-! ### `setLink` -/

@[simp] theorem setLink_pending (l : Link) : (setLink s l).pending = s.pending := rfl
@[simp] theorem setLink_regs (l : Link) : (setLink s l).regs = s.regs := rfl
@[simp] theorem setLink_latches (l : Link) : (setLink s l).latches = s.latches := rfl
@[simp] theorem setLink_out (l : Link) : (setLink s l).out = s.out := rfl
@[simp] theorem setLink_freeCtr (l : Link) : (setLink s l).freeCtr = s.freeCtr := rfl
@[simp] theorem setLink_tick (l : Link) : (setLink s l).tick = s.tick := rfl
@[simp] theorem setLink_slices (l : Link) : (setLink s l).slices = s.slices := rfl
@[simp] theorem setLink_queues (l : Link) : (setLink s l).queues = s.queues := rfl
@[simp] theorem setLink_fetched (l : Link) : (setLink s l).fetched = s.fetched := rfl
@[simp] theorem setLink_fetchOrder (l : Link) : (setLink s l).fetchOrder = s.fetchOrder := rfl
@[simp] theorem setLink_ctxs (l : Link) : (setLink s l).ctxs = s.ctxs := rfl
@[simp] theorem setLink_ghosts (l : Link) : (setLink s l).ghosts = s.ghosts := rfl
@[simp] theorem setLink_ctxOrder (l : Link) : (setLink s l).ctxOrder = s.ctxOrder := rfl
@[simp] theorem setLink_compls (l : Link) : (setLink s l).compls = s.compls := rfl
@[simp] theorem setLink_plans (l : Link) : (setLink s l).plans = s.plans := rfl
@[simp] theorem setLink_ctrlUse (l : Link) : (setLink s l).ctrlUse = s.ctrlUse := rfl
@[simp] theorem setLink_compEnd (l : Link) : (setLink s l).compEnd = s.compEnd := rfl
@[simp] theorem setLink_keys (l : Link) : (setLink s l).keys = s.keys := rfl
@[simp] theorem setLink_freed (l : Link) : (setLink s l).freed = s.freed := rfl
@[simp] theorem setLink_fresh (l : Link) : (setLink s l).fresh = s.fresh := rfl
@[simp] theorem setLink_slotTable (l : Link) : (setLink s l).slotTable = s.slotTable := rfl
@[simp] theorem setLink_slotBase (l : Link) : (setLink s l).slotBase = s.slotBase := rfl
@[simp] theorem setLink_records (l : Link) : (setLink s l).records = s.records := rfl
@[simp] theorem setLink_recordDue (l : Link) : (setLink s l).recordDue = s.recordDue := rfl
@[simp] theorem setLink_reserveDue (l : Link) : (setLink s l).reserveDue = s.reserveDue := rfl
@[simp] theorem setLink_tombPend (l : Link) : (setLink s l).tombPend = s.tombPend := rfl
@[simp] theorem setLink_ivCtr (l : Link) : (setLink s l).ivCtr = s.ivCtr := rfl
@[simp] theorem setLink_vault (l : Link) : (setLink s l).vault = s.vault := rfl
@[simp] theorem setLink_lms (l : Link) : (setLink s l).lms = s.lms := rfl
@[simp] theorem setLink_rng (l : Link) : (setLink s l).rng = s.rng := rfl
@[simp] theorem setLink_faults (l : Link) : (setLink s l).faults = s.faults := rfl
@[simp] theorem setLink_thmTime (l : Link) : (setLink s l).thmTime = s.thmTime := rfl
@[simp] theorem setLink_mem (l : Link) : (setLink s l).mem = s.mem := rfl
@[simp] theorem setLink_tags (l : Link) : (setLink s l).tags = s.tags := rfl
@[simp] theorem setLink_sill (l : Link) : (setLink s l).sill = s.sill := rfl
@[simp] theorem setLink_msixTab (l : Link) : (setLink s l).msixTab = s.msixTab := rfl
@[simp] theorem setLink_msixPba (l : Link) : (setLink s l).msixPba = s.msixPba := rfl
@[simp] theorem setLink_smbAlert (l : Link) : (setLink s l).smbAlert = s.smbAlert := rfl
@[simp] theorem setLink_returning (l : Link) : (setLink s l).returning = s.returning := rfl
@[simp] theorem setLink_devNdl (l : Link) : (setLink s l).devNdl = s.devNdl := rfl
@[simp] theorem setLink_upkeep (l : Link) : (setLink s l).upkeep = s.upkeep := rfl
@[simp] theorem setLink_ledger (l : Link) : (setLink s l).ledger = s.ledger := rfl
@[simp] theorem setLink_nv (l : Link) : (setLink s l).nv = s.nv := rfl
@[simp] theorem setLink_fw (l : Link) : (setLink s l).fw = s.fw := rfl
@[simp] theorem setLink_thm (l : Link) : (setLink s l).thm = s.thm := rfl
@[simp] theorem setLink_rails (l : Link) : (setLink s l).rails = s.rails := rfl
@[simp] theorem setLink_monAlone (l : Link) : (setLink s l).monAlone = s.monAlone := rfl
@[simp] theorem setLink_wear (l : Link) : (setLink s l).wear = s.wear := rfl
@[simp] theorem setLink_gates (l : Link) : (setLink s l).gates = s.gates := rfl
@[simp] theorem setLink_boot (l : Link) : (setLink s l).boot = s.boot := rfl
@[simp] theorem setLink_ofc (l : Link) : (setLink s l).ofc = s.ofc := rfl
@[simp] theorem setLink_chans (l : Link) : (setLink s l).chans = s.chans := rfl
@[simp] theorem setLink_hostSent (l : Link) : (setLink s l).hostSent = s.hostSent := rfl
@[simp] theorem setLink_posts (l : Link) : (setLink s l).posts = s.posts := rfl
@[simp] theorem setLink_sram (l : Link) : (setLink s l).sram = s.sram := rfl
@[simp] theorem setLink_opCounts (l : Link) : (setLink s l).opCounts = s.opCounts := rfl
@[simp] theorem setLink_pieces (l : Link) : (setLink s l).pieces = s.pieces := rfl

/-! ### `setLms` -/

@[simp] theorem setLms_pending (l : Lms) : (setLms s l).pending = s.pending := rfl
@[simp] theorem setLms_regs (l : Lms) : (setLms s l).regs = s.regs := rfl
@[simp] theorem setLms_latches (l : Lms) : (setLms s l).latches = s.latches := rfl
@[simp] theorem setLms_out (l : Lms) : (setLms s l).out = s.out := rfl
@[simp] theorem setLms_freeCtr (l : Lms) : (setLms s l).freeCtr = s.freeCtr := rfl
@[simp] theorem setLms_tick (l : Lms) : (setLms s l).tick = s.tick := rfl
@[simp] theorem setLms_slices (l : Lms) : (setLms s l).slices = s.slices := rfl
@[simp] theorem setLms_queues (l : Lms) : (setLms s l).queues = s.queues := rfl
@[simp] theorem setLms_fetched (l : Lms) : (setLms s l).fetched = s.fetched := rfl
@[simp] theorem setLms_fetchOrder (l : Lms) : (setLms s l).fetchOrder = s.fetchOrder := rfl
@[simp] theorem setLms_ctxs (l : Lms) : (setLms s l).ctxs = s.ctxs := rfl
@[simp] theorem setLms_ghosts (l : Lms) : (setLms s l).ghosts = s.ghosts := rfl
@[simp] theorem setLms_ctxOrder (l : Lms) : (setLms s l).ctxOrder = s.ctxOrder := rfl
@[simp] theorem setLms_compls (l : Lms) : (setLms s l).compls = s.compls := rfl
@[simp] theorem setLms_plans (l : Lms) : (setLms s l).plans = s.plans := rfl
@[simp] theorem setLms_ctrlUse (l : Lms) : (setLms s l).ctrlUse = s.ctrlUse := rfl
@[simp] theorem setLms_compEnd (l : Lms) : (setLms s l).compEnd = s.compEnd := rfl
@[simp] theorem setLms_keys (l : Lms) : (setLms s l).keys = s.keys := rfl
@[simp] theorem setLms_freed (l : Lms) : (setLms s l).freed = s.freed := rfl
@[simp] theorem setLms_fresh (l : Lms) : (setLms s l).fresh = s.fresh := rfl
@[simp] theorem setLms_slotTable (l : Lms) : (setLms s l).slotTable = s.slotTable := rfl
@[simp] theorem setLms_slotBase (l : Lms) : (setLms s l).slotBase = s.slotBase := rfl
@[simp] theorem setLms_records (l : Lms) : (setLms s l).records = s.records := rfl
@[simp] theorem setLms_recordDue (l : Lms) : (setLms s l).recordDue = s.recordDue := rfl
@[simp] theorem setLms_reserveDue (l : Lms) : (setLms s l).reserveDue = s.reserveDue := rfl
@[simp] theorem setLms_tombPend (l : Lms) : (setLms s l).tombPend = s.tombPend := rfl
@[simp] theorem setLms_ivCtr (l : Lms) : (setLms s l).ivCtr = s.ivCtr := rfl
@[simp] theorem setLms_vault (l : Lms) : (setLms s l).vault = s.vault := rfl
@[simp] theorem setLms_rng (l : Lms) : (setLms s l).rng = s.rng := rfl
@[simp] theorem setLms_faults (l : Lms) : (setLms s l).faults = s.faults := rfl
@[simp] theorem setLms_thmTime (l : Lms) : (setLms s l).thmTime = s.thmTime := rfl
@[simp] theorem setLms_mem (l : Lms) : (setLms s l).mem = s.mem := rfl
@[simp] theorem setLms_tags (l : Lms) : (setLms s l).tags = s.tags := rfl
@[simp] theorem setLms_sill (l : Lms) : (setLms s l).sill = s.sill := rfl
@[simp] theorem setLms_msixTab (l : Lms) : (setLms s l).msixTab = s.msixTab := rfl
@[simp] theorem setLms_msixPba (l : Lms) : (setLms s l).msixPba = s.msixPba := rfl
@[simp] theorem setLms_smbAlert (l : Lms) : (setLms s l).smbAlert = s.smbAlert := rfl
@[simp] theorem setLms_returning (l : Lms) : (setLms s l).returning = s.returning := rfl
@[simp] theorem setLms_devNdl (l : Lms) : (setLms s l).devNdl = s.devNdl := rfl
@[simp] theorem setLms_upkeep (l : Lms) : (setLms s l).upkeep = s.upkeep := rfl
@[simp] theorem setLms_ledger (l : Lms) : (setLms s l).ledger = s.ledger := rfl
@[simp] theorem setLms_nv (l : Lms) : (setLms s l).nv = s.nv := rfl
@[simp] theorem setLms_fw (l : Lms) : (setLms s l).fw = s.fw := rfl
@[simp] theorem setLms_thm (l : Lms) : (setLms s l).thm = s.thm := rfl
@[simp] theorem setLms_rails (l : Lms) : (setLms s l).rails = s.rails := rfl
@[simp] theorem setLms_monAlone (l : Lms) : (setLms s l).monAlone = s.monAlone := rfl
@[simp] theorem setLms_wear (l : Lms) : (setLms s l).wear = s.wear := rfl
@[simp] theorem setLms_gates (l : Lms) : (setLms s l).gates = s.gates := rfl
@[simp] theorem setLms_boot (l : Lms) : (setLms s l).boot = s.boot := rfl
@[simp] theorem setLms_ofc (l : Lms) : (setLms s l).ofc = s.ofc := rfl
@[simp] theorem setLms_link (l : Lms) : (setLms s l).link = s.link := rfl
@[simp] theorem setLms_chans (l : Lms) : (setLms s l).chans = s.chans := rfl
@[simp] theorem setLms_hostSent (l : Lms) : (setLms s l).hostSent = s.hostSent := rfl
@[simp] theorem setLms_posts (l : Lms) : (setLms s l).posts = s.posts := rfl
@[simp] theorem setLms_sram (l : Lms) : (setLms s l).sram = s.sram := rfl
@[simp] theorem setLms_opCounts (l : Lms) : (setLms s l).opCounts = s.opCounts := rfl
@[simp] theorem setLms_pieces (l : Lms) : (setLms s l).pieces = s.pieces := rfl

/-! ### `setFaults` -/

@[simp] theorem setFaults_pending (f : Faults) : (setFaults s f).pending = s.pending := rfl
@[simp] theorem setFaults_regs (f : Faults) : (setFaults s f).regs = s.regs := rfl
@[simp] theorem setFaults_latches (f : Faults) : (setFaults s f).latches = s.latches := rfl
@[simp] theorem setFaults_out (f : Faults) : (setFaults s f).out = s.out := rfl
@[simp] theorem setFaults_freeCtr (f : Faults) : (setFaults s f).freeCtr = s.freeCtr := rfl
@[simp] theorem setFaults_tick (f : Faults) : (setFaults s f).tick = s.tick := rfl
@[simp] theorem setFaults_slices (f : Faults) : (setFaults s f).slices = s.slices := rfl
@[simp] theorem setFaults_queues (f : Faults) : (setFaults s f).queues = s.queues := rfl
@[simp] theorem setFaults_fetched (f : Faults) : (setFaults s f).fetched = s.fetched := rfl
@[simp] theorem setFaults_fetchOrder (f : Faults) : (setFaults s f).fetchOrder = s.fetchOrder := rfl
@[simp] theorem setFaults_ctxs (f : Faults) : (setFaults s f).ctxs = s.ctxs := rfl
@[simp] theorem setFaults_ghosts (f : Faults) : (setFaults s f).ghosts = s.ghosts := rfl
@[simp] theorem setFaults_ctxOrder (f : Faults) : (setFaults s f).ctxOrder = s.ctxOrder := rfl
@[simp] theorem setFaults_compls (f : Faults) : (setFaults s f).compls = s.compls := rfl
@[simp] theorem setFaults_plans (f : Faults) : (setFaults s f).plans = s.plans := rfl
@[simp] theorem setFaults_ctrlUse (f : Faults) : (setFaults s f).ctrlUse = s.ctrlUse := rfl
@[simp] theorem setFaults_compEnd (f : Faults) : (setFaults s f).compEnd = s.compEnd := rfl
@[simp] theorem setFaults_keys (f : Faults) : (setFaults s f).keys = s.keys := rfl
@[simp] theorem setFaults_freed (f : Faults) : (setFaults s f).freed = s.freed := rfl
@[simp] theorem setFaults_fresh (f : Faults) : (setFaults s f).fresh = s.fresh := rfl
@[simp] theorem setFaults_slotTable (f : Faults) : (setFaults s f).slotTable = s.slotTable := rfl
@[simp] theorem setFaults_slotBase (f : Faults) : (setFaults s f).slotBase = s.slotBase := rfl
@[simp] theorem setFaults_records (f : Faults) : (setFaults s f).records = s.records := rfl
@[simp] theorem setFaults_recordDue (f : Faults) : (setFaults s f).recordDue = s.recordDue := rfl
@[simp] theorem setFaults_reserveDue (f : Faults) : (setFaults s f).reserveDue = s.reserveDue := rfl
@[simp] theorem setFaults_tombPend (f : Faults) : (setFaults s f).tombPend = s.tombPend := rfl
@[simp] theorem setFaults_ivCtr (f : Faults) : (setFaults s f).ivCtr = s.ivCtr := rfl
@[simp] theorem setFaults_vault (f : Faults) : (setFaults s f).vault = s.vault := rfl
@[simp] theorem setFaults_lms (f : Faults) : (setFaults s f).lms = s.lms := rfl
@[simp] theorem setFaults_rng (f : Faults) : (setFaults s f).rng = s.rng := rfl
@[simp] theorem setFaults_thmTime (f : Faults) : (setFaults s f).thmTime = s.thmTime := rfl
@[simp] theorem setFaults_mem (f : Faults) : (setFaults s f).mem = s.mem := rfl
@[simp] theorem setFaults_tags (f : Faults) : (setFaults s f).tags = s.tags := rfl
@[simp] theorem setFaults_sill (f : Faults) : (setFaults s f).sill = s.sill := rfl
@[simp] theorem setFaults_msixTab (f : Faults) : (setFaults s f).msixTab = s.msixTab := rfl
@[simp] theorem setFaults_msixPba (f : Faults) : (setFaults s f).msixPba = s.msixPba := rfl
@[simp] theorem setFaults_smbAlert (f : Faults) : (setFaults s f).smbAlert = s.smbAlert := rfl
@[simp] theorem setFaults_returning (f : Faults) : (setFaults s f).returning = s.returning := rfl
@[simp] theorem setFaults_devNdl (f : Faults) : (setFaults s f).devNdl = s.devNdl := rfl
@[simp] theorem setFaults_upkeep (f : Faults) : (setFaults s f).upkeep = s.upkeep := rfl
@[simp] theorem setFaults_ledger (f : Faults) : (setFaults s f).ledger = s.ledger := rfl
@[simp] theorem setFaults_nv (f : Faults) : (setFaults s f).nv = s.nv := rfl
@[simp] theorem setFaults_fw (f : Faults) : (setFaults s f).fw = s.fw := rfl
@[simp] theorem setFaults_thm (f : Faults) : (setFaults s f).thm = s.thm := rfl
@[simp] theorem setFaults_rails (f : Faults) : (setFaults s f).rails = s.rails := rfl
@[simp] theorem setFaults_monAlone (f : Faults) : (setFaults s f).monAlone = s.monAlone := rfl
@[simp] theorem setFaults_wear (f : Faults) : (setFaults s f).wear = s.wear := rfl
@[simp] theorem setFaults_gates (f : Faults) : (setFaults s f).gates = s.gates := rfl
@[simp] theorem setFaults_boot (f : Faults) : (setFaults s f).boot = s.boot := rfl
@[simp] theorem setFaults_ofc (f : Faults) : (setFaults s f).ofc = s.ofc := rfl
@[simp] theorem setFaults_link (f : Faults) : (setFaults s f).link = s.link := rfl
@[simp] theorem setFaults_chans (f : Faults) : (setFaults s f).chans = s.chans := rfl
@[simp] theorem setFaults_hostSent (f : Faults) : (setFaults s f).hostSent = s.hostSent := rfl
@[simp] theorem setFaults_posts (f : Faults) : (setFaults s f).posts = s.posts := rfl
@[simp] theorem setFaults_sram (f : Faults) : (setFaults s f).sram = s.sram := rfl
@[simp] theorem setFaults_opCounts (f : Faults) : (setFaults s f).opCounts = s.opCounts := rfl
@[simp] theorem setFaults_pieces (f : Faults) : (setFaults s f).pieces = s.pieces := rfl

/-! ### `setVault` -/

@[simp] theorem setVault_pending (v : Vault) : (setVault s v).pending = s.pending := rfl
@[simp] theorem setVault_regs (v : Vault) : (setVault s v).regs = s.regs := rfl
@[simp] theorem setVault_latches (v : Vault) : (setVault s v).latches = s.latches := rfl
@[simp] theorem setVault_out (v : Vault) : (setVault s v).out = s.out := rfl
@[simp] theorem setVault_freeCtr (v : Vault) : (setVault s v).freeCtr = s.freeCtr := rfl
@[simp] theorem setVault_tick (v : Vault) : (setVault s v).tick = s.tick := rfl
@[simp] theorem setVault_slices (v : Vault) : (setVault s v).slices = s.slices := rfl
@[simp] theorem setVault_queues (v : Vault) : (setVault s v).queues = s.queues := rfl
@[simp] theorem setVault_fetched (v : Vault) : (setVault s v).fetched = s.fetched := rfl
@[simp] theorem setVault_fetchOrder (v : Vault) : (setVault s v).fetchOrder = s.fetchOrder := rfl
@[simp] theorem setVault_ctxs (v : Vault) : (setVault s v).ctxs = s.ctxs := rfl
@[simp] theorem setVault_ghosts (v : Vault) : (setVault s v).ghosts = s.ghosts := rfl
@[simp] theorem setVault_ctxOrder (v : Vault) : (setVault s v).ctxOrder = s.ctxOrder := rfl
@[simp] theorem setVault_compls (v : Vault) : (setVault s v).compls = s.compls := rfl
@[simp] theorem setVault_plans (v : Vault) : (setVault s v).plans = s.plans := rfl
@[simp] theorem setVault_ctrlUse (v : Vault) : (setVault s v).ctrlUse = s.ctrlUse := rfl
@[simp] theorem setVault_compEnd (v : Vault) : (setVault s v).compEnd = s.compEnd := rfl
@[simp] theorem setVault_keys (v : Vault) : (setVault s v).keys = s.keys := rfl
@[simp] theorem setVault_freed (v : Vault) : (setVault s v).freed = s.freed := rfl
@[simp] theorem setVault_fresh (v : Vault) : (setVault s v).fresh = s.fresh := rfl
@[simp] theorem setVault_slotTable (v : Vault) : (setVault s v).slotTable = s.slotTable := rfl
@[simp] theorem setVault_slotBase (v : Vault) : (setVault s v).slotBase = s.slotBase := rfl
@[simp] theorem setVault_records (v : Vault) : (setVault s v).records = s.records := rfl
@[simp] theorem setVault_recordDue (v : Vault) : (setVault s v).recordDue = s.recordDue := rfl
@[simp] theorem setVault_reserveDue (v : Vault) : (setVault s v).reserveDue = s.reserveDue := rfl
@[simp] theorem setVault_tombPend (v : Vault) : (setVault s v).tombPend = s.tombPend := rfl
@[simp] theorem setVault_ivCtr (v : Vault) : (setVault s v).ivCtr = s.ivCtr := rfl
@[simp] theorem setVault_lms (v : Vault) : (setVault s v).lms = s.lms := rfl
@[simp] theorem setVault_rng (v : Vault) : (setVault s v).rng = s.rng := rfl
@[simp] theorem setVault_faults (v : Vault) : (setVault s v).faults = s.faults := rfl
@[simp] theorem setVault_thmTime (v : Vault) : (setVault s v).thmTime = s.thmTime := rfl
@[simp] theorem setVault_mem (v : Vault) : (setVault s v).mem = s.mem := rfl
@[simp] theorem setVault_tags (v : Vault) : (setVault s v).tags = s.tags := rfl
@[simp] theorem setVault_sill (v : Vault) : (setVault s v).sill = s.sill := rfl
@[simp] theorem setVault_msixTab (v : Vault) : (setVault s v).msixTab = s.msixTab := rfl
@[simp] theorem setVault_msixPba (v : Vault) : (setVault s v).msixPba = s.msixPba := rfl
@[simp] theorem setVault_smbAlert (v : Vault) : (setVault s v).smbAlert = s.smbAlert := rfl
@[simp] theorem setVault_returning (v : Vault) : (setVault s v).returning = s.returning := rfl
@[simp] theorem setVault_devNdl (v : Vault) : (setVault s v).devNdl = s.devNdl := rfl
@[simp] theorem setVault_upkeep (v : Vault) : (setVault s v).upkeep = s.upkeep := rfl
@[simp] theorem setVault_ledger (v : Vault) : (setVault s v).ledger = s.ledger := rfl
@[simp] theorem setVault_nv (v : Vault) : (setVault s v).nv = s.nv := rfl
@[simp] theorem setVault_fw (v : Vault) : (setVault s v).fw = s.fw := rfl
@[simp] theorem setVault_thm (v : Vault) : (setVault s v).thm = s.thm := rfl
@[simp] theorem setVault_rails (v : Vault) : (setVault s v).rails = s.rails := rfl
@[simp] theorem setVault_monAlone (v : Vault) : (setVault s v).monAlone = s.monAlone := rfl
@[simp] theorem setVault_wear (v : Vault) : (setVault s v).wear = s.wear := rfl
@[simp] theorem setVault_gates (v : Vault) : (setVault s v).gates = s.gates := rfl
@[simp] theorem setVault_boot (v : Vault) : (setVault s v).boot = s.boot := rfl
@[simp] theorem setVault_ofc (v : Vault) : (setVault s v).ofc = s.ofc := rfl
@[simp] theorem setVault_link (v : Vault) : (setVault s v).link = s.link := rfl
@[simp] theorem setVault_chans (v : Vault) : (setVault s v).chans = s.chans := rfl
@[simp] theorem setVault_hostSent (v : Vault) : (setVault s v).hostSent = s.hostSent := rfl
@[simp] theorem setVault_posts (v : Vault) : (setVault s v).posts = s.posts := rfl
@[simp] theorem setVault_sram (v : Vault) : (setVault s v).sram = s.sram := rfl
@[simp] theorem setVault_opCounts (v : Vault) : (setVault s v).opCounts = s.opCounts := rfl
@[simp] theorem setVault_pieces (v : Vault) : (setVault s v).pieces = s.pieces := rfl

/-! ### `setChan` -/

@[simp] theorem setChan_pending (f : Nat) (c : Chan) : (setChan s f c).pending = s.pending := rfl
@[simp] theorem setChan_regs (f : Nat) (c : Chan) : (setChan s f c).regs = s.regs := rfl
@[simp] theorem setChan_latches (f : Nat) (c : Chan) : (setChan s f c).latches = s.latches := rfl
@[simp] theorem setChan_out (f : Nat) (c : Chan) : (setChan s f c).out = s.out := rfl
@[simp] theorem setChan_freeCtr (f : Nat) (c : Chan) : (setChan s f c).freeCtr = s.freeCtr := rfl
@[simp] theorem setChan_tick (f : Nat) (c : Chan) : (setChan s f c).tick = s.tick := rfl
@[simp] theorem setChan_slices (f : Nat) (c : Chan) : (setChan s f c).slices = s.slices := rfl
@[simp] theorem setChan_queues (f : Nat) (c : Chan) : (setChan s f c).queues = s.queues := rfl
@[simp] theorem setChan_fetched (f : Nat) (c : Chan) : (setChan s f c).fetched = s.fetched := rfl
@[simp] theorem setChan_fetchOrder (f : Nat) (c : Chan) : (setChan s f c).fetchOrder = s.fetchOrder := rfl
@[simp] theorem setChan_ctxs (f : Nat) (c : Chan) : (setChan s f c).ctxs = s.ctxs := rfl
@[simp] theorem setChan_ghosts (f : Nat) (c : Chan) : (setChan s f c).ghosts = s.ghosts := rfl
@[simp] theorem setChan_ctxOrder (f : Nat) (c : Chan) : (setChan s f c).ctxOrder = s.ctxOrder := rfl
@[simp] theorem setChan_compls (f : Nat) (c : Chan) : (setChan s f c).compls = s.compls := rfl
@[simp] theorem setChan_plans (f : Nat) (c : Chan) : (setChan s f c).plans = s.plans := rfl
@[simp] theorem setChan_ctrlUse (f : Nat) (c : Chan) : (setChan s f c).ctrlUse = s.ctrlUse := rfl
@[simp] theorem setChan_compEnd (f : Nat) (c : Chan) : (setChan s f c).compEnd = s.compEnd := rfl
@[simp] theorem setChan_keys (f : Nat) (c : Chan) : (setChan s f c).keys = s.keys := rfl
@[simp] theorem setChan_freed (f : Nat) (c : Chan) : (setChan s f c).freed = s.freed := rfl
@[simp] theorem setChan_fresh (f : Nat) (c : Chan) : (setChan s f c).fresh = s.fresh := rfl
@[simp] theorem setChan_slotTable (f : Nat) (c : Chan) : (setChan s f c).slotTable = s.slotTable := rfl
@[simp] theorem setChan_slotBase (f : Nat) (c : Chan) : (setChan s f c).slotBase = s.slotBase := rfl
@[simp] theorem setChan_records (f : Nat) (c : Chan) : (setChan s f c).records = s.records := rfl
@[simp] theorem setChan_recordDue (f : Nat) (c : Chan) : (setChan s f c).recordDue = s.recordDue := rfl
@[simp] theorem setChan_reserveDue (f : Nat) (c : Chan) : (setChan s f c).reserveDue = s.reserveDue := rfl
@[simp] theorem setChan_tombPend (f : Nat) (c : Chan) : (setChan s f c).tombPend = s.tombPend := rfl
@[simp] theorem setChan_ivCtr (f : Nat) (c : Chan) : (setChan s f c).ivCtr = s.ivCtr := rfl
@[simp] theorem setChan_vault (f : Nat) (c : Chan) : (setChan s f c).vault = s.vault := rfl
@[simp] theorem setChan_lms (f : Nat) (c : Chan) : (setChan s f c).lms = s.lms := rfl
@[simp] theorem setChan_rng (f : Nat) (c : Chan) : (setChan s f c).rng = s.rng := rfl
@[simp] theorem setChan_faults (f : Nat) (c : Chan) : (setChan s f c).faults = s.faults := rfl
@[simp] theorem setChan_thmTime (f : Nat) (c : Chan) : (setChan s f c).thmTime = s.thmTime := rfl
@[simp] theorem setChan_mem (f : Nat) (c : Chan) : (setChan s f c).mem = s.mem := rfl
@[simp] theorem setChan_tags (f : Nat) (c : Chan) : (setChan s f c).tags = s.tags := rfl
@[simp] theorem setChan_sill (f : Nat) (c : Chan) : (setChan s f c).sill = s.sill := rfl
@[simp] theorem setChan_msixTab (f : Nat) (c : Chan) : (setChan s f c).msixTab = s.msixTab := rfl
@[simp] theorem setChan_msixPba (f : Nat) (c : Chan) : (setChan s f c).msixPba = s.msixPba := rfl
@[simp] theorem setChan_smbAlert (f : Nat) (c : Chan) : (setChan s f c).smbAlert = s.smbAlert := rfl
@[simp] theorem setChan_returning (f : Nat) (c : Chan) : (setChan s f c).returning = s.returning := rfl
@[simp] theorem setChan_devNdl (f : Nat) (c : Chan) : (setChan s f c).devNdl = s.devNdl := rfl
@[simp] theorem setChan_upkeep (f : Nat) (c : Chan) : (setChan s f c).upkeep = s.upkeep := rfl
@[simp] theorem setChan_ledger (f : Nat) (c : Chan) : (setChan s f c).ledger = s.ledger := rfl
@[simp] theorem setChan_nv (f : Nat) (c : Chan) : (setChan s f c).nv = s.nv := rfl
@[simp] theorem setChan_fw (f : Nat) (c : Chan) : (setChan s f c).fw = s.fw := rfl
@[simp] theorem setChan_thm (f : Nat) (c : Chan) : (setChan s f c).thm = s.thm := rfl
@[simp] theorem setChan_rails (f : Nat) (c : Chan) : (setChan s f c).rails = s.rails := rfl
@[simp] theorem setChan_monAlone (f : Nat) (c : Chan) : (setChan s f c).monAlone = s.monAlone := rfl
@[simp] theorem setChan_wear (f : Nat) (c : Chan) : (setChan s f c).wear = s.wear := rfl
@[simp] theorem setChan_gates (f : Nat) (c : Chan) : (setChan s f c).gates = s.gates := rfl
@[simp] theorem setChan_boot (f : Nat) (c : Chan) : (setChan s f c).boot = s.boot := rfl
@[simp] theorem setChan_ofc (f : Nat) (c : Chan) : (setChan s f c).ofc = s.ofc := rfl
@[simp] theorem setChan_link (f : Nat) (c : Chan) : (setChan s f c).link = s.link := rfl
@[simp] theorem setChan_hostSent (f : Nat) (c : Chan) : (setChan s f c).hostSent = s.hostSent := rfl
@[simp] theorem setChan_posts (f : Nat) (c : Chan) : (setChan s f c).posts = s.posts := rfl
@[simp] theorem setChan_sram (f : Nat) (c : Chan) : (setChan s f c).sram = s.sram := rfl
@[simp] theorem setChan_opCounts (f : Nat) (c : Chan) : (setChan s f c).opCounts = s.opCounts := rfl
@[simp] theorem setChan_pieces (f : Nat) (c : Chan) : (setChan s f c).pieces = s.pieces := rfl

end Sys2Proof.Machine
end

