-- ==== Sys2Proof/Laws/Tables.lean ====
section
/-!
SUPPORT. Laws of the sparse tables: a read after a write, and that every write keeps the canonical form.
-/
namespace Sys2Proof.Machine
open Sys2Proof
variable {α : Type}

/-! ### Reading -/

theorem tget_tinsert_same (d : α) (m : List (Nat × α)) (k : Nat) (v : α) : tget d (tinsert k v m) k = v := by
  induction m with
  | nil => simp [tinsert, tget]
  | cons e r ih =>
    obtain ⟨k', v'⟩ := e
    unfold tinsert
    split
    · simp [tget]
    · split
      · simp [tget]
      · rename_i h1 h2
        simp [tget, Ne.symm h2, ih]

theorem tget_tinsert_other (d : α) (m : List (Nat × α)) {k q : Nat} (v : α) (h : q ≠ k) :
    tget d (tinsert k v m) q = tget d m q := by
  induction m with
  | nil => simp [tinsert, tget, Ne.symm h]
  | cons e r ih =>
    obtain ⟨k', v'⟩ := e
    unfold tinsert
    split
    · simp [tget, Ne.symm h]
    · split
      · rename_i h1 h2
        subst h2
        simp [tget, Ne.symm h]
      · simp [tget, ih]

theorem tget_terase_other (d : α) (m : List (Nat × α)) {k q : Nat} (h : q ≠ k) :
    tget d (terase k m) q = tget d m q := by
  induction m with
  | nil => rfl
  | cons e r ih =>
    obtain ⟨k', v'⟩ := e
    unfold terase
    split
    · rename_i h1
      subst h1
      simp [tget, Ne.symm h, ih]
    · simp [tget, ih]

/-- A key below a rising table reads as the default. -/
theorem tget_below (d : α) (m : List (Nat × α)) {lo q : Nat} (h : trising lo m = true) (hq : q < lo) :
    tget d m q = d := by
  induction m generalizing lo with
  | nil => rfl
  | cons e r ih =>
    obtain ⟨k', v'⟩ := e
    simp only [trising, Bool.and_eq_true, decide_eq_true_eq] at h
    have hk : ¬ k' = q := by omega
    simp [tget, hk, ih h.2 (by omega)]

theorem tget_terase_same (d : α) (m : List (Nat × α)) (k : Nat) : tget d (terase k m) k = d := by
  induction m with
  | nil => rfl
  | cons e r ih =>
    obtain ⟨k', v'⟩ := e
    unfold terase
    split
    · exact ih
    · rename_i h1
      simp [tget, Ne.symm h1, ih]

/-- A read of the key just written. -/
@[simp] theorem tget_tput_same [DecidableEq α] (d : α) (m : List (Nat × α)) (k : Nat) (v : α) :
    tget d (tput d m k v) k = v := by
  unfold tput
  split
  · rename_i h1
    rw [tget_terase_same d m, h1]
  · exact tget_tinsert_same d m k v

/-- A read of another key. -/
theorem tget_tput_other [DecidableEq α] (d : α) {d' : α} (m : List (Nat × α)) {k q : Nat} (v : α) (h : q ≠ k) :
    tget d (tput d' m k v) q = tget d m q := by
  unfold tput
  split
  · exact tget_terase_other d m h
  · exact tget_tinsert_other d m v h

theorem tfind_tinsert_same (m : List (Nat × α)) (k : Nat) (v : α) : tfind (tinsert k v m) k = some v := by
  induction m with
  | nil => simp [tinsert, tfind]
  | cons e r ih =>
    obtain ⟨k', v'⟩ := e
    unfold tinsert
    split
    · simp [tfind]
    · split
      · simp [tfind]
      · rename_i h1 h2
        simp [tfind, Ne.symm h2, ih]

theorem tfind_tinsert_other (m : List (Nat × α)) {k q : Nat} (v : α) (h : q ≠ k) :
    tfind (tinsert k v m) q = tfind m q := by
  induction m with
  | nil => simp [tinsert, tfind, Ne.symm h]
  | cons e r ih =>
    obtain ⟨k', v'⟩ := e
    unfold tinsert
    split
    · simp [tfind, Ne.symm h]
    · split
      · rename_i h1 h2
        subst h2
        simp [tfind, Ne.symm h]
      · simp [tfind, ih]

/-! ### The canonical form -/

theorem trising_weaken {m : List (Nat × α)} {lo lo' : Nat} (h : trising lo m = true) (hl : lo' ≤ lo) :
    trising lo' m = true := by
  cases m with
  | nil => rfl
  | cons e r =>
    obtain ⟨k, v⟩ := e
    simp only [trising, Bool.and_eq_true, decide_eq_true_eq] at h ⊢
    exact ⟨by omega, h.2⟩

theorem trising_tinsert {m : List (Nat × α)} {lo k : Nat} (v : α) (h : trising lo m = true) (hk : lo ≤ k) :
    trising lo (tinsert k v m) = true := by
  induction m generalizing lo with
  | nil => simp [tinsert, trising, hk]
  | cons e r ih =>
    obtain ⟨k', v'⟩ := e
    simp only [trising, Bool.and_eq_true, decide_eq_true_eq] at h
    unfold tinsert
    split
    · simp only [trising, Bool.and_eq_true, decide_eq_true_eq]
      exact ⟨hk, by omega, h.2⟩
    · split
      · rename_i h1 h2
        subst h2
        simp only [trising, Bool.and_eq_true, decide_eq_true_eq]
        exact ⟨hk, h.2⟩
      · simp only [trising, Bool.and_eq_true, decide_eq_true_eq]
        exact ⟨h.1, ih h.2 (by omega)⟩

theorem trising_terase {m : List (Nat × α)} {lo k : Nat} (h : trising lo m = true) :
    trising lo (terase k m) = true := by
  induction m generalizing lo with
  | nil => rfl
  | cons e r ih =>
    obtain ⟨k', v'⟩ := e
    simp only [trising, Bool.and_eq_true, decide_eq_true_eq] at h
    unfold terase
    split
    · exact ih (trising_weaken h.2 (by omega))
    · simp only [trising, Bool.and_eq_true, decide_eq_true_eq]
      exact ⟨h.1, ih h.2⟩

theorem trising_map {β : Type} {m : List (Nat × α)} {lo : Nat} (f : Nat × α → β) (h : trising lo m = true) :
    trising lo (m.map (fun e => (e.1, f e))) = true := by
  induction m generalizing lo with
  | nil => rfl
  | cons e r ih =>
    obtain ⟨k, v⟩ := e
    simp only [trising, List.map_cons, Bool.and_eq_true, decide_eq_true_eq] at h ⊢
    exact ⟨h.1, ih h.2⟩

theorem all_tinsert {m : List (Nat × α)} {p : Nat × α → Bool} {k : Nat} {v : α} (h : m.all p = true)
    (hv : p (k, v) = true) : (tinsert k v m).all p = true := by
  induction m with
  | nil => simp [tinsert, hv]
  | cons e r ih =>
    obtain ⟨k', v'⟩ := e
    simp only [List.all_cons, Bool.and_eq_true] at h
    unfold tinsert
    split
    · simp [hv, h.1, h.2]
    · split
      · simp [hv, h.2]
      · simp [h.1, ih h.2]

theorem all_terase {m : List (Nat × α)} {p : Nat × α → Bool} {k : Nat} (h : m.all p = true) :
    (terase k m).all p = true := by
  induction m with
  | nil => rfl
  | cons e r ih =>
    obtain ⟨k', v'⟩ := e
    simp only [List.all_cons, Bool.and_eq_true] at h
    unfold terase
    split
    · exact ih h.2
    · simp [h.1, ih h.2]

/-- A write keeps the canonical form of a table whose default may depend on the key. -/
theorem wf_tput [DecidableEq α] {f : Nat → α} {m : List (Nat × α)} {k : Nat} {v : α}
    (hr : trising 0 m = true) (ha : m.all (fun e => !decide (e.2 = f e.1)) = true) :
    trising 0 (tput (f k) m k v) = true ∧ (tput (f k) m k v).all (fun e => !decide (e.2 = f e.1)) = true := by
  unfold tput
  split
  · exact ⟨trising_terase hr, all_terase ha⟩
  · rename_i h1
    exact ⟨trising_tinsert v hr (Nat.zero_le k), all_tinsert ha (by simpa using h1)⟩

/-- A write keeps the canonical form. -/
theorem twf_tput [DecidableEq α] {d : α} {m : List (Nat × α)} {k : Nat} {v : α} (h : twf d m = true) :
    twf d (tput d m k v) = true := by
  unfold twf at h ⊢
  simp only [Bool.and_eq_true] at h ⊢
  exact wf_tput (f := fun _ => d) h.1 h.2

/-! ### Two writes -/

theorem terase_below {m : List (Nat × α)} {lo k : Nat} (h : trising lo m = true) (hk : k < lo) : terase k m = m := by
  induction m generalizing lo with
  | nil => rfl
  | cons e r ih =>
    obtain ⟨k', v'⟩ := e
    simp only [trising, Bool.and_eq_true, decide_eq_true_eq] at h
    have h1 : ¬ k = k' := by omega
    simp [terase, h1, ih h.2 (by omega)]

theorem terase_terase (m : List (Nat × α)) (k : Nat) : terase k (terase k m) = terase k m := by
  induction m with
  | nil => rfl
  | cons e r ih =>
    obtain ⟨k', v'⟩ := e
    by_cases h1 : k = k'
    · subst h1
      simpa [terase] using ih
    · simp [terase, h1, ih]

theorem terase_tinsert (m : List (Nat × α)) (k : Nat) (v : α) : terase k (tinsert k v m) = terase k m := by
  induction m with
  | nil => simp [tinsert, terase]
  | cons e r ih =>
    obtain ⟨k', v'⟩ := e
    unfold tinsert
    split
    · simp [terase]
    · split
      · rename_i h1 h2
        subst h2
        simp [terase]
      · rename_i h1 h2
        simp [terase, h2, ih]

theorem tinsert_tinsert (m : List (Nat × α)) (k : Nat) (v w : α) : tinsert k w (tinsert k v m) = tinsert k w m := by
  induction m with
  | nil => simp [tinsert]
  | cons e r ih =>
    obtain ⟨k', v'⟩ := e
    by_cases h1 : k < k'
    · simp [tinsert, h1]
    · by_cases h2 : k = k'
      · subst h2
        simp [tinsert]
      · simp [tinsert, h1, h2, ih]

theorem tinsert_terase {m : List (Nat × α)} {lo k : Nat} (w : α) (h : trising lo m = true) :
    tinsert k w (terase k m) = tinsert k w m := by
  induction m generalizing lo with
  | nil => rfl
  | cons e r ih =>
    obtain ⟨k', v'⟩ := e
    simp only [trising, Bool.and_eq_true, decide_eq_true_eq] at h
    by_cases h2 : k = k'
    · subst h2
      have h3 : terase k r = r := terase_below h.2 (by omega)
      cases r with
      | nil => simp [terase, tinsert]
      | cons e2 r2 =>
        obtain ⟨k2, v2⟩ := e2
        simp only [trising, Bool.and_eq_true, decide_eq_true_eq] at h
        have h4 : k < k2 := by omega
        simp [terase] at h3
        simp [terase, tinsert]
        rw [h3]
        simp [tinsert, h4]
    · by_cases h1 : k < k'
      · have h3 : terase k r = r := terase_below h.2 (by omega)
        simp [terase, tinsert, h1, h2, h3]
      · simp [terase, tinsert, h1, h2, ih h.2]

/-- The later of two writes under one key stands. -/
theorem tput_tput [DecidableEq α] {d : α} {m : List (Nat × α)} {k : Nat} (v w : α) (h : trising 0 m = true) :
    tput d (tput d m k v) k w = tput d m k w := by
  unfold tput
  split <;> split
  · exact terase_terase m k
  · exact terase_tinsert m k v
  · exact tinsert_terase w h
  · exact tinsert_tinsert m k v w

/-- Writing the value that a canonical table holds changes nothing. -/
theorem tput_tget [DecidableEq α] {d : α} {m : List (Nat × α)} {lo k : Nat} (h : trising lo m = true)
    (hd : m.all (fun e => !decide (e.2 = d)) = true) : tput d m k (tget d m k) = m := by
  induction m generalizing lo with
  | nil => simp [tget, tput, terase]
  | cons e r ih =>
    obtain ⟨k', v'⟩ := e
    simp only [trising, Bool.and_eq_true, decide_eq_true_eq, List.all_cons, Bool.not_eq_true', decide_eq_false_iff_not] at h hd
    by_cases h2 : k' = k
    · subst h2
      simp [tget, tput, hd.1, tinsert]
    · have h3 : ¬ k = k' := fun e => h2 e.symm
      have ih2 := ih h.2 hd.2
      simp only [tget, h2, if_false, tput] at ih2 ⊢
      split
      · rename_i h4
        simp only [h4, if_true] at ih2
        simp [terase, h3, ih2]
      · rename_i h4
        simp only [h4, if_false] at ih2
        have h5 : ¬ k < k' := by
          intro hlt
          exact h4 (tget_below d r h.2 (by omega))
        simp [tinsert, h5, h3, ih2]

end Sys2Proof.Machine
end

