-- ==== Sys2Proof/Laws/Regs.lean ====
section
/-!
SUPPORT. Reads after writes: register words, fields of register words, memory bytes, posts, slices, queues, contexts.
-/
namespace Sys2Proof.Machine
open Sys2Proof

/-! ### Bits of a word -/

theorem getBits_testBit (w : Word) (lo k i : Nat) :
    (getBits w lo k).testBit i = (decide (i < k) && w.getLsbD (lo + i)) := by
  simp [getBits, Nat.testBit_mod_two_pow, Nat.testBit_shiftRight, BitVec.getLsbD]

theorem setBits_getLsbD (w : Word) (lo k v i : Nat) :
    (setBits w lo k v).getLsbD i =
      (decide (i < 32) && if lo ≤ i ∧ i < lo + k then v.testBit (i - lo) else w.getLsbD i) := by
  unfold setBits
  simp only [BitVec.getLsbD_or, BitVec.getLsbD_and, BitVec.getLsbD_not, BitVec.getLsbD_ofNat, Nat.testBit_shiftLeft,
    Nat.testBit_two_pow_sub_one, Nat.testBit_mod_two_pow]
  by_cases h : i < 32
  · by_cases h1 : lo ≤ i
    · by_cases h2 : i < lo + k
      · have : i - lo < k := by omega
        simp [h, h1, h2, this]
      · have : ¬ i - lo < k := by omega
        simp [h, h1, h2, this]
    · simp [h, h1]
  · have : w.getLsbD i = false := BitVec.getLsbD_of_ge w i (by omega)
    simp [h]

/-- A field just written reads as the value cut to its width. -/
theorem getBits_setBits_same (w : Word) {lo k : Nat} (v : Nat) (h : lo + k ≤ 32) :
    getBits (setBits w lo k v) lo k = v % 2 ^ k := by
  apply Nat.eq_of_testBit_eq
  intro i
  rw [getBits_testBit, setBits_getLsbD, Nat.testBit_mod_two_pow]
  by_cases hi : i < k
  · have h1 : lo + i < 32 := by omega
    have h2 : lo + i < lo + k := by omega
    simp [hi, h1]
  · simp [hi]

/-- Fields that share no bit do not disturb each other. -/
theorem getBits_setBits_other (w : Word) {lo k lo' k' : Nat} (v : Nat) (h : lo' + k' ≤ lo ∨ lo + k ≤ lo')
    (hw : lo' + k' ≤ 32) : getBits (setBits w lo k v) lo' k' = getBits w lo' k' := by
  apply Nat.eq_of_testBit_eq
  intro i
  rw [getBits_testBit, getBits_testBit, setBits_getLsbD]
  by_cases hi : i < k'
  · have h1 : lo' + i < 32 := by omega
    have h2 : ¬ (lo ≤ lo' + i ∧ lo' + i < lo + k) := by omega
    simp [hi, h1, h2]
  · simp [hi]

/-! ### Register words and fields -/

@[simp] theorem getReg_setReg_same (s : State) (k : Nat) (w : Word) : getReg (setReg s k w) k = w := by
  simp [getReg, setReg]

theorem getReg_setReg_other (s : State) {k q : Nat} (w : Word) (h : q ≠ k) :
    getReg (setReg s k w) q = getReg s q := by
  simp [getReg, setReg, tget_tput_other _ _ _ h]

theorem getReg_setF_other (s : State) {f : Fld} {q : Nat} (v : Nat) (h : q ≠ f.key) :
    getReg (setF s f v) q = getReg s q := getReg_setReg_other s _ h

theorem getF_setReg_other (s : State) {k : Nat} {f : Fld} (w : Word) (h : f.key ≠ k) :
    getF (setReg s k w) f = getF s f := by
  simp [getF, getReg_setReg_other s w h]

/-- The field just written. -/
theorem getF_setF_same (s : State) {f : Fld} (v : Nat) (h : f.lo + f.width ≤ 32) :
    getF (setF s f v) f = v % 2 ^ f.width := by
  simp [getF, setF, getBits_setBits_same _ _ h]

/-- Fields with no bit in common. -/
def apart (f g : Fld) : Prop := f.key ≠ g.key ∨ (g.lo + g.width ≤ f.lo ∨ f.lo + f.width ≤ g.lo) ∧ g.lo + g.width ≤ 32

theorem getF_setF_apart (s : State) {f g : Fld} (v : Nat) (h : apart f g) : getF (setF s f v) g = getF s g := by
  by_cases hk : g.key = f.key
  · rcases h with h | h
    · exact absurd hk.symm h
    · simp [getF, setF, hk, getBits_setBits_other _ _ h.1 h.2]
  · exact getF_setReg_other s _ hk

theorem flag_setFlag_same (s : State) {f : Fld} (b : Bool) (h : f.lo + f.width ≤ 32) (hw : f.width = 1) :
    flag (setFlag s f b) f = b := by
  simp only [flag, setFlag, getF_setF_same s _ h, hw]
  cases b <;> rfl

theorem flag_setFlag_apart (s : State) {f g : Fld} (b : Bool) (h : apart f g) : flag (setFlag s f b) g = flag s g := by
  simp [flag, setFlag, getF_setF_apart s _ h]

theorem flag_setF_apart (s : State) {f g : Fld} (v : Nat) (h : apart f g) : flag (setF s f v) g = flag s g := by
  simp [flag, getF_setF_apart s _ h]

theorem getF_setFlag_apart (s : State) {f g : Fld} (b : Bool) (h : apart f g) : getF (setFlag s f b) g = getF s g :=
  getF_setF_apart s _ h

/-! ### Memory -/

@[simp] theorem memByte_setMemByte_same (s : State) (a : Nat) (b : Byte) : memByte (setMemByte s a b) a = b := by
  simp [memByte, setMemByte]

theorem memByte_setMemByte_other (s : State) {a q : Nat} (b : Byte) (h : q ≠ a) :
    memByte (setMemByte s a b) q = memByte s q := by
  simp [memByte, setMemByte, tget_tput_other _ _ _ h]

/-- Bytes outside a stored string keep their value. -/
theorem memByte_memWrite_other (b : Bytes) (s : State) {a q : Nat} (h : q < a ∨ a + b.length ≤ q) :
    memByte (memWrite s a b) q = memByte s q := by
  induction b generalizing s a with
  | nil => rfl
  | cons x r ih =>
    simp only [List.length_cons] at h
    rw [memWrite, ih _ (by omega), memByte_setMemByte_other s x (by omega)]

/-- A byte of a stored string. -/
theorem memByte_memWrite_in (b : Bytes) (s : State) {a i : Nat} (h : i < b.length) :
    memByte (memWrite s a b) (a + i) = b.getD i 0#8 := by
  induction b generalizing s a i with
  | nil => simp at h
  | cons x r ih =>
    cases i with
    | zero =>
      rw [memWrite, memByte_memWrite_other r _ (by omega)]
      simp
    | succ j =>
      have h1 : a + (j + 1) = (a + 1) + j := by omega
      rw [memWrite, h1, ih _ (by simpa using h)]
      simp

/-- A string just stored reads back. -/
theorem memRead_memWrite (s : State) (a : Nat) (b : Bytes) : memRead (memWrite s a b) a b.length = b := by
  apply List.ext_getElem
  · simp [memRead]
  · intro i h1 h2
    simp [memRead, memByte_memWrite_in b s h2, h2]

/-- A store changes memory alone. -/
theorem memWrite_rest (b : Bytes) (s : State) (a : Nat) : memWrite s a b = { s with mem := (memWrite s a b).mem } := by
  induction b generalizing s a with
  | nil => rfl
  | cons x r ih =>
    rw [memWrite, ih]
    rfl

/-! ### Posts, slices, queues, contexts -/

@[simp] theorem getPost_setPost_same (s : State) (p : Nat) (x : Post) : getPost (setPost s p x) p = x := by
  simp [getPost, setPost]

theorem getPost_setPost_other (s : State) {p q : Nat} (x : Post) (h : q ≠ p) :
    getPost (setPost s p x) q = getPost s q := by
  simp [getPost, setPost, tget_tput_other _ _ _ h]

theorem setPost_setPost {s : State} {p : Nat} (x y : Post) (h : trising 0 s.posts = true) :
    setPost (setPost s p x) p y = setPost s p y := by
  simp [setPost, tput_tput x y h]

@[simp] theorem getSlice_setSlice_same (s : State) (n : Nat) (x : Slice) : getSlice (setSlice s n x) n = x := by
  simp [getSlice, setSlice]

theorem getSlice_setSlice_other (s : State) {n q : Nat} (x : Slice) (h : q ≠ n) :
    getSlice (setSlice s n x) q = getSlice s q := by
  simp [getSlice, setSlice, tget_tput_other _ _ _ h]

@[simp] theorem getQueue_setQueue_same (s : State) (a q : Nat) (x : Queue) : getQueue (setQueue s a q x) a q = x := by
  simp [getQueue, setQueue]

theorem getQueue_setQueue_other (s : State) {a q b r : Nat} (x : Queue) (h : qKey b r ≠ qKey a q) :
    getQueue (setQueue s a q x) b r = getQueue s b r := by
  simp [getQueue, setQueue, tget_tput_other _ _ _ h]

@[simp] theorem getCtx_setCtx_same (s : State) (n : Nat) (c : Ctx) : getCtx (setCtx s n c) n = some c := by
  simp [getCtx, setCtx, tfind_tinsert_same]

theorem getCtx_setCtx_other (s : State) {n q : Nat} (c : Ctx) (h : q ≠ n) : getCtx (setCtx s n c) q = getCtx s q := by
  simp [getCtx, setCtx, tfind_tinsert_other _ _ h]

@[simp] theorem getChain_setChain_same (s : State) (n : Nat) (c : Chain) : getChain (setChain s n c) n = c := by
  simp [getChain, setChain]

/-! ### Reads that a setter leaves alone -/

@[simp] theorem getReg_setPost (s : State) (p : Nat) (x : Post) (k : Nat) : getReg (setPost s p x) k = getReg s k := rfl
@[simp] theorem getF_setPost (s : State) (p : Nat) (x : Post) (f : Fld) : getF (setPost s p x) f = getF s f := rfl
@[simp] theorem flag_setPost (s : State) (p : Nat) (x : Post) (f : Fld) : flag (setPost s p x) f = flag s f := rfl
@[simp] theorem memByte_setPost (s : State) (p : Nat) (x : Post) (a : Nat) : memByte (setPost s p x) a = memByte s a := rfl
@[simp] theorem getPost_setReg (s : State) (k : Nat) (w : Word) (p : Nat) : getPost (setReg s k w) p = getPost s p := rfl
@[simp] theorem getPost_setF (s : State) (f : Fld) (v p : Nat) : getPost (setF s f v) p = getPost s p := rfl
@[simp] theorem getPost_setMemByte (s : State) (a : Nat) (b : Byte) (p : Nat) : getPost (setMemByte s a b) p = getPost s p := rfl
@[simp] theorem getReg_emit (s : State) (o : Out) (k : Nat) : getReg (emit s o) k = getReg s k := rfl
@[simp] theorem getF_emit (s : State) (o : Out) (f : Fld) : getF (emit s o) f = getF s f := rfl

end Sys2Proof.Machine
end

