-- ==== Sys2Proof/Laws/Fire.lean ====
section
/-!
SUPPORT. What the firing of a source can do (17_faults R367, R372, R373): it changes registers, the fault record and the
index of the next free value, and appends one firing to those whose response is due.
-/
namespace Sys2Proof.Machine
open Sys2Proof

/-- Only registers and the fault record differ. -/
def FaultOnly (s t : State) : Prop := t = { s with regs := t.regs, faults := t.faults }

theorem FaultOnly.refl (s : State) : FaultOnly s s := rfl

theorem FaultOnly.trans {s t u : State} (h : FaultOnly s t) (k : FaultOnly t u) : FaultOnly s u := by
  unfold FaultOnly at *; rw [k, h]

theorem faultOnly_setReg (s : State) (k : Nat) (w : Word) : FaultOnly s (setReg s k w) := rfl
theorem faultOnly_setF (s : State) (f : Fld) (v : Nat) : FaultOnly s (setF s f v) := rfl
theorem faultOnly_event (s : State) (f : Fld) : FaultOnly s (event s f) := rfl
theorem faultOnly_countF (s : State) (f : Fld) (n : Nat) : FaultOnly s (countF s f n) := rfl
theorem faultOnly_orReg (s : State) (k n : Nat) : FaultOnly s (orReg s k n) := rfl
theorem faultOnly_setPending (s : State) (n : Nat) : FaultOnly s (setPending s n) := rfl

theorem faultOnly_captureFirst (s : State) (f : Firing) :
    FaultOnly s (captureFirst s f) ∧ (captureFirst s f).faults.fired = s.faults.fired ∧
      (captureFirst s f).faults.safeDue = s.faults.safeDue ∧ (captureFirst s f).faults.safe = s.faults.safe := by
  unfold captureFirst
  split
  · exact ⟨rfl, rfl, rfl, rfl⟩
  · dsimp only
    split <;> split <;> exact ⟨rfl, rfl, rfl, rfl⟩

theorem faultOnly_captureRing (s : State) (f : Firing) :
    FaultOnly s (captureRing s f) ∧ (captureRing s f).faults.fired = s.faults.fired ∧
      (captureRing s f).faults.safeDue = s.faults.safeDue ∧ (captureRing s f).faults.safe = s.faults.safe := by
  unfold captureRing
  split
  · dsimp only
    split <;> exact ⟨rfl, rfl, rfl, rfl⟩
  · exact ⟨rfl, rfl, rfl, rfl⟩

theorem faultOnly_captureSlice (s : State) (f : Firing) :
    FaultOnly s (captureSlice s f) ∧ (captureSlice s f).faults.fired = s.faults.fired ∧
      (captureSlice s f).faults.safeDue = s.faults.safeDue ∧ (captureSlice s f).faults.safe = s.faults.safe := by
  unfold captureSlice
  split <;> exact ⟨rfl, rfl, rfl, rfl⟩

theorem faultOnly_blockRecord (s : State) (n : Nat) :
    FaultOnly s (blockRecord s n) ∧ (blockRecord s n).faults = s.faults := by
  unfold blockRecord
  repeat' (first | split | exact ⟨rfl, rfl⟩)

/-- The firing that a source of the table records. -/
def firingOf (s : State) (a : FireArgs) (cycle level : Nat) : Firing :=
  { src := a.src, acc := a.acc, init := a.init, imprecise := a.imprecise, addr := a.addr, slice := a.slice,
    unit := srcUnit a.src, detail := a.detail, tick := s.tick.count, thm := s.thmTime, cycle := cycle,
    ctx := a.ctx, status := a.status, level := level }

theorem firingOf_def (s : State) (a : FireArgs) (cycle level : Nat) :
    ({ src := a.src, acc := a.acc, init := a.init, imprecise := a.imprecise, addr := a.addr, slice := a.slice,
       unit := srcUnit a.src, detail := a.detail, tick := s.tick.count, thm := s.thmTime, cycle := cycle,
       ctx := a.ctx, status := a.status, level := level } : Firing) = firingOf s a cycle level := rfl

theorem fireLevel_spec (s : State) (a : FireArgs) (cycle level : Nat) (h : srcRow a.src ≠ none) :
    FaultOnly s (fireLevel s a cycle level) ∧
    (fireLevel s a cycle level).faults.fired = s.faults.fired ++ [firingOf s a cycle level] ∧
    (fireLevel s a cycle level).faults.safeDue = (s.faults.safeDue || level == 6) ∧
    (fireLevel s a cycle level).faults.safe = s.faults.safe := by
  obtain ⟨r, hr⟩ := Option.ne_none_iff_exists'.mp h
  simp only [fireLevel, hr]
  generalize hs3 : event (countF (orReg (setPending s a.src) (r.page * 0x1000 + 0x010) (2 ^ r.bit))
    Reg.FCL_FIRED_N 1) Reg.FCL_EVT_FIRED = s3
  have h3 : FaultOnly s s3 ∧ s3.faults = s.faults := by rw [← hs3]; exact ⟨rfl, rfl⟩
  change FaultOnly s _ ∧ _
  rw [firingOf_def s a cycle level]
  generalize firingOf s a cycle level = f
  have hA := faultOnly_captureFirst s3 f
  have hB := faultOnly_captureRing (captureFirst s3 f) f
  have hC := faultOnly_captureSlice (captureRing (captureFirst s3 f) f) f
  have hD := faultOnly_blockRecord (captureSlice (captureRing (captureFirst s3 f) f) f) a.src
  refine ⟨?_, ?_, ?_, ?_⟩
  · refine (((h3.1.trans hA.1).trans hB.1).trans hC.1).trans (hD.1.trans rfl)
  · simp only [hD.2, hC.2.1, hB.2.1, hA.2.1, h3.2]
  · simp only [hD.2, hC.2.2.1, hB.2.2.1, hA.2.2.1, h3.2]
  · simp only [hD.2, hC.2.2.2, hB.2.2.2, hA.2.2.2, h3.2]

/-- A firing in a cycle that no rule fixes. -/
theorem fire_spec (s : State) (a : FireArgs) (h : srcRow a.src ≠ none) :
    ∃ cycle, fire s a = { s with regs := (fire s a).regs, faults := (fire s a).faults, freeCtr := (fire s a).freeCtr } ∧
    (fire s a).faults.fired = s.faults.fired ++ [firingOf s a cycle (appliedLevel s a.src a.slice)] ∧
    (fire s a).faults.safeDue = (s.faults.safeDue || appliedLevel s a.src a.slice == 6) ∧
    (fire s a).faults.safe = s.faults.safe := by
  refine ⟨(drawBelow 2048 s).1, ?_⟩
  have k := fireLevel_spec (drawBelow 2048 s).2 a (drawBelow 2048 s).1
    (appliedLevel (drawBelow 2048 s).2 a.src a.slice) h
  refine ⟨?_, k.2.1, k.2.2.1, k.2.2.2⟩
  have e : fire s a = fireLevel (drawBelow 2048 s).2 a (drawBelow 2048 s).1
    (appliedLevel (drawBelow 2048 s).2 a.src a.slice) := rfl
  have k1 := k.1
  unfold FaultOnly at k1
  rw [← e] at k1
  rw [k1]
  rfl

theorem firePlain_spec (s : State) (n : Nat) (sl : Option Nat) (h : srcRow n ≠ none) :
    ∃ cycle, firePlain s n sl =
      { s with regs := (firePlain s n sl).regs, faults := (firePlain s n sl).faults
               freeCtr := (firePlain s n sl).freeCtr } ∧
    (firePlain s n sl).faults.fired =
      s.faults.fired ++ [firingOf s (FireArgs.plain n sl) cycle (appliedLevel s n sl)] ∧
    (firePlain s n sl).faults.safeDue = (s.faults.safeDue || appliedLevel s n sl == 6) ∧
    (firePlain s n sl).faults.safe = s.faults.safe := fire_spec s (FireArgs.plain n sl) h

end Sys2Proof.Machine
end

