-- ==== Sys2Proof/Laws/Sound.lean ====
section
/-!
SUPPORT. Soundness of a state with its queue named: the invariant of Safety.lean and `s.pending = q`. One lemma per
operation, under Laws/Sound*.lean, says that it keeps both; the lemmas here are the steps of those proofs.
-/
namespace Sys2Proof.Machine
open Sys2Proof

/-- The invariant and the queue, as a property of the four fields it is about. -/
def Good (q : List Instr) (mem : List Host.Cell) (regs : List (Nat × Word)) (posts : List (Nat × Post))
    (pend : List Instr) : Prop :=
  Memory.wf mem = true ∧ Safety.regsWf regs = true ∧ Safety.postsWf posts = true ∧ pend = q

/-- The state is sound, and `q` waits. -/
def Sound (q : List Instr) (s : State) : Prop := Good q s.mem s.regs s.posts s.pending

theorem Sound.inv {q : List Instr} {s : State} (h : Sound q s) : Safety.Inv s := ⟨h.1, h.2.1, h.2.2.1⟩

theorem Sound.of_inv {s : State} (h : Safety.Inv s) : Sound s.pending s := ⟨h.mem, h.regs, h.posts, rfl⟩

theorem Sound.pending_eq {q : List Instr} {s : State} (h : Sound q s) : s.pending = q := h.2.2.2

theorem Good.of {q : List Instr} {s : State} (h : Sound q s) : Good q s.mem s.regs s.posts s.pending := h

theorem Good.posts {q : List Instr} {mem : List Host.Cell} {regs : List (Nat × Word)} {ps qs : List (Nat × Post)}
    {pend : List Instr} (h : Good q mem regs ps pend) (hq : Safety.postsWf qs = true) : Good q mem regs qs pend
    :=
  ⟨h.1, h.2.1, hq, h.2.2.2⟩

theorem Sound.mk {q : List Instr} {a0 : List Instr} {a1 : List (Nat × Word)} {a2 : List (Nat × Word)} {a3 : List
    Out} {a4 : Nat} {a5 : Tick} {a6 : List (Nat × Slice)} {a7 : List (Nat × Queue)} {a8 : List Fetched} {a9 : Nat}
    {a10 : List (Nat × Ctx)} {a11 : List Ctx} {a12 : Nat} {a13 : List Completion} {a14 : List (Nat × Plan)} {a15 :
    List (Nat × Nat)} {a16 : List (Nat × Nat)} {a17 : List (Nat × KeySlot)} {a18 : List Nat} {a19 : Nat} {a20 : List
    (Nat × Nat)} {a21 : Nat} {a22 : List KeyRecord} {a23 : List (Nat × Nat)} {a24 : List (Nat × Nat)} {a25 : List
    Bytes} {a26 : Nat} {a27 : Vault} {a28 : Lms} {a29 : Rng} {a30 : Faults} {a31 : Nat} {a32 : List Host.Cell} {a33
    : List (Nat × Bool)} {a34 : List (Nat × Word)} {a35 : List (Nat × Word)} {a36 : List (Nat × Bool)} {a37 : Bool}
    {a38 : List Returning} {a39 : List (Nat × Nat)} {a40 : Bool} {a41 : List (Bytes × Nat)} {a42 : Nv} {a43 : Fw}
    {a44 : Thm} {a45 : List (Nat × Rail)} {a46 : List (Nat × Nat)} {a47 : Wear} {a48 : Gates} {a49 : Boot} {a50 :
    Ofc} {a51 : Link} {a52 : List (Nat × Chan)} {a53 : List (Nat × Nat)} {a54 : List (Nat × Post)} {a55 : Sram} {a56 : List (Nat
    × Nat)} {a57 : List (Nat × Nat)}
        (h : Good q a32 a1 a54 a0) :
        Sound q (State.mk a0 a1 a2 a3 a4 a5 a6 a7 a8 a9 a10 a11 a12 a13 a14 a15 a16 a17 a18 a19 a20 a21 a22 a23 a24
    a25 a26 a27 a28 a29 a30 a31 a32 a33 a34 a35 a36 a37 a38 a39 a40 a41 a42 a43 a44 a45 a46 a47 a48 a49 a50 a51 a52
    a53 a54 a55 a56 a57) := h

/-! ### Branches, pairs, loops -/

theorem Sound.ite {q : List Instr} {c : Prop} [Decidable c] {a b : State} (ha : Sound q a) (hb : Sound q b) :
    Sound q (if c then a else b) := by split <;> assumption

theorem Sound.ite_fst {α : Type} {q : List Instr} {c : Prop} [Decidable c] {a b : State × α} (ha : Sound q a.1)
    (hb : Sound q b.1) : Sound q (if c then a else b).1 := by split <;> assumption

theorem Sound.ite_snd {α : Type} {q : List Instr} {c : Prop} [Decidable c] {a b : α × State} (ha : Sound q a.2)
    (hb : Sound q b.2) : Sound q (if c then a else b).2 := by split <;> assumption

theorem Sound.pair_fst {α : Type} {q : List Instr} {a : State} {x : α} (h : Sound q a) : Sound q (a, x).1 := h

theorem Sound.pair_snd {α : Type} {q : List Instr} {a : State} {x : α} (h : Sound q a) : Sound q (x, a).2 := h

theorem Sound.foldl {α : Type} {q : List Instr} {f : State → α → State} {l : List α} {s : State} (h : Sound q s)
    (hf : ∀ t a, Sound q t → Sound q (f t a)) : Sound q (l.foldl f s) := by
  induction l generalizing s with
  | nil => exact h
  | cons a r ih => exact ih (hf s a h)

theorem Sound.foldl_fst {α β : Type} {q : List Instr} {f : State × β → α → State × β} {l : List α} {p : State × β}
    (h : Sound q p.1) (hf : ∀ t a, Sound q t.1 → Sound q (f t a).1) : Sound q (l.foldl f p).1 := by
  induction l generalizing p with
  | nil => exact h
  | cons a r ih => exact ih (hf p a h)

theorem Sound.foldl_snd {α β : Type} {q : List Instr} {f : β × State → α → β × State} {l : List α} {p : β × State}
    (h : Sound q p.2) (hf : ∀ t a, Sound q t.2 → Sound q (f t a).2) : Sound q (l.foldl f p).2 := by
  induction l generalizing p with
  | nil => exact h
  | cons a r ih => exact ih (hf p a h)

/-! ### Results that hold a state -/

/-- The state of a result that may be absent is sound. -/
def OptSound (q : List Instr) : Option State → Prop
  | some s => Sound q s
  | none => True

theorem OptSound.some {q : List Instr} {s : State} (h : Sound q s) : OptSound q (some s) := h
theorem OptSound.none {q : List Instr} : OptSound q none := trivial
theorem OptSound.get {q : List Instr} {o : Option State} {s : State} (h : OptSound q o) (e : o = Option.some s) :
    Sound q s := by
  subst e; exact h
theorem OptSound.of_some {q : List Instr} {o : Option State} {s : State} (e : o = Option.some s) (h : OptSound q o) :
    Sound q s := h.get e
theorem OptSound.ite {q : List Instr} {c : Prop} [Decidable c] {a b : Option State} (ha : OptSound q a)
    (hb : OptSound q b) : OptSound q (if c then a else b) := by split <;> assumption

/-- The next state of an outcome is sound. -/
def OutSound (q : List Instr) : Host.Outcome State Fault Refusal → Prop
  | .next s => Sound q s
  | _ => True

theorem OutSound.next {q : List Instr} {s : State} (h : Sound q s) : OutSound q (.next s) := h
theorem OutSound.ite {q : List Instr} {c : Prop} [Decidable c] {a b : Host.Outcome State Fault Refusal}
    (ha : OutSound q a) (hb : OutSound q b) : OutSound q (if c then a else b) := by split <;> assumption
theorem OutSound.get {q : List Instr} {o : Host.Outcome State Fault Refusal} {s : State} (h : OutSound q o)
    (e : o = .next s) : Sound q s := by subst e; exact h

/-- The state that an instruction's body leaves is sound. -/
def RanSound (q : List Instr) : Ran → Prop
  | .on s => Sound q s
  | .jump s => Sound q s
  | .trap s _ => Sound q s

theorem RanSound.on {q : List Instr} {s : State} (h : Sound q s) : RanSound q (.on s) := h
theorem RanSound.jump {q : List Instr} {s : State} (h : Sound q s) : RanSound q (.jump s) := h
theorem RanSound.trap {q : List Instr} {s : State} {t : Trap} (h : Sound q s) : RanSound q (.trap s t) := h
theorem RanSound.of_on {q : List Instr} {r : Ran} {s : State} (e : r = .on s) (h : RanSound q r) : Sound q s := by
  subst e; exact h
theorem RanSound.of_jump {q : List Instr} {r : Ran} {s : State} (e : r = .jump s) (h : RanSound q r) : Sound q s := by
  subst e; exact h
theorem RanSound.of_trap {q : List Instr} {r : Ran} {s : State} {t : Trap} (e : r = .trap s t) (h : RanSound q r) :
    Sound q s := by
  subst e; exact h
theorem RanSound.ite {q : List Instr} {c : Prop} [Decidable c] {a b : Ran} (ha : RanSound q a) (hb : RanSound q b) :
    RanSound q (if c then a else b) := by split <;> assumption

/-- The state that a load leaves is sound. -/
def LoadSound (q : List Instr) : Load → Prop
  | .got _ s => Sound q s
  | .held s => Sound q s
  | .trap s _ => Sound q s

theorem LoadSound.got {q : List Instr} {b : Bytes} {s : State} (h : Sound q s) : LoadSound q (.got b s) := h
theorem LoadSound.held {q : List Instr} {s : State} (h : Sound q s) : LoadSound q (.held s) := h
theorem LoadSound.trap {q : List Instr} {s : State} {t : Trap} (h : Sound q s) : LoadSound q (.trap s t) := h
theorem LoadSound.of_got {q : List Instr} {r : Load} {b : Bytes} {s : State} (e : r = .got b s) (h : LoadSound q r) :
    Sound q s := by
  subst e; exact h
theorem LoadSound.of_held {q : List Instr} {r : Load} {s : State} (e : r = .held s) (h : LoadSound q r) : Sound q s := by
  subst e; exact h
theorem LoadSound.of_trap {q : List Instr} {r : Load} {s : State} {t : Trap} (e : r = .trap s t) (h : LoadSound q r) :
    Sound q s := by
  subst e; exact h
theorem LoadSound.ite {q : List Instr} {c : Prop} [Decidable c] {a b : Load} (ha : LoadSound q a)
    (hb : LoadSound q b) : LoadSound q (if c then a else b) := by split <;> assumption

/-! ### Memory and registers -/

theorem regsWf_tput {m : List (Nat × Word)} {k : Nat} {w : Word} (h : Safety.regsWf m = true) :
    Safety.regsWf (tput (regReset k) m k w) = true := by
  unfold Safety.regsWf at h ⊢
  simp only [Bool.and_eq_true] at h ⊢
  exact wf_tput (f := regReset) h.1 h.2

theorem regsWf_filter {m : List (Nat × Word)} {p : Nat × Word → Bool} (h : Safety.regsWf m = true) :
    Safety.regsWf (m.filter p) = true := by
  unfold Safety.regsWf at h ⊢
  simp only [Bool.and_eq_true] at h ⊢
  refine ⟨?_, ?_⟩
  · generalize hl : (0 : Nat) = lo at h ⊢
    clear hl
    have h1 := h.1
    clear h
    induction m generalizing lo with
    | nil => rfl
    | cons e r ih =>
      obtain ⟨k, v⟩ := e
      simp only [trising, Bool.and_eq_true, decide_eq_true_eq] at h1
      rw [List.filter_cons]
      split
      · simp only [trising, Bool.and_eq_true, decide_eq_true_eq]
        exact ⟨h1.1, ih _ h1.2⟩
      · exact ih _ (trising_weaken h1.2 (by omega))
  · rw [List.all_eq_true] at h ⊢
    exact fun x hx => h.2 x (List.mem_filter.mp hx).1

theorem setReg_sound {q : List Instr} {s : State} {k : Nat} {w : Word} (h : Sound q s) : Sound q (setReg s k w) :=
  ⟨h.1, regsWf_tput h.2.1, h.2.2⟩

theorem setMemByte_sound {q : List Instr} {s : State} {a : Nat} {b : Byte} (h : Sound q s) :
    Sound q (setMemByte s a b) := ⟨twf_tput h.1, h.2⟩

theorem memWrite_sound {q : List Instr} {s : State} {a : Nat} {b : Bytes} (h : Sound q s) :
    Sound q (memWrite s a b) := by
  induction b generalizing s a with
  | nil => exact h
  | cons x r ih => exact ih (setMemByte_sound h)

/-! ### Program counters -/

theorem aligned4_alignPc (w : Word) : Safety.aligned4 (alignPc w) = true := by
  unfold Safety.aligned4 alignPc
  rw [BitVec.and_assoc]
  simp

theorem aligned4_add {w v : Word} (h : Safety.aligned4 w = true) (hv : Safety.aligned4 v = true) :
    Safety.aligned4 (w + v) = true := by
  unfold Safety.aligned4 at h hv ⊢
  simp only [beq_iff_eq] at h hv ⊢
  have e : ∀ x : Word, (x &&& 3#32 = 0#32) ↔ x.toNat % 4 = 0 := by
    intro x
    rw [← BitVec.toNat_inj, BitVec.toNat_and]
    exact Iff.of_eq (congrArg (· = 0) (Nat.and_two_pow_sub_one_eq_mod x.toNat 2))
  rw [e] at h hv ⊢
  rw [BitVec.toNat_add]
  omega

theorem aligned4_iff (w : Word) : Safety.aligned4 w = true ↔ w.toNat % 4 = 0 := by
  unfold Safety.aligned4
  rw [beq_iff_eq, ← BitVec.toNat_inj, BitVec.toNat_and]
  exact Iff.of_eq (congrArg (· = 0) (Nat.and_two_pow_sub_one_eq_mod w.toNat 2))

theorem aligned4_ofNat {n : Nat} (h : n % 4 = 0) : Safety.aligned4 (BitVec.ofNat 32 n) = true := by
  rw [aligned4_iff, BitVec.toNat_ofNat]
  omega

theorem aligned4_branchTarget {pc : Word} {off : Int} (h : Safety.aligned4 pc = true) :
    Safety.aligned4 (branchTarget pc off) = true := by
  refine aligned4_add (aligned4_add h (by decide)) ?_
  rw [aligned4_iff, BitVec.toNat_ofInt]
  omega

theorem all_tput {α : Type} [DecidableEq α] {d : α} {m : List (Nat × α)} {p : Nat × α → Bool} {k : Nat} {v : α}
    (h : m.all p = true) (hv : p (k, v) = true) : (tput d m k v).all p = true := by
  unfold tput
  split
  · exact all_terase h
  · exact all_tinsert h hv

theorem postsWf_tput {m : List (Nat × Post)} {p : Nat} {x : Post} (h : Safety.postsWf m = true)
    (hx : Safety.postAligned x = true) : Safety.postsWf (tput (Post.reset p) m p x) = true := by
  unfold Safety.postsWf at h ⊢
  simp only [Bool.and_eq_true] at h ⊢
  refine ⟨?_, all_tput h.2 hx⟩
  unfold tput
  split
  · exact trising_terase h.1
  · exact trising_tinsert x h.1 (Nat.zero_le p)

theorem postsWf_rising {m : List (Nat × Post)} (h : Safety.postsWf m = true) : trising 0 m = true := by
  unfold Safety.postsWf at h
  simp only [Bool.and_eq_true] at h
  exact h.1

theorem setPost_sound {q : List Instr} {s : State} {p : Nat} {x : Post} (h : Sound q s)
    (hx : Safety.postAligned x = true) : Sound q (setPost s p x) :=
  ⟨h.1, h.2.1, postsWf_tput h.2.2.1 hx, h.2.2.2⟩

theorem tget_all {α : Type} {d : α} {m : List (Nat × α)} {p : α → Bool} {k : Nat}
    (h : m.all (fun e => p e.2) = true) (hd : p d = true) : p (tget d m k) = true := by
  induction m with
  | nil => exact hd
  | cons e r ih =>
    obtain ⟨k', v'⟩ := e
    simp only [List.all_cons, Bool.and_eq_true] at h
    unfold tget
    split
    · exact h.1
    · exact ih h.2

theorem postAligned_reset (p : Nat) : Safety.postAligned (Post.reset p) = true := by
  simp [Safety.postAligned, Safety.delayAligned, Post.reset, Safety.aligned4]

theorem getPost_aligned {q : List Instr} {s : State} {p : Nat} (h : Sound q s) :
    Safety.postAligned (getPost s p) = true := by
  have h1 := h.2.2.1
  unfold Safety.postsWf at h1
  simp only [Bool.and_eq_true] at h1
  exact tget_all h1.2 (postAligned_reset p)

/-- Only the program counter and the waiting branch count for a post's alignment. -/
theorem postAligned_of {x y : Post} (h : Safety.postAligned x = true) (hp : y.pc = x.pc) (hd : y.delay = x.delay) :
    Safety.postAligned y = true := by
  unfold Safety.postAligned at h ⊢
  rw [hp, hd]
  exact h

theorem postAligned_pc {x : Post} (h : Safety.postAligned x = true) : Safety.aligned4 x.pc = true := by
  unfold Safety.postAligned at h
  simp only [Bool.and_eq_true] at h
  exact h.1

theorem postAligned_delay {x : Post} (h : Safety.postAligned x = true) : Safety.delayAligned x.delay = true := by
  unfold Safety.postAligned at h
  simp only [Bool.and_eq_true] at h
  exact h.2

theorem postAligned_mk {x : Post} (h : Safety.aligned4 x.pc = true) (hd : Safety.delayAligned x.delay = true) :
    Safety.postAligned x = true := by
  unfold Safety.postAligned
  rw [h, hd]
  rfl

/-- A post without a waiting branch is aligned where its program counter is. -/
theorem postAligned_none {x : Post} (h : Safety.aligned4 x.pc = true) (hd : x.delay = none) :
    Safety.postAligned x = true := by
  unfold Safety.postAligned
  rw [hd, h]
  rfl

/-! ### What does not move a program counter -/

@[simp] theorem Post.setG_pc (x : Post) (r : Nat) (w : Word) : (x.setG r w).pc = x.pc := by
  unfold Post.setG; split <;> rfl
@[simp] theorem Post.setG_delay (x : Post) (r : Nat) (w : Word) : (x.setG r w).delay = x.delay := by
  unfold Post.setG; split <;> rfl
@[simp] theorem Post.setT_pc (x : Post) (n : Nat) (t : Tenon) : (x.setT n t).pc = x.pc := rfl
@[simp] theorem Post.setT_delay (x : Post) (n : Nat) (t : Tenon) : (x.setT n t).delay = x.delay := rfl
@[simp] theorem usable_pc (x : Post) (r c n : Nat) : (usable x r c n).pc = x.pc := rfl
@[simp] theorem usable_delay (x : Post) (r c n : Nat) : (usable x r c n).delay = x.delay := rfl
@[simp] theorem spend_pc (x : Post) (n : Nat) : (spend x n).pc = x.pc := rfl
@[simp] theorem spend_delay (x : Post) (n : Nat) : (spend x n).delay = x.delay := rfl
@[simp] theorem submitted_pc (x : Post) (r n : Nat) (a : RingAsk) (t : Nat) : (submitted x r n a t).pc = x.pc := rfl
@[simp] theorem submitted_delay (x : Post) (r n : Nat) (a : RingAsk) (t : Nat) : (submitted x r n a t).delay = x.delay := rfl
@[simp] theorem afterStores_pc (x : Post) (g : Nat) : (afterStores x g).pc = x.pc := by
  unfold afterStores; split <;> rfl
@[simp] theorem afterStores_delay (x : Post) (g : Nat) : (afterStores x g).delay = x.delay := by
  unfold afterStores; split <;> rfl

theorem postAligned_cleared {x : Post} (h : Safety.postAligned x = true) : Safety.postAligned (clearedPost x) = true := by
  have hp := postAligned_pc h
  exact postAligned_mk hp rfl

theorem postAligned_dispatch {x : Post} (h : Safety.postAligned x = true) :
    Safety.postAligned (dispatchPost x) = true := by
  have hd := postAligned_delay h
  exact postAligned_mk (aligned4_alignPc _) hd

/-- A code tenon's cursor is aligned (R341). -/
theorem code_cursor {t : Tenon} (h : t.code = true) : t.cursor % 4 = 0 := by
  unfold Tenon.code at h
  simp only [Bool.and_eq_true, beq_iff_eq] at h
  exact h.1.1.2

end Sys2Proof.Machine
end

