-- ==== Sys2Proof/Laws/Posts.lean ====
section
/-!
SUPPORT. Laws of the posts: registers after a write, a fetch that raises nothing, and an instruction that runs.
-/
namespace Sys2Proof.Machine
open Sys2Proof

/-! ### General and tenon registers -/

/-- A general register after a write: `g0` keeps reading as zero. -/
theorem getG_setG (x : Post) (rd r : Nat) (w : Word) :
    (x.setG rd w).getG r = if r % 32 = rd % 32 ∧ rd % 32 ≠ 0 then w else x.getG r := by
  unfold Post.getG Post.setG
  by_cases h0 : rd % 32 = 0
  · simp [h0]
  · by_cases h : r % 32 = rd % 32
    · simp [h, h0]
    · by_cases h1 : r % 32 = 0
      · simp [h1, h0, Ne.symm h0]
      · simp [h, h0, h1, tget_tput_other _ _ _ h]

/-- A tenon register after a write. -/
theorem getT_setT (x : Post) (n m : Nat) (t : Tenon) :
    (x.setT n t).getT m = if m % 16 = n % 16 then t else x.getT m := by
  unfold Post.getT Post.setT
  by_cases h : m % 16 = n % 16
  · simp [h]
  · simp [h, tget_tput_other _ _ _ h]

/-- A write of a general register changes general registers alone. -/
theorem setG_eq (x : Post) (r : Nat) (w : Word) : x.setG r w = { x with g := (x.setG r w).g } := by
  unfold Post.setG
  split <;> rfl

/-! ### Accesses -/

/-- An allowed access changes nothing. -/
theorem access_allow {s : State} {i a : Nat} {k : Acc} (h : gateCheck s s.gates.live i a k = .allow) :
    access s i a k = (true, s) := by
  simp [access, h]

theorem access_fst {s : State} {i a : Nat} {k : Acc} (h : (access s i a k).1 = true) : (access s i a k).2 = s := by
  unfold access at h ⊢
  simp only at h ⊢
  split at h
  · rename_i h1
    simp [h1]
  · simp at h

/-! ### Fetch and issue -/

/-- The post once its fetch is done and its sources are ready. -/
def readyPost (s : State) (p : Nat) (srcs : List Nat) : Post :=
  let x := getPost s p
  let y := { x with cyc := x.cyc + (fetchTime x p x.pc.toNat - 1), granule := some (x.pc.toNat / 64), issued := true }
  { y with cyc := sourcesReady y srcs }

theorem fetchPost_ok {s : State} {p : Nat} (h : (fetchPost s p).1 = none) :
    (fetchPost s p).2 = setPost s p { getPost s p with
      cyc := (getPost s p).cyc + (fetchTime (getPost s p) p (getPost s p).pc.toNat - 1)
      granule := some ((getPost s p).pc.toNat / 64), issued := true } := by
  unfold fetchPost at h ⊢
  simp only at h ⊢
  split at h
  · simp at h
  · rename_i h1
    simp only [h1]
    split at h
    · simp at h
    · rename_i h2
      rw [if_neg h2]
      simp only [Bool.or_eq_true, not_or, Bool.not_eq_true, Bool.not_eq_false'] at h2
      simp [access_fst h2.1]

/-- A source's readiness never brings the issue forward. -/
theorem sourcesReady_le (x : Post) (srcs : List Nat) : x.cyc ≤ sourcesReady x srcs := by
  unfold sourcesReady
  generalize x.ready = l
  generalize x.cyc = c
  induction l generalizing c with
  | nil => simp
  | cons e r ih =>
    simp only [List.foldl_cons]
    exact Nat.le_trans (by split <;> omega) (ih _)

theorem readyPost_cyc (s : State) (p : Nat) (srcs : List Nat) : (getPost s p).cyc ≤ (readyPost s p srcs).cyc :=
  Nat.le_trans (Nat.le_add_right _ (fetchTime (getPost s p) p (getPost s p).pc.toNat - 1)) (sourcesReady_le { getPost s p with
    cyc := (getPost s p).cyc + (fetchTime (getPost s p) p (getPost s p).pc.toNat - 1)
    granule := some ((getPost s p).pc.toNat / 64), issued := true } srcs)

/-- An instruction that the post issues runs its body on the post at its issue. -/
theorem runPost_ok {s : State} {p : Nat} {ok : Bool} {srcs : List Nat} {body : State → Ran} (hi : Safety.Inv s)
    (h1 : postServes s p = true) (h2 : (fetchPost s p).1 = none) (h3 : (getPost s p).delay.isSome = true → ok = true) :
    runPost p ok srcs body s = match body (setPost s p (readyPost s p srcs)) with
      | .on s1 => retire s1 p (getPost s p).delay
      | .jump s1 => s1
      | .trap s1 t => takeException s1 p (match (getPost s p).delay with
          | some d => d.at_
          | none => (getPost s p).pc) t := by
  have hr := postsWf_rising hi.posts
  have e : setPost (fetchPost s p).2 p { getPost (fetchPost s p).2 p with
      cyc := sourcesReady (getPost (fetchPost s p).2 p) srcs } = setPost s p (readyPost s p srcs) := by
    rw [fetchPost_ok h2]
    simp [setPost_setPost _ _ hr, readyPost]
  unfold runPost
  simp only [h1, h2, e]
  have h4 : ((getPost s p).delay.isSome && !ok) = false := by
    cases hd : (getPost s p).delay <;> simp_all
  simp [h4]
  all_goals rfl

end Sys2Proof.Machine
end

