-- ==== Sys2Proof/Laws/SoundOps.lean ====
section
/-!
SUPPORT. Soundness (Laws/Sound.lean) is kept by each operation of the shared operations, the key store, the data-path commands and the gates.
-/
namespace Sys2Proof.Machine
open Sys2Proof

/-! ### Ops -/

theorem confirmHost_sound {q : List Instr} {s : State} {b n : Nat} (hs : Sound q s) :
    Sound q (confirmHost s b n) := by
  delta confirmHost
  exact Sound.mk (Good.of hs)

theorem setF_sound {q : List Instr} {s : State} {f : Fld} {v : Nat} (hs : Sound q s) :
    Sound q (setF s f v) := by
  delta setF
  exact setReg_sound hs

theorem countF_sound {q : List Instr} {s : State} {f : Fld} {n : Nat} (hs : Sound q s) :
    Sound q (countF s f n) := by
  delta countF
  exact setF_sound hs

theorem countPiece_sound {q : List Instr} {s : State} {e kind n : Nat} (hs : Sound q s) :
    Sound q (countPiece s e kind n) := by
  delta countPiece
  exact Sound.mk (Good.of hs)

theorem countReg_sound {q : List Instr} {s : State} {key n : Nat} (hs : Sound q s) :
    Sound q (countReg s key n) := by
  delta countReg
  exact setReg_sound hs

theorem drawBytes_sound {q : List Instr} {n : Nat} {s : State} (hs : Sound q s) :
    Sound q (drawBytes n s).2 := by
  delta drawBytes
  exact Sound.pair_snd (Sound.mk (Good.of hs))

theorem drawBelow_sound {q : List Instr} {b : Nat} {s : State} (hs : Sound q s) :
    Sound q (drawBelow b s).2 := by
  delta drawBelow
  exact Sound.pair_snd (drawBytes_sound hs)

theorem dropCtx_sound {q : List Instr} {s : State} {n : Nat} (hs : Sound q s) :
    Sound q (dropCtx s n) := by
  delta dropCtx
  exact Sound.mk (Good.of hs)

theorem emit_sound {q : List Instr} {s : State} {o : Out} (hs : Sound q s) :
    Sound q (emit s o) := by
  delta emit
  exact Sound.mk (Good.of hs)

theorem inKerf_sound {q : List Instr} {f : State → State} {s : State} (hf : ∀ y0, Sound q y0 → Sound q (f y0)) (hs :
    Sound q s) :
    Sound q (inKerf f s) := by
  delta inKerf
  exact Sound.ite hs (Sound.mk (Good.of (hf _ (Sound.mk (Good.of hs)))))

theorem setSlice_sound {q : List Instr} {s : State} {n : Nat} {x : Slice} (hs : Sound q s) :
    Sound q (setSlice s n x) := by
  delta setSlice
  exact Sound.mk (Good.of hs)

theorem logWrite_sound {q : List Instr} {s : State} {slice l : Nat} {pas : Option Nat} {addr len : Nat} (hs : Sound
    q s) :
    Sound q (logWrite s slice l pas addr len) := by
  delta logWrite
  extract_lets +onlyGivenNames -merge -useContext -underBinder x_0
  clear_value x_0
  split
  · exact hs
  · exact Sound.foldl (setSlice_sound hs) fun _ _ h_1 => emit_sound h_1

theorem orReg_sound {q : List Instr} {s : State} {key n : Nat} (hs : Sound q s) :
    Sound q (orReg s key n) := by
  delta orReg
  exact setReg_sound hs

theorem ownPurlin_sound {q : List Instr} {s : State} (hs : Sound q s) :
    Sound q (ownPurlin s) := by
  delta ownPurlin
  exact Sound.mk (Good.of hs)

theorem sendHost_sound {q : List Instr} {s : State} {slice : Nat} {pas : Option Nat} {addr : Nat} {bytes : Bytes}
    (hs : Sound q s) :
    Sound q (sendHost s slice pas addr bytes) := by
  delta sendHost
  exact Sound.foldl (emit_sound hs) fun _ _ h_0 => logWrite_sound h_0

theorem sentByBent_sound {q : List Instr} {s : State} {b : Nat} (hs : Sound q s) :
    Sound q (sentByBent s b) := by
  delta sentByBent
  exact Sound.mk (Good.of hs)

theorem setChain_sound {q : List Instr} {s : State} {n : Nat} {c : Chain} (hs : Sound q s) :
    Sound q (setChain s n c) := by
  delta setChain
  exact Sound.mk (Good.of hs)

theorem setCtx_sound {q : List Instr} {s : State} {n : Nat} {c : Ctx} (hs : Sound q s) :
    Sound q (setCtx s n c) := by
  delta setCtx
  exact Sound.mk (Good.of hs)

theorem setFlag_sound {q : List Instr} {s : State} {f : Fld} {b : Bool} (hs : Sound q s) :
    Sound q (setFlag s f b) := by
  delta setFlag
  exact setF_sound hs

theorem setKey_sound {q : List Instr} {s : State} {n : Nat} {k : KeySlot} (hs : Sound q s) :
    Sound q (setKey s n k) := by
  delta setKey
  exact Sound.mk (Good.of hs)

theorem setQueue_sound {q : List Instr} {s : State} {slice queue : Nat} {x1 : Queue} (hs : Sound q s) :
    Sound q (setQueue s slice queue x1) := by
  delta setQueue
  exact Sound.mk (Good.of hs)

theorem shortPieces_sound {q : List Instr} {s : State} {k : Nat} (hs : Sound q s) :
    Sound q (shortPieces s k) := by
  delta shortPieces
  exact Sound.ite hs (setFlag_sound (countF_sound hs))

theorem useIn_sound {q : List Instr} {s : State} {gid n : Nat} (hs : Sound q s) :
    Sound q (useIn s gid n) := by
  delta useIn
  exact Sound.mk (Good.of hs)

theorem useOut_sound {q : List Instr} {s : State} {gid n : Nat} (hs : Sound q s) :
    Sound q (useOut s gid n) := by
  delta useOut
  exact Sound.mk (Good.of hs)

/-! ### Overlock -/

theorem drawSram_sound {q : List Instr} {s : State} (hs : Sound q s) :
    Sound q (drawSram s) := by
  delta drawSram
  exact Sound.ite hs (Sound.mk (Good.of (drawBytes_sound hs)))

theorem zeroiseSram_sound {q : List Instr} {s : State} (hs : Sound q s) : Sound q (zeroiseSram s) :=
  ⟨by show Memory.wf [] = true; rfl, hs.2⟩

/-! ### Drbg -/

theorem childSync_sound {q : List Instr} {s : State} (hs : Sound q s) :
    Sound q (childSync s) := by
  delta childSync
  exact setF_sound hs

theorem drawFrom_sound {q : List Instr} {who n : Nat} {s : State} (hs : Sound q s) :
    Sound q (drawFrom who n s).2 := by
  delta drawFrom
  split
  · exact drawBytes_sound hs
  · exact Sound.pair_snd (Sound.mk (Good.of hs))

theorem drawBelowFrom_sound {q : List Instr} {who b : Nat} {s : State} (hs : Sound q s) :
    Sound q (drawBelowFrom who b s).2 := by
  delta drawBelowFrom
  exact Sound.pair_snd (drawFrom_sound hs)

/-! ### KeyOps -/

theorem activateKey_sound {q : List Instr} {s : State} {x1 : Nat} (hs : Sound q s) :
    Sound q (activateKey s x1) := by
  delta activateKey
  exact Sound.foldl hs fun _ _ h_0 => setKey_sound h_0

theorem bootGens_sound {q : List Instr} {s : State} (hs : Sound q s) :
    Sound q (bootGens s) := by
  delta bootGens
  exact Sound.mk (Good.of hs)

theorem deductKey_sound {q : List Instr} {s : State} {n d : Nat} (hs : Sound q s) :
    Sound q (deductKey s n d) := by
  delta deductKey
  exact Sound.ite hs (setKey_sound hs)

theorem stopRecord_sound {q : List Instr} {s : State} {n : Nat} (hs : Sound q s) :
    Sound q (stopRecord s n) := by
  delta stopRecord
  exact Sound.mk (Good.of hs)

theorem dropRecord_sound {q : List Instr} {s : State} {n : Nat} (hs : Sound q s) :
    Sound q (dropRecord s n) := by
  delta dropRecord
  exact stopRecord_sound (Sound.mk (Good.of hs))

theorem emptySlot_sound {q : List Instr} {s : State} {n : Nat} (hs : Sound q s) :
    Sound q (emptySlot s n) := by
  delta emptySlot
  exact Sound.mk (Good.of (setKey_sound hs))

theorem emptyKey_sound {q : List Instr} {s : State} {n : Nat} (hs : Sound q s) :
    Sound q (emptyKey s n) := by
  delta emptyKey
  exact Sound.foldl hs fun _ _ h_0 => emptySlot_sound h_0

theorem endKey_sound {q : List Instr} {s : State} {n : Nat} {st : KeySt} (hs : Sound q s) :
    Sound q (endKey s n st) := by
  delta endKey
  exact setKey_sound hs

theorem fillKey_sound {q : List Instr} {s : State} {x1 : Nat} {material : Bytes} {budget : Nat} (hs : Sound q s) :
    Sound q (fillKey s x1 material budget) := by
  delta fillKey
  exact setKey_sound hs

theorem retireKey_sound {q : List Instr} {s : State} {n : Nat} (hs : Sound q s) :
    Sound q (retireKey s n) := by
  delta retireKey
  exact Sound.ite (stopRecord_sound (endKey_sound hs)) hs

theorem retireBelow_sound {q : List Instr} {fuel : Nat} {s : State} {ns : List Nat} (hs : Sound q s) :
    Sound q (retireBelow fuel s ns) := by
  induction fuel generalizing s ns with
  | zero => exact hs
  | succ n ih =>
    rw [retireBelow]
    exact Sound.ite hs (ih (Sound.foldl hs fun _ _ h => retireKey_sound h))

theorem killKey_sound {q : List Instr} {s : State} {n : Nat} (hs : Sound q s) :
    Sound q (killKey s n) := by
  delta killKey
  exact retireBelow_sound (Sound.ite (setFlag_sound (Sound.mk (Good.of (stopRecord_sound (endKey_sound hs)))))
      (Sound.mk (Good.of (stopRecord_sound (endKey_sound hs)))))

theorem loadSlots_sound {q : List Instr} {s : State} {x1 n slice level parent attr typ : Nat} (hs : Sound q s) :
    Sound q (loadSlots s x1 n slice level parent attr typ) := by
  delta loadSlots
  exact Sound.mk (Good.of (Sound.ite (setFlag_sound (Sound.foldl hs fun _ _ h_0 => setKey_sound h_0)) (Sound.foldl
      hs fun _ _ h_0 => setKey_sound h_0)))

theorem refundKey_sound {q : List Instr} {s : State} {n d : Nat} (hs : Sound q s) :
    Sound q (refundKey s n d) := by
  delta refundKey
  exact Sound.ite hs (Sound.ite hs (setKey_sound hs))

theorem zeroiseSlot_sound {q : List Instr} {s : State} {n : Nat} (hs : Sound q s) :
    Sound q (zeroiseSlot s n) := by
  delta zeroiseSlot
  exact Sound.ite (Sound.ite (dropRecord_sound (emptyKey_sound hs)) (stopRecord_sound (emptyKey_sound hs))) hs

theorem zeroiseStore_sound {q : List Instr} {s : State} (hs : Sound q s) :
    Sound q (zeroiseStore s) := by
  delta zeroiseStore
  exact Sound.mk (Good.of hs)

/-! ### Faults -/

theorem event_sound {q : List Instr} {s : State} {f : Fld} (hs : Sound q s) :
    Sound q (event s f) := by
  delta event
  exact setFlag_sound hs

theorem blockRecord_sound {q : List Instr} {s : State} {src : Nat} (hs : Sound q s) :
    Sound q (blockRecord s src) := by
  delta blockRecord
  extract_lets +onlyGivenNames -merge -useContext -underBinder u_0
  clear_value u_0
  refine Sound.ite ?_ ?_
  · exact event_sound (orReg_sound hs)
  · refine Sound.ite ?_ ?_
    · exact event_sound (orReg_sound hs)
    · exact Sound.ite (event_sound (orReg_sound hs)) (Sound.ite (event_sound (orReg_sound hs)) (Sound.ite
        (event_sound (orReg_sound hs)) (Sound.ite (event_sound (orReg_sound hs)) (Sound.ite (event_sound
        (orReg_sound hs)) (Sound.ite (event_sound (orReg_sound hs)) (Sound.ite (event_sound (orReg_sound hs))
        (Sound.ite (event_sound hs) hs)))))))

theorem captureFirst_sound {q : List Instr} {s : State} {f : Firing} (hs : Sound q s) :
    Sound q (captureFirst s f) := by
  delta captureFirst
  split
  · exact Sound.mk (Good.of hs)
  · exact Sound.ite (Sound.mk (Good.of (countF_sound (setFlag_sound (Sound.ite hs (event_sound hs))))))
      (countF_sound (setFlag_sound (Sound.ite hs (event_sound hs))))

theorem captureRing_sound {q : List Instr} {s : State} {f : Firing} (hs : Sound q s) :
    Sound q (captureRing s f) := by
  delta captureRing
  exact Sound.ite (setF_sound (setF_sound (Sound.ite (event_sound (countF_sound (Sound.mk (Good.of hs)))) (Sound.mk
      (Good.of hs))))) hs

theorem captureSlice_sound {q : List Instr} {s : State} {f : Firing} (hs : Sound q s) :
    Sound q (captureSlice s f) := by
  delta captureSlice
  split
  · exact hs
  · exact Sound.mk (Good.of hs)

theorem clearPending_sound {q : List Instr} {s : State} {src : Nat} (hs : Sound q s) :
    Sound q (clearPending s src) := by
  delta clearPending
  exact setFlag_sound (Sound.mk (Good.of (setReg_sound hs)))

theorem setPending_sound {q : List Instr} {s : State} {src : Nat} (hs : Sound q s) :
    Sound q (setPending s src) := by
  delta setPending
  exact setFlag_sound (orReg_sound hs)

theorem fireLevel_sound {q : List Instr} {s : State} {x1 : FireArgs} {cycle level : Nat} (hs : Sound q s) :
    Sound q (fireLevel s x1 cycle level) := by
  delta fireLevel
  split
  · exact hs
  · exact Sound.mk (Good.of (blockRecord_sound (captureSlice_sound (captureRing_sound (captureFirst_sound
      (event_sound (countF_sound (orReg_sound (setPending_sound hs)))))))))

theorem fireAt_sound {q : List Instr} {s : State} {x1 : FireArgs} {cycle : Nat} (hs : Sound q s) :
    Sound q (fireAt s x1 cycle) := by
  delta fireAt
  exact fireLevel_sound hs

theorem fire_sound {q : List Instr} {s : State} {x1 : FireArgs} (hs : Sound q s) :
    Sound q (fire s x1) := by
  delta fire
  exact fireAt_sound (drawBelow_sound hs)

theorem firePlain_sound {q : List Instr} {s : State} {src : Nat} {slice : Option Nat} (hs : Sound q s) :
    Sound q (firePlain s src slice) := by
  delta firePlain
  exact fire_sound hs

theorem haltUnit_sound {q : List Instr} {s : State} {src : Nat} (hs : Sound q s) :
    Sound q (haltUnit s src) := by
  delta haltUnit
  extract_lets +onlyGivenNames -merge -useContext -underBinder u_0
  clear_value u_0
  split
  · exact hs
  · split
    · exact hs
    · exact hs
    · exact setF_sound (orReg_sound hs)
    · exact setF_sound hs
    · exact setF_sound hs
    · exact setF_sound hs
    · exact event_sound (setF_sound hs)
    · exact setFlag_sound hs
    · exact Sound.mk (Good.of hs)
    · exact Sound.mk (Good.of hs)
    · exact Sound.mk (Good.of hs)

theorem linkError_sound {q : List Instr} {s : State} (hs : Sound q s) :
    Sound q (linkError s) := by
  delta linkError
  exact firePlain_sound (event_sound (countF_sound hs))

theorem setMsixWord_sound {q : List Instr} {s : State} {slice off : Nat} {w : Word} (hs : Sound q s) :
    Sound q (setMsixWord s slice off w) := by
  delta setMsixWord
  exact Sound.mk (Good.of hs)

theorem msixUnmask_sound {q : List Instr} {s : State} {slice vec : Nat} (hs : Sound q s) :
    Sound q (msixUnmask s slice vec) := by
  delta msixUnmask
  exact Sound.ite (emit_sound (Sound.mk (Good.of (setMsixWord_sound hs)))) (setMsixWord_sound hs)

theorem raiseLine_sound {q : List Instr} {s : State} {post line : Nat} (hs : Sound q s) :
    Sound q (raiseLine s post line) := by
  delta raiseLine
  exact orReg_sound hs

theorem raiseMgmt_sound {q : List Instr} {s : State} {line : Nat} (hs : Sound q s) :
    Sound q (raiseMgmt s line) := by
  delta raiseMgmt
  exact raiseLine_sound (raiseLine_sound hs)

theorem raiseMsix_sound {q : List Instr} {s : State} {slice vec : Nat} (hs : Sound q s) :
    Sound q (raiseMsix s slice vec) := by
  delta raiseMsix
  exact Sound.ite (Sound.mk (Good.of hs)) (emit_sound hs)

theorem rearm_sound {q : List Instr} {s : State} (hs : Sound q s) :
    Sound q (rearm s) := by
  delta rearm
  exact setFlag_sound (Sound.mk (Good.of hs))

/-! ### Plan -/

theorem setPlan_sound {q : List Instr} {s : State} {gid cls : Nat} {p : Plan} (hs : Sound q s) :
    Sound q (setPlan s gid cls p) := by
  delta setPlan
  exact Sound.mk (Good.of hs)

/-! ### Admit -/

theorem enterCtx_sound {q : List Instr} {s : State} {n : Nat} {f : Fetched} {c : Ctx} (hs : Sound q s) :
    Sound q (enterCtx s n f c) := by
  delta enterCtx
  exact Sound.mk (Good.of (setCtx_sound hs))

theorem admitAdmin_sound {q : List Instr} {n : Nat} {s : State} (hs : Sound q s) :
    Sound q (admitAdmin n s) := by
  induction n generalizing s with
  | zero => exact hs
  | succ n ih =>
    rw [admitAdmin]
    split
    · exact hs
    · split
      · exact hs
      · exact Sound.ite (ih (enterCtx_sound hs)) (Sound.ite hs (ih (enterCtx_sound hs)))

theorem deductAll_sound {q : List Instr} {s : State} {e : Bytes} (hs : Sound q s) :
    Sound q (deductAll s e).1 := by
  delta deductAll
  exact Sound.pair_fst (Sound.ite (deductKey_sound (Sound.ite (deductKey_sound hs) hs)) (Sound.ite (deductKey_sound
      hs) hs))

theorem admitEffects_sound {q : List Instr} {s : State} {c : Ctx} (hs : Sound q s) :
    Sound q (admitEffects s c).1 := by
  delta admitEffects
  extract_lets +onlyGivenNames -merge -useContext -underBinder e_0
  clear_value e_0
  extract_lets +onlyGivenNames -merge -useContext -underBinder d_1
  have hd_1 : Sound q d_1.1 := by
    unfold d_1
    exact deductAll_sound hs
  clear_value d_1
  extract_lets +onlyGivenNames -merge -useContext -underBinder s1_2
  have hs1_2 : Sound q s1_2 := by
    unfold s1_2
    exact hd_1
  clear_value s1_2
  extract_lets +onlyGivenNames -merge -useContext -underBinder c1_3
  clear_value c1_3
  extract_lets +onlyGivenNames -merge -useContext -underBinder r2_4
  have hr2_4 : Sound q r2_4.1 := by
    unfold r2_4
    refine Sound.ite_fst ?_ ?_
    · split
      · exact Sound.pair_fst hs1_2
      · exact Sound.pair_fst (loadSlots_sound hs1_2)
    · exact Sound.pair_fst hs1_2
  clear_value r2_4
  extract_lets +onlyGivenNames -merge -useContext -underBinder r3_5
  have hr3_5 : Sound q r3_5.1 := by
    unfold r3_5
    split
    · exact hr2_4
    · exact Sound.pair_fst (Sound.mk (Good.of hr2_4))
  clear_value r3_5
  exact Sound.pair_fst (Sound.ite_fst (Sound.pair_fst (killKey_sound (Sound.ite_fst (Sound.pair_fst
      (drawBelowFrom_sound hr3_5)) hr3_5))) (Sound.ite_fst (Sound.pair_fst (drawBelowFrom_sound hr3_5)) hr3_5))

theorem takePath_sound {q : List Instr} {s : State} {slice g now : Nat} {i : OpInfo} {p : Placement} (hs : Sound q
    s) :
    Sound q (takePath s slice g now i p) := by
  delta takePath
  extract_lets +onlyGivenNames -merge -useContext -underBinder gid_0
  clear_value gid_0
  extract_lets +onlyGivenNames -merge -useContext -underBinder bump_1
  have hbump_1 : ∀ y0 y1, Sound q y0 → Sound q (bump_1 y0 y1) := by
    intro y0 y1 h_2
    unfold bump_1
    exact Sound.mk (Good.of h_2)
  clear_value bump_1
  exact Sound.ite (Sound.ite (Sound.ite (hbump_1 _ _ (hbump_1 _ _ hs)) hs) (Sound.mk (Good.of (Sound.ite (hbump_1 _
      _ (hbump_1 _ _ hs)) hs)))) (Sound.mk (Good.of (Sound.ite (Sound.ite (hbump_1 _ _ (hbump_1 _ _ hs)) hs)
      (Sound.mk (Good.of (Sound.ite (hbump_1 _ _ (hbump_1 _ _ hs)) hs))))))

theorem admitOne_sound {q : List Instr} {s : State} {g : Nat} {f : Fetched} (hs : Sound q s) :
    OptSound q (admitOne s g f) := by
  delta admitOne
  extract_lets +onlyGivenNames -merge -useContext -underBinder now_0
  clear_value now_0
  extract_lets +onlyGivenNames -merge -useContext -underBinder slice_1
  clear_value slice_1
  extract_lets +onlyGivenNames -merge -useContext -underBinder gid_2
  clear_value gid_2
  split
  · refine OptSound.ite ?_ ?_
    · exact OptSound.none
    · extract_lets +onlyGivenNames -merge -useContext -underBinder bad_3
      clear_value bad_3
      refine OptSound.ite ?_ ?_
      · exact OptSound.some (enterCtx_sound hs)
      · split
        · exact OptSound.none
        · split
          · exact OptSound.none
          · extract_lets +onlyGivenNames -merge -useContext -underBinder status_4
            clear_value status_4
            extract_lets +onlyGivenNames -merge -useContext -underBinder fence_5
            clear_value fence_5
            refine OptSound.ite ?_ ?_
            · exact OptSound.none
            · extract_lets +onlyGivenNames -merge -useContext -underBinder nk_6
              clear_value nk_6
              extract_lets +onlyGivenNames -merge -useContext -underBinder _7
              clear_value _7
              extract_lets +onlyGivenNames -merge -useContext -underBinder c_8
              clear_value c_8
              extract_lets +onlyGivenNames -merge -useContext -underBinder r_9
              have hr_9 : Sound q r_9.1 := by
                unfold r_9
                exact Sound.ite_fst (admitEffects_sound hs) (Sound.pair_fst hs)
              clear_value r_9
              exact OptSound.some (Sound.ite (Sound.mk (Good.of (Sound.ite (enterCtx_sound hr_9) (setPlan_sound
                  (takePath_sound (enterCtx_sound hr_9)))))) (Sound.ite (enterCtx_sound hr_9) (setPlan_sound
                  (takePath_sound (enterCtx_sound hr_9)))))
  · exact OptSound.none

theorem admitGroup_sound {q : List Instr} {n : Nat} {s : State} {slice g : Nat} (hs : Sound q s) :
    Sound q (admitGroup n s slice g) := by
  induction n generalizing s with
  | zero => exact hs
  | succ n ih =>
    rw [admitGroup]
    split
    · exact hs
    · split
      · exact hs
      · rename_i s1 e
        exact ih (Sound.mk (Good.of ((admitOne_sound hs).get e)))

theorem startFence_sound {q : List Instr} {s : State} (hs : Sound q s) :
    Sound q (startFence s) := by
  delta startFence
  split
  · exact hs
  · refine Sound.ite ?_ ?_
    · exact hs
    · extract_lets +onlyGivenNames -merge -useContext -underBinder k_0
      clear_value k_0
      extract_lets +onlyGivenNames -merge -useContext -underBinder d_1
      clear_value d_1
      extract_lets +onlyGivenNames -merge -useContext -underBinder l_2
      clear_value l_2
      extract_lets +onlyGivenNames -merge -useContext -underBinder _3
      clear_value _3
      extract_lets +onlyGivenNames -merge -useContext -underBinder s1_4
      have hs1_4 : Sound q s1_4 := by
        unfold s1_4
        exact Sound.mk (Good.of hs)
      clear_value s1_4
      extract_lets +onlyGivenNames -merge -useContext -underBinder s2_5
      have hs2_5 : Sound q s2_5 := by
        unfold s2_5
        split
        · exact setCtx_sound hs1_4
        · exact hs1_4
      clear_value s2_5
      exact event_sound (setReg_sound (setFlag_sound hs2_5))

theorem kerfAdmit_sound {q : List Instr} {s : State} (hs : Sound q s) :
    Sound q (kerfAdmit s) := by
  delta kerfAdmit
  refine Sound.ite ?_ ?_
  · exact hs
  · extract_lets +onlyGivenNames -merge -useContext -underBinder s1_0
    have hs1_0 : Sound q s1_0 := by
      unfold s1_0
      refine Sound.ite ?_ ?_
      · refine Sound.foldl ?_ ?_
        · exact hs
        · intro t_1 a_2 h_3
          refine Sound.ite ?_ ?_
          · split
            · exact admitGroup_sound h_3
            · exact h_3
          · exact h_3
      · exact hs
    clear_value s1_0
    exact startFence_sound (admitAdmin_sound hs1_0)

theorem setPair_sound {q : List Instr} {s : State} {n : Nat} {p : SeamPair} (hs : Sound q s) :
    Sound q (setPair s n p) := by
  delta setPair
  exact Sound.mk (Good.of hs)

/-! ### Work -/

theorem putResult_sound {q : List Instr} {s : State} {n : Nat} {c : Ctx} {r : CmdResult} (hs : Sound q s) :
    Sound q (putResult s n c r) := by
  delta putResult
  exact setCtx_sound hs

/-! ### Derive -/

theorem placeRecord_sound {q : List Instr} {s : State} {chain typ : Nat} {payload : Bytes} {ctx : Option Nat} (hs :
    Sound q s) :
    Sound q (placeRecord s chain typ payload ctx) := by
  delta placeRecord
  exact Sound.mk (Good.of (setChain_sound hs))

/-! ### Protect -/

theorem panelWrite_sound {q : List Instr} {s : State} {p : Nat} {pt : Bytes} (hs : Sound q s) :
    Sound q (panelWrite s p pt) := by
  delta panelWrite
  extract_lets +onlyGivenNames -merge -useContext -underBinder v_0
  clear_value v_0
  split
  · exact hs
  · exact Sound.mk (Good.of hs)

theorem setCells_sound {q : List Instr} {s : State} {slice table num : Nat} {cs : List (Nat × VEntry)} (hs : Sound q
    s) :
    Sound q (setCells s slice table num cs) := by
  delta setCells
  exact Sound.mk (Good.of (panelWrite_sound hs))

theorem clearCell_sound {q : List Instr} {s : State} {slice table num cell : Nat} (hs : Sound q s) :
    Sound q (clearCell s slice table num cell) := by
  delta clearCell
  exact setCells_sound hs

theorem setVault_sound {q : List Instr} {s : State} {v : Vault} (hs : Sound q s) :
    Sound q (setVault s v) := by
  delta setVault
  exact Sound.mk (Good.of hs)

theorem clearSpan_sound {q : List Instr} {s : State} {first units : Nat} (hs : Sound q s) :
    Sound q (clearSpan s first units) := by
  delta clearSpan
  exact setVault_sound hs

theorem loseRecords_sound {q : List Instr} {s : State} {mine : Nat → Bool} (hs : Sound q s) :
    Sound q (loseRecords s mine) := by
  delta loseRecords
  exact Sound.mk (Good.of hs)

theorem clearChain_sound {q : List Instr} {s : State} {chain : Nat} (hs : Sound q s) :
    Sound q (clearChain s chain) := by
  delta clearChain
  exact Sound.ite (clearSpan_sound (setVault_sound hs)) (clearSpan_sound (loseRecords_sound (setVault_sound hs)))

theorem panelBack_sound {q : List Instr} {s : State} {p : Nat} (hs : Sound q s) :
    Sound q (panelBack s p) := by
  delta panelBack
  exact panelWrite_sound hs

theorem idleWrite_sound {q : List Instr} {s : State} {slice table num : Nat} (hs : Sound q s) :
    Sound q (idleWrite s slice table num) := by
  delta idleWrite
  exact Sound.ite hs (panelBack_sound hs)

theorem tombSync_sound {q : List Instr} {s : State} (hs : Sound q s) :
    Sound q (tombSync s) := by
  delta tombSync
  exact setFlag_sound hs

theorem integrityMark_sound {q : List Instr} {s : State} {chain level : Nat} {ue : Bool} {addr : Nat} (hs : Sound q
    s) :
    Sound q (integrityMark s chain level ue addr) := by
  delta integrityMark
  exact Sound.ite (event_sound (setF_sound (setF_sound (setF_sound (setF_sound (countF_sound hs))))))
      (tombSync_sound (setChain_sound (clearChain_sound (event_sound (setF_sound (setF_sound (setF_sound (setF_sound
      (countF_sound hs)))))))))

theorem loseVault_sound {q : List Instr} {s : State} (hs : Sound q s) :
    Sound q (loseVault s) := by
  delta loseVault
  exact tombSync_sound (setFlag_sound (setVault_sound (loseRecords_sound hs)))

theorem putCell_sound {q : List Instr} {s : State} {slice table num cell : Nat} {e : VEntry} (hs : Sound q s) :
    Sound q (putCell s slice table num cell e) := by
  delta putCell
  exact setCells_sound hs

theorem setChainSt_sound {q : List Instr} {s : State} {chain : Nat} {st : VaultSt} (hs : Sound q s) :
    Sound q (setChainSt s chain st) := by
  delta setChainSt
  exact setChain_sound hs

theorem setTree_sound {q : List Instr} {s : State} {t : Tree} (hs : Sound q s) :
    Sound q (setTree s t) := by
  delta setTree
  exact Sound.mk (Good.of hs)

theorem vaultIntegrity_sound {q : List Instr} {s : State} {chain level : Nat} {ue : Bool} {addr : Nat} {ctx : Option
    Nat} (hs : Sound q s) :
    Sound q (vaultIntegrity s chain level ue addr ctx) := by
  delta vaultIntegrity
  exact integrityMark_sound (fire_sound hs)

/-! ### Payment -/

theorem batchRun_sound {q : List Instr} {step : State → Bytes → Bytes × State} {size todo : Nat} {s : State} {n : Nat}
    (hstep : ∀ y0 y1, Sound q y0 → Sound q (step y0 y1).2) (hs : Sound q s) : Sound q (batchRun step size todo s n)
        := by
  induction todo generalizing s with
  | zero => exact hs
  | succ k ih =>
    rw [batchRun]
    split
    · exact hs
    · exact ih (setCtx_sound (hstep _ _ hs))

theorem dukptItem_sound {q : List Instr} {who : Nat} {e : Bytes} {ka kb : KeySlot} {s : State} {item : Bytes} (hs :
    Sound q s) :
    Sound q (dukptItem who e ka kb s item).2 := by
  delta dukptItem
  exact Sound.pair_snd (drawFrom_sound hs)

theorem pinTranslateItem_sound {q : List Instr} {who : Nat} {e keyA keyB : Bytes} {s : State} {item : Bytes} (hs :
    Sound q s) :
    Sound q (pinTranslateItem who e keyA keyB s item).2 := by
  delta pinTranslateItem
  exact Sound.ite_snd (Sound.pair_snd (drawFrom_sound hs)) (Sound.pair_snd (drawFrom_sound hs))

theorem workDukpt_sound {q : List Instr} {s : State} {n : Nat} {c : Ctx} {u : Nat} (hs : Sound q s) :
    Sound q (workDukpt s n c u) := by
  delta workDukpt
  exact batchRun_sound (fun _ _ h_0 => dukptItem_sound h_0) hs

theorem workPinTranslate_sound {q : List Instr} {s : State} {n : Nat} {c : Ctx} {u : Nat} (hs : Sound q s) :
    Sound q (workPinTranslate s n c u) := by
  delta workPinTranslate
  exact batchRun_sound (fun _ _ h_0 => pinTranslateItem_sound h_0) hs

theorem workPinVerify_sound {q : List Instr} {s : State} {n : Nat} {c : Ctx} (hs : Sound q s) :
    Sound q (workPinVerify s n c) := by
  delta workPinVerify
  exact putResult_sound hs

/-! ### Vault -/

theorem addItem_sound {q : List Instr} {s : State} {n size : Nat} {out : Bytes} (hs : Sound q s) :
    Sound q (addItem s n size out) := by
  delta addItem
  split
  · exact hs
  · exact setCtx_sound hs

theorem crdIdle_sound {q : List Instr} {s : State} {c : Ctx} (hs : Sound q s) :
    Sound q (crdIdle s c) := by
  delta crdIdle
  exact idleWrite_sound hs

theorem crdRewrite_sound {q : List Instr} {s : State} {n : Nat} {c : Ctx} {x1 cell : Nat} {old : Bytes} {st left :
    Nat} (hs : Sound q s) :
    Sound q (crdRewrite s n c x1 cell old st left) := by
  delta crdRewrite
  exact placeRecord_sound (putCell_sound hs)

theorem putResultAt_sound {q : List Instr} {s : State} {n : Nat} {r : CmdResult} (hs : Sound q s) :
    Sound q (putResultAt s n r) := by
  delta putResultAt
  split
  · exact putResult_sound hs
  · exact hs

theorem credKillCommit_sound {q : List Instr} {s : State} {n : Nat} {c : Ctx} (hs : Sound q s) :
    Sound q (credKillCommit s n c) := by
  delta credKillCommit
  extract_lets +onlyGivenNames -merge -useContext -underBinder q_0
  clear_value q_0
  extract_lets +onlyGivenNames -merge -useContext -underBinder idle_1
  have hidle_1 : Sound q idle_1 := by
    unfold idle_1
    exact idleWrite_sound hs
  clear_value idle_1
  split
  · exact putResult_sound hidle_1
  · exact Sound.ite (putResult_sound hidle_1) (putResultAt_sound (crdRewrite_sound hs))

theorem deleteCommit_sound {q : List Instr} {s : State} {n : Nat} {c : Ctx} (hs : Sound q s) :
    Sound q (deleteCommit s n c) := by
  delta deleteCommit
  extract_lets +onlyGivenNames -merge -useContext -underBinder q_0
  clear_value q_0
  extract_lets +onlyGivenNames -merge -useContext -underBinder rk_1
  clear_value rk_1
  split
  · exact putResult_sound (idleWrite_sound hs)
  · extract_lets +onlyGivenNames -merge -useContext -underBinder s1_2
    have hs1_2 : Sound q s1_2 := by
      unfold s1_2
      exact clearCell_sound hs
    clear_value s1_2
    extract_lets +onlyGivenNames -merge -useContext -underBinder s2_3
    have hs2_3 : Sound q s2_3 := by
      unfold s2_3
      exact placeRecord_sound hs1_2
    clear_value s2_3
    split
    · exact putResult_sound hs2_3
    · exact hs2_3

theorem detokReads_sound {q : List Instr} {s : State} {c : Ctx} (hs : Sound q s) :
    Sound q (detokReads s c).2 := by
  delta detokReads
  extract_lets +onlyGivenNames -merge -useContext -underBinder k_0
  clear_value k_0
  extract_lets +onlyGivenNames -merge -useContext -underBinder rb_1
  clear_value rb_1
  split
  · exact Sound.pair_snd hs
  · exact Sound.pair_snd (drawBelowFrom_sound hs)

theorem detokSlot_sound {q : List Instr} {s : State} {n : Nat} {c : Ctx} (hs : Sound q s) :
    Sound q (detokSlot s n c) := by
  delta detokSlot
  exact addItem_sound hs

theorem drawToken_sound {q : List Instr} {s : State} {who : Nat} {k : TokItem} (hs : Sound q s) :
    Sound q (drawToken s who k).2 := by
  delta drawToken
  exact Sound.pair_snd (drawBelowFrom_sound hs)

theorem idleBody_sound {q : List Instr} {s : State} {c : Ctx} (hs : Sound q s) :
    Sound q (idleBody s c) := by
  delta idleBody
  exact Sound.ite (Sound.ite hs (Sound.ite (idleWrite_sound hs) (idleWrite_sound hs))) (Sound.ite hs (Sound.ite
      (Sound.ite hs (panelBack_sound hs)) (idleWrite_sound hs)))

theorem slotReads_sound {q : List Instr} {s : State} {c : Ctx} {live : Bool} (hs : Sound q s) :
    Sound q (slotReads s c live).2 := by
  delta slotReads
  exact Sound.ite_snd (detokReads_sound hs) (Sound.ite_snd (Sound.pair_snd hs) (Sound.ite_snd (Sound.pair_snd hs)
      (Sound.ite_snd (Sound.pair_snd hs) (Sound.ite_snd (Sound.pair_snd hs) (Sound.pair_snd hs)))))

theorem idleSlot_sound {q : List Instr} {s : State} {c : Ctx} (hs : Sound q s) :
    Sound q (idleSlot s c) := by
  delta idleSlot
  extract_lets +onlyGivenNames -merge -useContext -underBinder r_0
  have hr_0 : Sound q r_0.2 := by
    unfold r_0
    exact slotReads_sound hs
  clear_value r_0
  split
  · exact vaultIntegrity_sound hr_0
  · exact idleBody_sound hr_0

theorem issueCommit_sound {q : List Instr} {s : State} {n : Nat} {c : Ctx} {container : Bytes} (hs : Sound q s) :
    Sound q (issueCommit s n c container) := by
  delta issueCommit
  extract_lets +onlyGivenNames -merge -useContext -underBinder q_0
  clear_value q_0
  extract_lets +onlyGivenNames -merge -useContext -underBinder cs_1
  clear_value cs_1
  extract_lets +onlyGivenNames -merge -useContext -underBinder st_2
  clear_value st_2
  extract_lets +onlyGivenNames -merge -useContext -underBinder live_3
  clear_value live_3
  extract_lets +onlyGivenNames -merge -useContext -underBinder mine_4
  clear_value mine_4
  extract_lets +onlyGivenNames -merge -useContext -underBinder cell_5
  clear_value cell_5
  extract_lets +onlyGivenNames -merge -useContext -underBinder other_6
  clear_value other_6
  extract_lets +onlyGivenNames -merge -useContext -underBinder old_7
  clear_value old_7
  extract_lets +onlyGivenNames -merge -useContext -underBinder oldHeld_8
  clear_value oldHeld_8
  split
  · extract_lets +onlyGivenNames -merge -useContext -underBinder overRecord_9
    clear_value overRecord_9
    refine Sound.ite ?_ ?_
    · exact putResult_sound (idleWrite_sound hs)
    · extract_lets +onlyGivenNames -merge -useContext -underBinder s1_10
      have hs1_10 : Sound q s1_10 := by
        unfold s1_10
        split
        · exact clearCell_sound hs
        · exact hs
      clear_value s1_10
      extract_lets +onlyGivenNames -merge -useContext -underBinder s2_11
      have hs2_11 : Sound q s2_11 := by
        unfold s2_11
        exact putCell_sound hs1_10
      clear_value s2_11
      extract_lets +onlyGivenNames -merge -useContext -underBinder cleared_12
      clear_value cleared_12
      extract_lets +onlyGivenNames -merge -useContext -underBinder s3_13
      have hs3_13 : Sound q s3_13 := by
        unfold s3_13
        exact placeRecord_sound hs2_11
      clear_value s3_13
      split
      · exact putResult_sound hs3_13
      · exact hs3_13
  · exact putResult_sound (idleWrite_sound hs)
  · exact putResult_sound (crdIdle_sound hs)

theorem issueStage_sound {q : List Instr} {s : State} {c : Ctx} (hs : Sound q s) :
    Sound q (issueStage s c) := by
  delta issueStage
  refine Sound.ite ?_ ?_
  · exact crdIdle_sound hs
  · extract_lets +onlyGivenNames -merge -useContext -underBinder q_0
    clear_value q_0
    extract_lets +onlyGivenNames -merge -useContext -underBinder fr_1
    clear_value fr_1
    split
    · exact idleWrite_sound hs
    · exact putCell_sound hs

theorem tombWrite_sound {q : List Instr} {s : State} {ident : Bytes} {x1 : Nat} {ctx : Option Nat} (hs : Sound q s) :
    Sound q (tombWrite s ident x1 ctx) := by
  delta tombWrite
  extract_lets +onlyGivenNames -merge -useContext -underBinder drop_0
  have hdrop_0 : ∀ y0, Sound q y0 → Sound q (drop_0 y0) := by
    intro y0 h_1
    unfold drop_0
    exact Sound.mk (Good.of h_1)
  clear_value drop_0
  refine Sound.ite ?_ ?_
  · exact hs
  · refine Sound.ite ?_ ?_
    · exact hdrop_0 _ (idleWrite_sound hs)
    · split
      · exact idleWrite_sound hs
      · exact Sound.ite (idleWrite_sound hs) (hdrop_0 _ (placeRecord_sound (putCell_sound hs)))

theorem killCommit_sound {q : List Instr} {s : State} {n : Nat} {c : Ctx} (hs : Sound q s) :
    Sound q (killCommit s n c) := by
  delta killCommit
  exact putResultAt_sound (tombWrite_sound hs)

theorem writeValue_sound {q : List Instr} {s : State} {slice num cell ext : Nat} {value : Bytes} (hs : Sound q s) :
    Sound q (writeValue s slice num cell ext value) := by
  delta writeValue
  exact Sound.foldl hs fun _ _ h_0 => panelWrite_sound h_0

theorem putCommit_sound {q : List Instr} {s : State} {n : Nat} {c : Ctx} (hs : Sound q s) :
    Sound q (putCommit s n c) := by
  delta putCommit
  extract_lets +onlyGivenNames -merge -useContext -underBinder e_0
  clear_value e_0
  extract_lets +onlyGivenNames -merge -useContext -underBinder rk_1
  clear_value rk_1
  extract_lets +onlyGivenNames -merge -useContext -underBinder value_2
  clear_value value_2
  extract_lets +onlyGivenNames -merge -useContext -underBinder fp_3
  clear_value fp_3
  extract_lets +onlyGivenNames -merge -useContext -underBinder q_4
  clear_value q_4
  extract_lets +onlyGivenNames -merge -useContext -underBinder own_5
  clear_value own_5
  extract_lets +onlyGivenNames -merge -useContext -underBinder full_6
  have hfull_6 : Sound q full_6 := by
    unfold full_6
    exact putResult_sound (idleWrite_sound hs)
  clear_value full_6
  extract_lets +onlyGivenNames -merge -useContext -underBinder finish_7
  have hfinish_7 : ∀ y0 y1 y2, Sound q y0 → Sound q (finish_7 y0 y1 y2) := by
    intro y0 y1 y2 h_8
    unfold finish_7
    extract_lets +onlyGivenNames -merge -useContext -underBinder ext_9
    clear_value ext_9
    extract_lets +onlyGivenNames -merge -useContext -underBinder s_10
    have hs_10 : Sound q s_10 := by
      unfold s_10
      exact Sound.ite h_8 (writeValue_sound h_8)
    clear_value s_10
    extract_lets +onlyGivenNames -merge -useContext -underBinder b_11
    clear_value b_11
    extract_lets +onlyGivenNames -merge -useContext -underBinder s1_12
    have hs1_12 : Sound q s1_12 := by
      unfold s1_12
      exact putCell_sound hs_10
    clear_value s1_12
    extract_lets +onlyGivenNames -merge -useContext -underBinder s2_13
    have hs2_13 : Sound q s2_13 := by
      unfold s2_13
      exact placeRecord_sound hs1_12
    clear_value s2_13
    split
    · exact putResult_sound hs2_13
    · exact hs2_13
  clear_value finish_7
  refine Sound.ite ?_ ?_
  · exact hfull_6
  · split
    · exact hfinish_7 _ _ _ hs
    · extract_lets +onlyGivenNames -merge -useContext -underBinder fr_14
      clear_value fr_14
      split
      · exact hfull_6
      · exact Sound.ite hfull_6 (hfinish_7 _ _ _ hs)

theorem redeemCommit_sound {q : List Instr} {s : State} {n : Nat} {c : Ctx} (hs : Sound q s) :
    Sound q (redeemCommit s n c) := by
  delta redeemCommit
  extract_lets +onlyGivenNames -merge -useContext -underBinder q_0
  clear_value q_0
  extract_lets +onlyGivenNames -merge -useContext -underBinder idle_1
  have hidle_1 : Sound q idle_1 := by
    unfold idle_1
    exact idleWrite_sound hs
  clear_value idle_1
  split
  · exact putResult_sound hidle_1
  · exact Sound.ite (putResult_sound hidle_1) (Sound.ite (putResult_sound hidle_1) (Sound.ite (putResultAt_sound
      (crdRewrite_sound hs)) (putResultAt_sound (crdRewrite_sound hs))))

theorem setScratch_sound {q : List Instr} {s : State} {n : Nat} {x : List Nat} (hs : Sound q s) :
    Sound q (setScratch s n x) := by
  delta setScratch
  split
  · exact setCtx_sound hs
  · exact hs

theorem slotFails_sound {q : List Instr} {s : State} {n chain : Nat} {f : Nat × Nat} (hs : Sound q s) :
    Sound q (slotFails s n chain f) := by
  delta slotFails
  extract_lets +onlyGivenNames -merge -useContext -underBinder s1_0
  have hs1_0 : Sound q s1_0 := by
    unfold s1_0
    exact vaultIntegrity_sound hs
  clear_value s1_0
  split
  · exact hs1_0
  · extract_lets +onlyGivenNames -merge -useContext -underBinder op_1
    clear_value op_1
    extract_lets +onlyGivenNames -merge -useContext -underBinder item_2
    clear_value item_2
    extract_lets +onlyGivenNames -merge -useContext -underBinder s2_3
    have hs2_3 : Sound q s2_3 := by
      unfold s2_3
      exact Sound.ite (addItem_sound hs1_0) hs1_0
    clear_value s2_3
    split
    · exact hs2_3
    · exact Sound.ite hs2_3 (setCtx_sound hs2_3)

theorem tokCommit_sound {q : List Instr} {s : State} {n : Nat} {c : Ctx} {item : Bytes} {x : List Nat} (hs : Sound q
    s) :
    Sound q (tokCommit s n c item x).2 := by
  delta tokCommit
  extract_lets +onlyGivenNames -merge -useContext -underBinder key_0
  clear_value key_0
  extract_lets +onlyGivenNames -merge -useContext -underBinder k_1
  clear_value k_1
  extract_lets +onlyGivenNames -merge -useContext -underBinder q_2
  clear_value q_2
  refine Sound.ite_snd ?_ ?_
  · exact Sound.pair_snd (idleWrite_sound hs)
  · refine Sound.ite_snd ?_ ?_
    · exact Sound.pair_snd (idleWrite_sound hs)
    · extract_lets +onlyGivenNames -merge -useContext -underBinder fp_3
      clear_value fp_3
      extract_lets +onlyGivenNames -merge -useContext -underBinder tok_4
      clear_value tok_4
      split
      · exact Sound.pair_snd (idleWrite_sound hs)
      · extract_lets +onlyGivenNames -merge -useContext -underBinder fr_5
        clear_value fr_5
        extract_lets +onlyGivenNames -merge -useContext -underBinder cell_6
        clear_value cell_6
        split
        · exact Sound.pair_snd (idleWrite_sound hs)
        · exact Sound.ite_snd (Sound.pair_snd (idleWrite_sound hs)) (Sound.pair_snd (placeRecord_sound
            (putCell_sound hs)))

theorem tokProbe_sound {q : List Instr} {s : State} {c : Ctx} {item : Bytes} (hs : Sound q s) :
    Sound q (tokProbe s c item).2 := by
  delta tokProbe
  extract_lets +onlyGivenNames -merge -useContext -underBinder key_0
  clear_value key_0
  extract_lets +onlyGivenNames -merge -useContext -underBinder k_1
  clear_value k_1
  extract_lets +onlyGivenNames -merge -useContext -underBinder nb_2
  clear_value nb_2
  refine Sound.ite_snd ?_ ?_
  · exact Sound.pair_snd hs
  · extract_lets +onlyGivenNames -merge -useContext -underBinder t_3
    clear_value t_3
    extract_lets +onlyGivenNames -merge -useContext -underBinder a_4
    clear_value a_4
    extract_lets +onlyGivenNames -merge -useContext -underBinder b_5
    clear_value b_5
    split
    · exact Sound.pair_snd hs
    · extract_lets +onlyGivenNames -merge -useContext -underBinder d_6
      have hd_6 : Sound q d_6.2 := by
        unfold d_6
        exact drawToken_sound hs
      clear_value d_6
      split
      · exact Sound.pair_snd hd_6
      · exact Sound.pair_snd hd_6

theorem tokReverse_sound {q : List Instr} {s : State} {c : Ctx} {item : Bytes} {x : List Nat} (hs : Sound q s) :
    Sound q (tokReverse s c item x).2 := by
  delta tokReverse
  extract_lets +onlyGivenNames -merge -useContext -underBinder k_0
  clear_value k_0
  refine Sound.ite_snd ?_ ?_
  · exact Sound.pair_snd (idleWrite_sound hs)
  · extract_lets +onlyGivenNames -merge -useContext -underBinder t_1
    clear_value t_1
    extract_lets +onlyGivenNames -merge -useContext -underBinder rb_2
    clear_value rb_2
    extract_lets +onlyGivenNames -merge -useContext -underBinder cs_3
    clear_value cs_3
    extract_lets +onlyGivenNames -merge -useContext -underBinder fp_4
    clear_value fp_4
    refine Sound.ite_snd ?_ ?_
    · exact Sound.pair_snd (idleWrite_sound hs)
    · split
      · exact Sound.pair_snd (idleWrite_sound hs)
      · exact Sound.pair_snd (putCell_sound hs)

theorem tokSlot_sound {q : List Instr} {s : State} {n : Nat} {c : Ctx} (hs : Sound q s) :
    Sound q (tokSlot s n c) := by
  delta tokSlot
  extract_lets +onlyGivenNames -merge -useContext -underBinder item_0
  clear_value item_0
  split
  · exact setScratch_sound (tokProbe_sound hs)
  · exact setScratch_sound (tokReverse_sound hs)
  · exact addItem_sound (tokCommit_sound hs)

theorem tombstoneAfter_sound {q : List Instr} {s : State} {ident : Bytes} {ctx : Option Nat} {fault : Option (Nat ×
    Nat)} (hs : Sound q s) :
    Sound q (tombstoneAfter s ident ctx fault) := by
  delta tombstoneAfter
  split
  · exact vaultIntegrity_sound hs
  · exact tombWrite_sound hs

theorem vaultDeleteSlot_sound {q : List Instr} {s : State} {n : Nat} {c : Ctx} (hs : Sound q s) :
    Sound q (vaultDeleteSlot s n c) := by
  delta vaultDeleteSlot
  exact Sound.ite (setScratch_sound hs) (deleteCommit_sound hs)

theorem vaultGetSlot_sound {q : List Instr} {s : State} {n : Nat} {c : Ctx} (hs : Sound q s) :
    Sound q (vaultGetSlot s n c) := by
  delta vaultGetSlot
  exact Sound.ite (putResult_sound (setCtx_sound hs)) (setCtx_sound hs)

theorem vaultPutSlot_sound {q : List Instr} {s : State} {n : Nat} {c : Ctx} (hs : Sound q s) :
    Sound q (vaultPutSlot s n c) := by
  delta vaultPutSlot
  exact Sound.ite (setScratch_sound hs) (Sound.ite (putCommit_sound hs) (panelWrite_sound hs))

theorem workDerived_sound {q : List Instr} {s : State} {n : Nat} {c : Ctx} {detok : Bool} {u : Nat} (hs : Sound q s) :
    Sound q (workDerived s n c detok u) := by
  delta workDerived
  exact batchRun_sound (fun _ _ h_0 => Sound.pair_snd h_0) hs

theorem writeTombstone_sound {q : List Instr} {s : State} {ident : Bytes} {ctx : Option Nat} (hs : Sound q s) :
    Sound q (writeTombstone s ident ctx) := by
  delta writeTombstone
  exact tombstoneAfter_sound hs

/-! ### Keys -/

theorem drawKey_sound {q : List Instr} {who fuel typ : Nat} {s : State} (hs : Sound q s) :
    Sound q (drawKey who fuel typ s).2 := by
  induction fuel generalizing s with
  | zero => exact drawFrom_sound hs
  | succ n ih =>
    rw [drawKey]
    exact Sound.ite_snd (ih (drawFrom_sound hs)) (drawFrom_sound hs)

theorem newGenerated_sound {q : List Instr} {s : State} {who : Nat} {e : Bytes} {attr : Nat} (hs : Sound q s) :
    Sound q (newGenerated s who e attr).2 := by
  delta newGenerated
  exact Sound.ite_snd (Sound.pair_snd (drawKey_sound hs)) (Sound.ite_snd (Sound.pair_snd (drawFrom_sound hs))
      (Sound.pair_snd (drawFrom_sound hs)))

theorem newSecret_sound {q : List Instr} {s : State} {c : Ctx} {attr : Nat} (hs : Sound q s) :
    Sound q (newSecret s c attr).2 := by
  delta newSecret
  extract_lets +onlyGivenNames -merge -useContext -underBinder e_0
  clear_value e_0
  extract_lets +onlyGivenNames -merge -useContext -underBinder t_1
  clear_value t_1
  refine Sound.ite_snd ?_ ?_
  · exact Sound.ite_snd (Sound.pair_snd (drawFrom_sound hs)) (Sound.pair_snd (drawFrom_sound hs))
  · refine Sound.ite_snd ?_ ?_
    · exact Sound.pair_snd hs
    · split
      · exact Sound.pair_snd hs
      · exact Sound.pair_snd hs

theorem newKeyOf_sound {q : List Instr} {s : State} {c : Ctx} {attr : Nat} (hs : Sound q s) :
    Sound q (newKeyOf s c attr).2 := by
  delta newKeyOf
  exact Sound.ite_snd (newGenerated_sound hs) (Sound.ite_snd (Sound.pair_snd hs) (Sound.ite_snd (Sound.pair_snd hs)
      (newSecret_sound hs)))

theorem createSlot_sound {q : List Instr} {s : State} {n : Nat} {c : Ctx} (hs : Sound q s) :
    Sound q (createSlot s n c) := by
  delta createSlot
  extract_lets +onlyGivenNames -merge -useContext -underBinder a_0
  clear_value a_0
  extract_lets +onlyGivenNames -merge -useContext -underBinder r_1
  have hr_1 : Sound q r_1.2 := by
    unfold r_1
    exact newKeyOf_sound hs
  clear_value r_1
  extract_lets +onlyGivenNames -merge -useContext -underBinder k_2
  clear_value k_2
  refine Sound.ite ?_ ?_
  · exact putResult_sound hr_1
  · extract_lets +onlyGivenNames -merge -useContext -underBinder ident_3
    clear_value ident_3
    extract_lets +onlyGivenNames -merge -useContext -underBinder slot_4
    clear_value slot_4
    extract_lets +onlyGivenNames -merge -useContext -underBinder s1_5
    have hs1_5 : Sound q s1_5 := by
      unfold s1_5
      exact setKey_sound hr_1
    clear_value s1_5
    split
    · exact slotFails_sound hs1_5
    · exact Sound.ite (putResult_sound hs1_5) (putResult_sound hs1_5)

theorem workKeyExport_sound {q : List Instr} {s : State} {n : Nat} {c : Ctx} (hs : Sound q s) :
    Sound q (workKeyExport s n c) := by
  delta workKeyExport
  exact putResult_sound (drawFrom_sound hs)

/-! ### Seam -/

theorem seamSign_sound {q : List Instr} {s : State} {who pair idx : Nat} {msg : Bytes} (hs : Sound q s) :
    Sound q (seamSign s who pair idx msg).2 := by
  delta seamSign
  split
  · exact Sound.pair_snd hs
  · exact Sound.pair_snd (drawFrom_sound hs)

theorem ctxSign_sound {q : List Instr} {s : State} {c : Ctx} {msg : Bytes} (hs : Sound q s) :
    Sound q (ctxSign s c msg).2 := by
  delta ctxSign
  split
  · exact seamSign_sound hs
  · exact Sound.pair_snd hs

theorem issueSigned_sound {q : List Instr} {s : State} {n : Nat} {c : Ctx} (hs : Sound q s) :
    Sound q (issueSigned s n c) := by
  delta issueSigned
  exact issueCommit_sound (ctxSign_sound hs)

theorem workSignSeam_sound {q : List Instr} {s : State} {n : Nat} {c : Ctx} (hs : Sound q s) :
    Sound q (workSignSeam s n c) := by
  delta workSignSeam
  exact putResult_sound (ctxSign_sound hs)

theorem workVerifySeam_sound {q : List Instr} {s : State} {n : Nat} {c : Ctx} (hs : Sound q s) :
    Sound q (workVerifySeam s n c) := by
  delta workVerifySeam
  exact putResult_sound hs

/-! ### Attest -/

theorem workAttest_sound {q : List Instr} {s : State} {n : Nat} {c : Ctx} (hs : Sound q s) :
    Sound q (workAttest s n c) := by
  delta workAttest
  exact putResult_sound (ctxSign_sound hs)

/-! ### Needle -/

theorem workCipher_sound {q : List Instr} {s : State} {n : Nat} {c : Ctx} (hs : Sound q s) :
    Sound q (workCipher s n c) := by
  delta workCipher
  exact putResult_sound hs

theorem workHash_sound {q : List Instr} {s : State} {n : Nat} {c : Ctx} (hs : Sound q s) :
    Sound q (workHash s n c) := by
  delta workHash
  exact putResult_sound hs

theorem workMacGen_sound {q : List Instr} {s : State} {n : Nat} {c : Ctx} (hs : Sound q s) :
    Sound q (workMacGen s n c) := by
  delta workMacGen
  exact putResult_sound hs

theorem workMacVerify_sound {q : List Instr} {s : State} {n : Nat} {c : Ctx} (hs : Sound q s) :
    Sound q (workMacVerify s n c) := by
  delta workMacVerify
  exact putResult_sound hs

theorem workRandom_sound {q : List Instr} {s : State} {n : Nat} {c : Ctx} (hs : Sound q s) :
    Sound q (workRandom s n c) := by
  delta workRandom
  exact putResult_sound (drawFrom_sound hs)

theorem workTranslate_sound {q : List Instr} {s : State} {n : Nat} {c : Ctx} (hs : Sound q s) :
    Sound q (workTranslate s n c) := by
  delta workTranslate
  exact putResult_sound hs

/-! ### Journal -/

theorem setNv_sound {q : List Instr} {s : State} {n : Nv} (hs : Sound q s) :
    Sound q (setNv s n) := by
  delta setNv
  exact Sound.mk (Good.of hs)

theorem setBlock_sound {q : List Instr} {s : State} {b : Nat} {x : FBlock} (hs : Sound q s) :
    Sound q (setBlock s b x) := by
  delta setBlock
  exact setNv_sound hs

theorem fireWear_sound {q : List Instr} {s : State} {detail : Nat} (hs : Sound q s) :
    Sound q (fireWear s detail) := by
  delta fireWear
  exact event_sound (fire_sound hs)

theorem countErase_sound {q : List Instr} {s : State} {block : Nat} (hs : Sound q s) :
    Sound q (countErase s block) := by
  delta countErase
  extract_lets +onlyGivenNames -merge -useContext -underBinder b_0
  clear_value b_0
  extract_lets +onlyGivenNames -merge -useContext -underBinder c_1
  clear_value c_1
  extract_lets +onlyGivenNames -merge -useContext -underBinder s1_2
  have hs1_2 : Sound q s1_2 := by
    unfold s1_2
    exact setBlock_sound hs
  clear_value s1_2
  exact Sound.ite (setFlag_sound (Sound.ite (fireWear_sound (countReg_sound hs1_2)) (Sound.ite (fireWear_sound
      (countReg_sound hs1_2)) (countReg_sound hs1_2)))) (Sound.ite (fireWear_sound (countReg_sound hs1_2))
      (Sound.ite (fireWear_sound (countReg_sound hs1_2)) (countReg_sound hs1_2)))

theorem eraseUnits_sound {q : List Instr} {s : State} {block : Nat} (hs : Sound q s) :
    Sound q (eraseUnits s block) := by
  delta eraseUnits
  exact setNv_sound hs

theorem journalRaw_sound {q : List Instr} {s : State} {typ flag block count : Nat} (hs : Sound q s) :
    Sound q (journalRaw s typ flag block count) := by
  delta journalRaw
  exact setNv_sound hs

theorem journalTurn_sound {q : List Instr} {s : State} (hs : Sound q s) :
    Sound q (journalTurn s) := by
  delta journalTurn
  split
  · exact hs
  · exact journalRaw_sound (setNv_sound (journalRaw_sound (countErase_sound (Sound.foldl hs fun _ _ h_0 =>
      journalRaw_sound h_0))))

theorem journalPut_sound {q : List Instr} {s : State} {typ block : Nat} (hs : Sound q s) :
    Sound q (journalPut s typ block) := by
  delta journalPut
  exact Sound.ite (journalTurn_sound (journalRaw_sound hs)) (journalRaw_sound hs)

theorem indetSync_sound {q : List Instr} {s : State} (hs : Sound q s) :
    Sound q (indetSync s) := by
  delta indetSync
  exact setF_sound hs

theorem doneErase_sound {q : List Instr} {s : State} {block : Nat} (hs : Sound q s) :
    Sound q (doneErase s block) := by
  delta doneErase
  exact journalPut_sound (indetSync_sound (setBlock_sound (eraseUnits_sound hs)))

theorem openErase_sound {q : List Instr} {s : State} {block : Nat} (hs : Sound q s) :
    Sound q (openErase s block) := by
  delta openErase
  exact journalPut_sound (countErase_sound hs)

theorem eraseNow_sound {q : List Instr} {s : State} {block : Nat} (hs : Sound q s) :
    Sound q (eraseNow s block) := by
  delta eraseNow
  exact doneErase_sound (openErase_sound hs)

theorem countErases_sound {q : List Instr} {s : State} {first count : Nat} (hs : Sound q s) :
    Sound q (countErases s first count) := by
  delta countErases
  exact Sound.foldl hs fun _ _ h_0 => eraseNow_sound h_0

theorem setUnit_sound {q : List Instr} {s : State} {u : Nat} {x : FUnit} (hs : Sound q s) :
    Sound q (setUnit s u x) := by
  delta setUnit
  exact setNv_sound hs

theorem programBytes_sound {q : List Instr} {s : State} {block : Nat} {b : Bytes} (hs : Sound q s) :
    Sound q (programBytes s block b) := by
  delta programBytes
  exact Sound.foldl hs fun _ _ h_0 => setUnit_sound h_0

theorem putTable_sound {q : List Instr} {s : State} {cnt : Nat} {tab : List (Nat × Bytes × Nat)} (hs : Sound q s) :
    Sound q (putTable s cnt tab) := by
  delta putTable
  exact programBytes_sound (Sound.mk (Good.of (eraseNow_sound hs)))

theorem dropEnrolment_sound {q : List Instr} {s : State} {slice : Nat} (hs : Sound q s) :
    Sound q (dropEnrolment s slice) := by
  delta dropEnrolment
  exact Sound.ite hs (putTable_sound hs)

theorem sillRaw_sound {q : List Instr} {s : State} {reg : Nat} {v : Word} {count : Nat} (hs : Sound q s) :
    Sound q (sillRaw s reg v count) := by
  delta sillRaw
  exact setNv_sound hs

theorem sillTurn_sound {q : List Instr} {s : State} (hs : Sound q s) :
    Sound q (sillTurn s) := by
  delta sillTurn
  split
  · exact hs
  · exact eraseNow_sound (setNv_sound (Sound.foldl hs fun _ _ h_0 => sillRaw_sound h_0))

theorem sillPut_sound {q : List Instr} {s : State} {reg : Nat} {v : Word} {count : Nat} (hs : Sound q s) :
    Sound q (sillPut s reg v count) := by
  delta sillPut
  exact Sound.ite (sillTurn_sound (sillRaw_sound hs)) (sillRaw_sound hs)

theorem sillRead_sound {q : List Instr} {s : State} (hs : Sound q s) :
    Sound q (sillRead s) := by
  delta sillRead
  exact Sound.mk (Good.of hs)

/-! ### Gates -/

theorem refuseAccess_sound {q : List Instr} {s : State} {gate init x1 acc : Nat} {imprecise : Bool} {slice : Option
    Nat} {res : GateRes} (hs : Sound q s) :
    Sound q (refuseAccess s gate init x1 acc imprecise slice res) := by
  delta refuseAccess
  exact fire_sound (countF_sound hs)

theorem access_sound {q : List Instr} {s : State} {init x1 : Nat} {k : Acc} (hs : Sound q s) :
    Sound q (access s init x1 k).2 := by
  delta access
  exact Sound.ite_snd (Sound.pair_snd hs) (Sound.pair_snd (refuseAccess_sound hs))

theorem setGates_sound {q : List Instr} {s : State} {g : Gates} (hs : Sound q s) :
    Sound q (setGates s g) := by
  delta setGates
  exact Sound.mk (Good.of hs)

theorem gteStage_sound {q : List Instr} {s : State} {x1 : Bool} (hs : Sound q s) :
    Sound q (gteStage s x1) := by
  delta gteStage
  exact Sound.ite hs (setFlag_sound (setGates_sound hs))

theorem execGteCommitWrite_sound {q : List Instr} {v : Word} {s : State} (hs : Sound q s) :
    OutSound q (execGteCommitWrite v s) := by
  delta execGteCommitWrite
  exact OutSound.next (Sound.ite (gteStage_sound hs) hs)

theorem gteDiscard_sound {q : List Instr} {s : State} (hs : Sound q s) :
    Sound q (gteDiscard s) := by
  delta gteDiscard
  exact setGates_sound hs

theorem execGteDiscardWrite_sound {q : List Instr} {_v : Word} {s : State} (hs : Sound q s) :
    OutSound q (execGteDiscardWrite _v s) := by
  delta execGteDiscardWrite
  exact OutSound.next (Sound.ite hs (gteDiscard_sound hs))

theorem releasePrev_sound {q : List Instr} {s : State} (hs : Sound q s) :
    Sound q (releasePrev s) := by
  delta releasePrev
  exact setGates_sound hs

theorem execPreviousTablesRelease_sound {q : List Instr} {s : State} (hs : Sound q s) :
    OutSound q (execPreviousTablesRelease s) := by
  delta execPreviousTablesRelease
  exact OutSound.next (releasePrev_sound hs)

theorem gteErr_sound {q : List Instr} {s : State} {t r : Nat} (hs : Sound q s) :
    Sound q (gteErr s t r) := by
  delta gteErr
  exact setF_sound (setFlag_sound (setF_sound hs))

theorem gteFlags_sound {q : List Instr} {s : State} {lap span bad guard : Bool} (hs : Sound q s) :
    Sound q (gteFlags s lap span bad guard) := by
  delta gteFlags
  exact setFlag_sound (setFlag_sound (setFlag_sound (setFlag_sound hs)))

theorem gteWindowWrite_sound {q : List Instr} {s : State} {init off : Nat} {v : Word} (hs : Sound q s) :
    Sound q (gteWindowWrite s init off v) := by
  delta gteWindowWrite
  exact Sound.ite hs (setGates_sound hs)

theorem kerfEpoch_sound {q : List Instr} {s : State} (hs : Sound q s) :
    Sound q (kerfEpoch s) := by
  delta kerfEpoch
  exact Sound.ite (setReg_sound (setGates_sound hs)) hs

theorem kerfGates_sound {q : List Instr} {s : State} (hs : Sound q s) :
    Sound q (kerfGates s) := by
  delta kerfGates
  extract_lets +onlyGivenNames -merge -useContext -underBinder g_0
  clear_value g_0
  split
  · exact hs
  · extract_lets +onlyGivenNames -merge -useContext -underBinder s1_1
    have hs1_1 : Sound q s1_1 := by
      unfold s1_1
      exact setFlag_sound (setGates_sound hs)
    clear_value s1_1
    split
    · exact event_sound (Sound.ite (firePlain_sound (gteErr_sound (gteFlags_sound hs1_1))) (gteErr_sound
        (gteFlags_sound hs1_1)))
    · exact Sound.ite (event_sound (gteErr_sound (gteFlags_sound hs1_1))) (event_sound (setGates_sound
        (gteFlags_sound hs1_1)))

theorem linkAccess_sound {q : List Instr} {s : State} {slice x1 : Nat} {k : Acc} (hs : Sound q s) :
    Sound q (linkAccess s slice x1 k).2 := by
  delta linkAccess
  exact Sound.ite_snd (Sound.pair_snd hs) (Sound.pair_snd (refuseAccess_sound hs))

theorem notice_sound {q : List Instr} {s : State} {init x1 epoch : Nat} {res : GateRes} (hs : Sound q s) :
    Sound q (notice s init x1 epoch res) := by
  delta notice
  exact event_sound (countF_sound (setReg_sound (setF_sound (setF_sound (setF_sound (refuseAccess_sound hs))))))

theorem restoreLink_sound {q : List Instr} {s : State} {slice : Nat} (hs : Sound q s) :
    Sound q (restoreLink s slice) := by
  delta restoreLink
  exact setGates_sound hs

/-! ### Run -/

theorem vaultSlot_sound {q : List Instr} {s : State} {n : Nat} {c : Ctx} (hs : Sound q s) :
    Sound q (vaultSlot s n c) := by
  delta vaultSlot
  split
  · exact tokSlot_sound hs
  · exact detokSlot_sound hs
  · exact vaultPutSlot_sound hs
  · exact vaultGetSlot_sound hs
  · exact vaultDeleteSlot_sound hs
  · exact Sound.ite (setScratch_sound hs) (Sound.ite (issueStage_sound hs) (issueSigned_sound hs))
  · exact Sound.ite (setScratch_sound hs) (redeemCommit_sound hs)
  · exact Sound.ite (setScratch_sound hs) (credKillCommit_sound hs)
  · exact Sound.ite (setScratch_sound hs) (killCommit_sound hs)
  · exact createSlot_sound hs

theorem liveSlot_sound {q : List Instr} {s : State} {n : Nat} {c : Ctx} (hs : Sound q s) :
    Sound q (liveSlot s n c) := by
  delta liveSlot
  extract_lets +onlyGivenNames -merge -useContext -underBinder r_0
  have hr_0 : Sound q r_0.2 := by
    unfold r_0
    exact slotReads_sound hs
  clear_value r_0
  split
  · exact slotFails_sound hr_0
  · exact vaultSlot_sound hr_0

theorem runSlots_sound {q : List Instr} {todo : Nat} {s : State} {n : Nat} (hs : Sound q s) :
    Sound q (runSlots todo s n) := by
  induction todo generalizing s with
  | zero => exact hs
  | succ k ih =>
    rw [runSlots]
    split
    · exact hs
    · refine ih ?_
      split
      · exact setCtx_sound (Sound.ite (liveSlot_sound hs) (idleSlot_sound hs))
      · exact Sound.ite (liveSlot_sound hs) (idleSlot_sound hs)

theorem advanceSlots_sound {q : List Instr} {todo : Nat} {s : State} {n t : Nat} (hs : Sound q s) :
    Sound q (advanceSlots todo s n t) := by
  induction todo generalizing s with
  | zero => exact hs
  | succ k ih =>
    rw [advanceSlots]
    split
    · exact hs
    · exact Sound.ite (ih (runSlots_sound hs)) hs

theorem ensureIv_sound {q : List Instr} {s : State} {n : Nat} {c : Ctx} (hs : Sound q s) :
    Sound q (ensureIv s n c).1 := by
  delta ensureIv
  exact Sound.ite_fst (Sound.pair_fst (setCtx_sound (drawFrom_sound hs))) (Sound.pair_fst hs)

theorem wholeWork_sound {q : List Instr} {s : State} {n : Nat} {c : Ctx} (hs : Sound q s) :
    Sound q (wholeWork s n c) := by
  delta wholeWork
  split
  · exact workCipher_sound hs
  · exact workTranslate_sound hs
  · exact workMacGen_sound hs
  · exact workMacVerify_sound hs
  · exact workHash_sound hs
  · exact workPinVerify_sound hs
  · exact workSignSeam_sound hs
  · exact workVerifySeam_sound hs
  · exact workKeyExport_sound hs
  · exact workRandom_sound hs
  · exact workAttest_sound hs
  · exact hs

theorem advance_sound {q : List Instr} {s : State} {n t : Nat} (hs : Sound q s) :
    Sound q (advance s n t) := by
  delta advance
  split
  · exact hs
  · exact Sound.ite hs (Sound.ite (advanceSlots_sound hs) (Sound.ite hs (Sound.ite (workPinTranslate_sound
      (ensureIv_sound hs)) (Sound.ite (workDukpt_sound (ensureIv_sound hs)) (Sound.ite (workDerived_sound
      (ensureIv_sound hs)) (Sound.ite (wholeWork_sound (ensureIv_sound hs)) (ensureIv_sound hs)))))))

theorem planFault_sound {q : List Instr} {s : State} {slice bent status off : Nat} (hs : Sound q s) :
    Sound q (planFault s slice bent status off) := by
  delta planFault
  exact event_sound (setF_sound (setF_sound (setF_sound (setF_sound (setFlag_sound hs)))))

theorem drainBytes_sound {q : List Instr} {s : State} {n : Nat} {c : Ctx} {t off base : Nat} {limit : Bool} {b :
    Bytes} (hs : Sound q s) :
    Sound q (drainBytes s n c t off base limit b) := by
  delta drainBytes
  exact Sound.ite (setCtx_sound (shortPieces_sound (Sound.ite hs (sentByBent_sound (useOut_sound (countPiece_sound
      (sendHost_sound hs))))))) (setCtx_sound (countF_sound (planFault_sound (linkAccess_sound (Sound.ite hs
      (sentByBent_sound (useOut_sound (countPiece_sound (sendHost_sound hs)))))))))

theorem drainCtx_sound {q : List Instr} {limit : Bool} {s : State} {n t : Nat} (hs : Sound q s) :
    Sound q (drainCtx limit s n t) := by
  delta drainCtx
  split
  · exact hs
  · extract_lets +onlyGivenNames -merge -useContext -underBinder want_0
    clear_value want_0
    refine Sound.ite ?_ ?_
    · exact hs
    · extract_lets +onlyGivenNames -merge -useContext -underBinder full_1
      clear_value full_1
      extract_lets +onlyGivenNames -merge -useContext -underBinder s1_2
      have hs1_2 : Sound q s1_2 := by
        unfold s1_2
        exact Sound.ite (drainBytes_sound hs) hs
      clear_value s1_2
      split
      · exact hs1_2
      · exact Sound.ite hs1_2 (drainBytes_sound hs1_2)

theorem dstFails_sound {q : List Instr} {n : Nat} {s : State} (hs : Sound q s) :
    Sound q (dstFails n s) := by
  delta dstFails
  split
  · exact hs
  · exact Sound.ite hs (Sound.mk (Good.of (setCtx_sound (countReg_sound (countF_sound (planFault_sound hs))))))

theorem runRow_sound {q : List Instr} {op n : Nat} {s : State} (hs : Sound q s) :
    Sound q (runRow op n s) := by
  delta runRow
  split
  · exact hs
  · exact Sound.ite (advance_sound hs) hs

/-! ### Release -/

theorem completeFetched_sound {q : List Instr} {s : State} {f : Fetched} {status : Nat} (hs : Sound q s) :
    Sound q (completeFetched s f status) := by
  delta completeFetched
  exact Sound.mk (Good.of hs)

theorem settleNew_sound {q : List Instr} {s : State} {c : Ctx} {ok : Bool} (hs : Sound q s) :
    Sound q (settleNew s c ok) := by
  delta settleNew
  split
  · exact hs
  · exact Sound.ite (Sound.ite (Sound.mk (Good.of (activateKey_sound hs))) (activateKey_sound hs)) (emptyKey_sound hs)

theorem refundUse_sound {q : List Instr} {s : State} {c : Ctx} {u : Option KeyUse} {isB early : Bool} {units : Nat}
    (hs : Sound q s) :
    Sound q (refundUse s c u isB early units) := by
  delta refundUse
  split
  · exact hs
  · exact refundKey_sound hs

theorem complete_sound {q : List Instr} {s : State} {n : Nat} {c : Ctx} {r : CmdResult} (hs : Sound q s) :
    Sound q (complete s n c r) := by
  delta complete
  exact Sound.mk (Good.of (setCtx_sound hs))

theorem endEarly_sound {q : List Instr} {s : State} {n status : Nat} (hs : Sound q s) :
    Sound q (endEarly s n status) := by
  delta endEarly
  split
  · exact hs
  · exact Sound.ite hs (complete_sound (refundUse_sound (refundUse_sound (settleNew_sound hs))))

theorem keepGhost_sound {q : List Instr} {s : State} {c : Ctx} (hs : Sound q s) :
    Sound q (keepGhost s c) := by
  delta keepGhost
  exact Sound.ite (Sound.mk (Good.of hs)) hs

theorem resolveAbort_sound {q : List Instr} {s : State} {slice x1 id : Nat} (hs : Sound q s) :
    Sound q (resolveAbort s slice x1 id).1 := by
  delta resolveAbort
  refine Sound.ite_fst ?_ ?_
  · exact Sound.pair_fst hs
  · split
    · exact Sound.pair_fst (Sound.ite hs (completeFetched_sound hs))
    · split
      · exact Sound.ite_fst (Sound.pair_fst hs) (Sound.ite_fst (Sound.pair_fst hs) (Sound.pair_fst (endEarly_sound
          (keepGhost_sound hs))))
      · exact Sound.pair_fst hs

theorem abortEntry_sound {q : List Instr} {s : State} {f : Fetched} (hs : Sound q s) :
    Sound q (abortEntry s f) := by
  delta abortEntry
  exact Sound.ite (completeFetched_sound hs) (Sound.ite (completeFetched_sound hs) (Sound.ite (completeFetched_sound
      hs) (Sound.ite (completeFetched_sound hs) (completeFetched_sound (resolveAbort_sound hs)))))

theorem kerfAborts_sound {q : List Instr} {s : State} (hs : Sound q s) :
    Sound q (kerfAborts s) := by
  delta kerfAborts
  exact Sound.foldl hs fun _ _ h_0 => abortEntry_sound h_0

theorem releaseAdmin_sound {q : List Instr} {s : State} (hs : Sound q s) :
    Sound q (releaseAdmin s) := by
  delta releaseAdmin
  refine Sound.foldl ?_ ?_
  · exact hs
  · intro t_0 a_1 h_2
    split
    · exact Sound.ite (complete_sound h_2) h_2
    · exact Sound.ite (complete_sound h_2) h_2

theorem releaseCtx_sound {q : List Instr} {s : State} {n : Nat} (hs : Sound q s) :
    Sound q (releaseCtx s n) := by
  delta releaseCtx
  split
  · exact hs
  · exact complete_sound (Sound.ite (refundUse_sound (refundUse_sound (settleNew_sound (drainCtx_sound hs))))
      (settleNew_sound (drainCtx_sound hs)))

theorem kerfRelease_sound {q : List Instr} {s : State} (hs : Sound q s) :
    Sound q (kerfRelease s) := by
  delta kerfRelease
  exact releaseAdmin_sound (Sound.foldl hs fun _ _ h_0 => releaseCtx_sound h_0)

theorem squashFetched_sound {q : List Instr} {s : State} {slice : Nat} (hs : Sound q s) :
    Sound q (squashFetched s slice) := by
  delta squashFetched
  exact Sound.foldl hs fun _ _ h_0 => completeFetched_sound h_0

theorem squashSlice_sound {q : List Instr} {s : State} {slice : Nat} (hs : Sound q s) :
    Sound q (squashSlice s slice) := by
  delta squashSlice
  exact Sound.foldl hs fun _ _ h_0 => endEarly_sound h_0

theorem zeroiseSweep_sound {q : List Instr} {s : State} (hs : Sound q s) :
    Sound q (zeroiseSweep s) := by
  delta zeroiseSweep
  exact Sound.foldl hs fun _ _ h_0 => zeroiseSlot_sound h_0

/-! ### Sill -/

theorem flashSync_sound {q : List Instr} {s : State} (hs : Sound q s) :
    Sound q (flashSync s) := by
  delta flashSync
  exact setF_sound (setF_sound (setF_sound (setF_sound (setF_sound (setF_sound hs)))))

theorem setBank_sound {q : List Instr} {s : State} {b : Nat} {x : FBank} (hs : Sound q s) :
    Sound q (setBank s b x) := by
  delta setBank
  exact Sound.ite (setNv_sound hs) (setNv_sound hs)

theorem autoResume_sound {q : List Instr} {s : State} {b : Nat} (hs : Sound q s) :
    Sound q (autoResume s b) := by
  delta autoResume
  exact Sound.ite (flashSync_sound (setBank_sound hs)) hs

theorem autoSuspend_sound {q : List Instr} {s : State} {b : Nat} (hs : Sound q s) :
    Sound q (autoSuspend s b) := by
  delta autoSuspend
  exact Sound.ite (event_sound (flashSync_sound (setBank_sound hs))) hs

theorem fireSilLimit_sound {q : List Instr} {s : State} {n : Nat} (hs : Sound q s) :
    Sound q (fireSilLimit s n) := by
  delta fireSilLimit
  exact fire_sound hs

theorem silPersist_sound {q : List Instr} {s : State} {x : Nat × Word} (hs : Sound q s) :
    Sound q (silPersist s x) := by
  delta silPersist
  extract_lets +onlyGivenNames -merge -useContext -underBinder c_0
  clear_value c_0
  extract_lets +onlyGivenNames -merge -useContext -underBinder s1_1
  have hs1_1 : Sound q s1_1 := by
    unfold s1_1
    exact Sound.mk (Good.of hs)
  clear_value s1_1
  extract_lets +onlyGivenNames -merge -useContext -underBinder _2
  clear_value _2
  extract_lets +onlyGivenNames -merge -useContext -underBinder s2_3
  have hs2_3 : Sound q s2_3 := by
    unfold s2_3
    exact sillPut_sound (setNv_sound hs1_1)
  clear_value s2_3
  exact Sound.ite (fireSilLimit_sound (event_sound (setFlag_sound (Sound.ite (setFlag_sound (Sound.ite (event_sound
      hs2_3) hs2_3)) (Sound.ite (event_sound hs2_3) hs2_3))))) (Sound.ite (event_sound hs2_3) hs2_3)

theorem silSync_sound {q : List Instr} {s : State} (hs : Sound q s) :
    Sound q (silSync s) := by
  delta silSync
  exact setFlag_sound (setF_sound hs)

theorem silStart_sound {q : List Instr} {s : State} (hs : Sound q s) :
    Sound q (silStart s) := by
  delta silStart
  exact Sound.ite (flashSync_sound (silSync_sound (setNv_sound (autoSuspend_sound hs)))) (silSync_sound hs)

theorem silBatchDone_sound {q : List Instr} {s : State} (hs : Sound q s) :
    Sound q (silBatchDone s) := by
  delta silBatchDone
  exact Sound.ite hs (Sound.ite (autoResume_sound (flashSync_sound (silStart_sound (Sound.foldl (setNv_sound hs) fun
      _ _ h_0 => silPersist_sound h_0)))) (silStart_sound (Sound.foldl (setNv_sound hs) fun _ _ h_0 =>
      silPersist_sound h_0)))

theorem execSillBatchDone_sound {q : List Instr} {s : State} (hs : Sound q s) :
    OutSound q (execSillBatchDone s) := by
  delta execSillBatchDone
  exact OutSound.next (silBatchDone_sound hs)

theorem silDrop_sound {q : List Instr} {s : State} (hs : Sound q s) :
    Sound q (silDrop s) := by
  delta silDrop
  exact event_sound (countF_sound hs)

theorem silStore_sound {q : List Instr} {s : State} {n : Nat} {v : Word} (hs : Sound q s) :
    Sound q (silStore s n v) := by
  delta silStore
  exact Sound.ite (silDrop_sound hs) (Sound.ite (Sound.ite (silDrop_sound hs) (fireSilLimit_sound (setNv_sound
      (silDrop_sound hs)))) (Sound.ite (setNv_sound hs) (Sound.ite (silDrop_sound hs) (silStart_sound (setNv_sound
      hs)))))

theorem sillWriteEffect_sound {q : List Instr} {reg : Nat} {v : Word} {s : State} (hs : Sound q s) :
    Sound q (sillWriteEffect reg v s) := by
  delta sillWriteEffect
  exact Sound.ite hs (Sound.ite (silDrop_sound hs) (silStore_sound hs))

theorem execSillWrite_sound {q : List Instr} {reg : Nat} {v : Word} {s : State} (hs : Sound q s) :
    OutSound q (execSillWrite reg v s) := by
  delta execSillWrite
  exact OutSound.next (sillWriteEffect_sound hs)

theorem kerfSill_sound {q : List Instr} {s : State} (hs : Sound q s) :
    Sound q (kerfSill s) := by
  delta kerfSill
  exact Sound.ite (silBatchDone_sound (Sound.ite (silBatchDone_sound hs) hs)) (Sound.ite (silBatchDone_sound hs) hs)

theorem programNow_sound {q : List Instr} {b : Nat} {f : State → State} {s : State} (hf : ∀ y0, Sound q y0 → Sound q
    (f y0)) (hs : Sound q s) :
    Sound q (programNow b f s) := by
  delta programNow
  exact autoResume_sound (hf _ (autoSuspend_sound hs))

/-! ### KeyStore -/

theorem activateRestored_sound {q : List Instr} {s : State} (hs : Sound q s) :
    Sound q (activateRestored s) := by
  delta activateRestored
  exact Sound.foldl hs fun _ _ h_0 => activateKey_sound h_0

theorem putRecord_sound {q : List Instr} {s : State} {r : KeyRecord} (hs : Sound q s) :
    Sound q (putRecord s r) := by
  delta putRecord
  exact Sound.mk (Good.of hs)

theorem countReservation_sound {q : List Instr} {s : State} {late : Nat} (hs : Sound q s) :
    Sound q (countReservation s late) := by
  delta countReservation
  exact Sound.ite (event_sound (Sound.ite (setF_sound (countReg_sound hs)) (countReg_sound hs))) (Sound.ite
      (setF_sound (countReg_sound hs)) (countReg_sound hs))

theorem writeReservation_sound {q : List Instr} {s : State} {slot : Nat} (hs : Sound q s) :
    Sound q (writeReservation s slot) := by
  delta writeReservation
  exact countReservation_sound (Sound.mk (Good.of (putRecord_sound (setKey_sound hs))))

theorem placeKeyRecord_sound {q : List Instr} {typ : Nat} {s : State} {r : KeyRecord} (hs : Sound q s) :
    Sound q (placeKeyRecord typ s r) := by
  delta placeKeyRecord
  exact Sound.foldl hs fun _ _ h_0 => placeRecord_sound h_0

theorem budgetReservationEffect_sound {q : List Instr} {slot : Nat} {s : State} (hs : Sound q s) :
    Sound q (budgetReservationEffect slot s) := by
  delta budgetReservationEffect
  exact Sound.ite (Sound.ite (placeKeyRecord_sound (programNow_sound (fun _ h_0 => writeReservation_sound h_0) hs))
      (programNow_sound (fun _ h_0 => writeReservation_sound h_0) hs)) hs

theorem dropSliceRecords_sound {q : List Instr} {s : State} {slice : Nat} (hs : Sound q s) :
    Sound q (dropSliceRecords s slice) := by
  delta dropSliceRecords
  exact Sound.mk (Good.of hs)

theorem execBudgetReservation_sound {q : List Instr} {slot : Nat} {s : State} (hs : Sound q s) :
    OutSound q (execBudgetReservation slot s) := by
  delta execBudgetReservation
  exact OutSound.next (budgetReservationEffect_sound hs)

theorem ivPersist_sound {q : List Instr} {s : State} {v : Nat} (hs : Sound q s) :
    Sound q (ivPersist s v) := by
  delta ivPersist
  exact Sound.ite (setFlag_sound (silStore_sound hs)) (silStore_sound hs)

theorem ivReservationEffect_sound {q : List Instr} {s : State} (hs : Sound q s) :
    Sound q (ivReservationEffect s) := by
  delta ivReservationEffect
  exact Sound.ite (ivPersist_sound hs) hs

theorem execIvReservation_sound {q : List Instr} {s : State} (hs : Sound q s) :
    OutSound q (execIvReservation s) := by
  delta execIvReservation
  exact OutSound.next (ivReservationEffect_sound hs)

theorem execKeySlotZeroise_sound {q : List Instr} {slot : Nat} {s : State} (hs : Sound q s) :
    OutSound q (execKeySlotZeroise slot s) := by
  delta execKeySlotZeroise
  exact OutSound.next (zeroiseSlot_sound hs)

theorem kstReserveEffect_sound {q : List Instr} {slot : Nat} {s : State} (hs : Sound q s) :
    Sound q (kstReserveEffect slot s) := by
  delta kstReserveEffect
  split
  · exact hs
  · exact Sound.ite (firePlain_sound hs) hs

theorem execKstReserve_sound {q : List Instr} {slot : Nat} {s : State} (hs : Sound q s) :
    OutSound q (execKstReserve slot s) := by
  delta execKstReserve
  exact OutSound.next (kstReserveEffect_sound hs)

theorem storedRecordWriteEffect_sound {q : List Instr} {slot : Nat} {s : State} (hs : Sound q s) :
    Sound q (storedRecordWriteEffect slot s) := by
  delta storedRecordWriteEffect
  exact Sound.ite (Sound.ite (placeKeyRecord_sound (Sound.mk (Good.of (programNow_sound (fun _ h_0 =>
      writeReservation_sound h_0) hs)))) (Sound.mk (Good.of (programNow_sound (fun _ h_0 => writeReservation_sound
      h_0) hs)))) hs

theorem execStoredRecordWrite_sound {q : List Instr} {slot : Nat} {s : State} (hs : Sound q s) :
    OutSound q (execStoredRecordWrite slot s) := by
  delta execStoredRecordWrite
  exact OutSound.next (storedRecordWriteEffect_sound hs)

theorem tombstoneCommitEffect_sound {q : List Instr} {s : State} (hs : Sound q s) :
    Sound q (tombstoneCommitEffect s) := by
  delta tombstoneCommitEffect
  split
  · exact writeTombstone_sound hs
  · exact hs

theorem execTombstoneCommit_sound {q : List Instr} {s : State} (hs : Sound q s) :
    OutSound q (execTombstoneCommit s) := by
  delta execTombstoneCommit
  exact OutSound.next (tombstoneCommitEffect_sound hs)

theorem kerfMarkers_sound {q : List Instr} {s : State} (hs : Sound q s) :
    Sound q (kerfMarkers s) := by
  delta kerfMarkers
  exact Sound.foldl hs fun _ _ h_0 => placeRecord_sound (Sound.mk (Good.of h_0))

theorem kerfRecords_sound {q : List Instr} {s : State} (hs : Sound q s) :
    Sound q (kerfRecords s) := by
  delta kerfRecords
  exact kerfMarkers_sound (Sound.foldl (Sound.foldl (Sound.foldl hs fun _ _ h_0 => storedRecordWriteEffect_sound
      h_0) fun _ _ h_1 => budgetReservationEffect_sound h_1) fun _ _ h_2 => kstReserveEffect_sound h_2)

theorem kerfReservations_sound {q : List Instr} {s : State} (hs : Sound q s) :
    Sound q (kerfReservations s) := by
  delta kerfReservations
  exact Sound.mk (Good.of hs)

theorem kerfTombs_sound {q : List Instr} {s : State} (hs : Sound q s) :
    Sound q (kerfTombs s) := by
  delta kerfTombs
  exact Sound.ite hs (Sound.foldl hs fun _ _ h_0 => writeTombstone_sound h_0)

theorem kstSync_sound {q : List Instr} {s : State} (hs : Sound q s) :
    Sound q (kstSync s) := by
  delta kstSync
  exact Sound.ite (setFlag_sound (setFlag_sound hs)) (setFlag_sound hs)

theorem overReserved_sound {q : List Instr} {s : State} {n : Nat} (hs : Sound q s) :
    Sound q (overReserved s n) := by
  delta overReserved
  split
  · exact hs
  · exact Sound.ite (setCtx_sound hs) hs

theorem skipRecord_sound {q : List Instr} {s : State} (hs : Sound q s) :
    Sound q (skipRecord s) := by
  delta skipRecord
  exact event_sound (countF_sound hs)

theorem restoreMaster_sound {q : List Instr} {s : State} {slot : Nat} (hs : Sound q s) :
    Sound q (restoreMaster s slot) := by
  delta restoreMaster
  split
  · exact hs
  · extract_lets +onlyGivenNames -merge -useContext -underBinder k_0
    clear_value k_0
    refine Sound.ite ?_ ?_
    · exact hs
    · split
      · exact skipRecord_sound hs
      · exact setKey_sound hs

theorem restoreRecord_sound {q : List Instr} {s : State} {r : KeyRecord} (hs : Sound q s) :
    Sound q (restoreRecord s r) := by
  delta restoreRecord
  refine Sound.ite ?_ ?_
  · exact hs
  · split
    · exact skipRecord_sound hs
    · exact Sound.ite (setKey_sound (loadSlots_sound hs)) (Sound.mk (Good.of (setKey_sound (loadSlots_sound hs))))

theorem restoreSlice_sound {q : List Instr} {s : State} {slice : Nat} {vault : Bool} (hs : Sound q s) :
    Sound q (restoreSlice s slice vault) := by
  delta restoreSlice
  exact Sound.ite hs (Sound.foldl hs fun _ _ h_0 => restoreRecord_sound h_0)

theorem zeroiseSliceKeys_sound {q : List Instr} {s : State} {slice : Nat} (hs : Sound q s) :
    Sound q (zeroiseSliceKeys s slice) := by
  delta zeroiseSliceKeys
  exact Sound.foldl (Sound.mk (Good.of hs)) fun _ _ h_0 => Sound.ite (dropRecord_sound (emptyKey_sound h_0))
      (emptyKey_sound h_0)

/-! ### AdminRun -/

theorem admSync_sound {q : List Instr} {s : State} (hs : Sound q s) :
    Sound q (admSync s) := by
  delta admSync
  exact setF_sound hs

theorem adminEnd_sound {q : List Instr} {s : State} {n : Nat} {r : CmdResult} (hs : Sound q s) :
    Sound q (adminEnd s n r) := by
  delta adminEnd
  split
  · exact setCtx_sound hs
  · exact hs

theorem adminOk_sound {q : List Instr} {s : State} {n : Nat} {inline : Bytes} (hs : Sound q s) :
    Sound q (adminOk s n inline) := by
  delta adminOk
  exact adminEnd_sound hs

theorem adminTaken_sound {q : List Instr} {s : State} {n stage : Nat} (hs : Sound q s) :
    Sound q (adminTaken s n stage) := by
  delta adminTaken
  split
  · exact setCtx_sound hs
  · exact hs

theorem sliceFail_sound {q : List Instr} {s : State} {n reason : Nat} {extra : Bytes} (hs : Sound q s) :
    Sound q (sliceFail s n reason extra) := by
  delta sliceFail
  exact adminEnd_sound (setF_sound (setF_sound hs))

theorem withSource_sound {q : List Instr} {s : State} {n : Nat} {c : Ctx} {work : State → Ctx → State} (hs : Sound q
    s) (hwork : ∀ y0 y1, Sound q y0 → Sound q (work y0 y1)) :
    Sound q (withSource s n c work) := by
  delta withSource
  exact Sound.ite (adminEnd_sound hs) (Sound.ite (hwork _ _ hs) (Sound.ite (emit_sound (setCtx_sound hs)) hs))

end Sys2Proof.Machine
end

