-- ==== Sys2Proof/Laws/SoundVault.lean ====
section
/-!
SUPPORT. Soundness (Laws/Sound.lean) is kept by each operation of the vault store and the LMS engine.
-/
namespace Sys2Proof.Machine
open Sys2Proof

/-! ### VaultStore -/

theorem anchorCaptureEffect_sound {q : List Instr} {s : State} (hs : Sound q s) :
    Sound q (anchorCaptureEffect s) := by
  delta anchorCaptureEffect
  exact Sound.ite (setVault_sound hs) hs

theorem anchorProgrammedEffect_sound {q : List Instr} {s : State} (hs : Sound q s) :
    Sound q (anchorProgrammedEffect s) := by
  delta anchorProgrammedEffect
  split
  · exact hs
  · exact Sound.ite hs (event_sound (tombSync_sound (Sound.foldl (setReg_sound (setReg_sound (setVault_sound hs)))
      fun _ _ h_0 => adminOk_sound h_0)))

theorem baseBucket_sound {q : List Instr} {s : State} {slice : Nat} {b : Bucket} (hs : Sound q s) :
    Sound q (baseBucket s slice b) := by
  delta baseBucket
  refine Sound.foldl ?_ ?_
  · exact hs
  · intro t_0 a_1 h_2
    split
    · exact placeRecord_sound h_2
    · exact h_2

theorem baseEndEffect_sound {q : List Instr} {slice : Nat} {s : State} (hs : Sound q s) :
    Sound q (baseEndEffect slice s) := by
  delta baseEndEffect
  extract_lets +onlyGivenNames -merge -useContext -underBinder c_0
  clear_value c_0
  split
  · exact Sound.ite (setVault_sound (placeRecord_sound (setChain_sound hs))) hs
  · exact hs

theorem baseKeys_sound {q : List Instr} {s : State} {slice : Nat} (hs : Sound q s) :
    Sound q (baseKeys s slice) := by
  delta baseKeys
  exact Sound.foldl hs fun _ _ h_0 => placeKeyRecord_sound h_0

theorem ddrErrorEffect_sound {q : List Instr} {ch sub_ : Nat} {ue : Bool} {chain : Option Nat} {panel : Nat} {ctx :
    Option Nat} {s : State} (hs : Sound q s) :
    Sound q (ddrErrorEffect ch sub_ ue chain panel ctx s) := by
  delta ddrErrorEffect
  extract_lets +onlyGivenNames -merge -useContext -underBinder s1_0
  have hs1_0 : Sound q s1_0 := by
    unfold s1_0
    exact setF_sound (setF_sound (setF_sound hs))
  clear_value s1_0
  refine Sound.ite ?_ ?_
  · extract_lets +onlyGivenNames -merge -useContext -underBinder _1
    clear_value _1
    extract_lets +onlyGivenNames -merge -useContext -underBinder s2_2
    have hs2_2 : Sound q s2_2 := by
      unfold s2_2
      exact event_sound (countF_sound hs1_0)
    clear_value s2_2
    split
    · exact vaultIntegrity_sound hs2_2
    · exact hs2_2
  · exact event_sound (countReg_sound hs1_0)

theorem ddrThermalEffect_sound {q : List Instr} {deg : Byte} {hot : Bool} {s : State} (hs : Sound q s) :
    Sound q (ddrThermalEffect deg hot s) := by
  delta ddrThermalEffect
  exact Sound.ite (event_sound (firePlain_sound (setFlag_sound (setF_sound hs)))) (setFlag_sound (setF_sound hs))

theorem vltReadySync_sound {q : List Instr} {s : State} (hs : Sound q s) :
    Sound q (vltReadySync s) := by
  delta vltReadySync
  exact Sound.ite hs (Sound.ite (setFlag_sound hs) (setFlag_sound (setTree_sound (drawFrom_sound hs))))

theorem ddrTrainedEffect_sound {q : List Instr} {populated trained rate dimm ranks : Nat} {s : State} (hs : Sound q
    s) :
    Sound q (ddrTrainedEffect populated trained rate dimm ranks s) := by
  delta ddrTrainedEffect
  exact Sound.ite (setFlag_sound (setFlag_sound (setF_sound (setF_sound (Sound.ite (event_sound (fire_sound hs))
      hs))))) (vltReadySync_sound (Sound.mk (Good.of (setF_sound (setF_sound (setFlag_sound (setF_sound (setF_sound
      (setF_sound (setF_sound (setF_sound (Sound.ite (event_sound (fire_sound hs)) hs))))))))))))

theorem execAnchorCapture_sound {q : List Instr} {s : State} (hs : Sound q s) :
    OutSound q (execAnchorCapture s) := by
  delta execAnchorCapture
  exact OutSound.next (anchorCaptureEffect_sound hs)

theorem execAnchorProgrammed_sound {q : List Instr} {s : State} (hs : Sound q s) :
    OutSound q (execAnchorProgrammed s) := by
  delta execAnchorProgrammed
  exact OutSound.next (anchorProgrammedEffect_sound hs)

theorem execBaseEnd_sound {q : List Instr} {slice : Nat} {s : State} (hs : Sound q s) :
    OutSound q (execBaseEnd slice s) := by
  delta execBaseEnd
  exact OutSound.next (baseEndEffect_sound hs)

theorem execDdrError_sound {q : List Instr} {ch sub_ : Nat} {ue : Bool} {chain : Option Nat} {panel : Nat} {ctx :
    Option Nat} {s : State} (hs : Sound q s) :
    OutSound q (execDdrError ch sub_ ue chain panel ctx s) := by
  delta execDdrError
  exact OutSound.next (ddrErrorEffect_sound hs)

theorem execDdrThermal_sound {q : List Instr} {deg : Byte} {hot : Bool} {s : State} (hs : Sound q s) :
    OutSound q (execDdrThermal deg hot s) := by
  delta execDdrThermal
  exact OutSound.next (ddrThermalEffect_sound hs)

theorem execDdrTrainingDone_sound {q : List Instr} {populated trained rate dimm ranks : Nat} {s : State} (hs : Sound
    q s) :
    OutSound q (execDdrTrainingDone populated trained rate dimm ranks s) := by
  delta execDdrTrainingDone
  exact OutSound.next (ddrTrainedEffect_sound hs)

theorem journalWriteEffect_sound {q : List Instr} {chain : Nat} {s : State} (hs : Sound q s) :
    Sound q (journalWriteEffect chain s) := by
  delta journalWriteEffect
  extract_lets +onlyGivenNames -merge -useContext -underBinder c_0
  clear_value c_0
  split
  · exact hs
  · exact Sound.ite hs (Sound.ite (Sound.ite (event_sound hs) hs) (setChain_sound (emit_sound (Sound.ite hs
      (emit_sound hs)))))

theorem execJournalRecordWrite_sound {q : List Instr} {chain : Nat} {s : State} (hs : Sound q s) :
    OutSound q (execJournalRecordWrite chain s) := by
  delta execJournalRecordWrite
  exact OutSound.next (journalWriteEffect_sound hs)

theorem rebaseStartEffect_sound {q : List Instr} {slice : Nat} {s : State} (hs : Sound q s) :
    Sound q (rebaseStartEffect slice s) := by
  delta rebaseStartEffect
  exact Sound.ite (placeRecord_sound (setChain_sound hs)) hs

theorem execRebaseStart_sound {q : List Instr} {slice : Nat} {s : State} (hs : Sound q s) :
    OutSound q (execRebaseStart slice s) := by
  delta execRebaseStart
  exact OutSound.next (rebaseStartEffect_sound hs)

theorem renewAfter_sound {q : List Instr} {s : State} {x1 : Nat} {fault chain : Option Nat} (hs : Sound q s) :
    Sound q (renewAfter s x1 fault chain) := by
  delta renewAfter
  split
  · exact vaultIntegrity_sound hs
  · exact hs
  · exact Sound.ite hs (setVault_sound hs)

theorem reencryptionEffect_sound {q : List Instr} {s : State} (hs : Sound q s) :
    Sound q (reencryptionEffect s) := by
  delta reencryptionEffect
  split
  · exact hs
  · exact renewAfter_sound hs

theorem execReencryption_sound {q : List Instr} {s : State} (hs : Sound q s) :
    OutSound q (execReencryption s) := by
  delta execReencryption
  exact OutSound.next (reencryptionEffect_sound hs)

theorem sweepEndEffect_sound {q : List Instr} {s : State} (hs : Sound q s) :
    Sound q (sweepEndEffect s) := by
  delta sweepEndEffect
  extract_lets +onlyGivenNames -merge -useContext -underBinder v_0
  clear_value v_0
  split
  · exact Sound.ite (event_sound (setF_sound (setFlag_sound (setVault_sound hs)))) hs
  · exact hs

theorem execRekeySweepEnd_sound {q : List Instr} {s : State} (hs : Sound q s) :
    OutSound q (execRekeySweepEnd s) := by
  delta execRekeySweepEnd
  exact OutSound.next (sweepEndEffect_sound hs)

theorem sweepStartEffect_sound {q : List Instr} {s : State} (hs : Sound q s) :
    Sound q (sweepStartEffect s) := by
  delta sweepStartEffect
  exact Sound.ite (event_sound (setF_sound (setFlag_sound (setVault_sound (drawFrom_sound hs))))) hs

theorem execRekeySweepStart_sound {q : List Instr} {s : State} (hs : Sound q s) :
    OutSound q (execRekeySweepStart s) := by
  delta execRekeySweepStart
  exact OutSound.next (sweepStartEffect_sound hs)

theorem queueRebase_sound {q : List Instr} {s : State} {slice : Nat} (hs : Sound q s) :
    Sound q (queueRebase s slice) := by
  delta queueRebase
  exact Sound.ite hs (setChain_sound hs)

theorem vaultAnchorEffect_sound {q : List Instr} {n : Nat} {s : State} (hs : Sound q s) :
    Sound q (vaultAnchorEffect n s) := by
  delta vaultAnchorEffect
  split
  · exact hs
  · exact Sound.ite hs (Sound.ite (adminEnd_sound hs) (adminTaken_sound (setVault_sound (Sound.ite
      (queueRebase_sound hs) hs))))

theorem execVaultAnchor_sound {q : List Instr} {ctx : Nat} {s : State} (hs : Sound q s) :
    OutSound q (execVaultAnchor ctx s) := by
  delta execVaultAnchor
  exact OutSound.next (vaultAnchorEffect_sound hs)

theorem reloadInfo_sound {q : List Instr} {s : State} {chain applied reason : Nat} {overr : Bool} (hs : Sound q s) :
    Sound q (reloadInfo s chain applied reason overr) := by
  delta reloadInfo
  exact setReg_sound (setF_sound (setF_sound (setF_sound hs)))

theorem replayKey_sound {q : List Instr} {s : State} {chain : Nat} {p b : Bytes} (hs : Sound q s) :
    Sound q (replayKey s chain p b) := by
  delta replayKey
  exact Sound.ite hs (Sound.ite (Sound.mk (Good.of hs)) (Sound.ite (putRecord_sound hs) hs))

theorem replayEntry_sound {q : List Instr} {s : State} {chain : Nat} {p : Bytes} (hs : Sound q s) :
    OptSound q (replayEntry s chain p) := by
  delta replayEntry
  extract_lets +onlyGivenNames -merge -useContext -underBinder table_0
  clear_value table_0
  extract_lets +onlyGivenNames -merge -useContext -underBinder cell_1
  clear_value cell_1
  extract_lets +onlyGivenNames -merge -useContext -underBinder num_2
  clear_value num_2
  extract_lets +onlyGivenNames -merge -useContext -underBinder slice_3
  clear_value slice_3
  extract_lets +onlyGivenNames -merge -useContext -underBinder e_4
  clear_value e_4
  refine OptSound.ite ?_ ?_
  · exact OptSound.none
  · exact OptSound.ite OptSound.none (OptSound.some (Sound.ite (putCell_sound (putCell_sound (Sound.ite
      (writeValue_sound (Sound.ite hs (clearCell_sound hs))) (Sound.ite hs (clearCell_sound hs))))) (putCell_sound
      (Sound.ite (writeValue_sound (Sound.ite hs (clearCell_sound hs))) (Sound.ite hs (clearCell_sound hs))))))

theorem replayDelete_sound {q : List Instr} {s : State} {chain : Nat} {rk : Bytes} (hs : Sound q s) :
    Sound q (replayDelete s chain rk) := by
  delta replayDelete
  split
  · exact hs
  · split
    · exact clearCell_sound hs
    · exact hs

theorem replayTomb_sound {q : List Instr} {s : State} {id : Bytes} (hs : Sound q s) :
    OptSound q (replayTomb s id) := by
  delta replayTomb
  exact OptSound.ite OptSound.none (OptSound.ite (OptSound.some hs) (OptSound.ite OptSound.none (OptSound.some
      (putCell_sound hs))))

theorem replayRecord_sound {q : List Instr} {s : State} {chain : Nat} {r : JRec} {p part : Bytes} (hs : Sound q s) :
    OptSound q (replayRecord s chain r p part) := by
  delta replayRecord
  exact OptSound.ite (OptSound.ite (OptSound.some (replayKey_sound hs)) (replayEntry_sound hs)) (OptSound.ite
      (OptSound.some (replayDelete_sound hs)) (OptSound.ite (replayTomb_sound hs) (OptSound.some hs)))

theorem reloadRun_sound {q : List Instr} {chain : Nat} {rs : List JRec} {s : State} {l : Reload} (hs : Sound q s) :
    Sound q (reloadRun chain rs s l).1 := by
  induction rs generalizing s l with
  | nil => exact hs
  | cons r rest ih =>
    rw [reloadRun]
    split
    · exact hs
    · refine Sound.ite_fst hs (Sound.ite_fst hs (Sound.ite_fst hs ?_))
      dsimp only
      split
      · exact hs
      · rename_i e
        exact ih ((replayRecord_sound hs).get e)

theorem reloadPart_sound {q : List Instr} {n : Nat} {c : Ctx} {s : State} (hs : Sound q s) :
    Sound q (reloadPart n c s) := by
  delta reloadPart
  extract_lets +onlyGivenNames -merge -useContext -underBinder p_0
  clear_value p_0
  extract_lets +onlyGivenNames -merge -useContext -underBinder chain_1
  clear_value chain_1
  extract_lets +onlyGivenNames -merge -useContext -underBinder firstP_2
  clear_value firstP_2
  extract_lets +onlyGivenNames -merge -useContext -underBinder lastP_3
  clear_value lastP_3
  extract_lets +onlyGivenNames -merge -useContext -underBinder overr_4
  clear_value overr_4
  extract_lets +onlyGivenNames -merge -useContext -underBinder permitted_5
  clear_value permitted_5
  extract_lets +onlyGivenNames -merge -useContext -underBinder ch_6
  clear_value ch_6
  split
  · exact adminEnd_sound hs
  · extract_lets +onlyGivenNames -merge -useContext -underBinder foreign_7
    clear_value foreign_7
    extract_lets +onlyGivenNames -merge -useContext -underBinder stateOk_8
    clear_value stateOk_8
    refine Sound.ite ?_ ?_
    · exact adminEnd_sound hs
    · refine Sound.ite ?_ ?_
      · exact adminEnd_sound hs
      · extract_lets +onlyGivenNames -merge -useContext -underBinder s0_9
        have hs0_9 : Sound q s0_9 := by
          unfold s0_9
          exact Sound.ite (setChain_sound (clearChain_sound hs)) hs
        clear_value s0_9
        extract_lets +onlyGivenNames -merge -useContext -underBinder _10
        clear_value _10
        extract_lets +onlyGivenNames -merge -useContext -underBinder l0_11
        clear_value l0_11
        extract_lets +onlyGivenNames -merge -useContext -underBinder r_12
        have hr_12 : Sound q r_12.1 := by
          unfold r_12
          exact reloadRun_sound hs0_9
        clear_value r_12
        extract_lets +onlyGivenNames -merge -useContext -underBinder l_13
        clear_value l_13
        extract_lets +onlyGivenNames -merge -useContext -underBinder bad_14
        clear_value bad_14
        split
        · exact adminEnd_sound (event_sound (tombSync_sound (Sound.ite (setChain_sound (reloadInfo_sound hr_12))
            (setChain_sound (clearChain_sound (reloadInfo_sound hr_12))))))
        · extract_lets +onlyGivenNames -merge -useContext -underBinder inl_15
          clear_value inl_15
          refine Sound.ite ?_ ?_
          · exact adminOk_sound (reloadInfo_sound (setChain_sound hr_12))
          · refine Sound.ite ?_ ?_
            · exact adminOk_sound (event_sound (reloadInfo_sound (setVault_sound (setChain_sound hr_12))))
            · exact adminOk_sound (event_sound (tombSync_sound (reloadInfo_sound (setVault_sound (Sound.ite
                (restoreSlice_sound (Sound.ite (event_sound (setFlag_sound (setChain_sound hr_12))) (setChain_sound
                hr_12))) (Sound.ite (event_sound (setFlag_sound (setChain_sound hr_12))) (setChain_sound
                hr_12)))))))

theorem vaultReloadEffect_sound {q : List Instr} {n : Nat} {s : State} (hs : Sound q s) :
    Sound q (vaultReloadEffect n s) := by
  delta vaultReloadEffect
  split
  · exact hs
  · exact Sound.ite (Sound.ite (adminEnd_sound (event_sound (tombSync_sound (setChain_sound (clearChain_sound
      (reloadInfo_sound hs)))))) (Sound.ite (adminEnd_sound (event_sound (reloadInfo_sound hs))) (adminEnd_sound
      hs))) (withSource_sound hs (fun _ _ h_0 => reloadPart_sound h_0))

theorem execVaultReload_sound {q : List Instr} {ctx : Nat} {s : State} (hs : Sound q s) :
    OutSound q (execVaultReload ctx s) := by
  delta execVaultReload
  exact OutSound.next (vaultReloadEffect_sound hs)

theorem jheadWriteEffect_sound {q : List Instr} {v : Word} {s : State} (hs : Sound q s) :
    Sound q (jheadWriteEffect v s) := by
  delta jheadWriteEffect
  exact Sound.ite (setChain_sound hs) hs

theorem execVltJheadWrite_sound {q : List Instr} {v : Word} {s : State} (hs : Sound q s) :
    OutSound q (execVltJheadWrite v s) := by
  delta execVltJheadWrite
  exact OutSound.next (jheadWriteEffect_sound hs)

theorem kerfAnchor_sound {q : List Instr} {s : State} (hs : Sound q s) :
    Sound q (kerfAnchor s) := by
  delta kerfAnchor
  split
  · exact Sound.ite (anchorProgrammedEffect_sound hs) hs
  · exact hs

theorem vaultReady_sound {q : List Instr} {s : State} {slice : Nat} (hs : Sound q s) :
    Sound q (vaultReady s slice) := by
  delta vaultReady
  exact Sound.ite (setChain_sound hs) (queueRebase_sound (setChain_sound hs))

theorem kerfJournalKeys_sound {q : List Instr} {s : State} (hs : Sound q s) :
    Sound q (kerfJournalKeys s) := by
  delta kerfJournalKeys
  exact Sound.foldl hs fun _ _ h_0 => Sound.ite h_0 (Sound.ite (Sound.ite (vaultReady_sound h_0) h_0) (Sound.ite
      (setChain_sound h_0) h_0))

theorem walkStep_sound {q : List Instr} {s : State} {slice base p : Nat} (hs : Sound q s) :
    Sound q (walkStep s slice base p) := by
  delta walkStep
  exact baseEndEffect_sound (setChain_sound (Sound.foldl (Sound.ite (baseKeys_sound hs) hs) fun _ _ h_0 =>
      baseBucket_sound h_0))

theorem walkAfter_sound {q : List Instr} {s : State} {slice base p : Nat} {fault : Option (Nat × Nat)} (hs : Sound q
    s) :
    Sound q (walkAfter s slice base p fault) := by
  delta walkAfter
  split
  · exact vaultIntegrity_sound hs
  · exact walkStep_sound hs

theorem walkTick_sound {q : List Instr} {s : State} {slice : Nat} (hs : Sound q s) :
    Sound q (walkTick s slice) := by
  delta walkTick
  split
  · exact Sound.ite hs (walkAfter_sound hs)
  · exact hs

theorem kerfRebase_sound {q : List Instr} {s : State} (hs : Sound q s) :
    Sound q (kerfRebase s) := by
  delta kerfRebase
  extract_lets +onlyGivenNames -merge -useContext -underBinder s1_0
  have hs1_0 : Sound q s1_0 := by
    unfold s1_0
    exact Sound.foldl hs fun _ _ h_1 => walkTick_sound h_1
  clear_value s1_0
  refine Sound.ite ?_ ?_
  · exact hs1_0
  · split
    · exact rebaseStartEffect_sound hs1_0
    · exact hs1_0

theorem kerfRings_sound {q : List Instr} {s : State} (hs : Sound q s) :
    Sound q (kerfRings s) := by
  delta kerfRings
  exact Sound.foldl hs fun _ _ h_0 => Sound.foldl h_0 fun _ _ h_1 => journalWriteEffect_sound h_1

theorem kerfUpkeep_sound {q : List Instr} {s : State} (hs : Sound q s) :
    Sound q (kerfUpkeep s) := by
  delta kerfUpkeep
  exact Sound.ite (reencryptionEffect_sound hs) hs

theorem switchPage_sound {q : List Instr} {s : State} {p : Nat} (hs : Sound q s) :
    Sound q (switchPage s p) := by
  delta switchPage
  exact Sound.ite hs (setVault_sound hs)

theorem sweepAfter_sound {q : List Instr} {s : State} {p : Nat} {fault : Option (Nat × Nat)} {chain : Option Nat}
    (hs : Sound q s) :
    Sound q (sweepAfter s p fault chain) := by
  delta sweepAfter
  split
  · exact vaultIntegrity_sound hs
  · exact hs
  · exact panelBack_sound hs

theorem sweepPanel_sound {q : List Instr} {s : State} {p : Nat} (hs : Sound q s) :
    Sound q (sweepPanel s p) := by
  delta sweepPanel
  exact Sound.ite hs (sweepAfter_sound hs)

theorem sweepTick_sound {q : List Instr} {s : State} (hs : Sound q s) :
    Sound q (sweepTick s) := by
  delta sweepTick
  split
  · exact hs
  · exact sweepEndEffect_sound (setF_sound (setVault_sound (switchPage_sound (Sound.foldl hs fun _ _ h_0 =>
      sweepPanel_sound h_0))))

theorem kerfVault_sound {q : List Instr} {s : State} (hs : Sound q s) :
    Sound q (kerfVault s) := by
  delta kerfVault
  exact tombSync_sound (kerfRebase_sound (sweepTick_sound (sweepStartEffect_sound (kerfUpkeep_sound
      (anchorCaptureEffect_sound (kerfAnchor_sound (kerfRings_sound (kerfJournalKeys_sound hs))))))))

/-! ### Lms -/

theorem lmsSync_sound {q : List Instr} {s : State} (hs : Sound q s) :
    Sound q (lmsSync s) := by
  delta lmsSync
  exact setF_sound (setF_sound (setFlag_sound (Sound.ite (event_sound (setFlag_sound (setFlag_sound hs)))
      (setFlag_sound (setFlag_sound hs)))))

theorem assignIndex_sound {q : List Instr} {s : State} {n : Nat} {c : Ctx} (hs : Sound q s) :
    Sound q (assignIndex s n c) := by
  delta assignIndex
  split
  · exact hs
  · split
    · exact hs
    · exact lmsSync_sound (setCtx_sound (Sound.ite (event_sound (setPair_sound hs)) (setPair_sound hs)))

theorem upkeepHash_sound {q : List Instr} {s : State} {n : Nat} (hs : Sound q s) :
    Sound q (upkeepHash s n) := by
  delta upkeepHash
  exact Sound.foldl hs fun _ _ h_0 => Sound.mk (Good.of h_0)

theorem setLms_sound {q : List Instr} {s : State} {l : Lms} (hs : Sound q s) :
    Sound q (setLms s l) := by
  delta setLms
  exact Sound.mk (Good.of hs)

theorem bottomTreeBuiltEffect_sound {q : List Instr} {pair : Nat} {s : State} (hs : Sound q s) :
    Sound q (bottomTreeBuiltEffect pair s) := by
  delta bottomTreeBuiltEffect
  split
  · exact hs
  · exact Sound.ite (lmsSync_sound (upkeepHash_sound (setLms_sound (setPair_sound hs)))) hs

theorem cacheRebuiltEffect_sound {q : List Instr} {pair bad : Nat} {s : State} (hs : Sound q s) :
    Sound q (cacheRebuiltEffect pair bad s) := by
  delta cacheRebuiltEffect
  split
  · exact hs
  · exact Sound.ite hs (lmsSync_sound (countF_sound (setPair_sound hs)))

theorem createRef_sound {q : List Instr} {s : State} {slice typ : Nat} {pub : Bytes} {pair : Nat} (hs : Sound q s) :
    Sound q (createRef s slice typ pub pair).1 := by
  delta createRef
  split
  · exact Sound.pair_fst hs
  · exact Sound.pair_fst (putRecord_sound (activateKey_sound (setKey_sound (loadSlots_sound hs))))

theorem removePair_sound {q : List Instr} {s : State} {n : Nat} (hs : Sound q s) :
    Sound q (removePair s n) := by
  delta removePair
  split
  · exact hs
  · exact lmsSync_sound (setLms_sound hs)

theorem pushRecord_sound {q : List Instr} {s : State} {typ set pair serial block : Nat} (hs : Sound q s) :
    Sound q (pushRecord s typ set pair serial block) := by
  delta pushRecord
  exact setLms_sound hs

theorem eraseOldest_sound {q : List Instr} {s : State} (hs : Sound q s) :
    Sound q (eraseOldest s) := by
  delta eraseOldest
  extract_lets +onlyGivenNames -merge -useContext -underBinder keep_0
  clear_value keep_0
  extract_lets +onlyGivenNames -merge -useContext -underBinder old_1
  clear_value old_1
  refine Sound.foldl ?_ ?_
  · exact setLms_sound hs
  · intro t_2 a_3 h_4
    split
    · exact pushRecord_sound h_4
    · exact h_4

theorem writeLog_sound {q : List Instr} {s : State} {typ set pair serial block : Nat} (hs : Sound q s) :
    Sound q (writeLog s typ set pair serial block) := by
  delta writeLog
  exact pushRecord_sound (Sound.ite (eraseOldest_sound hs) hs)

theorem destroyPair_sound {q : List Instr} {s : State} {n : Nat} (hs : Sound q s) :
    Sound q (destroyPair s n) := by
  delta destroyPair
  split
  · exact hs
  · exact removePair_sound (writeLog_sound hs)

theorem reqEnd_sound {q : List Instr} {s : State} {err : Nat} (hs : Sound q s) :
    Sound q (reqEnd s err) := by
  delta reqEnd
  exact event_sound (setF_sound (setF_sound hs))

theorem reqStart_sound {q : List Instr} {s : State} (hs : Sound q s) :
    Sound q (reqStart s) := by
  delta reqStart
  exact setF_sound (setF_sound hs)

theorem destroyStart_sound {q : List Instr} {s : State} (hs : Sound q s) :
    Sound q (destroyStart s) := by
  delta destroyStart
  extract_lets +onlyGivenNames -merge -useContext -underBinder h_0
  clear_value h_0
  extract_lets +onlyGivenNames -merge -useContext -underBinder a_1
  clear_value a_1
  extract_lets +onlyGivenNames -merge -useContext -underBinder k_2
  clear_value k_2
  refine Sound.ite ?_ ?_
  · exact reqEnd_sound hs
  · refine Sound.ite ?_ ?_
    · exact reqEnd_sound hs
    · extract_lets +onlyGivenNames -merge -useContext -underBinder s1_3
      have hs1_3 : Sound q s1_3 := by
        unfold s1_3
        exact endKey_sound hs
      clear_value s1_3
      extract_lets +onlyGivenNames -merge -useContext -underBinder n_4
      clear_value n_4
      extract_lets +onlyGivenNames -merge -useContext -underBinder s2_5
      have hs2_5 : Sound q s2_5 := by
        unfold s2_5
        refine Sound.ite ?_ ?_
        · split
          · exact setPair_sound hs1_3
          · exact hs1_3
        · exact hs1_3
      clear_value s2_5
      exact reqStart_sound (setLms_sound hs2_5)

theorem dropGeneration_sound {q : List Instr} {s : State} {n : Nat} (hs : Sound q s) :
    Sound q (dropGeneration s n) := by
  delta dropGeneration
  exact reqEnd_sound (removePair_sound (setLms_sound hs))

theorem emptyPublic_sound {q : List Instr} {s : State} {x1 : Nat} (hs : Sound q s) :
    Sound q (emptyPublic s x1) := by
  delta emptyPublic
  exact dropRecord_sound (emptyKey_sound (Sound.foldl hs fun _ _ h_0 => Sound.ite (setCtx_sound h_0) h_0))

theorem execBottomTreeBuilt_sound {q : List Instr} {pair : Nat} {s : State} (hs : Sound q s) :
    OutSound q (execBottomTreeBuilt pair s) := by
  delta execBottomTreeBuilt
  exact OutSound.next (bottomTreeBuiltEffect_sound hs)

theorem execCacheRebuilt_sound {q : List Instr} {pair bad : Nat} {s : State} (hs : Sound q s) :
    OutSound q (execCacheRebuilt pair bad s) := by
  delta execCacheRebuilt
  exact OutSound.next (cacheRebuiltEffect_sound hs)

theorem nextSerial_sound {q : List Instr} {s : State} (hs : Sound q s) :
    Sound q (nextSerial s).2 := by
  delta nextSerial
  exact Sound.pair_snd (silStore_sound hs)

theorem pairLive_sound {q : List Instr} {s : State} {n : Nat} {p : SeamPair} {ref block : Nat} (hs : Sound q s) :
    Sound q (pairLive s n p ref block) := by
  delta pairLive
  exact writeLog_sound (setPair_sound (nextSerial_sound hs))

theorem generateDoneEffect_sound {q : List Instr} {linkOk : Bool} {s : State} (hs : Sound q s) :
    Sound q (generateDoneEffect linkOk s) := by
  delta generateDoneEffect
  split
  · exact hs
  · split
    · exact hs
    · extract_lets +onlyGivenNames -merge -useContext -underBinder _0
      clear_value _0
      extract_lets +onlyGivenNames -merge -useContext -underBinder s0_1
      have hs0_1 : Sound q s0_1 := by
        unfold s0_1
        exact setLms_sound hs
      clear_value s0_1
      extract_lets +onlyGivenNames -merge -useContext -underBinder fail_2
      have hfail_2 : ∀ y0, Sound q (fail_2 y0) := by
        intro y0
        unfold fail_2
        exact reqEnd_sound (removePair_sound hs0_1)
      clear_value fail_2
      exact Sound.ite hs (Sound.ite (hfail_2 _) (Sound.ite (hfail_2 _) (Sound.ite (hfail_2 _) (Sound.ite (hfail_2 _)
          (lmsSync_sound (reqEnd_sound (setReg_sound (pairLive_sound (createRef_sound (emit_sound hs0_1))))))))))

theorem execGenerateDone_sound {q : List Instr} {linkOk : Bool} {s : State} (hs : Sound q s) :
    OutSound q (execGenerateDone linkOk s) := by
  delta execGenerateDone
  exact OutSound.next (generateDoneEffect_sound hs)

theorem generateStart_sound {q : List Instr} {s : State} {set slice : Nat} (hs : Sound q s) :
    Sound q (generateStart s set slice) := by
  delta generateStart
  extract_lets +onlyGivenNames -merge -useContext -underBinder e_0
  clear_value e_0
  refine Sound.ite ?_ ?_
  · exact reqEnd_sound hs
  · split
    · exact hs
    · exact lmsSync_sound (setLms_sound (setPair_sound (reqStart_sound (drawFrom_sound hs))))

theorem loadPublicStart_sound {q : List Instr} {s : State} {slice : Nat} (hs : Sound q s) :
    Sound q (loadPublicStart s slice) := by
  delta loadPublicStart
  exact Sound.ite (reqEnd_sound hs) (Sound.ite (reqEnd_sound hs) (Sound.ite (reqEnd_sound hs) (emit_sound
      (setLms_sound (reqStart_sound hs)))))

theorem lmsReqWrite_sound {q : List Instr} {s0 : State} {v : Word} (hs0 : Sound q s0) :
    Sound q (lmsReqWrite s0 v) := by
  delta lmsReqWrite
  extract_lets +onlyGivenNames -merge -useContext -underBinder s_0
  have hs_0 : Sound q s_0 := by
    unfold s_0
    exact raiseMgmt_sound hs0
  clear_value s_0
  refine Sound.ite ?_ ?_
  · exact Sound.ite hs_0 (setReg_sound hs_0)
  · extract_lets +onlyGivenNames -merge -useContext -underBinder s1_1
    have hs1_1 : Sound q s1_1 := by
      unfold s1_1
      exact setReg_sound hs_0
    clear_value s1_1
    refine Sound.ite ?_ ?_
    · exact hs1_1
    · split
      · exact generateStart_sound hs1_1
      · exact loadPublicStart_sound hs1_1
      · exact destroyStart_sound hs1_1
      · exact reqEnd_sound hs1_1

theorem execLmsDestroy_sound {q : List Instr} {s : State} (hs : Sound q s) :
    OutSound q (execLmsDestroy s) := by
  delta execLmsDestroy
  exact OutSound.next (lmsReqWrite_sound hs)

theorem execLmsGenerate_sound {q : List Instr} {set slice : Nat} {s : State} (hs : Sound q s) :
    OutSound q (execLmsGenerate set slice s) := by
  delta execLmsGenerate
  exact OutSound.next (lmsReqWrite_sound hs)

theorem execLmsLoadPublic_sound {q : List Instr} {slice : Nat} {s : State} (hs : Sound q s) :
    OutSound q (execLmsLoadPublic slice s) := by
  delta execLmsLoadPublic
  exact OutSound.next (lmsReqWrite_sound hs)

theorem reserveCaptureEffect_sound {q : List Instr} {pair : Nat} {s : State} (hs : Sound q s) :
    Sound q (reserveCaptureEffect pair s) := by
  delta reserveCaptureEffect
  split
  · exact hs
  · exact Sound.ite (setPair_sound hs) hs

theorem execReserveCapture_sound {q : List Instr} {pair : Nat} {s : State} (hs : Sound q s) :
    OutSound q (execReserveCapture pair s) := by
  delta execReserveCapture
  exact OutSound.next (reserveCaptureEffect_sound hs)

theorem reserveProgrammedEffect_sound {q : List Instr} {pair : Nat} {ok : Bool} {s : State} (hs : Sound q s) :
    Sound q (reserveProgrammedEffect pair ok s) := by
  delta reserveProgrammedEffect
  split
  · exact hs
  · exact Sound.ite hs (Sound.ite (lmsSync_sound (setPair_sound (writeLog_sound hs))) (lmsSync_sound
      (firePlain_sound (event_sound (setPair_sound hs)))))

theorem execReserveProgrammed_sound {q : List Instr} {pair : Nat} {ok : Bool} {s : State} (hs : Sound q s) :
    OutSound q (execReserveProgrammed pair ok s) := by
  delta execReserveProgrammed
  exact OutSound.next (reserveProgrammedEffect_sound hs)

theorem kerfAssign_sound {q : List Instr} {s : State} (hs : Sound q s) :
    Sound q (kerfAssign s) := by
  delta kerfAssign
  exact Sound.foldl hs fun _ _ h_0 => Sound.foldl h_0 fun _ _ h_1 => assignIndex_sound h_1

theorem kerfCapture_sound {q : List Instr} {s : State} (hs : Sound q s) :
    Sound q (kerfCapture s) := by
  delta kerfCapture
  exact Sound.foldl (Sound.foldl hs fun _ _ h_0 => Sound.ite (reserveProgrammedEffect_sound h_0) h_0) fun _ _ h_1 =>
      Sound.ite h_1 (reserveCaptureEffect_sound h_1)

theorem kerfDestroy_sound {q : List Instr} {s0 : State} (hs0 : Sound q s0) :
    Sound q (kerfDestroy s0) := by
  delta kerfDestroy
  split
  · exact hs0
  · exact Sound.ite (Sound.ite (emptyPublic_sound hs0) hs0) (reqEnd_sound (setLms_sound (Sound.foldl (Sound.ite
      (emptyPublic_sound hs0) hs0) fun _ _ h_0 => destroyPair_sound h_0)))

theorem lmsBoot_sound {q : List Instr} {s : State} (hs : Sound q s) :
    Sound q (lmsBoot s) := by
  delta lmsBoot
  exact lmsSync_sound (setLms_sound (Sound.ite (event_sound hs) hs))

theorem loadPublicData_sound {q : List Instr} {s : State} {r : ReadResult} (hs : Sound q s) :
    Sound q (loadPublicData s r) := by
  delta loadPublicData
  refine Sound.ite ?_ ?_
  · exact hs
  · extract_lets +onlyGivenNames -merge -useContext -underBinder _0
    clear_value _0
    extract_lets +onlyGivenNames -merge -useContext -underBinder s0_1
    have hs0_1 : Sound q s0_1 := by
      unfold s0_1
      exact setLms_sound hs
    clear_value s0_1
    extract_lets +onlyGivenNames -merge -useContext -underBinder slice_2
    clear_value slice_2
    split
    · exact reqEnd_sound hs0_1
    · exact Sound.ite (reqEnd_sound hs0_1) (Sound.ite (reqEnd_sound hs0_1) (Sound.ite (reqEnd_sound hs0_1)
        (reqEnd_sound (setReg_sound (createRef_sound hs0_1)))))

end Sys2Proof.Machine
end

