-- ==== Sys2Proof/Laws/SoundSlices.lean ====
section
/-!
SUPPORT. Soundness (Laws/Sound.lean) is kept by each operation of slices, migration, the flash and the thimble domain.
-/
namespace Sys2Proof.Machine
open Sys2Proof

/-! ### Slices -/

theorem activateSlice_sound {q : List Instr} {s : State} {slice : Nat} (hs : Sound q s) :
    Sound q (activateSlice s slice) := by
  delta activateSlice
  exact Sound.ite (setSlice_sound hs) hs

theorem pushPlan_sound {q : List Instr} {s : State} {gid cls : Nat} (hs : Sound q s) :
    Sound q (pushPlan s gid cls) := by
  delta pushPlan
  exact Sound.ite hs (setPlan_sound hs)

theorem regroup_sound {q : List Instr} {s : State} {gid : Nat} {o n : Layout} {og ng : GroupCfg} (hs : Sound q s) :
    Sound q (regroup s gid o n og ng) := by
  delta regroup
  exact Sound.mk (Good.of (Sound.foldl hs fun _ _ h_0 => pushPlan_sound h_0))

theorem commitCfg_sound {q : List Instr} {s : State} {slice : Nat} {cfg : SliceCfg} {ls : List Layout} {first : Nat}
    (hs : Sound q s) :
    Sound q (commitCfg s slice cfg ls first) := by
  delta commitCfg
  exact Sound.ite (setChainSt_sound (setSlice_sound (childSync_sound (Sound.mk (Good.of (Sound.foldl (Sound.mk
      (Good.of hs)) fun _ _ h_0 => regroup_sound h_0)))))) (setSlice_sound (childSync_sound (Sound.mk (Good.of
      (Sound.foldl (Sound.mk (Good.of hs)) fun _ _ h_0 => regroup_sound h_0)))))

theorem withdrawPlans_sound {q : List Instr} {s : State} {slice : Nat} (hs : Sound q s) :
    Sound q (withdrawPlans s slice) := by
  delta withdrawPlans
  exact Sound.mk (Good.of hs)

theorem commitChange_sound {q : List Instr} {s : State} {slice : Nat} (hs : Sound q s) :
    Sound q (commitChange s slice) := by
  delta commitChange
  extract_lets +onlyGivenNames -merge -useContext -underBinder x_0
  clear_value x_0
  split
  · exact hs
  · exact Sound.ite (withdrawPlans_sound (squashSlice_sound (squashFetched_sound (Sound.ite hs (setSlice_sound
      hs))))) (squashFetched_sound (Sound.ite hs (setSlice_sound hs)))

theorem commitLog_sound {q : List Instr} {s : State} {n : Nat} {c : Ctx} (hs : Sound q s) :
    Sound q (commitLog s n c) := by
  delta commitLog
  extract_lets +onlyGivenNames -merge -useContext -underBinder k_0
  clear_value k_0
  extract_lets +onlyGivenNames -merge -useContext -underBinder i_1
  clear_value i_1
  extract_lets +onlyGivenNames -merge -useContext -underBinder x_2
  clear_value x_2
  extract_lets +onlyGivenNames -merge -useContext -underBinder put_3
  have hput_3 : ∀ y0, Sound q (put_3 y0) := by
    intro y0
    unfold put_3
    exact setSlice_sound hs
  clear_value put_3
  split
  · exact Sound.ite (sliceFail_sound hs) (adminOk_sound (hput_3 _))
  · exact event_sound (adminEnd_sound (hput_3 _))
  · exact event_sound (adminEnd_sound (setSlice_sound hs))
  · exact sliceFail_sound hs

theorem returnKeys_sound {q : List Instr} {s : State} {slice : Nat} {vault : Bool} (hs : Sound q s) :
    Sound q (returnKeys s slice vault) := by
  delta returnKeys
  exact Sound.ite (Sound.ite (restoreSlice_sound (restoreSlice_sound (restoreMaster_sound (Sound.mk (Good.of hs)))))
      (restoreSlice_sound (restoreMaster_sound (Sound.mk (Good.of hs))))) (Sound.mk (Good.of hs))

theorem moveQueues_sound {q : List Instr} {s : State} {slice : Nat} {x1 b : QState} (hs : Sound q s) :
    Sound q (moveQueues s slice x1 b) := by
  delta moveQueues
  exact Sound.foldl hs fun _ _ h_0 => Sound.ite (setQueue_sound h_0) h_0

theorem commitResume_sound {q : List Instr} {s : State} {slice : Nat} (hs : Sound q s) :
    Sound q (commitResume s slice) := by
  delta commitResume
  extract_lets +onlyGivenNames -merge -useContext -underBinder x_0
  clear_value x_0
  split
  · exact hs
  · exact adminOk_sound (moveQueues_sound (Sound.ite (returnKeys_sound (setSlice_sound hs)) (setSlice_sound hs)))

theorem newSlice_sound {q : List Instr} {s : State} {slice : Nat} (hs : Sound q s) :
    Sound q (newSlice s slice) := by
  delta newSlice
  exact setSlice_sound (putRecord_sound (setKey_sound (drawFrom_sound (restoreLink_sound hs))))

theorem commitStaged_sound {q : List Instr} {s : State} {slice : Nat} (hs : Sound q s) :
    Sound q (commitStaged s slice) := by
  delta commitStaged
  extract_lets +onlyGivenNames -merge -useContext -underBinder x_0
  clear_value x_0
  split
  · exact hs
  · extract_lets +onlyGivenNames -merge -useContext -underBinder drop_1
    have hdrop_1 : Sound q drop_1 := by
      unfold drop_1
      exact setSlice_sound hs
    clear_value drop_1
    extract_lets +onlyGivenNames -merge -useContext -underBinder r_2
    clear_value r_2
    refine Sound.ite ?_ ?_
    · exact sliceFail_sound hdrop_1
    · split
      · exact adminOk_sound (event_sound (Sound.ite (setSlice_sound (commitCfg_sound (Sound.ite (newSlice_sound hs)
          hs))) (commitCfg_sound (Sound.ite (newSlice_sound hs) hs))))
      · exact Sound.ite hs (sliceFail_sound hdrop_1)

theorem functionDefaults_sound {q : List Instr} {s : State} {slice : Nat} (hs : Sound q s) :
    Sound q (functionDefaults s slice) := by
  delta functionDefaults
  exact Sound.mk (Good.of (setSlice_sound hs))

theorem squashAdmin_sound {q : List Instr} {s : State} {ctx : Option Nat} (hs : Sound q s) :
    Sound q (squashAdmin s ctx) := by
  delta squashAdmin
  split
  · exact adminEnd_sound hs
  · exact hs

theorem stageChange_sound {q : List Instr} {s : State} {slice : Nat} {kind : SliceChange} {squash : Bool} {ctx :
    Option Nat} {byFlr toDormant : Bool} (hs : Sound q s) :
    Sound q (stageChange s slice kind squash ctx byFlr toDormant) := by
  delta stageChange
  exact setSlice_sound hs

theorem flrMeets_sound {q : List Instr} {s : State} {slice : Nat} {toDormant : Bool} (hs : Sound q s) :
    Sound q (flrMeets s slice toDormant) := by
  delta flrMeets
  extract_lets +onlyGivenNames -merge -useContext -underBinder x_0
  clear_value x_0
  extract_lets +onlyGivenNames -merge -useContext -underBinder s1_1
  have hs1_1 : Sound q s1_1 := by
    unfold s1_1
    split
    · exact Sound.ite hs (squashAdmin_sound (setSlice_sound hs))
    · exact hs
  clear_value s1_1
  extract_lets +onlyGivenNames -merge -useContext -underBinder s2_2
  have hs2_2 : Sound q s2_2 := by
    unfold s2_2
    split
    · exact squashAdmin_sound (setSlice_sound hs1_1)
    · exact hs1_1
  clear_value s2_2
  extract_lets +onlyGivenNames -merge -useContext -underBinder y_3
  clear_value y_3
  extract_lets +onlyGivenNames -merge -useContext -underBinder busy_4
  clear_value busy_4
  split
  · exact Sound.ite (setSlice_sound hs2_2) (Sound.ite (Sound.ite hs2_2 (event_sound (event_sound hs2_2)))
      (stageChange_sound hs2_2))
  · exact Sound.ite (stageChange_sound (squashAdmin_sound hs2_2)) (Sound.ite (Sound.ite (withdrawPlans_sound
      (squashSlice_sound (setSlice_sound hs2_2))) (setSlice_sound hs2_2)) (setSlice_sound hs2_2))

theorem disableFn_sound {q : List Instr} {s : State} {slice : Nat} (hs : Sound q s) :
    Sound q (disableFn s slice) := by
  delta disableFn
  exact Sound.ite hs (Sound.ite (functionDefaults_sound (setSlice_sound hs)) (flrMeets_sound (functionDefaults_sound
      (setSlice_sound hs))))

theorem dropChildren_sound {q : List Instr} {s : State} {slice : Nat} (hs : Sound q s) :
    Sound q (dropChildren s slice) := by
  delta dropChildren
  exact childSync_sound (Sound.mk (Good.of hs))

theorem dropMaster_sound {q : List Instr} {s : State} {slice : Nat} (hs : Sound q s) :
    Sound q (dropMaster s slice) := by
  delta dropMaster
  exact Sound.mk (Good.of (setKey_sound hs))

theorem endChangeCtx_sound {q : List Instr} {s : State} {c : StagedChange} {r : CmdResult} (hs : Sound q s) :
    Sound q (endChangeCtx s c r) := by
  delta endChangeCtx
  split
  · exact adminEnd_sound hs
  · exact hs

theorem endQuiesce_sound {q : List Instr} {s : State} {slice : Nat} {c : StagedChange} (hs : Sound q s) :
    Sound q (endQuiesce s slice c) := by
  delta endQuiesce
  exact endChangeCtx_sound (moveQueues_sound (setSlice_sound hs))

theorem resetQueues_sound {q : List Instr} {s : State} {slice : Nat} (hs : Sound q s) :
    Sound q (resetQueues s slice) := by
  delta resetQueues
  exact Sound.mk (Good.of hs)

theorem renewChildren_sound {q : List Instr} {s : State} {slice : Nat} (hs : Sound q s) :
    Sound q (renewChildren s slice) := by
  delta renewChildren
  exact childSync_sound (Sound.mk (Good.of hs))

theorem vaultReset_sound {q : List Instr} {s : State} {slice : Nat} (hs : Sound q s) :
    Sound q (vaultReset s slice) := by
  delta vaultReset
  exact Sound.ite hs (setChain_sound (clearChain_sound hs))

theorem sliceRenewed_sound {q : List Instr} {s : State} {slice : Nat} {toDormant : Bool} (hs : Sound q s) :
    Sound q (sliceRenewed s slice toDormant) := by
  delta sliceRenewed
  exact setSlice_sound (renewChildren_sound (vaultReset_sound (returnKeys_sound (zeroiseSliceKeys_sound hs))))

theorem vaultGone_sound {q : List Instr} {s : State} {slice : Nat} (hs : Sound q s) :
    Sound q (vaultGone s slice) := by
  delta vaultGone
  exact Sound.mk (Good.of (clearChain_sound hs))

theorem sliceGone_sound {q : List Instr} {s : State} {slice : Nat} (hs : Sound q s) :
    Sound q (sliceGone s slice) := by
  delta sliceGone
  exact setSlice_sound (dropEnrolment_sound (dropChildren_sound (vaultGone_sound (Sound.foldl (dropMaster_sound
      (dropSliceRecords_sound (zeroiseSliceKeys_sound hs))) fun _ _ h_0 => Sound.ite (dropGeneration_sound h_0)
      (destroyPair_sound h_0)))))

theorem endReset_sound {q : List Instr} {s : State} {slice : Nat} {c : StagedChange} (hs : Sound q s) :
    Sound q (endReset s slice c) := by
  delta endReset
  extract_lets +onlyGivenNames -merge -useContext -underBinder s1_0
  have hs1_0 : Sound q s1_0 := by
    unfold s1_0
    exact withdrawPlans_sound (resetQueues_sound hs)
  clear_value s1_0
  exact endChangeCtx_sound (Sound.ite (event_sound (event_sound (event_sound (Sound.ite (sliceRenewed_sound hs1_0)
      (sliceGone_sound hs1_0))))) (event_sound (Sound.ite (sliceRenewed_sound hs1_0) (sliceGone_sound hs1_0))))

theorem stageLog_sound {q : List Instr} {s : State} {n action : Nat} (hs : Sound q s) :
    Sound q (stageLog s n action) := by
  delta stageLog
  split
  · exact hs
  · exact Sound.ite hs (Sound.ite (sliceFail_sound hs) (Sound.ite (sliceFail_sound hs) (adminTaken_sound hs)))

theorem execDirtyLogFlip_sound {q : List Instr} {ctx : Nat} {s : State} (hs : Sound q s) :
    OutSound q (execDirtyLogFlip ctx s) := by
  delta execDirtyLogFlip
  exact OutSound.next (stageLog_sound hs)

theorem execDirtyLogStart_sound {q : List Instr} {ctx : Nat} {s : State} (hs : Sound q s) :
    OutSound q (execDirtyLogStart ctx s) := by
  delta execDirtyLogStart
  exact OutSound.next (stageLog_sound hs)

theorem execDirtyLogStop_sound {q : List Instr} {ctx : Nat} {s : State} (hs : Sound q s) :
    OutSound q (execDirtyLogStop ctx s) := by
  delta execDirtyLogStop
  exact OutSound.next (stageLog_sound hs)

theorem flrTimeoutEffect_sound {q : List Instr} {slice : Nat} {s : State} (hs : Sound q s) :
    Sound q (flrTimeoutEffect slice s) := by
  delta flrTimeoutEffect
  extract_lets +onlyGivenNames -merge -useContext -underBinder x_0
  clear_value x_0
  split
  · exact hs
  · exact Sound.ite hs (setSlice_sound (Sound.ite (countF_sound (Sound.mk (Good.of hs))) (Sound.mk (Good.of hs))))

theorem execFlrTimeout_sound {q : List Instr} {slice : Nat} {s : State} (hs : Sound q s) :
    OutSound q (execFlrTimeout slice s) := by
  delta execFlrTimeout
  exact OutSound.next (flrTimeoutEffect_sound hs)

theorem progressChange_sound {q : List Instr} {s : State} {slice : Nat} (hs : Sound q s) :
    Sound q (progressChange s slice) := by
  delta progressChange
  extract_lets +onlyGivenNames -merge -useContext -underBinder x_0
  clear_value x_0
  split
  · exact hs
  · exact Sound.ite hs (Sound.ite (endQuiesce_sound hs) (Sound.ite hs (Sound.ite (emit_sound (setSlice_sound hs))
      (Sound.ite hs (endReset_sound hs)))))

theorem execSliceChangeComplete_sound {q : List Instr} {slice : Nat} {s : State} (hs : Sound q s) :
    OutSound q (execSliceChangeComplete slice s) := by
  delta execSliceChangeComplete
  exact OutSound.next (inKerf_sound (fun _ h_0 => progressChange_sound h_0) hs)

theorem stageRecord_sound {q : List Instr} {s : State} {n slice : Nat} {c : Ctx} {repeats : Bool} (hs : Sound q s) :
    Sound q (stageRecord s n slice c repeats) := by
  delta stageRecord
  split
  · exact sliceFail_sound hs
  · exact Sound.ite (sliceFail_sound hs) (Sound.ite (sliceFail_sound hs) (adminTaken_sound (setSlice_sound hs)))

theorem sliceCreateEffect_sound {q : List Instr} {n : Nat} {s : State} (hs : Sound q s) :
    Sound q (sliceCreateEffect n s) := by
  delta sliceCreateEffect
  split
  · exact hs
  · exact Sound.ite hs (Sound.ite (sliceFail_sound hs) (Sound.ite (sliceFail_sound hs) (withSource_sound hs (fun _ _
      h_0 => stageRecord_sound h_0))))

theorem execSliceCreate_sound {q : List Instr} {ctx : Nat} {s : State} (hs : Sound q s) :
    OutSound q (execSliceCreate ctx s) := by
  delta execSliceCreate
  exact OutSound.next (sliceCreateEffect_sound hs)

theorem stageEnd_sound {q : List Instr} {s : State} {n op : Nat} {kind : SliceChange} (hs : Sound q s) :
    Sound q (stageEnd s n op kind) := by
  delta stageEnd
  split
  · exact hs
  · exact Sound.ite hs (Sound.ite (sliceFail_sound hs) (Sound.ite (sliceFail_sound hs) (Sound.ite hs (Sound.ite
      (sliceFail_sound hs) (adminTaken_sound (stageChange_sound hs))))))

theorem execSliceDestroy_sound {q : List Instr} {ctx : Nat} {s : State} (hs : Sound q s) :
    OutSound q (execSliceDestroy ctx s) := by
  delta execSliceDestroy
  exact OutSound.next (stageEnd_sound hs)

theorem sliceQuiesceEffect_sound {q : List Instr} {n : Nat} {s : State} (hs : Sound q s) :
    Sound q (sliceQuiesceEffect n s) := by
  delta sliceQuiesceEffect
  split
  · exact hs
  · exact Sound.ite hs (Sound.ite (sliceFail_sound hs) (Sound.ite hs (Sound.ite (adminOk_sound hs) (Sound.ite
      (sliceFail_sound hs) (adminTaken_sound (stageChange_sound hs))))))

theorem execSliceQuiesce_sound {q : List Instr} {ctx : Nat} {s : State} (hs : Sound q s) :
    OutSound q (execSliceQuiesce ctx s) := by
  delta execSliceQuiesce
  exact OutSound.next (sliceQuiesceEffect_sound hs)

theorem execSliceReset_sound {q : List Instr} {ctx : Nat} {s : State} (hs : Sound q s) :
    OutSound q (execSliceReset ctx s) := by
  delta execSliceReset
  exact OutSound.next (stageEnd_sound hs)

theorem sliceResizeEffect_sound {q : List Instr} {n : Nat} {s : State} (hs : Sound q s) :
    Sound q (sliceResizeEffect n s) := by
  delta sliceResizeEffect
  split
  · exact hs
  · exact Sound.ite hs (Sound.ite (sliceFail_sound hs) (Sound.ite (sliceFail_sound hs) (withSource_sound hs (fun _ _
      h_0 => stageRecord_sound h_0))))

theorem execSliceResize_sound {q : List Instr} {ctx : Nat} {s : State} (hs : Sound q s) :
    OutSound q (execSliceResize ctx s) := by
  delta execSliceResize
  exact OutSound.next (sliceResizeEffect_sound hs)

theorem sliceResumeEffect_sound {q : List Instr} {n : Nat} {s : State} (hs : Sound q s) :
    Sound q (sliceResumeEffect n s) := by
  delta sliceResumeEffect
  split
  · exact hs
  · exact Sound.ite hs (Sound.ite (sliceFail_sound hs) (Sound.ite hs (Sound.ite (sliceFail_sound hs) (Sound.ite
      (sliceFail_sound hs) (adminTaken_sound (setSlice_sound hs))))))

theorem execSliceResume_sound {q : List Instr} {ctx : Nat} {s : State} (hs : Sound q s) :
    OutSound q (execSliceResume ctx s) := by
  delta execSliceResume
  exact OutSound.next (sliceResumeEffect_sound hs)

theorem vfEnableClearEffect_sound {q : List Instr} {numVfs : Nat} {s : State} (hs : Sound q s) :
    Sound q (vfEnableClearEffect numVfs s) := by
  delta vfEnableClearEffect
  exact Sound.foldl hs fun _ _ h_0 => disableFn_sound h_0

theorem execVfEnableClear_sound {q : List Instr} {numVfs : Nat} {s : State} (hs : Sound q s) :
    OutSound q (execVfEnableClear numVfs s) := by
  delta execVfEnableClear
  exact OutSound.next (vfEnableClearEffect_sound hs)

theorem vfEnableSetEffect_sound {q : List Instr} {numVfs : Nat} {s : State} (hs : Sound q s) :
    Sound q (vfEnableSetEffect numVfs s) := by
  delta vfEnableSetEffect
  exact Sound.foldl hs fun _ _ h_0 => setSlice_sound h_0

theorem execVfEnableSet_sound {q : List Instr} {numVfs : Nat} {s : State} (hs : Sound q s) :
    OutSound q (execVfEnableSet numVfs s) := by
  delta execVfEnableSet
  exact OutSound.next (vfEnableSetEffect_sound hs)

theorem vfFlrEffect_sound {q : List Instr} {slice : Nat} {s : State} (hs : Sound q s) :
    Sound q (vfFlrEffect slice s) := by
  delta vfFlrEffect
  exact Sound.ite hs (flrMeets_sound (functionDefaults_sound (countF_sound hs)))

theorem execVfFlr_sound {q : List Instr} {slice : Nat} {s : State} (hs : Sound q s) :
    OutSound q (execVfFlr slice s) := by
  delta execVfFlr
  exact OutSound.next (vfFlrEffect_sound hs)

theorem flrDue_sound {q : List Instr} {s : State} {slice : Nat} (hs : Sound q s) :
    Sound q (flrDue s slice) := by
  delta flrDue
  extract_lets +onlyGivenNames -merge -useContext -underBinder x_0
  clear_value x_0
  split
  · exact hs
  · exact Sound.ite hs (flrMeets_sound (setSlice_sound hs))

theorem flushData_sound {q : List Instr} {s : State} {slice : Nat} {r : ReadResult} (hs : Sound q s) :
    Sound q (flushData s slice r) := by
  delta flushData
  extract_lets +onlyGivenNames -merge -useContext -underBinder x_0
  clear_value x_0
  refine Sound.ite ?_ ?_
  · exact hs
  · extract_lets +onlyGivenNames -merge -useContext -underBinder s1_1
    have hs1_1 : Sound q s1_1 := by
      unfold s1_1
      split
      · exact countF_sound hs
      · exact hs
    clear_value s1_1
    exact setSlice_sound hs1_1

theorem kerfLogs_sound {q : List Instr} {s : State} (hs : Sound q s) :
    Sound q (kerfLogs s) := by
  delta kerfLogs
  exact Sound.foldl hs fun _ _ h_0 => Sound.ite (commitLog_sound h_0) h_0

theorem kerfSlice_sound {q : List Instr} {s : State} {slice : Nat} (hs : Sound q s) :
    Sound q (kerfSlice s slice) := by
  delta kerfSlice
  exact activateSlice_sound (flrDue_sound (progressChange_sound (commitChange_sound (commitResume_sound
      (commitStaged_sound hs)))))

theorem kerfSlices_sound {q : List Instr} {s : State} (hs : Sound q s) :
    Sound q (kerfSlices s) := by
  delta kerfSlices
  exact admSync_sound (Sound.foldl (kerfLogs_sound hs) fun _ _ h_0 => kerfSlice_sound h_0)

/-! ### Migration -/

theorem importFail_sound {q : List Instr} {s : State} {n k reason : Nat} (hs : Sound q s) :
    Sound q (importFail s n k reason) := by
  delta importFail
  exact sliceFail_sound (event_sound (Sound.ite (setSlice_sound hs) hs))

theorem setLedger_sound {q : List Instr} {s : State} {id : Bytes} {serial : Nat} (hs : Sound q s) :
    Sound q (setLedger s id serial) := by
  delta setLedger
  exact setF_sound (Sound.mk (Good.of hs))

theorem importState_sound {q : List Instr} {s : State} {k : Nat} {st : Bytes} (hs : Sound q s) :
    Sound q (importState s k st) := by
  delta importState
  exact setLedger_sound (setSlice_sound (putRecord_sound (setKey_sound hs)))

theorem placeKey_sound {q : List Instr} {k : Nat} {sec : Bytes} {x : State × List (Nat × Nat)} (hx : Sound q x.1) :
    Sound q (placeKey k sec x).1 := by
  delta placeKey
  extract_lets +onlyGivenNames -merge -useContext -underBinder s_0
  have hs_0 : Sound q s_0 := by
    unfold s_0
    exact hx
  clear_value s_0
  extract_lets +onlyGivenNames -merge -useContext -underBinder n_1
  clear_value n_1
  split
  · exact hx
  · exact Sound.pair_fst (Sound.ite (setKey_sound (activateKey_sound (setKey_sound (loadSlots_sound hs_0))))
      (activateKey_sound (setKey_sound (loadSlots_sound hs_0))))

theorem placeParent_sound {q : List Instr} {k : Nat} {map : List (Nat × Nat)} {s : State} {m : Nat × Nat} (hs :
    Sound q s) :
    Sound q (placeParent k map s m) := by
  delta placeParent
  exact Sound.ite (putRecord_sound (setKey_sound hs)) (Sound.ite (setKey_sound hs) (writeReservation_sound
      (setKey_sound hs)))

theorem placePair_sound {q : List Instr} {k : Nat} {sec : Bytes} {x : State × List (Nat × Nat)} (hx : Sound q x.1) :
    Sound q (placePair k sec x).1 := by
  delta placePair
  extract_lets +onlyGivenNames -merge -useContext -underBinder s_0
  have hs_0 : Sound q s_0 := by
    unfold s_0
    exact hx
  clear_value s_0
  split
  · exact hx
  · extract_lets +onlyGivenNames -merge -useContext -underBinder set_1
    clear_value set_1
    extract_lets +onlyGivenNames -merge -useContext -underBinder p_2
    clear_value p_2
    extract_lets +onlyGivenNames -merge -useContext -underBinder r_3
    have hr_3 : Sound q r_3.1 := by
      unfold r_3
      exact createRef_sound hs_0
    clear_value r_3
    extract_lets +onlyGivenNames -merge -useContext -underBinder s1_4
    have hs1_4 : Sound q s1_4 := by
      unfold s1_4
      exact pairLive_sound hr_3
    clear_value s1_4
    extract_lets +onlyGivenNames -merge -useContext -underBinder s2_5
    have hs2_5 : Sound q s2_5 := by
      unfold s2_5
      split
      · exact setPair_sound hs1_4
      · exact hs1_4
    clear_value s2_5
    exact Sound.pair_fst (lmsSync_sound (setLms_sound hs2_5))

theorem importChain_sound {q : List Instr} {s : State} {k : Nat} {st : Bytes} (hs : Sound q s) :
    Sound q (importChain s k st) := by
  delta importChain
  exact Sound.ite (setChain_sound hs) hs

theorem commitImport_sound {q : List Instr} {s : State} {n k : Nat} {c : Ctx} (hs : Sound q s) :
    Sound q (commitImport s n k c) := by
  delta commitImport
  extract_lets +onlyGivenNames -merge -useContext -underBinder x_0
  clear_value x_0
  split
  · exact importFail_sound hs
  · split
    · exact importFail_sound hs
    · extract_lets +onlyGivenNames -merge -useContext -underBinder secs_1
      clear_value secs_1
      extract_lets +onlyGivenNames -merge -useContext -underBinder one_2
      clear_value one_2
      extract_lets +onlyGivenNames -merge -useContext -underBinder keys_3
      clear_value keys_3
      extract_lets +onlyGivenNames -merge -useContext -underBinder pairs_4
      clear_value pairs_4
      split
      · exact importFail_sound hs
      · extract_lets +onlyGivenNames -merge -useContext -underBinder r_5
        clear_value r_5
        refine Sound.ite ?_ ?_
        · exact importFail_sound hs
        · split
          · exact adminEnd_sound (sendHost_sound (setSlice_sound (importChain_sound (Sound.foldl_fst (Sound.pair_fst
              (Sound.foldl (Sound.foldl_fst (Sound.pair_fst (importState_sound (commitCfg_sound hs))) fun _ _ h_6 =>
              placeKey_sound h_6) fun _ _ h_7 => placeParent_sound h_7)) fun _ _ h_8 => placePair_sound h_8))))
          · exact Sound.ite hs (importFail_sound hs)

theorem deviceSign_sound {q : List Instr} {s : State} {msg : Bytes} (hs : Sound q s) :
    Sound q (deviceSign s msg).2 := by
  delta deviceSign
  split
  · exact Sound.pair_snd hs
  · exact Sound.pair_snd (lmsSync_sound (setPair_sound (ownPurlin_sound (Sound.ite (event_sound (seamSign_sound hs))
      (seamSign_sound hs)))))

theorem withDevice_sound {q : List Instr} {s : State} {n : Nat} {work : State → State} (hs : Sound q s) (hwork : ∀
    y0, Sound q y0 → Sound q (work y0)) :
    Sound q (withDevice s n work) := by
  delta withDevice
  refine Sound.ite ?_ ?_
  · exact adminEnd_sound hs
  · split
    · exact hs
    · exact Sound.ite (hwork _ hs) (adminEnd_sound hs)

theorem writePackage_sound {q : List Instr} {s : State} {n k : Nat} {c : Ctx} {o : Bytes} (hs : Sound q s) :
    Sound q (writePackage s n k c o) := by
  delta writePackage
  exact adminTaken_sound (setCtx_sound (stageChange_sound (setVault_sound (sendHost_sound (deviceSign_sound
      (drawFrom_sound (setSlice_sound hs)))))))

theorem sliceExportEffect_sound {q : List Instr} {n : Nat} {s : State} (hs : Sound q s) :
    Sound q (sliceExportEffect n s) := by
  delta sliceExportEffect
  split
  · exact hs
  · extract_lets +onlyGivenNames -merge -useContext -underBinder k_0
    clear_value k_0
    extract_lets +onlyGivenNames -merge -useContext -underBinder x_1
    clear_value x_1
    refine Sound.ite ?_ ?_
    · exact hs
    · refine Sound.ite ?_ ?_
      · exact sliceFail_sound hs
      · exact Sound.ite (sliceFail_sound hs) (Sound.ite hs (Sound.ite (sliceFail_sound hs) (Sound.ite
          (sliceFail_sound hs) (withSource_sound hs (fun _ _ h_2 => Sound.ite (adminEnd_sound h_2) (Sound.ite
          (sliceFail_sound h_2) (Sound.ite (sliceFail_sound h_2) (withDevice_sound h_2 (fun _ h_3 =>
          writePackage_sound h_3)))))))))

theorem execSliceExport_sound {q : List Instr} {ctx : Nat} {s : State} (hs : Sound q s) :
    OutSound q (execSliceExport ctx s) := by
  delta execSliceExport
  exact OutSound.next (sliceExportEffect_sound hs)

theorem sliceImportEffect_sound {q : List Instr} {n : Nat} {s : State} (hs : Sound q s) :
    Sound q (sliceImportEffect n s) := by
  delta sliceImportEffect
  split
  · exact hs
  · exact Sound.ite hs (Sound.ite (sliceFail_sound hs) (Sound.ite (sliceFail_sound hs) (withSource_sound hs (fun _ _
      h_0 => Sound.ite (adminEnd_sound h_0) (Sound.ite (importFail_sound h_0) (adminTaken_sound (setSlice_sound
      (stageChange_sound h_0))))))))

theorem execSliceImport_sound {q : List Instr} {ctx : Nat} {s : State} (hs : Sound q s) :
    OutSound q (execSliceImport ctx s) := by
  delta execSliceImport
  exact OutSound.next (sliceImportEffect_sound hs)

theorem makeOffer_sound {q : List Instr} {s : State} {n k : Nat} {c : Ctx} (hs : Sound q s) :
    Sound q (makeOffer s n k c) := by
  delta makeOffer
  exact adminEnd_sound (setSlice_sound (sendHost_sound (deviceSign_sound (drawFrom_sound hs))))

theorem sliceImportOfferEffect_sound {q : List Instr} {n : Nat} {s : State} (hs : Sound q s) :
    Sound q (sliceImportOfferEffect n s) := by
  delta sliceImportOfferEffect
  split
  · exact hs
  · exact Sound.ite hs (Sound.ite (sliceFail_sound hs) (Sound.ite (sliceFail_sound hs) (withDevice_sound hs (fun _
      h_0 => makeOffer_sound h_0))))

theorem execSliceImportOffer_sound {q : List Instr} {ctx : Nat} {s : State} (hs : Sound q s) :
    OutSound q (execSliceImportOffer ctx s) := by
  delta execSliceImportOffer
  exact OutSound.next (sliceImportOfferEffect_sound hs)

theorem kerfImports_sound {q : List Instr} {s : State} (hs : Sound q s) :
    Sound q (kerfImports s) := by
  delta kerfImports
  exact Sound.foldl hs fun _ _ h_0 => Sound.ite (commitImport_sound h_0) h_0

/-! ### Flash -/

theorem startErase_sound {q : List Instr} {s : State} {block : Nat} (hs : Sound q s) :
    Sound q (startErase s block) := by
  delta startErase
  exact flashSync_sound (setBank_sound (openErase_sound hs))

theorem startProgram_sound {q : List Instr} {s : State} {block : Nat} {units : List (Nat × FUnit)} (hs : Sound q s) :
    Sound q (startProgram s block units) := by
  delta startProgram
  exact flashSync_sound (setBank_sound hs)

theorem flsIssue_sound {q : List Instr} {s : State} {block : Nat} {units : List (Nat × FUnit)} {erase : Bool} (hs :
    Sound q s) :
    Sound q (flsIssue s block units erase) := by
  delta flsIssue
  exact Sound.ite (setNv_sound hs) (Sound.ite (startErase_sound hs) (startProgram_sound hs))

theorem flsNext_sound {q : List Instr} {s : State} (hs : Sound q s) :
    Sound q (flsNext s) := by
  delta flsNext
  split
  · exact hs
  · exact flsIssue_sound (setNv_sound hs)

theorem bankFree_sound {q : List Instr} {s : State} {k : Nat} (hs : Sound q s) :
    Sound q (bankFree s k) := by
  delta bankFree
  exact Sound.ite (Sound.ite (silStart_sound (flashSync_sound (setBank_sound hs))) (flashSync_sound (setBank_sound
      hs))) (autoResume_sound (flsNext_sound (Sound.ite (silStart_sound (flashSync_sound (setBank_sound hs)))
      (flashSync_sound (setBank_sound hs)))))

theorem countUe_sound {q : List Instr} {s : State} {kind : Nat} (hs : Sound q s) :
    Sound q (countUe s kind) := by
  delta countUe
  exact Sound.ite (event_sound (countF_sound hs)) hs

theorem drawBit_sound {q : List Instr} {s : State} (hs : Sound q s) :
    Sound q (drawBit s).2 := by
  delta drawBit
  exact Sound.pair_snd (drawBelow_sound hs)

theorem flsEnd_sound {q : List Instr} {s : State} {err : Nat} (hs : Sound q s) :
    Sound q (flsEnd s err) := by
  delta flsEnd
  exact raiseMgmt_sound (event_sound (setF_sound (setF_sound hs)))

theorem flsSuspend_sound {q : List Instr} {s : State} (hs : Sound q s) :
    Sound q (flsSuspend s) := by
  delta flsSuspend
  split
  · exact flsEnd_sound (event_sound (flashSync_sound (setBank_sound hs)))
  · exact Sound.ite hs (flsEnd_sound hs)

theorem flsSetBusy_sound {q : List Instr} {s : State} (hs : Sound q s) :
    Sound q (flsSetBusy s) := by
  delta flsSetBusy
  exact setF_sound (setF_sound hs)

theorem flsResume_sound {q : List Instr} {s : State} (hs : Sound q s) :
    Sound q (flsResume s) := by
  delta flsResume
  refine Sound.ite ?_ ?_
  · exact hs
  · split
    · exact Sound.ite (flsEnd_sound hs) (flsSetBusy_sound (flashSync_sound (setBank_sound hs)))
    · exact flsEnd_sound hs

theorem flsRefuse_sound {q : List Instr} {s : State} {op : Nat} (hs : Sound q s) :
    Sound q (flsRefuse s op) := by
  delta flsRefuse
  split
  · exact flsEnd_sound (refuseAccess_sound hs)
  · exact flsEnd_sound hs

theorem flsRequest_sound {q : List Instr} {s : State} {op : Nat} (hs : Sound q s) :
    Sound q (flsRequest s op) := by
  delta flsRequest
  exact Sound.ite (flsRefuse_sound hs) (Sound.ite (flsEnd_sound hs) (flsIssue_sound (flsSetBusy_sound hs)))

theorem flsGo_sound {q : List Instr} {s0 : State} {op : Nat} (hs0 : Sound q s0) :
    Sound q (flsGo s0 op) := by
  delta flsGo
  exact Sound.ite hs0 (Sound.ite (flsSuspend_sound (setF_sound hs0)) (Sound.ite hs0 (Sound.ite (setF_sound
      (flsEnd_sound (drawBelow_sound (setF_sound hs0)))) (Sound.ite (flsSetBusy_sound (setF_sound hs0)) (Sound.ite
      (flsResume_sound (setF_sound hs0)) (Sound.ite (flsEnd_sound (setF_sound hs0)) (flsRequest_sound (setF_sound
      hs0))))))))

theorem execErase_sound {q : List Instr} {s : State} (hs : Sound q s) :
    OutSound q (execErase s) := by
  delta execErase
  exact OutSound.next (flsGo_sound hs)

theorem flashEraseDoneEffect_sound {q : List Instr} {k : Nat} {ok : Bool} {s : State} (hs : Sound q s) :
    Sound q (flashEraseDoneEffect k ok s) := by
  delta flashEraseDoneEffect
  exact Sound.ite hs (Sound.ite (bankFree_sound (Sound.ite (flsEnd_sound (doneErase_sound hs)) (doneErase_sound
      hs))) (Sound.ite (setBank_sound hs) (bankFree_sound (Sound.ite (flsEnd_sound (fireWear_sound (indetSync_sound
      (setBlock_sound hs)))) (fireWear_sound (indetSync_sound (setBlock_sound hs)))))))

theorem execFlashEraseDone_sound {q : List Instr} {bank : Nat} {ok : Bool} {s : State} (hs : Sound q s) :
    OutSound q (execFlashEraseDone bank ok s) := by
  delta execFlashEraseDone
  exact OutSound.next (flashEraseDoneEffect_sound hs)

theorem flashProgramDoneEffect_sound {q : List Instr} {k : Nat} {ok : Bool} {s : State} (hs : Sound q s) :
    Sound q (flashProgramDoneEffect k ok s) := by
  delta flashProgramDoneEffect
  exact Sound.ite hs (bankFree_sound (Sound.ite (flsEnd_sound (Sound.foldl hs fun _ _ h_0 => Sound.ite
      (setUnit_sound h_0) (setUnit_sound (drawBytes_sound h_0)))) (Sound.foldl hs fun _ _ h_0 => Sound.ite
      (setUnit_sound h_0) (setUnit_sound (drawBytes_sound h_0)))))

theorem execFlashProgramDone_sound {q : List Instr} {bank : Nat} {ok : Bool} {s : State} (hs : Sound q s) :
    OutSound q (execFlashProgramDone bank ok s) := by
  delta execFlashProgramDone
  exact OutSound.next (flashProgramDoneEffect_sound hs)

theorem execProgramPage_sound {q : List Instr} {s : State} (hs : Sound q s) :
    OutSound q (execProgramPage s) := by
  delta execProgramPage
  exact OutSound.next (flsGo_sound hs)

theorem execProgramUnit_sound {q : List Instr} {s : State} (hs : Sound q s) :
    OutSound q (execProgramUnit s) := by
  delta execProgramUnit
  exact OutSound.next (flsGo_sound hs)

theorem resetScanEffect_sound {q : List Instr} {s : State} (hs : Sound q s) :
    Sound q (resetScanEffect s) := by
  delta resetScanEffect
  refine Sound.ite ?_ ?_
  · exact hs
  · extract_lets +onlyGivenNames -merge -useContext -underBinder bs_0
    clear_value bs_0
    extract_lets +onlyGivenNames -merge -useContext -underBinder _1
    clear_value _1
    extract_lets +onlyGivenNames -merge -useContext -underBinder s1_2
    have hs1_2 : Sound q s1_2 := by
      unfold s1_2
      exact indetSync_sound (setNv_sound hs)
    clear_value s1_2
    exact Sound.ite (flsGo_sound (setF_sound (Sound.ite (event_sound (setFlag_sound (setFlag_sound hs1_2)))
        (setFlag_sound (setFlag_sound hs1_2))))) (Sound.ite (event_sound (setFlag_sound (setFlag_sound hs1_2)))
        (setFlag_sound (setFlag_sound hs1_2)))

theorem execResetScanDone_sound {q : List Instr} {s : State} (hs : Sound q s) :
    OutSound q (execResetScanDone s) := by
  delta execResetScanDone
  exact OutSound.next (resetScanEffect_sound hs)

theorem execResume_sound {q : List Instr} {s : State} (hs : Sound q s) :
    OutSound q (execResume s) := by
  delta execResume
  exact OutSound.next (flsGo_sound hs)

theorem execSuspend_sound {q : List Instr} {s : State} (hs : Sound q s) :
    OutSound q (execSuspend s) := by
  delta execSuspend
  exact OutSound.next (flsGo_sound hs)

theorem execZeroUnit_sound {q : List Instr} {s : State} (hs : Sound q s) :
    OutSound q (execZeroUnit s) := by
  delta execZeroUnit
  exact OutSound.next (flsGo_sound hs)

theorem unitBytes_sound {q : List Instr} {s : State} {off n : Nat} (hs : Sound q s) :
    Sound q (unitBytes s off n).2 := by
  delta unitBytes
  extract_lets +onlyGivenNames -merge -useContext -underBinder p_0
  clear_value p_0
  split
  · exact Sound.pair_snd hs
  · exact Sound.pair_snd hs
  · exact drawBytes_sound hs
  · exact Sound.ite_snd (drawBytes_sound hs) (Sound.pair_snd hs)

theorem flashBytes_sound {q : List Instr} {fuel : Nat} {s : State} {off n : Nat} (hs : Sound q s) :
    Sound q (flashBytes fuel s off n).2 := by
  induction fuel generalizing s off n with
  | zero => exact hs
  | succ k ih =>
    rw [flashBytes]
    exact Sound.ite_snd hs (ih (unitBytes_sound hs))

theorem programsCut_sound {q : List Instr} {s : State} (hs : Sound q s) :
    Sound q (programsCut s) := by
  delta programsCut
  extract_lets +onlyGivenNames -merge -useContext -underBinder cut_0
  have hcut_0 : ∀ y0 y1, Sound q y0 → Sound q (cut_0 y0 y1) := by
    intro y0 y1 h_1
    unfold cut_0
    exact Sound.ite (Sound.foldl h_1 fun _ _ h_2 => setUnit_sound (drawBit_sound h_2)) h_1
  clear_value cut_0
  exact setNv_sound (Sound.foldl (hcut_0 _ _ (hcut_0 _ _ hs)) fun _ _ h_3 => Sound.ite (silPersist_sound
      (drawBit_sound h_3)) (drawBit_sound h_3))

theorem nvHalt_sound {q : List Instr} {s : State} (hs : Sound q s) :
    Sound q (nvHalt s) := by
  delta nvHalt
  exact Sound.ite (setF_sound (flsEnd_sound (drawBelow_sound (flashSync_sound (silSync_sound (programsCut_sound
      (Sound.mk (Good.of hs)))))))) (flashSync_sound (silSync_sound (programsCut_sound (Sound.mk (Good.of hs)))))

theorem nvPowerLoss_sound {q : List Instr} {s : State} (hs : Sound q s) :
    Sound q (nvPowerLoss s) := by
  delta nvPowerLoss
  exact setNv_sound (programsCut_sound hs)

theorem sillEnd_sound {q : List Instr} {s : State} (hs : Sound q s) :
    Sound q (sillEnd s) := by
  delta sillEnd
  exact setNv_sound (Sound.ite hs (Sound.foldl hs fun _ _ h_0 => silPersist_sound h_0))

theorem programsEnd_sound {q : List Instr} {s : State} (hs : Sound q s) :
    Sound q (programsEnd s) := by
  delta programsEnd
  extract_lets +onlyGivenNames -merge -useContext -underBinder fin_0
  have hfin_0 : ∀ y0 y1, Sound q y0 → Sound q (fin_0 y0 y1) := by
    intro y0 y1 h_1
    unfold fin_0
    exact Sound.ite (Sound.foldl h_1 fun _ _ h_2 => setUnit_sound h_2) h_1
  clear_value fin_0
  exact hfin_0 _ _ (hfin_0 _ _ hs)

theorem nvReset_sound {q : List Instr} {s : State} (hs : Sound q s) :
    Sound q (nvReset s) := by
  delta nvReset
  exact setNv_sound (sillEnd_sound (programsEnd_sound hs))

theorem nvSafe_sound {q : List Instr} {s : State} (hs : Sound q s) :
    Sound q (nvSafe s) := by
  delta nvSafe
  exact flashSync_sound (silSync_sound (setNv_sound (sillEnd_sound (programsEnd_sound hs))))

/-! ### Thimble -/

theorem setThm_sound {q : List Instr} {s : State} {t : Thm} (hs : Sound q s) :
    Sound q (setThm s t) := by
  delta setThm
  exact Sound.mk (Good.of hs)

theorem armCommit_sound {q : List Instr} {s : State} {w : Word} (hs : Sound q s) :
    Sound q (armCommit s w) := by
  delta armCommit
  exact setFlag_sound (setThm_sound (setReg_sound hs))

theorem thmAdvance_sound {q : List Instr} {s : State} {cycles : Nat} (hs : Sound q s) :
    Sound q (thmAdvance s cycles) := by
  delta thmAdvance
  exact Sound.mk (Good.of hs)

theorem setLoop_sound {q : List Instr} {s : State} {n : Nat} {l : ThmLoop} (hs : Sound q s) :
    Sound q (setLoop s n l) := by
  delta setLoop
  exact setThm_sound hs

theorem armLoop_sound {q : List Instr} {s : State} {n mode : Nat} {runs : List Nat} {mismatch : Bool} (hs : Sound q
    s) :
    Sound q (armLoop s n mode runs mismatch) := by
  delta armLoop
  exact Sound.ite (setLoop_sound hs) (Sound.ite (setLoop_sound hs) (Sound.ite (setFlag_sound hs) (setLoop_sound
      (drawBelow_sound hs))))

theorem setSwitch_sound {q : List Instr} {s : State} {n : Nat} {l : ThmSwitch} (hs : Sound q s) :
    Sound q (setSwitch s n l) := by
  delta setSwitch
  exact setThm_sound hs

theorem armDoneEffect_sound {q : List Instr} {cycles : Nat} {runs : List (List Nat)} {mism : Nat} {s0 : State} (hs0
    : Sound q s0) :
    Sound q (armDoneEffect cycles runs mism s0) := by
  delta armDoneEffect
  extract_lets +onlyGivenNames -merge -useContext -underBinder s_0
  have hs_0 : Sound q s_0 := by
    unfold s_0
    exact thmAdvance_sound hs0
  clear_value s_0
  split
  · exact hs_0
  · exact event_sound (setFlag_sound (Sound.foldl (Sound.foldl (setFlag_sound (setThm_sound hs_0)) fun _ _ h_1 =>
      armLoop_sound h_1) fun _ _ h_2 => setSwitch_sound h_2))

theorem closeWindow_sound {q : List Instr} {s : State} {n : Nat} (hs : Sound q s) :
    Sound q (closeWindow s n) := by
  delta closeWindow
  extract_lets +onlyGivenNames -merge -useContext -underBinder l_0
  clear_value l_0
  split
  · exact hs
  · extract_lets +onlyGivenNames -merge -useContext -underBinder s1_1
    have hs1_1 : Sound q s1_1 := by
      unfold s1_1
      exact setLoop_sound hs
    clear_value s1_1
    split
    · exact hs1_1
    · exact Sound.ite hs1_1 (event_sound (orReg_sound hs1_1))

theorem disagreementWindowEndEffect_sound {q : List Instr} {cycles loop : Nat} {s : State} (hs : Sound q s) :
    Sound q (disagreementWindowEndEffect cycles loop s) := by
  delta disagreementWindowEndEffect
  extract_lets +onlyGivenNames -merge -useContext -underBinder s1_0
  have hs1_0 : Sound q s1_0 := by
    unfold s1_0
    exact thmAdvance_sound hs
  clear_value s1_0
  split
  · exact Sound.ite (closeWindow_sound hs1_0) hs1_0
  · exact hs1_0

theorem execArmDone_sound {q : List Instr} {cycles : Nat} {runs : List (List Nat)} {mism : Nat} {s : State} (hs :
    Sound q s) :
    OutSound q (execArmDone cycles runs mism s) := by
  delta execArmDone
  exact OutSound.next (armDoneEffect_sound hs)

theorem execDisagreementWindowEnd_sound {q : List Instr} {cycles loop : Nat} {s : State} (hs : Sound q s) :
    OutSound q (execDisagreementWindowEnd cycles loop s) := by
  delta execDisagreementWindowEnd
  exact OutSound.next (disagreementWindowEndEffect_sound hs)

theorem thmLog_sound {q : List Instr} {s : State} {e : ThmEntry} (hs : Sound q s) :
    Sound q (thmLog s e) := by
  delta thmLog
  exact setF_sound (setThm_sound (Sound.ite (countF_sound hs) hs))

theorem thmErase_sound {q : List Instr} {s : State} (hs : Sound q s) :
    Sound q (thmErase s) := by
  delta thmErase
  exact setFlag_sound (setThm_sound hs)

theorem thmLatch_sound {q : List Instr} {s : State} {bit : Nat} (hs : Sound q s) :
    Sound q (thmLatch s bit) := by
  delta thmLatch
  exact setFlag_sound (Sound.ite (setFlag_sound (orReg_sound hs)) (orReg_sound hs))

theorem tamperResponse_sound {q : List Instr} {s : State} {bit : Nat} (hs : Sound q s) :
    Sound q (tamperResponse s bit) := by
  delta tamperResponse
  exact Sound.ite (Sound.mk (Good.of (setThm_sound (thmErase_sound (thmLatch_sound hs))))) (thmErase_sound
      (thmLatch_sound hs))

theorem fireAlarm_sound {q : List Instr} {s : State} {src detail : Nat} {erase : Bool} (hs : Sound q s) :
    Sound q (fireAlarm s src detail erase) := by
  delta fireAlarm
  exact Sound.ite hs (fireLevel_sound (drawBelow_sound hs))

theorem thmAlarm_sound {q : List Instr} {s : State} {kind unit mode : Nat} {detA detB : Bool} (hs : Sound q s) :
    Sound q (thmAlarm s kind unit mode detA detB) := by
  delta thmAlarm
  exact fireAlarm_sound (Sound.ite (loseVault_sound (Sound.ite (tamperResponse_sound (event_sound (thmLog_sound
      hs))) (event_sound (thmLog_sound hs)))) (Sound.ite (tamperResponse_sound (event_sound (thmLog_sound hs)))
      (event_sound (thmLog_sound hs))))

theorem switchSampleEffect_sound {q : List Instr} {cycles sw : Nat} {closed : Bool} {s : State} (hs : Sound q s) :
    Sound q (switchSampleEffect cycles sw closed s) := by
  delta switchSampleEffect
  exact Sound.ite (thmAdvance_sound hs) (Sound.ite (thmAlarm_sound (setSwitch_sound (thmAdvance_sound hs)))
      (setSwitch_sound (thmAdvance_sound hs)))

theorem execSwitchSample_sound {q : List Instr} {cycles sw : Nat} {closed : Bool} {s : State} (hs : Sound q s) :
    OutSound q (execSwitchSample cycles sw closed s) := by
  delta execSwitchSample
  exact OutSound.next (switchSampleEffect_sound hs)

theorem noteSecond_sound {q : List Instr} {s : State} {n t : Nat} {detB : Bool} (hs : Sound q s) :
    Sound q (noteSecond s n t detB) := by
  delta noteSecond
  exact setThm_sound hs

theorem loopCheck_sound {q : List Instr} {s : State} {n : Nat} {detB same : Bool} {ohm : Nat} (hs : Sound q s) :
    Sound q (loopCheck s n detB same ohm) := by
  delta loopCheck
  extract_lets +onlyGivenNames -merge -useContext -underBinder s0_0
  have hs0_0 : Sound q s0_0 := by
    unfold s0_0
    split
    · exact Sound.ite (closeWindow_sound hs) hs
    · exact hs
  clear_value s0_0
  extract_lets +onlyGivenNames -merge -useContext -underBinder l_1
  clear_value l_1
  refine Sound.ite ?_ ?_
  · exact hs0_0
  · extract_lets +onlyGivenNames -merge -useContext -underBinder bad_2
    clear_value bad_2
    extract_lets +onlyGivenNames -merge -useContext -underBinder standing_3
    clear_value standing_3
    extract_lets +onlyGivenNames -merge -useContext -underBinder l1_4
    clear_value l1_4
    refine Sound.ite ?_ ?_
    · exact setLoop_sound hs0_0
    · split
      · exact noteSecond_sound (setLoop_sound hs0_0)
      · exact Sound.ite (setLoop_sound hs0_0) (thmAlarm_sound (setLoop_sound hs0_0))

theorem thimbleLoopCheckEffect_sound {q : List Instr} {cycles loop : Nat} {detB same : Bool} {ohm : Nat} {s : State}
    (hs : Sound q s) :
    Sound q (thimbleLoopCheckEffect cycles loop detB same ohm s) := by
  delta thimbleLoopCheckEffect
  exact Sound.ite (loopCheck_sound (thmAdvance_sound hs)) hs

theorem execThimbleLoopCheck_sound {q : List Instr} {cycles loop : Nat} {detB same : Bool} {ohm : Nat} {s : State}
    (hs : Sound q s) :
    OutSound q (execThimbleLoopCheck cycles loop detB same ohm s) := by
  delta execThimbleLoopCheck
  exact OutSound.next (thimbleLoopCheckEffect_sound hs)

theorem thimblePowerOnEffect_sound {q : List Instr} {s : State} (hs : Sound q s) :
    Sound q (thimblePowerOnEffect s) := by
  delta thimblePowerOnEffect
  exact Sound.ite hs (Sound.mk (Good.of (Sound.foldl hs fun _ _ h_0 => setReg_sound h_0)))

theorem execThimblePowerOn_sound {q : List Instr} {s : State} (hs : Sound q s) :
    OutSound q (execThimblePowerOn s) := by
  delta execThimblePowerOn
  exact OutSound.next (thimblePowerOnEffect_sound hs)

theorem vbatMeasureEffect_sound {q : List Instr} {mv : Nat} {s : State} (hs : Sound q s) :
    Sound q (vbatMeasureEffect mv s) := by
  delta vbatMeasureEffect
  exact Sound.ite hs (Sound.ite (fire_sound (Sound.ite (setF_sound hs) (event_sound (setFlag_sound (setF_sound
      hs))))) (Sound.ite (setFlag_sound (setF_sound hs)) (setF_sound hs)))

theorem execVbatMeasure_sound {q : List Instr} {mv : Nat} {s : State} (hs : Sound q s) :
    OutSound q (execVbatMeasure mv s) := by
  delta execVbatMeasure
  exact OutSound.next (vbatMeasureEffect_sound hs)

theorem xtalFailEffect_sound {q : List Instr} {s : State} (hs : Sound q s) :
    Sound q (xtalFailEffect s) := by
  delta xtalFailEffect
  exact Sound.ite (fire_sound (Sound.ite hs (event_sound (setFlag_sound hs)))) (Sound.ite hs (event_sound
      (setFlag_sound hs)))

theorem execXtalFail_sound {q : List Instr} {s : State} (hs : Sound q s) :
    OutSound q (execXtalFail s) := by
  delta execXtalFail
  exact OutSound.next (xtalFailEffect_sound hs)

theorem tamperLifecycle_sound {q : List Instr} {s : State} (hs : Sound q s) :
    Sound q (tamperLifecycle s) := by
  delta tamperLifecycle
  exact Sound.ite hs (Sound.ite (silStore_sound (event_sound (setF_sound (setThm_sound hs)))) (Sound.ite
      (setFlag_sound (setThm_sound hs)) (setThm_sound hs)))

theorem thmEraseCommit_sound {q : List Instr} {s : State} (hs : Sound q s) :
    Sound q (thmEraseCommit s) := by
  delta thmEraseCommit
  exact tamperLifecycle_sound (tamperResponse_sound (thmLog_sound hs))

end Sys2Proof.Machine
end

