-- ==== Sys2Proof/Laws/SoundGuard.lean ====
section
/-!
SUPPORT. Soundness (Laws/Sound.lean) is kept by each operation of the lifecycle, guarded changes and the officers.
-/
namespace Sys2Proof.Machine
open Sys2Proof

/-! ### Lifecycle -/

theorem askReset_sound {q : List Instr} {s : State} (hs : Sound q s) :
    Sound q (askReset s) := by
  delta askReset
  exact Sound.mk (Good.of hs)

theorem beginDomainChain_sound {q : List Instr} {s : State} (hs : Sound q s) :
    Sound q (beginDomainChain s) := by
  delta beginDomainChain
  exact tombSync_sound (Sound.mk (Good.of (placeRecord_sound (setChain_sound (placeRecord_sound (setChain_sound
      hs))))))

theorem bootDead_sound {q : List Instr} {s : State} {f : Fld} (hs : Sound q s) :
    Sound q (bootDead s f) := by
  delta bootDead
  exact Sound.mk (Good.of (setFlag_sound hs))

theorem bypassSync_sound {q : List Instr} {s : State} (hs : Sound q s) :
    Sound q (bypassSync s) := by
  delta bypassSync
  exact setFlag_sound hs

theorem chargeImage_sound {q : List Instr} {s : State} {b : Bytes} {extra : Nat} (hs : Sound q s) :
    Sound q (chargeImage s b extra) := by
  delta chargeImage
  refine Sound.ite ?_ ?_
  · exact hs
  · split
    · exact hs
    · exact Sound.mk (Good.of hs)

theorem fwDone_sound {q : List Instr} {s : State} (hs : Sound q s) :
    Sound q (fwDone s) := by
  delta fwDone
  exact event_sound (setF_sound (setF_sound (setF_sound hs)))

theorem enrol_sound {q : List Instr} {s : State} {n slice : Nat} {c : Ctx} {b : Bytes} (hs : Sound q s) :
    Sound q (enrol s n slice c b) := by
  delta enrol
  extract_lets +onlyGivenNames -merge -useContext -underBinder count_0
  clear_value count_0
  extract_lets +onlyGivenNames -merge -useContext -underBinder first_1
  clear_value first_1
  extract_lets +onlyGivenNames -merge -useContext -underBinder cnt_2
  clear_value cnt_2
  extract_lets +onlyGivenNames -merge -useContext -underBinder rec_3
  clear_value rec_3
  extract_lets +onlyGivenNames -merge -useContext -underBinder sig_4
  have hsig_4 : Sound q sig_4.2 := by
    unfold sig_4
    exact deviceSign_sound hs
  clear_value sig_4
  extract_lets +onlyGivenNames -merge -useContext -underBinder s1_5
  have hs1_5 : Sound q s1_5 := by
    unfold s1_5
    exact programBytes_sound (countErases_sound hsig_4)
  clear_value s1_5
  extract_lets +onlyGivenNames -merge -useContext -underBinder x_6
  clear_value x_6
  extract_lets +onlyGivenNames -merge -useContext -underBinder s2_7
  have hs2_7 : Sound q s2_7 := by
    unfold s2_7
    split
    · exact Sound.mk (Good.of hs1_5)
    · exact hs1_5
  clear_value s2_7
  exact adminEnd_sound (fwDone_sound (sendHost_sound (silStore_sound (putTable_sound (setSlice_sound hs2_7)))))

theorem enterFrame_sound {q : List Instr} {s : State} {p : Nat} {trial : Bool} {b : Bytes} (hs : Sound q s) :
    Sound q (enterFrame s p trial b) := by
  delta enterFrame
  exact Sound.mk (Good.of (setReg_sound (setReg_sound (setFlag_sound (setF_sound (setF_sound hs))))))

theorem eraseBlocks_sound {q : List Instr} {s : State} {first count : Nat} (hs : Sound q s) :
    Sound q (eraseBlocks s first count) := by
  delta eraseBlocks
  exact Sound.foldl hs fun _ _ h_0 => eraseNow_sound h_0

theorem eraseStores_sound {q : List Instr} {s : State} (hs : Sound q s) :
    Sound q (eraseStores s) := by
  delta eraseStores
  exact setFlag_sound (setF_sound (eraseBlocks_sound (Sound.mk (Good.of hs))))

theorem fwFail_sound {q : List Instr} {s : State} {n r : Nat} {staging : Bool} (hs : Sound q s) :
    Sound q (fwFail s n r staging) := by
  delta fwFail
  exact adminEnd_sound (Sound.ite (event_sound (setF_sound (setF_sound hs))) (setF_sound hs))

theorem fwActivateEffect_sound {q : List Instr} {n : Nat} {s : State} (hs : Sound q s) :
    Sound q (fwActivateEffect n s) := by
  delta fwActivateEffect
  split
  · exact hs
  · exact Sound.ite hs (Sound.ite (fwFail_sound hs) (adminOk_sound (silStore_sound hs)))

theorem execFwActivate_sound {q : List Instr} {ctx : Nat} {s : State} (hs : Sound q s) :
    OutSound q (execFwActivate ctx s) := by
  delta execFwActivate
  exact OutSound.next (fwActivateEffect_sound hs)

theorem fwActivateConfirmEffect_sound {q : List Instr} {n : Nat} {s : State} (hs : Sound q s) :
    Sound q (fwActivateConfirmEffect n s) := by
  delta fwActivateConfirmEffect
  split
  · exact hs
  · exact Sound.ite hs (Sound.ite (fwFail_sound hs) (adminOk_sound (setFlag_sound (Sound.mk (Good.of (Sound.ite
      (silStore_sound hs) (silStore_sound (silStore_sound (silStore_sound hs)))))))))

theorem execFwActivateConfirm_sound {q : List Instr} {ctx : Nat} {s : State} (hs : Sound q s) :
    OutSound q (execFwActivateConfirm ctx s) := by
  delta execFwActivateConfirm
  exact OutSound.next (fwActivateConfirmEffect_sound hs)

theorem fwBegin_sound {q : List Instr} {s : State} (hs : Sound q s) :
    Sound q (fwBegin s) := by
  delta fwBegin
  exact setF_sound (setF_sound (setF_sound hs))

theorem fwStageFrameEffect_sound {q : List Instr} {n : Nat} {flashOk : Bool} {s : State} (hs : Sound q s) :
    Sound q (fwStageFrameEffect n flashOk s) := by
  delta fwStageFrameEffect
  split
  · exact hs
  · extract_lets +onlyGivenNames -merge -useContext -underBinder part_0
    clear_value part_0
    refine Sound.ite ?_ ?_
    · exact hs
    · refine Sound.ite ?_ ?_
      · exact fwFail_sound hs
      · refine Sound.ite ?_ ?_
        · exact fwFail_sound hs
        · refine withSource_sound ?_ ?_
          · exact fwBegin_sound hs
          · intro z_1 z_2 h_3
            extract_lets +onlyGivenNames -merge -useContext -underBinder b_4
            clear_value b_4
            extract_lets +onlyGivenNames -merge -useContext -underBinder s_5
            have hs_5 : Sound q s_5 := by
              unfold s_5
              exact chargeImage_sound h_3
            clear_value s_5
            exact Sound.ite (fwFail_sound hs_5) (Sound.ite (fwFail_sound (Sound.mk (Good.of (countErases_sound
                hs_5)))) (adminOk_sound (Sound.ite (askReset_sound (silStore_sound (fwDone_sound (Sound.mk (Good.of
                (programBytes_sound (countErases_sound hs_5))))))) (fwDone_sound (Sound.mk (Good.of
                (programBytes_sound (countErases_sound hs_5))))))))

theorem execFwStageFrame_sound {q : List Instr} {ctx : Nat} {flashOk : Bool} {s : State} (hs : Sound q s) :
    OutSound q (execFwStageFrame ctx flashOk s) := by
  delta execFwStageFrame
  exact OutSound.next (fwStageFrameEffect_sound hs)

theorem fwStageInfillEffect_sound {q : List Instr} {n : Nat} {flashOk : Bool} {s : State} (hs : Sound q s) :
    Sound q (fwStageInfillEffect n flashOk s) := by
  delta fwStageInfillEffect
  split
  · exact hs
  · exact Sound.ite hs (Sound.ite (fwFail_sound hs) (withSource_sound (fwBegin_sound hs) (fun _ _ h_0 => Sound.ite
      (fwFail_sound (chargeImage_sound h_0)) (Sound.ite (fwFail_sound (chargeImage_sound h_0)) (withDevice_sound
      (chargeImage_sound h_0) (fun _ h_1 => enrol_sound h_1))))))

theorem execFwStageInfill_sound {q : List Instr} {ctx : Nat} {flashOk : Bool} {s : State} (hs : Sound q s) :
    OutSound q (execFwStageInfill ctx flashOk s) := by
  delta execFwStageInfill
  exact OutSound.next (fwStageInfillEffect_sound hs)

theorem lifecycleQueryEffect_sound {q : List Instr} {n : Nat} {s : State} (hs : Sound q s) :
    Sound q (lifecycleQueryEffect n s) := by
  delta lifecycleQueryEffect
  split
  · exact hs
  · exact Sound.ite hs (adminOk_sound hs)

theorem execLifecycleQuery_sound {q : List Instr} {ctx : Nat} {s : State} (hs : Sound q s) :
    OutSound q (execLifecycleQuery ctx s) := by
  delta execLifecycleQuery
  exact OutSound.next (lifecycleQueryEffect_sound hs)

theorem lifecycleVendorEffect_sound {q : List Instr} {n : Nat} {s : State} (hs : Sound q s) :
    Sound q (lifecycleVendorEffect n s) := by
  delta lifecycleVendorEffect
  split
  · exact hs
  · exact Sound.ite hs (Sound.ite (fwFail_sound hs) (withSource_sound hs (fun _ _ h_0 => Sound.ite (fwFail_sound
      h_0) (Sound.mk (Good.of h_0)))))

theorem execLifecycleVendor_sound {q : List Instr} {ctx : Nat} {s : State} (hs : Sound q s) :
    OutSound q (execLifecycleVendor ctx s) := by
  delta execLifecycleVendor
  exact OutSound.next (lifecycleVendorEffect_sound hs)

theorem freeInfill_sound {q : List Instr} {s : State} (hs : Sound q s) :
    Sound q (freeInfill s) := by
  delta freeInfill
  exact Sound.mk (Good.of hs)

theorem infillBoot_sound {q : List Instr} {s : State} (hs : Sound q s) :
    Sound q (infillBoot s) := by
  delta infillBoot
  exact Sound.ite hs (event_sound (Sound.mk (Good.of hs)))

theorem showLife_sound {q : List Instr} {s : State} {code : Nat} (hs : Sound q s) :
    Sound q (showLife s code) := by
  delta showLife
  exact event_sound (setF_sound hs)

theorem setLife_sound {q : List Instr} {s : State} {code : Nat} (hs : Sound q s) :
    Sound q (setLife s code) := by
  delta setLife
  exact silStore_sound (showLife_sound hs)

theorem installDomain_sound {q : List Instr} {s : State} {l2 : Bytes} {dev : Nat} (hs : Sound q s) :
    Sound q (installDomain s l2 dev) := by
  delta installDomain
  extract_lets +onlyGivenNames -merge -useContext -underBinder d_0
  have hd_0 : Sound q d_0.2 := by
    unfold d_0
    exact drawFrom_sound hs
  clear_value d_0
  extract_lets +onlyGivenNames -merge -useContext -underBinder _1
  clear_value _1
  extract_lets +onlyGivenNames -merge -useContext -underBinder s1_2
  have hs1_2 : Sound q s1_2 := by
    unfold s1_2
    exact setFlag_sound (setThm_sound hd_0)
  clear_value s1_2
  extract_lets +onlyGivenNames -merge -useContext -underBinder _3
  clear_value _3
  extract_lets +onlyGivenNames -merge -useContext -underBinder s2_4
  have hs2_4 : Sound q s2_4 := by
    unfold s2_4
    exact setKey_sound hs1_2
  clear_value s2_4
  extract_lets +onlyGivenNames -merge -useContext -underBinder _5
  clear_value _5
  extract_lets +onlyGivenNames -merge -useContext -underBinder s3_6
  have hs3_6 : Sound q s3_6 := by
    unfold s3_6
    exact setKey_sound hs2_4
  clear_value s3_6
  extract_lets +onlyGivenNames -merge -useContext -underBinder s4_7
  have hs4_7 : Sound q s4_7 := by
    unfold s4_7
    exact setFlag_sound (putRecord_sound hs3_6)
  clear_value s4_7
  extract_lets +onlyGivenNames -merge -useContext -underBinder _8
  clear_value _8
  extract_lets +onlyGivenNames -merge -useContext -underBinder s5_9
  have hs5_9 : Sound q s5_9 := by
    unfold s5_9
    exact setF_sound (Sound.mk (Good.of hs4_7))
  clear_value s5_9
  exact Sound.foldl (bypassSync_sound (setLife_sound (Sound.ite (Sound.ite (tombSync_sound (setChainSt_sound
      (setFlag_sound (setReg_sound (setReg_sound hs5_9))))) (setFlag_sound (setReg_sound (setReg_sound hs5_9))))
      (beginDomainChain_sound (setFlag_sound (setReg_sound (setReg_sound hs5_9))))))) fun _ _ h_10 =>
      returnKeys_sound h_10

theorem kerfVendor_sound {q : List Instr} {s : State} (hs : Sound q s) :
    Sound q (kerfVendor s) := by
  delta kerfVendor
  split
  · exact hs
  · exact adminOk_sound (Sound.mk (Good.of (showLife_sound (setFlag_sound hs))))

theorem zeroiseAll_sound {q : List Instr} {s : State} (hs : Sound q s) :
    Sound q (zeroiseAll s) := by
  delta zeroiseAll
  exact thmErase_sound (setFlag_sound (loseVault_sound (zeroiseSram_sound (zeroiseStore_sound hs))))

theorem terminate_sound {q : List Instr} {s : State} (hs : Sound q s) :
    Sound q (terminate s) := by
  delta terminate
  exact Sound.mk (Good.of (eraseStores_sound (zeroiseAll_sound (showLife_sound (setFlag_sound hs)))))

theorem lifeRequest_sound {q : List Instr} {s : State} {target : Nat} (hs : Sound q s) :
    Sound q (lifeRequest s target) := by
  delta lifeRequest
  exact Sound.ite (bypassSync_sound (terminate_sound hs)) (Sound.ite (bypassSync_sound (showLife_sound
      (setFlag_sound hs))) (setLife_sound hs))

theorem partImage_sound {q : List Instr} {s : State} {p : Nat} (hs : Sound q s) :
    Sound q (partImage s p).2 := by
  delta partImage
  exact flashBytes_sound (flashBytes_sound hs)

theorem selectImage_sound {q : List Instr} {s : State} (hs : Sound q s) :
    Sound q (selectImage s) := by
  delta selectImage
  extract_lets +onlyGivenNames -merge -useContext -underBinder r_0
  clear_value r_0
  extract_lets +onlyGivenNames -merge -useContext -underBinder act_1
  clear_value act_1
  extract_lets +onlyGivenNames -merge -useContext -underBinder pick_2
  have hpick_2 : ∀ y0 y1 y2, Sound q y0 → Sound q (pick_2 y0 y1 y2) := by
    intro y0 y1 y2 h_3
    unfold pick_2
    exact setF_sound (Sound.mk (Good.of h_3))
  clear_value pick_2
  exact Sound.ite (hpick_2 _ _ _ hs) (Sound.ite (hpick_2 _ _ _ (silStore_sound hs)) (hpick_2 _ _ _ (event_sound
      (silStore_sound hs))))

theorem tryImage_sound {q : List Instr} {s : State} {p : Nat} {trial : Bool} (hs : Sound q s) :
    Sound q (tryImage s p trial).2 := by
  delta tryImage
  exact Sound.ite_snd (Sound.pair_snd (enterFrame_sound (Sound.pair_snd (chargeImage_sound (partImage_sound hs)))))
      (Sound.pair_snd (Sound.pair_snd (chargeImage_sound (partImage_sound hs))))

theorem verifyImage_sound {q : List Instr} {s : State} {p : Nat} {trial : Bool} (hs : Sound q s) :
    Sound q (verifyImage s p trial) := by
  delta verifyImage
  refine Sound.ite ?_ ?_
  · exact bootDead_sound hs
  · extract_lets +onlyGivenNames -merge -useContext -underBinder a_0
    have ha_0 : Sound q a_0.2 := by
      unfold a_0
      exact tryImage_sound hs
    clear_value a_0
    refine Sound.ite ?_ ?_
    · exact ha_0
    · extract_lets +onlyGivenNames -merge -useContext -underBinder act_1
      clear_value act_1
      extract_lets +onlyGivenNames -merge -useContext -underBinder s1_2
      have hs1_2 : Sound q s1_2 := by
        unfold s1_2
        exact Sound.ite (silStore_sound ha_0) ha_0
      clear_value s1_2
      extract_lets +onlyGivenNames -merge -useContext -underBinder b_3
      have hb_3 : Sound q b_3.2 := by
        unfold b_3
        exact Sound.ite_snd (tryImage_sound hs1_2) (Sound.pair_snd hs1_2)
      clear_value b_3
      exact Sound.ite hb_3 (Sound.ite (event_sound (Sound.ite_snd (Sound.pair_snd hb_3) (tryImage_sound hb_3)))
          (setFlag_sound (Sound.ite_snd (Sound.pair_snd hb_3) (tryImage_sound hb_3))))

/-! ### Guard -/

theorem ofcEvent_sound {q : List Instr} {s : State} {f : Fld} (hs : Sound q s) :
    Sound q (ofcEvent s f) := by
  delta ofcEvent
  exact raiseMgmt_sound (event_sound hs)

theorem guardSync_sound {q : List Instr} {s : State} (hs : Sound q s) :
    Sound q (guardSync s) := by
  delta guardSync
  split
  · exact setFlag_sound (setReg_sound (setReg_sound (setReg_sound (setReg_sound (setFlag_sound hs)))))
  · exact setFlag_sound (setReg_sound (setReg_sound (setReg_sound (setReg_sound (setFlag_sound hs)))))

theorem setOfc_sound {q : List Instr} {s : State} {o : Ofc} (hs : Sound q s) :
    Sound q (setOfc s o) := by
  delta setOfc
  exact Sound.mk (Good.of hs)

theorem setChange_sound {q : List Instr} {s : State} {c : Option Change} (hs : Sound q s) :
    Sound q (setChange s c) := by
  delta setChange
  exact guardSync_sound (setOfc_sound hs)

theorem ofcError_sound {q : List Instr} {s : State} {op reason : Nat} (hs : Sound q s) :
    Sound q (ofcError s op reason) := by
  delta ofcError
  exact setF_sound (setF_sound hs)

theorem ofcFail_sound {q : List Instr} {s : State} {n reason : Nat} (hs : Sound q s) :
    Sound q (ofcFail s n reason) := by
  delta ofcFail
  exact adminEnd_sound (ofcError_sound hs)

theorem guardDrop_sound {q : List Instr} {s : State} {reason : Nat} (hs : Sound q s) :
    Sound q (guardDrop s reason) := by
  delta guardDrop
  split
  · exact hs
  · extract_lets +onlyGivenNames -merge -useContext -underBinder s1_0
    have hs1_0 : Sound q s1_0 := by
      unfold s1_0
      exact setChange_sound hs
    clear_value s1_0
    split
    · exact ofcFail_sound hs1_0
    · exact hs1_0

theorem guardExpiry_sound {q : List Instr} {s : State} (hs : Sound q s) :
    Sound q (guardExpiry s) := by
  delta guardExpiry
  split
  · exact hs
  · exact Sound.ite (ofcEvent_sound (guardDrop_sound hs)) hs

theorem execChangeExpiry_sound {q : List Instr} {s : State} (hs : Sound q s) :
    OutSound q (execChangeExpiry s) := by
  delta execChangeExpiry
  exact OutSound.next (guardExpiry_sound hs)

theorem guardDiscardEffect_sound {q : List Instr} {n : Nat} {s : State} (hs : Sound q s) :
    Sound q (guardDiscardEffect n s) := by
  delta guardDiscardEffect
  split
  · exact hs
  · refine Sound.ite ?_ ?_
    · exact hs
    · split
      · exact ofcFail_sound hs
      · exact Sound.ite (ofcFail_sound hs) (adminOk_sound (guardDrop_sound hs))

theorem execGuardDiscard_sound {q : List Instr} {ctx : Nat} {s : State} (hs : Sound q s) :
    OutSound q (execGuardDiscard ctx s) := by
  delta execGuardDiscard
  exact OutSound.next (guardDiscardEffect_sound hs)

theorem guardPut_sound {q : List Instr} {s : State} {es : List GuardEntry} {src : Bytes} (hs : Sound q s) :
    Sound q (guardPut s es src).1 := by
  delta guardPut
  exact Sound.pair_fst (setChange_sound (setOfc_sound hs))

theorem guardStageEffect_sound {q : List Instr} {n : Nat} {s : State} (hs : Sound q s) :
    Sound q (guardStageEffect n s) := by
  delta guardStageEffect
  split
  · exact hs
  · refine Sound.ite ?_ ?_
    · exact ofcFail_sound hs
    · refine Sound.ite ?_ ?_
      · exact ofcFail_sound hs
      · refine withSource_sound ?_ ?_
        · exact hs
        · intro z_0 z_1 h_2
          extract_lets +onlyGivenNames -merge -useContext -underBinder src_3
          clear_value src_3
          split
          · exact ofcFail_sound h_2
          · exact Sound.ite (ofcFail_sound h_2) (adminEnd_sound (sendHost_sound (guardPut_sound h_2)))

theorem execGuardStage_sound {q : List Instr} {ctx : Nat} {s : State} (hs : Sound q s) :
    OutSound q (execGuardStage ctx s) := by
  delta execGuardStage
  exact OutSound.next (guardStageEffect_sound hs)

theorem markPage_sound {q : List Instr} {s : State} {page : Nat} (hs : Sound q s) :
    Sound q (markPage s page) := by
  delta markPage
  exact Sound.ite hs (Sound.mk (Good.of hs))

theorem putGw_sound {q : List Instr} {s : State} {key : Nat} {v : Word} (hs : Sound q s) :
    Sound q (putGw s key v) := by
  delta putGw
  exact setReg_sound hs

theorem gwApply_sound {q : List Instr} {s : State} {key sel : Nat} {v : Word} (hs : Sound q s) :
    Sound q (gwApply s key sel v) := by
  delta gwApply
  extract_lets +onlyGivenNames -merge -useContext -underBinder s_0
  have hs_0 : Sound q s_0 := by
    unfold s_0
    exact markPage_sound hs
  clear_value s_0
  refine Sound.ite ?_ ?_
  · exact setFlag_sound (event_sound (putGw_sound hs_0))
  · refine Sound.ite ?_ ?_
    · exact setFlag_sound (Sound.mk (Good.of hs_0))
    · exact Sound.ite (Sound.ite (gteStage_sound hs_0) hs_0) (Sound.ite (armCommit_sound hs_0) (Sound.ite
        (thmEraseCommit_sound (putGw_sound hs_0)) (Sound.ite (silStore_sound (putGw_sound hs_0)) (Sound.ite
        (lifeRequest_sound (putGw_sound hs_0)) (Sound.ite (Sound.mk (Good.of (putGw_sound hs_0))) (putGw_sound
        hs_0))))))

theorem gwWrite_sound {q : List Instr} {s : State} {init key : Nat} {v : Word} (hs : Sound q s) :
    Sound q (gwWrite s init key v) := by
  delta gwWrite
  exact Sound.ite hs (Sound.ite (ofcError_sound hs) (Sound.ite (ofcError_sound hs) (guardPut_sound hs)))

theorem ofcFailOpt_sound {q : List Instr} {s : State} {n : Option Nat} {reason : Nat} (hs : Sound q s) :
    Sound q (ofcFailOpt s n reason) := by
  delta ofcFailOpt
  split
  · exact ofcFail_sound hs
  · exact ofcError_sound hs

theorem ofcOkOpt_sound {q : List Instr} {s : State} {n : Option Nat} (hs : Sound q s) :
    Sound q (ofcOkOpt s n) := by
  delta ofcOkOpt
  split
  · exact adminOk_sound hs
  · exact hs

theorem officerSync_sound {q : List Instr} {s : State} (hs : Sound q s) :
    Sound q (officerSync s) := by
  delta officerSync
  exact setF_sound hs

theorem readOfficers_sound {q : List Instr} {s : State} (hs : Sound q s) :
    Sound q (readOfficers s) := by
  delta readOfficers
  exact setFlag_sound (officerSync_sound (setOfc_sound hs))

theorem setAttempts_sound {q : List Instr} {s : State} {i v : Nat} (hs : Sound q s) :
    Sound q (setAttempts s i v) := by
  delta setAttempts
  exact silStore_sound hs

theorem setOfficer_sound {q : List Instr} {s : State} {n : Nat} {x : Officer} (hs : Sound q s) :
    Sound q (setOfficer s n x) := by
  delta setOfficer
  exact officerSync_sound (setOfc_sound hs)

/-! ### Officers -/

theorem setSlotSt_sound {q : List Instr} {s : State} {i v : Nat} (hs : Sound q s) :
    Sound q (setSlotSt s i v) := by
  delta setSlotSt
  exact setF_sound hs

theorem sendCard_sound {q : List Instr} {s : State} {i ins p1 p3 : Nat} {data : Bytes} (hs : Sound q s) :
    Sound q (sendCard s i ins p1 p3 data) := by
  delta sendCard
  exact emit_sound hs

theorem setCard_sound {q : List Instr} {s : State} {i : Nat} {x : CardSlot} (hs : Sound q s) :
    Sound q (setCard s i x) := by
  delta setCard
  exact Sound.ite (setOfc_sound hs) (setOfc_sound hs)

theorem startJob_sound {q : List Instr} {s : State} {i : Nat} {j : CardJob} {ins p1 p3 : Nat} {data : Bytes} (hs :
    Sound q s) :
    Sound q (startJob s i j ins p1 p3 data) := by
  delta startJob
  exact sendCard_sound (setSlotSt_sound (setCard_sound hs))

theorem activateCard_sound {q : List Instr} {s : State} {i : Nat} (hs : Sound q s) :
    Sound q (activateCard s i) := by
  delta activateCard
  exact setSlotSt_sound (startJob_sound hs)

theorem addApproval_sound {q : List Instr} {s : State} {o : Nat} {remote : Bool} {slot : Nat} (hs : Sound q s) :
    Sound q (addApproval s o remote slot) := by
  delta addApproval
  split
  · exact hs
  · exact setChange_sound hs

theorem setCer_sound {q : List Instr} {s : State} {c : Option Ceremony} (hs : Sound q s) :
    Sound q (setCer s c) := by
  delta setCer
  exact setFlag_sound (setOfc_sound hs)

theorem startCeremony_sound {q : List Instr} {s : State} {c : Change} {e : GuardEntry} (hs : Sound q s) :
    Sound q (startCeremony s c e) := by
  delta startCeremony
  exact ofcEvent_sound (setReg_sound (setCer_sound (setChange_sound hs)))

theorem enrolEnd_sound {q : List Instr} {s : State} {k : Nat} {ok : Bool} (hs : Sound q s) :
    Sound q (enrolEnd s k ok) := by
  delta enrolEnd
  split
  · exact hs
  · exact setChange_sound hs

theorem cerTake_sound {q : List Instr} {s : State} {i : Nat} {c : Ceremony} (hs : Sound q s) :
    Sound q (cerTake s i c) := by
  delta cerTake
  exact startJob_sound (setF_sound (setCer_sound hs))

theorem cerPrompt_sound {q : List Instr} {s : State} (hs : Sound q s) :
    Sound q (cerPrompt s) := by
  delta cerPrompt
  split
  · exact hs
  · extract_lets +onlyGivenNames -merge -useContext -underBinder next_0
    clear_value next_0
    extract_lets +onlyGivenNames -merge -useContext -underBinder s1_1
    have hs1_1 : Sound q s1_1 := by
      unfold s1_1
      exact ofcEvent_sound (setF_sound (setF_sound hs))
    clear_value s1_1
    extract_lets +onlyGivenNames -merge -useContext -underBinder c1_2
    clear_value c1_2
    split
    · exact cerTake_sound hs1_1
    · exact setCer_sound hs1_1

theorem cerRetry_sound {q : List Instr} {s : State} (hs : Sound q s) :
    Sound q (cerRetry s) := by
  delta cerRetry
  exact cerPrompt_sound (countF_sound hs)

theorem jobLost_sound {q : List Instr} {s : State} {j : CardJob} (hs : Sound q s) :
    Sound q (jobLost s j) := by
  delta jobLost
  split
  · exact hs
  · exact hs
  · exact ofcFail_sound hs
  · exact ofcFail_sound hs
  · exact enrolEnd_sound hs
  · exact cerRetry_sound hs
  · exact cerRetry_sound hs
  · exact cerRetry_sound hs

theorem endSession_sound {q : List Instr} {s : State} {i : Nat} (hs : Sound q s) :
    Sound q (endSession s i) := by
  delta endSession
  refine Sound.ite ?_ ?_
  · exact hs
  · extract_lets +onlyGivenNames -merge -useContext -underBinder s1_0
    have hs1_0 : Sound q s1_0 := by
      unfold s1_0
      exact setF_sound hs
    clear_value s1_0
    split
    · exact hs1_0
    · exact setChange_sound hs1_0

theorem deactivateCard_sound {q : List Instr} {s : State} {i : Nat} (hs : Sound q s) :
    Sound q (deactivateCard s i) := by
  delta deactivateCard
  exact setSlotSt_sound (setF_sound (setCard_sound (endSession_sound hs)))

theorem closeSession_sound {q : List Instr} {s : State} {i : Nat} (hs : Sound q s) :
    Sound q (closeSession s i) := by
  delta closeSession
  exact Sound.ite hs (jobLost_sound (deactivateCard_sound hs))

theorem endSessionsOf_sound {q : List Instr} {s : State} {o : Nat} (hs : Sound q s) :
    Sound q (endSessionsOf s o) := by
  delta endSessionsOf
  exact Sound.foldl hs fun _ _ h_0 => Sound.ite (closeSession_sound h_0) h_0

theorem applyEntry_sound {q : List Instr} {s : State} {e : GuardEntry} (hs : Sound q s) :
    Sound q (applyEntry s e) := by
  delta applyEntry
  exact Sound.ite (gwApply_sound hs) (Sound.ite (setAttempts_sound (setOfficer_sound hs)) (Sound.ite
      (setOfficer_sound (endSessionsOf_sound hs)) (Sound.ite (setAttempts_sound (setOfficer_sound
      (endSessionsOf_sound hs))) hs)))

theorem applyChange_sound {q : List Instr} {s : State} {c : Change} (hs : Sound q s) :
    Sound q (applyChange s c) := by
  delta applyChange
  split
  · exact Sound.ite (guardDrop_sound hs) (startCeremony_sound hs)
  · exact ofcOkOpt_sound (ofcEvent_sound (Sound.foldl (setChange_sound hs) fun _ _ h_0 => applyEntry_sound h_0))

theorem countWrong_sound {q : List Instr} {s : State} {i : Nat} (hs : Sound q s) :
    Sound q (countWrong s i) := by
  delta countWrong
  exact Sound.ite (firePlain_sound (ofcEvent_sound (setOfficer_sound (setAttempts_sound hs)))) (setAttempts_sound hs)

theorem approveAnswer_sound {q : List Instr} {s : State} {i n : Nat} {data resp : Bytes} (hs : Sound q s) :
    Sound q (approveAnswer s i n data resp) := by
  delta approveAnswer
  extract_lets +onlyGivenNames -merge -useContext -underBinder o_0
  clear_value o_0
  extract_lets +onlyGivenNames -merge -useContext -underBinder x_1
  clear_value x_1
  extract_lets +onlyGivenNames -merge -useContext -underBinder _2
  clear_value _2
  extract_lets +onlyGivenNames -merge -useContext -underBinder s1_3
  have hs1_3 : Sound q s1_3 := by
    unfold s1_3
    exact setSlotSt_sound (setCard_sound hs)
  clear_value s1_3
  refine Sound.ite ?_ ?_
  · exact Sound.ite (deactivateCard_sound (ofcFail_sound (countWrong_sound hs1_3))) (ofcFail_sound (countWrong_sound
      hs1_3))
  · split
    · exact ofcFail_sound hs1_3
    · exact Sound.ite (ofcFail_sound hs1_3) (Sound.ite (ofcFail_sound hs1_3) (adminOk_sound (addApproval_sound
        (setCard_sound hs1_3))))

theorem challenge_sound {q : List Instr} {s : State} {i : Nat} {j : CardJob} {data : Bytes} (hs : Sound q s) :
    Sound q (challenge s i j data) := by
  delta challenge
  exact startJob_sound hs

theorem approveEffect_sound {q : List Instr} {n : Nat} {s : State} (hs : Sound q s) :
    Sound q (approveEffect n s) := by
  delta approveEffect
  split
  · exact hs
  · extract_lets +onlyGivenNames -merge -useContext -underBinder i_0
    clear_value i_0
    refine Sound.ite ?_ ?_
    · exact hs
    · split
      · exact ofcFail_sound hs
      · exact Sound.ite (ofcFail_sound hs) (Sound.ite (ofcFail_sound hs) (challenge_sound hs))

theorem cardError_sound {q : List Instr} {s : State} {i code : Nat} (hs : Sound q s) :
    Sound q (cardError s i code) := by
  delta cardError
  exact jobLost_sound (Sound.ite (fire_sound (Sound.ite (setSlotSt_sound (deactivateCard_sound (ofcEvent_sound
      (setF_sound hs)))) (deactivateCard_sound (ofcEvent_sound (setF_sound hs))))) (Sound.ite (setSlotSt_sound
      (deactivateCard_sound (ofcEvent_sound (setF_sound hs)))) (deactivateCard_sound (ofcEvent_sound (setF_sound
      hs)))))

theorem cardInsertEffect_sound {q : List Instr} {slot : Nat} {t0 : Bool} {s : State} (hs : Sound q s) :
    Sound q (cardInsertEffect slot t0 s) := by
  delta cardInsertEffect
  exact Sound.ite hs (Sound.ite (activateCard_sound (setF_sound (ofcEvent_sound (setCard_sound hs))))
      (cardError_sound (setF_sound (ofcEvent_sound (setCard_sound hs)))))

theorem cardRemoveEffect_sound {q : List Instr} {slot : Nat} {s : State} (hs : Sound q s) :
    Sound q (cardRemoveEffect slot s) := by
  delta cardRemoveEffect
  exact Sound.ite hs (Sound.ite (deactivateCard_sound (ofcEvent_sound (setCard_sound hs))) (cardError_sound
      (ofcEvent_sound (setCard_sound hs))))

theorem cardTimeoutEffect_sound {q : List Instr} {slot : Nat} {busy : Bool} {s : State} (hs : Sound q s) :
    Sound q (cardTimeoutEffect slot busy s) := by
  delta cardTimeoutEffect
  exact Sound.ite hs (Sound.ite hs (Sound.ite (cardError_sound hs) (cardError_sound hs)))

theorem cerBegin_sound {q : List Instr} {s : State} {kind : Nat} (hs : Sound q s) :
    Sound q (cerBegin s kind) := by
  delta cerBegin
  split
  · exact hs
  · exact Sound.ite hs (cerPrompt_sound (setCer_sound (Sound.ite_snd (Sound.pair_snd (Sound.ite_snd (drawFrom_sound
      hs) (Sound.pair_snd hs))) (drawFrom_sound (Sound.ite_snd (drawFrom_sound hs) (Sound.pair_snd hs))))))

theorem cerFail_sound {q : List Instr} {s : State} {reason : Nat} (hs : Sound q s) :
    Sound q (cerFail s reason) := by
  delta cerFail
  split
  · exact hs
  · extract_lets +onlyGivenNames -merge -useContext -underBinder s1_0
    have hs1_0 : Sound q s1_0 := by
      unfold s1_0
      split
      · exact deactivateCard_sound hs
      · exact hs
    clear_value s1_0
    exact ofcFailOpt_sound (setF_sound (setCer_sound hs1_0))

theorem cerNext_sound {q : List Instr} {s : State} {i : Nat} (hs : Sound q s) :
    Sound q (cerNext s i) := by
  delta cerNext
  extract_lets +onlyGivenNames -merge -useContext -underBinder s1_0
  have hs1_0 : Sound q s1_0 := by
    unfold s1_0
    exact deactivateCard_sound hs
  clear_value s1_0
  split
  · exact hs1_0
  · exact Sound.ite (setCer_sound hs1_0) (cerPrompt_sound hs1_0)

theorem cerRead_sound {q : List Instr} {s : State} {i : Nat} {c : Ceremony} (hs : Sound q s) :
    Sound q (cerRead s i c) := by
  delta cerRead
  exact Sound.ite (Sound.ite (cerRetry_sound (deactivateCard_sound (setF_sound (setCer_sound hs)))) (cerNext_sound
      (setF_sound (setCer_sound hs)))) (startJob_sound (setF_sound hs))

theorem ceremonyTimeoutEffect_sound {q : List Instr} {s : State} (hs : Sound q s) :
    Sound q (ceremonyTimeoutEffect s) := by
  delta ceremonyTimeoutEffect
  split
  · exact hs
  · exact Sound.ite (cerFail_sound hs) hs

theorem loginAnswer_sound {q : List Instr} {s : State} {i n o : Nat} {data verifier resp : Bytes} (hs : Sound q s) :
    Sound q (loginAnswer s i n o data verifier resp) := by
  delta loginAnswer
  exact Sound.ite (deactivateCard_sound (ofcFail_sound (countWrong_sound hs))) (Sound.ite (deactivateCard_sound
      (ofcFail_sound hs)) (adminOk_sound (setF_sound (setSlotSt_sound (setCard_sound (setOfficer_sound
      (setAttempts_sound hs)))))))

theorem challengeEffect_sound {q : List Instr} {slot sw : Nat} {data : Bytes} {s : State} (hs : Sound q s) :
    Sound q (challengeEffect slot sw data s) := by
  delta challengeEffect
  refine Sound.ite ?_ ?_
  · exact hs
  · split
    · exact Sound.ite (loginAnswer_sound hs) (cardError_sound hs)
    · exact Sound.ite (approveAnswer_sound hs) (cardError_sound hs)
    · exact hs

theorem execApprove_sound {q : List Instr} {ctx : Nat} {s : State} (hs : Sound q s) :
    OutSound q (execApprove ctx s) := by
  delta execApprove
  exact OutSound.next (approveEffect_sound hs)

theorem execCardInsert_sound {q : List Instr} {slot : Nat} {t0 : Bool} {s : State} (hs : Sound q s) :
    OutSound q (execCardInsert slot t0 s) := by
  delta execCardInsert
  exact OutSound.next (cardInsertEffect_sound hs)

theorem execCardRemove_sound {q : List Instr} {slot : Nat} {s : State} (hs : Sound q s) :
    OutSound q (execCardRemove slot s) := by
  delta execCardRemove
  exact OutSound.next (cardRemoveEffect_sound hs)

theorem execCardTimeout_sound {q : List Instr} {slot : Nat} {busy : Bool} {s : State} (hs : Sound q s) :
    OutSound q (execCardTimeout slot busy s) := by
  delta execCardTimeout
  exact OutSound.next (cardTimeoutEffect_sound hs)

theorem execCeremonyTimeout_sound {q : List Instr} {s : State} (hs : Sound q s) :
    OutSound q (execCeremonyTimeout s) := by
  delta execCeremonyTimeout
  exact OutSound.next (ceremonyTimeoutEffect_sound hs)

theorem execChallenge_sound {q : List Instr} {slot sw : Nat} {data : Bytes} {s : State} (hs : Sound q s) :
    OutSound q (execChallenge slot sw data s) := by
  delta execChallenge
  exact OutSound.next (challengeEffect_sound hs)

theorem execDomainJoin_sound {q : List Instr} {s : State} (hs : Sound q s) :
    OutSound q (execDomainJoin s) := by
  delta execDomainJoin
  exact OutSound.next (cerBegin_sound hs)

theorem execDomainNew_sound {q : List Instr} {s : State} (hs : Sound q s) :
    OutSound q (execDomainNew s) := by
  delta execDomainNew
  exact OutSound.next (cerBegin_sound hs)

theorem getInfoEffect_sound {q : List Instr} {slot sw : Nat} {data : Bytes} {s : State} (hs : Sound q s) :
    Sound q (getInfoEffect slot sw data s) := by
  delta getInfoEffect
  refine Sound.ite ?_ ?_
  · exact hs
  · refine Sound.ite ?_ ?_
    · exact cardError_sound hs
    · extract_lets +onlyGivenNames -merge -useContext -underBinder _0
      clear_value _0
      extract_lets +onlyGivenNames -merge -useContext -underBinder s1_1
      have hs1_1 : Sound q s1_1 := by
        unfold s1_1
        exact setCard_sound hs
      clear_value s1_1
      extract_lets +onlyGivenNames -merge -useContext -underBinder k_2
      clear_value k_2
      extract_lets +onlyGivenNames -merge -useContext -underBinder s2_3
      have hs2_3 : Sound q s2_3 := by
        unfold s2_3
        exact setSlotSt_sound (setF_sound hs1_1)
      clear_value s2_3
      split
      · exact Sound.ite (cerTake_sound hs2_3) hs2_3
      · exact hs2_3

theorem execGetInfo_sound {q : List Instr} {slot sw : Nat} {data : Bytes} {s : State} (hs : Sound q s) :
    OutSound q (execGetInfo slot sw data s) := by
  delta execGetInfo
  exact OutSound.next (getInfoEffect_sound hs)

theorem issueEnrol_sound {q : List Instr} {s : State} (hs : Sound q s) :
    Sound q (issueEnrol s) := by
  delta issueEnrol
  split
  · exact hs
  · split
    · exact hs
    · exact Sound.ite (activateCard_sound hs) (Sound.ite hs (Sound.ite (startJob_sound (setChange_sound
        (drawFrom_sound hs))) (enrolEnd_sound hs)))

theorem guardCommitEffect_sound {q : List Instr} {n : Nat} {s : State} (hs : Sound q s) :
    Sound q (guardCommitEffect n s) := by
  delta guardCommitEffect
  split
  · exact hs
  · refine Sound.ite ?_ ?_
    · exact hs
    · split
      · exact ofcFail_sound hs
      · exact Sound.ite hs (Sound.ite (issueEnrol_sound (setChange_sound hs)) (setChange_sound hs))

theorem execGuardCommit_sound {q : List Instr} {ctx : Nat} {s : State} (hs : Sound q s) :
    OutSound q (execGuardCommit ctx s) := by
  delta execGuardCommit
  exact OutSound.next (guardCommitEffect_sound hs)

theorem loginEffect_sound {q : List Instr} {n : Nat} {s : State} (hs : Sound q s) :
    Sound q (loginEffect n s) := by
  delta loginEffect
  split
  · exact hs
  · extract_lets +onlyGivenNames -merge -useContext -underBinder i_0
    clear_value i_0
    extract_lets +onlyGivenNames -merge -useContext -underBinder o_1
    clear_value o_1
    refine Sound.ite ?_ ?_
    · exact hs
    · extract_lets +onlyGivenNames -merge -useContext -underBinder a_2
      clear_value a_2
      refine Sound.ite ?_ ?_
      · exact Sound.ite (activateCard_sound hs) hs
      · refine Sound.ite ?_ ?_
        · exact ofcFail_sound hs
        · refine Sound.ite ?_ ?_
          · exact ofcFail_sound hs
          · refine Sound.ite ?_ ?_
            · exact ofcFail_sound hs
            · refine withSource_sound ?_ ?_
              · exact hs
              · intro z_3 z_4 h_5
                split
                · exact ofcFail_sound h_5
                · exact Sound.ite (deactivateCard_sound (ofcFail_sound (countWrong_sound h_5))) (challenge_sound
                    (drawFrom_sound h_5))

theorem execLogin_sound {q : List Instr} {ctx : Nat} {s : State} (hs : Sound q s) :
    OutSound q (execLogin ctx s) := by
  delta execLogin
  exact OutSound.next (loginEffect_sound hs)

theorem logoutEffect_sound {q : List Instr} {n : Nat} {s : State} (hs : Sound q s) :
    Sound q (logoutEffect n s) := by
  delta logoutEffect
  split
  · exact hs
  · exact Sound.ite hs (Sound.ite (ofcFail_sound hs) (adminOk_sound (deactivateCard_sound hs)))

theorem execLogout_sound {q : List Instr} {ctx : Nat} {s : State} (hs : Sound q s) :
    OutSound q (execLogout ctx s) := by
  delta execLogout
  exact OutSound.next (logoutEffect_sound hs)

theorem readDone_sound {q : List Instr} {s : State} {i blk : Nat} {verify : Bool} {data : Bytes} (hs : Sound q s) :
    Sound q (readDone s i blk verify data) := by
  delta readDone
  split
  · exact deactivateCard_sound hs
  · exact Sound.ite (Sound.ite (cerNext_sound (countF_sound hs)) (cerRetry_sound (deactivateCard_sound hs)))
      (Sound.ite (startJob_sound (setCer_sound hs)) (cerRead_sound (setCer_sound hs)))

theorem readBlockEffect_sound {q : List Instr} {slot sw : Nat} {data : Bytes} {s : State} (hs : Sound q s) :
    Sound q (readBlockEffect slot sw data s) := by
  delta readBlockEffect
  refine Sound.ite ?_ ?_
  · exact hs
  · split
    · exact Sound.ite (readDone_sound hs) (cardError_sound hs)
    · exact Sound.ite (readDone_sound hs) (cardError_sound hs)
    · exact hs

theorem execReadBlock_sound {q : List Instr} {slot sw : Nat} {data : Bytes} {s : State} (hs : Sound q s) :
    OutSound q (execReadBlock slot sw data s) := by
  delta execReadBlock
  exact OutSound.next (readBlockEffect_sound hs)

theorem remoteApproveEffect_sound {q : List Instr} {n : Nat} {s : State} (hs : Sound q s) :
    Sound q (remoteApproveEffect n s) := by
  delta remoteApproveEffect
  split
  · exact hs
  · refine Sound.ite ?_ ?_
    · exact hs
    · refine Sound.ite ?_ ?_
      · exact ofcFail_sound hs
      · refine withSource_sound ?_ ?_
        · exact hs
        · intro z_0 z_1 h_2
          split
          · exact ofcFail_sound h_2
          · exact Sound.ite (ofcFail_sound h_2) (Sound.ite (ofcFail_sound h_2) (Sound.ite (ofcFail_sound h_2)
              (Sound.ite (ofcFail_sound h_2) (Sound.ite (ofcFail_sound h_2) (Sound.ite (adminEnd_sound h_2)
              (Sound.ite (ofcFail_sound h_2) (adminOk_sound (addApproval_sound h_2))))))))

theorem execRemoteApprove_sound {q : List Instr} {ctx : Nat} {s : State} (hs : Sound q s) :
    OutSound q (execRemoteApprove ctx s) := by
  delta execRemoteApprove
  exact OutSound.next (remoteApproveEffect_sound hs)

theorem execReshare_sound {q : List Instr} {s : State} (hs : Sound q s) :
    OutSound q (execReshare s) := by
  delta execReshare
  exact OutSound.next (cerBegin_sound hs)

theorem sessionExpiry_sound {q : List Instr} {s : State} (hs : Sound q s) :
    Sound q (sessionExpiry s) := by
  delta sessionExpiry
  exact Sound.foldl hs fun _ _ h_0 => Sound.ite (deactivateCard_sound h_0) h_0

theorem execSessionExpiry_sound {q : List Instr} {s : State} (hs : Sound q s) :
    OutSound q (execSessionExpiry s) := by
  delta execSessionExpiry
  exact OutSound.next (sessionExpiry_sound hs)

theorem writeBlockEffect_sound {q : List Instr} {slot sw : Nat} {s : State} (hs : Sound q s) :
    Sound q (writeBlockEffect slot sw s) := by
  delta writeBlockEffect
  refine Sound.ite ?_ ?_
  · exact hs
  · split
    · exact Sound.ite (startJob_sound hs) (cardError_sound hs)
    · exact hs

theorem execWriteBlock_sound {q : List Instr} {slot sw : Nat} {s : State} (hs : Sound q s) :
    OutSound q (execWriteBlock slot sw s) := by
  delta execWriteBlock
  exact OutSound.next (writeBlockEffect_sound hs)

theorem writeKeyEffect_sound {q : List Instr} {slot sw : Nat} {s : State} (hs : Sound q s) :
    Sound q (writeKeyEffect slot sw s) := by
  delta writeKeyEffect
  refine Sound.ite ?_ ?_
  · exact hs
  · split
    · exact Sound.ite (enrolEnd_sound (deactivateCard_sound hs)) (cardError_sound hs)
    · exact hs

theorem execWriteKey_sound {q : List Instr} {slot sw : Nat} {s : State} (hs : Sound q s) :
    OutSound q (execWriteKey slot sw s) := by
  delta execWriteKey
  exact OutSound.next (writeKeyEffect_sound hs)

theorem kerfCeremony_sound {q : List Instr} {s : State} (hs : Sound q s) :
    Sound q (kerfCeremony s) := by
  delta kerfCeremony
  split
  · exact hs
  · exact Sound.ite hs (Sound.ite (cerFail_sound hs) (ofcOkOpt_sound (Sound.ite (setOfc_sound (setF_sound
      (setCer_sound hs))) (installDomain_sound (setOfc_sound (setF_sound (setCer_sound hs)))))))

theorem kerfGuard_sound {q : List Instr} {s0 : State} (hs0 : Sound q s0) :
    Sound q (kerfGuard s0) := by
  delta kerfGuard
  extract_lets +onlyGivenNames -merge -useContext -underBinder s_0
  have hs_0 : Sound q s_0 := by
    unfold s_0
    exact guardExpiry_sound (kerfCeremony_sound hs0)
  clear_value s_0
  split
  · exact hs_0
  · exact Sound.ite hs_0 (Sound.ite (ofcFailOpt_sound (setChange_sound hs_0)) (Sound.ite (issueEnrol_sound hs_0)
      (Sound.ite (guardDrop_sound hs_0) (Sound.ite (guardDrop_sound hs_0) (applyChange_sound hs_0)))))

theorem ofcSafe_sound {q : List Instr} {s : State} (hs : Sound q s) :
    Sound q (ofcSafe s) := by
  delta ofcSafe
  exact Sound.foldl (Sound.ite (setCer_sound (guardDrop_sound hs)) (setF_sound (setCer_sound (guardDrop_sound hs))))
      fun _ _ h_0 => deactivateCard_sound h_0

end Sys2Proof.Machine
end

