-- ==== Sys2Proof/Laws/SoundLink.lean ====
section
/-!
SUPPORT. Soundness (Laws/Sound.lean) is kept by each operation of queues, the host link, resets, monitors, wear, entropy, boot, channels and fault responses.
-/
namespace Sys2Proof.Machine
open Sys2Proof

/-! ### Queues -/

theorem addFetched_sound {q : List Instr} {slice queue : Nat} {es : List Bytes} {s : State} (hs : Sound q s) :
    Sound q (addFetched slice queue es s) := by
  induction es generalizing s with
  | nil => exact hs
  | cons e r ih =>
    rw [addFetched]
    exact ih (Sound.mk (Good.of hs))

theorem holdCompls_sound {q : List Instr} {s : State} {slice : Nat} (hs : Sound q s) :
    Sound q (holdCompls s slice) := by
  delta holdCompls
  exact Sound.foldl hs fun _ _ h_0 => Sound.ite (event_sound (countReg_sound (Sound.mk (Good.of h_0)))) h_0

theorem markWritten_sound {q : List Instr} {s : State} {c : Option Nat} (hs : Sound q s) :
    Sound q (markWritten s c) := by
  delta markWritten
  split
  · exact hs
  · split
    · exact setCtx_sound hs
    · exact hs

theorem writeCompl_sound {q : List Instr} {s : State} {e : Completion} (hs : Sound q s) :
    Sound q (writeCompl s e) := by
  delta writeCompl
  exact Sound.mk (Good.of (markWritten_sound (Sound.mk (Good.of (Sound.ite (countReg_sound (setQueue_sound
      (sendHost_sound hs))) (setQueue_sound (sendHost_sound hs)))))))

theorem stopQueue_sound {q : List Instr} {s : State} {slice queue cause : Nat} (hs : Sound q s) :
    Sound q (stopQueue s slice queue cause) := by
  delta stopQueue
  exact event_sound (setF_sound (setF_sound (setF_sound (setQueue_sound hs))))

theorem loseCompl_sound {q : List Instr} {s : State} {e : Completion} (hs : Sound q s) :
    Sound q (loseCompl s e) := by
  delta loseCompl
  exact markWritten_sound (Sound.mk (Good.of (linkError_sound (countReg_sound (stopQueue_sound hs)))))

theorem completionWriteEffect_sound {q : List Instr} {slice : Nat} {linkOk : Bool} {s0 : State} (hs0 : Sound q s0) :
    Sound q (completionWriteEffect slice linkOk s0) := by
  delta completionWriteEffect
  extract_lets +onlyGivenNames -merge -useContext -underBinder work_0
  clear_value work_0
  extract_lets +onlyGivenNames -merge -useContext -underBinder s_1
  have hs_1 : Sound q s_1 := by
    unfold s_1
    exact Sound.ite (holdCompls_sound hs0) hs0
  clear_value s_1
  split
  · exact hs_1
  · exact Sound.ite hs_1 (Sound.ite (writeCompl_sound hs_1) (loseCompl_sound hs_1))

theorem dropDoorbell_sound {q : List Instr} {s : State} (hs : Sound q s) :
    Sound q (dropDoorbell s) := by
  delta dropDoorbell
  exact event_sound (countReg_sound hs)

theorem cqHeadEffect_sound {q : List Instr} {slice queue width : Nat} {v : Word} {s : State} (hs : Sound q s) :
    Sound q (cqHeadEffect slice queue width v s) := by
  delta cqHeadEffect
  exact Sound.ite hs (Sound.ite (dropDoorbell_sound hs) (Sound.ite (stopQueue_sound hs) (setQueue_sound hs)))

theorem discardCompls_sound {q : List Instr} {s : State} {slice queue : Nat} (hs : Sound q s) :
    Sound q (discardCompls s slice queue) := by
  delta discardCompls
  exact Sound.mk (Good.of hs)

theorem startFetch_sound {q : List Instr} {s : State} {slice queue : Nat} (hs : Sound q s) :
    Sound q (startFetch s slice queue) := by
  delta startFetch
  extract_lets +onlyGivenNames -merge -useContext -underBinder q_0
  clear_value q_0
  extract_lets +onlyGivenNames -merge -useContext -underBinder n_1
  clear_value n_1
  refine Sound.ite ?_ ?_
  · exact hs
  · extract_lets +onlyGivenNames -merge -useContext -underBinder s1_2
    have hs1_2 : Sound q s1_2 := by
      unfold s1_2
      split
      · exact Sound.ite hs (useIn_sound hs)
      · exact hs
    clear_value s1_2
    exact emit_sound (setQueue_sound hs1_2)

theorem entryFetchEffect_sound {q : List Instr} {slice queue : Nat} {r : ReadResult} {s : State} (hs : Sound q s) :
    Sound q (entryFetchEffect slice queue r s) := by
  delta entryFetchEffect
  extract_lets +onlyGivenNames -merge -useContext -underBinder q_0
  clear_value q_0
  refine Sound.ite ?_ ?_
  · exact hs
  · split
    · exact linkError_sound (countReg_sound (Sound.ite (stopQueue_sound hs) (setQueue_sound hs)))
    · exact Sound.ite (setQueue_sound hs) (startFetch_sound (addFetched_sound (setQueue_sound hs)))

theorem execCompletionWrite_sound {q : List Instr} {slice : Nat} {linkOk : Bool} {s : State} (hs : Sound q s) :
    OutSound q (execCompletionWrite slice linkOk s) := by
  delta execCompletionWrite
  exact OutSound.next (completionWriteEffect_sound hs)

theorem execCqHeadDoorbell_sound {q : List Instr} {slice queue width : Nat} {v : Word} {s : State} (hs : Sound q s) :
    OutSound q (execCqHeadDoorbell slice queue width v s) := by
  delta execCqHeadDoorbell
  exact OutSound.next (cqHeadEffect_sound hs)

theorem execEntryFetch_sound {q : List Instr} {slice queue : Nat} {r : ReadResult} {s : State} (hs : Sound q s) :
    OutSound q (execEntryFetch slice queue r s) := by
  delta execEntryFetch
  exact OutSound.next (entryFetchEffect_sound hs)

theorem interruptDueEffect_sound {q : List Instr} {slice queue : Nat} {s : State} (hs : Sound q s) :
    Sound q (interruptDueEffect slice queue s) := by
  delta interruptDueEffect
  exact Sound.ite hs (raiseMsix_sound (setQueue_sound hs))

theorem execInterruptDue_sound {q : List Instr} {slice queue : Nat} {s : State} (hs : Sound q s) :
    OutSound q (execInterruptDue slice queue s) := by
  delta execInterruptDue
  exact OutSound.next (interruptDueEffect_sound hs)

theorem queueDisableEffect_sound {q : List Instr} {slice queue : Nat} {s : State} (hs : Sound q s) :
    Sound q (queueDisableEffect slice queue s) := by
  delta queueDisableEffect
  exact Sound.ite hs (setQueue_sound hs)

theorem execQueueDisable_sound {q : List Instr} {slice queue : Nat} {s : State} (hs : Sound q s) :
    OutSound q (execQueueDisable slice queue s) := by
  delta execQueueDisable
  exact OutSound.next (queueDisableEffect_sound hs)

theorem queueEnableEffect_sound {q : List Instr} {slice queue : Nat} {s : State} (hs : Sound q s) :
    Sound q (queueEnableEffect slice queue s) := by
  delta queueEnableEffect
  exact Sound.ite hs (Sound.ite (setQueue_sound hs) (Sound.ite (setQueue_sound hs) (setQueue_sound hs)))

theorem execQueueEnable_sound {q : List Instr} {slice queue : Nat} {s : State} (hs : Sound q s) :
    OutSound q (execQueueEnable slice queue s) := by
  delta execQueueEnable
  exact OutSound.next (queueEnableEffect_sound hs)

theorem sqTailEffect_sound {q : List Instr} {slice queue width : Nat} {v : Word} {s : State} (hs : Sound q s) :
    Sound q (sqTailEffect slice queue width v s) := by
  delta sqTailEffect
  exact Sound.ite hs (Sound.ite (dropDoorbell_sound hs) (Sound.ite (stopQueue_sound hs) (Sound.ite (raiseMgmt_sound
      (startFetch_sound (setQueue_sound hs))) (startFetch_sound (setQueue_sound hs)))))

theorem execSqTailDoorbell_sound {q : List Instr} {slice queue width : Nat} {v : Word} {s : State} (hs : Sound q s) :
    OutSound q (execSqTailDoorbell slice queue width v s) := by
  delta execSqTailDoorbell
  exact OutSound.next (sqTailEffect_sound hs)

theorem freeQueue_sound {q : List Instr} {s : State} {slice queue : Nat} (hs : Sound q s) :
    Sound q (freeQueue s slice queue) := by
  delta freeQueue
  exact Sound.mk (Good.of hs)

theorem freeWritten_sound {q : List Instr} {s : State} (hs : Sound q s) :
    Sound q (freeWritten s) := by
  delta freeWritten
  exact Sound.mk (Good.of hs)

theorem kerfInterrupts_sound {q : List Instr} {s : State} (hs : Sound q s) :
    Sound q (kerfInterrupts s) := by
  delta kerfInterrupts
  exact Sound.foldl hs fun _ _ h_0 => interruptDueEffect_sound h_0

theorem kerfQueue_sound {q : List Instr} {s : State} {k : Nat} (hs : Sound q s) :
    Sound q (kerfQueue s k) := by
  delta kerfQueue
  extract_lets +onlyGivenNames -merge -useContext -underBinder slice_0
  clear_value slice_0
  extract_lets +onlyGivenNames -merge -useContext -underBinder queue_1
  clear_value queue_1
  extract_lets +onlyGivenNames -merge -useContext -underBinder q_2
  clear_value q_2
  extract_lets +onlyGivenNames -merge -useContext -underBinder s1_3
  have hs1_3 : Sound q s1_3 := by
    unfold s1_3
    split
    · exact Sound.ite (setQueue_sound hs) hs
    · exact Sound.ite (setQueue_sound hs) hs
    · exact hs
  clear_value s1_3
  exact Sound.ite (setQueue_sound (freeQueue_sound (Sound.ite (discardCompls_sound hs1_3) hs1_3))) (Sound.ite
      (discardCompls_sound hs1_3) hs1_3)

theorem kerfQueues_sound {q : List Instr} {s : State} (hs : Sound q s) :
    Sound q (kerfQueues s) := by
  delta kerfQueues
  exact Sound.foldl hs fun _ _ h_0 => kerfQueue_sound h_0

theorem refetch_sound {q : List Instr} {s : State} (hs : Sound q s) :
    Sound q (refetch s) := by
  delta refetch
  exact Sound.foldl hs fun _ _ h_0 => startFetch_sound h_0

/-! ### Link -/

theorem allDefaults_sound {q : List Instr} {s : State} (hs : Sound q s) :
    Sound q (allDefaults s) := by
  delta allDefaults
  exact Sound.foldl hs fun _ _ h_0 => functionDefaults_sound h_0

theorem setLink_sound {q : List Instr} {s : State} {l : Link} (hs : Sound q s) :
    Sound q (setLink s l) := by
  delta setLink
  exact Sound.mk (Good.of hs)

theorem atsDrain_sound {q : List Instr} {s : State} (hs : Sound q s) :
    Sound q (atsDrain s) := by
  delta atsDrain
  exact Sound.foldl (setLink_sound hs) fun _ _ h_0 => emit_sound h_0

theorem capSlots_sound {q : List Instr} {s : State} (hs : Sound q s) :
    Sound q (capSlots s) := by
  delta capSlots
  exact Sound.ite hs (setF_sound hs)

theorem downDiscard_sound {q : List Instr} {s : State} (hs : Sound q s) :
    Sound q (downDiscard s) := by
  delta downDiscard
  exact Sound.ite (Sound.foldl (Sound.mk (Good.of hs)) fun _ _ h_0 => markWritten_sound h_0) hs

theorem execAtsInvalidation_sound {q : List Instr} {slice : Nat} {s : State} (hs : Sound q s) :
    OutSound q (execAtsInvalidation slice s) := by
  delta execAtsInvalidation
  exact OutSound.next (Sound.ite hs (atsDrain_sound (setLink_sound hs)))

theorem execD3hot_sound {q : List Instr} {slice : Nat} {s : State} (hs : Sound q s) :
    OutSound q (execD3hot slice s) := by
  delta execD3hot
  exact OutSound.next (Sound.ite hs (setSlice_sound hs))

theorem ideSync_sound {q : List Instr} {s : State} (hs : Sound q s) :
    Sound q (ideSync s) := by
  delta ideSync
  exact setF_sound (setFlag_sound hs)

theorem linkForget_sound {q : List Instr} {s : State} (hs : Sound q s) :
    Sound q (linkForget s) := by
  delta linkForget
  exact setF_sound (ideSync_sound (setLink_sound hs))

theorem withdrawAdmin_sound {q : List Instr} {s : State} {n : Nat} (hs : Sound q s) :
    Sound q (withdrawAdmin s n) := by
  delta withdrawAdmin
  extract_lets +onlyGivenNames -merge -useContext -underBinder unstage_0
  clear_value unstage_0
  extract_lets +onlyGivenNames -merge -useContext -underBinder _1
  clear_value _1
  extract_lets +onlyGivenNames -merge -useContext -underBinder _2
  clear_value _2
  extract_lets +onlyGivenNames -merge -useContext -underBinder s1_3
  have hs1_3 : Sound q s1_3 := by
    unfold s1_3
    exact Sound.mk (Good.of hs)
  clear_value s1_3
  extract_lets +onlyGivenNames -merge -useContext -underBinder s2_4
  have hs2_4 : Sound q s2_4 := by
    unfold s2_4
    split
    · exact Sound.ite (setChange_sound hs1_3) hs1_3
    · exact hs1_3
  clear_value s2_4
  exact Sound.foldl hs2_4 fun _ _ h_5 => Sound.ite (deactivateCard_sound h_5) h_5

theorem pfSquash_sound {q : List Instr} {s : State} (hs : Sound q s) :
    Sound q (pfSquash s) := by
  delta pfSquash
  extract_lets +onlyGivenNames -merge -useContext -underBinder s1_0
  have hs1_0 : Sound q s1_0 := by
    unfold s1_0
    exact withdrawPlans_sound (squashSlice_sound (squashFetched_sound hs))
  clear_value s1_0
  extract_lets +onlyGivenNames -merge -useContext -underBinder adm_1
  clear_value adm_1
  extract_lets +onlyGivenNames -merge -useContext -underBinder s2_2
  have hs2_2 : Sound q s2_2 := by
    unfold s2_2
    exact Sound.foldl hs1_0 fun _ _ h_3 => adminEnd_sound (withdrawAdmin_sound h_3)
  clear_value s2_2
  extract_lets +onlyGivenNames -merge -useContext -underBinder s3_4
  have hs3_4 : Sound q s3_4 := by
    unfold s3_4
    exact Sound.mk (Good.of hs2_2)
  clear_value s3_4
  extract_lets +onlyGivenNames -merge -useContext -underBinder stop_5
  have hstop_5 : ∀ y0 y1, Sound q y0 → Sound q (stop_5 y0 y1) := by
    intro y0 y1 h_6
    unfold stop_5
    exact Sound.ite (setQueue_sound h_6) (setQueue_sound h_6)
  clear_value stop_5
  exact setLink_sound (Sound.foldl hs3_4 fun _ _ h_7 => hstop_5 _ _ h_7)

theorem pfReset_sound {q : List Instr} {s : State} (hs : Sound q s) :
    Sound q (pfReset s) := by
  delta pfReset
  exact linkForget_sound (pfSquash_sound (vfEnableClearEffect_sound hs))

theorem hotResetEffect_sound {q : List Instr} {linkDown : Bool} {s : State} (hs : Sound q s) :
    Sound q (hotResetEffect linkDown s) := by
  delta hotResetEffect
  exact Sound.ite hs (downDiscard_sound (setF_sound (event_sound (event_sound (setLink_sound (setFlag_sound
      (Sound.ite (linkForget_sound (allDefaults_sound hs)) (pfReset_sound (allDefaults_sound hs)))))))))

theorem execHotReset_sound {q : List Instr} {linkDown : Bool} {s : State} (hs : Sound q s) :
    OutSound q (execHotReset linkDown s) := by
  delta execHotReset
  exact OutSound.next (hotResetEffect_sound hs)

theorem ideFailEffect_sound {q : List Instr} {stream : Nat} {s : State} (hs : Sound q s) :
    Sound q (ideFailEffect stream s) := by
  delta ideFailEffect
  exact Sound.ite hs (firePlain_sound (event_sound (countF_sound (setF_sound (setF_sound (ideSync_sound
      (setLink_sound hs)))))))

theorem execIdeIntegrityFailure_sound {q : List Instr} {stream : Nat} {s : State} (hs : Sound q s) :
    OutSound q (execIdeIntegrityFailure stream s) := by
  delta execIdeIntegrityFailure
  exact OutSound.next (ideFailEffect_sound hs)

theorem execInboundPoisonedWrite_sound {q : List Instr} {s : State} (hs : Sound q s) :
    OutSound q (execInboundPoisonedWrite s) := by
  delta execInboundPoisonedWrite
  exact OutSound.next (Sound.ite hs (countF_sound hs))

theorem linkTrainingEffect_sound {q : List Instr} {speed width : Nat} {flit : Bool} {s : State} (hs : Sound q s) :
    Sound q (linkTrainingEffect speed width flit s) := by
  delta linkTrainingEffect
  exact Sound.ite hs (event_sound (setF_sound (setFlag_sound (setFlag_sound (setF_sound (setF_sound (setLink_sound
      (Sound.ite (countF_sound hs) hs))))))))

theorem execLinkTraining_sound {q : List Instr} {speed width : Nat} {flit : Bool} {s : State} (hs : Sound q s) :
    OutSound q (execLinkTraining speed width flit s) := by
  delta execLinkTraining
  exact OutSound.next (linkTrainingEffect_sound hs)

theorem pfFlrEffect_sound {q : List Instr} {s : State} (hs : Sound q s) :
    Sound q (pfFlrEffect s) := by
  delta pfFlrEffect
  exact Sound.ite hs (setF_sound (pfReset_sound (functionDefaults_sound hs)))

theorem execPfFlr_sound {q : List Instr} {s : State} (hs : Sound q s) :
    OutSound q (execPfFlr s) := by
  delta execPfFlr
  exact OutSound.next (pfFlrEffect_sound hs)

theorem hlkCtrlWrite_sound {q : List Instr} {s : State} {v : Word} (hs : Sound q s) :
    Sound q (hlkCtrlWrite s v) := by
  delta hlkCtrlWrite
  exact Sound.ite (emit_sound (capSlots_sound (Sound.ite (setF_sound (setF_sound hs)) (setF_sound hs))))
      (capSlots_sound (Sound.ite (setF_sound (setF_sound hs)) (setF_sound hs)))

theorem execRetrain_sound {q : List Instr} {v : Word} {s : State} (hs : Sound q s) :
    OutSound q (execRetrain v s) := by
  delta execRetrain
  exact OutSound.next (Sound.ite hs (hlkCtrlWrite_sound hs))

theorem execReturnToD0_sound {q : List Instr} {slice : Nat} {s : State} (hs : Sound q s) :
    OutSound q (execReturnToD0 slice s) := by
  delta execReturnToD0
  exact OutSound.next (Sound.ite hs (Sound.foldl (setSlice_sound hs) fun _ _ h_0 => startFetch_sound h_0))

theorem kerfPfFlr_sound {q : List Instr} {s : State} (hs : Sound q s) :
    Sound q (kerfPfFlr s) := by
  delta kerfPfFlr
  exact Sound.ite (event_sound (setLink_sound hs)) hs

/-! ### Reset -/

theorem lifeShown_sound {q : List Instr} {s : State} (hs : Sound q s) :
    Sound q (lifeShown s) := by
  delta lifeShown
  exact setF_sound hs

theorem bootLife_sound {q : List Instr} {s : State} (hs : Sound q s) :
    Sound q (bootLife s) := by
  delta bootLife
  exact Sound.ite (showLife_sound (lifeShown_sound hs)) (lifeShown_sound hs)

theorem classOneEnd_sound {q : List Instr} {s : State} (hs : Sound q s) :
    Sound q (classOneEnd s) := by
  delta classOneEnd
  exact Sound.ite hs (Sound.foldl (Sound.foldl hs fun _ _ h_0 => writeReservation_sound h_0) fun _ _ h_1 =>
      reserveProgrammedEffect_sound h_1)

theorem tornAnchor_sound {q : List Instr} {s : State} (hs : Sound q s) :
    Sound q (tornAnchor s) := by
  delta tornAnchor
  split
  · exact hs
  · exact setVault_sound hs

theorem classesCut_sound {q : List Instr} {s : State} (hs : Sound q s) :
    Sound q (classesCut s) := by
  delta classesCut
  refine Sound.ite ?_ ?_
  · exact hs
  · extract_lets +onlyGivenNames -merge -useContext -underBinder s1_0
    have hs1_0 : Sound q s1_0 := by
      unfold s1_0
      exact Sound.foldl hs fun _ _ h_1 => Sound.ite (writeReservation_sound (drawBit_sound h_1)) (drawBit_sound h_1)
    clear_value s1_0
    extract_lets +onlyGivenNames -merge -useContext -underBinder s2_2
    have hs2_2 : Sound q s2_2 := by
      unfold s2_2
      exact Sound.foldl hs1_0 fun _ _ h_3 => Sound.ite (reserveProgrammedEffect_sound (drawBit_sound h_3))
          (drawBit_sound h_3)
    clear_value s2_2
    exact Sound.ite hs2_2 (Sound.ite (anchorProgrammedEffect_sound (drawBit_sound hs2_2)) (Sound.ite
        (tornAnchor_sound (drawBit_sound (drawBit_sound hs2_2))) (drawBit_sound (drawBit_sound hs2_2))))

theorem wipe_sound {q : List Instr} {s : State} (hs : Sound q s) : Sound q (wipe s) :=
  ⟨rfl, regsWf_filter hs.2.1, rfl, hs.2.2.2⟩

theorem resetDie_sound {q : List Instr} {s : State} {cause : Nat} (hs : Sound q s) :
    Sound q (resetDie s cause) := by
  delta resetDie
  exact setF_sound (lifeShown_sound (setFlag_sound (wipe_sound (nvReset_sound (anchorProgrammedEffect_sound
      (classOneEnd_sound hs))))))

theorem execCrstN_sound {q : List Instr} {s : State} (hs : Sound q s) :
    OutSound q (execCrstN s) := by
  delta execCrstN
  exact OutSound.next (resetDie_sound hs)

theorem fclColdEffect_sound {q : List Instr} {v : Word} {s : State} (hs : Sound q s) :
    Sound q (fclColdEffect v s) := by
  delta fclColdEffect
  exact Sound.ite (resetDie_sound hs) hs

theorem execFclCold_sound {q : List Instr} {v : Word} {s : State} (hs : Sound q s) :
    OutSound q (execFclCold v s) := by
  delta execFclCold
  exact OutSound.next (fclColdEffect_sound hs)

theorem mainPowerLossEffect_sound {q : List Instr} {s : State} (hs : Sound q s) :
    Sound q (mainPowerLossEffect s) := by
  delta mainPowerLossEffect
  exact Sound.ite hs (Sound.mk (Good.of (setF_sound (lifeShown_sound (setFlag_sound (wipe_sound (nvPowerLoss_sound
      (classesCut_sound hs))))))))

theorem execMainPowerLoss_sound {q : List Instr} {s : State} (hs : Sound q s) :
    OutSound q (execMainPowerLoss s) := by
  delta execMainPowerLoss
  exact OutSound.next (mainPowerLossEffect_sound hs)

theorem execMainPowerUp_sound {q : List Instr} {s : State} (hs : Sound q s) :
    OutSound q (execMainPowerUp s) := by
  delta execMainPowerUp
  exact OutSound.next (Sound.ite hs (Sound.mk (Good.of hs)))

theorem execPerstN_sound {q : List Instr} {s : State} (hs : Sound q s) :
    OutSound q (execPerstN s) := by
  delta execPerstN
  exact OutSound.next (resetDie_sound hs)

theorem railsReady_sound {q : List Instr} {s : State} (hs : Sound q s) :
    Sound q (railsReady s) := by
  delta railsReady
  exact Sound.mk (Good.of (setFlag_sound (setFlag_sound (setF_sound hs))))

theorem postFailures_sound {q : List Instr} {s : State} {m : Nat} (hs : Sound q s) :
    Sound q (postFailures s m) := by
  delta postFailures
  exact Sound.ite (setFlag_sound (setFlag_sound (setFlag_sound hs))) (Sound.mk (Good.of (setFlag_sound
      (setFlag_sound (setFlag_sound hs)))))

theorem resetReleaseEffect_sound {q : List Instr} {postFail : Nat} {s : State} (hs : Sound q s) :
    Sound q (resetReleaseEffect postFail s) := by
  delta resetReleaseEffect
  exact Sound.ite hs (postFailures_sound (Sound.foldl (setFlag_sound (capSlots_sound (bypassSync_sound
      (bootLife_sound (railsReady_sound (drawSram_sound (bootGens_sound (Sound.mk (Good.of hs))))))))) fun _ _ h_0
      => Sound.ite (setSlotSt_sound h_0) h_0))

theorem execResetRelease_sound {q : List Instr} {postFail : Nat} {s : State} (hs : Sound q s) :
    OutSound q (execResetRelease postFail s) := by
  delta execResetRelease
  exact OutSound.next (resetReleaseEffect_sound hs)

theorem selfResetEffect_sound {q : List Instr} {s : State} (hs : Sound q s) :
    Sound q (selfResetEffect s) := by
  delta selfResetEffect
  split
  · exact hs
  · exact Sound.ite (resetDie_sound hs) hs

theorem execSelfReset_sound {q : List Instr} {s : State} (hs : Sound q s) :
    OutSound q (execSelfReset s) := by
  delta execSelfReset
  exact OutSound.next (selfResetEffect_sound hs)

theorem sillLogReadEffect_sound {q : List Instr} {s : State} (hs : Sound q s) :
    Sound q (sillLogReadEffect s) := by
  delta sillLogReadEffect
  exact Sound.ite hs (lmsBoot_sound (readOfficers_sound (Sound.foldl (Sound.ite (silStore_sound (setFlag_sound
      (silStore_sound (setFlag_sound (setFlag_sound (sillRead_sound hs)))))) (setFlag_sound (silStore_sound
      (setFlag_sound (setFlag_sound (sillRead_sound hs)))))) fun _ _ h_0 => setReg_sound h_0)))

theorem execSillLogRead_sound {q : List Instr} {s : State} (hs : Sound q s) :
    OutSound q (execSillLogRead s) := by
  delta execSillLogRead
  exact OutSound.next (sillLogReadEffect_sound hs)

/-! ### Monitors -/

theorem monStat_sound {q : List Instr} {s : State} {cond : Nat} {ok : Bool} (hs : Sound q s) :
    Sound q (monStat s cond ok) := by
  delta monStat
  exact setReg_sound hs

theorem monFire_sound {q : List Instr} {s : State} {cond det detail : Nat} (hs : Sound q s) :
    Sound q (monFire s cond det detail) := by
  delta monFire
  exact Sound.ite (Sound.mk (Good.of hs)) (fire_sound (event_sound (orReg_sound (Sound.mk (Good.of hs)))))

theorem monOut_sound {q : List Instr} {s : State} {cond det detail : Nat} (hs : Sound q s) :
    Sound q (monOut s cond det detail) := by
  delta monOut
  exact Sound.ite hs (Sound.ite (monFire_sound hs) (resetDie_sound hs))

theorem monClkEffect_sound {q : List Instr} {mhz : Nat} {unlocked : Bool} {det : Nat} {s : State} (hs : Sound q s) :
    Sound q (monClkEffect mhz unlocked det s) := by
  delta monClkEffect
  exact Sound.ite hs (Sound.ite (monOut_sound (monStat_sound (setF_sound hs))) (monStat_sound (setF_sound hs)))

theorem execMonClk_sound {q : List Instr} {mhz : Nat} {unlocked : Bool} {det : Nat} {s : State} (hs : Sound q s) :
    OutSound q (execMonClk mhz unlocked det s) := by
  delta execMonClk
  exact OutSound.next (monClkEffect_sound hs)

theorem monDisagreeEffect_sound {q : List Instr} {cond : Nat} {s : State} (hs : Sound q s) :
    Sound q (monDisagreeEffect cond s) := by
  delta monDisagreeEffect
  exact Sound.ite hs (event_sound (orReg_sound (Sound.mk (Good.of hs))))

theorem execMonDisagree_sound {q : List Instr} {cond : Nat} {s : State} (hs : Sound q s) :
    OutSound q (execMonDisagree cond s) := by
  delta execMonDisagree
  exact OutSound.next (monDisagreeEffect_sound hs)

theorem monGlitchEffect_sound {q : List Instr} {mv det : Nat} {s : State} (hs : Sound q s) :
    Sound q (monGlitchEffect mv det s) := by
  delta monGlitchEffect
  exact Sound.ite hs (monOut_sound (Sound.ite hs (countF_sound hs)))

theorem execMonGlitch_sound {q : List Instr} {mv det : Nat} {s : State} (hs : Sound q s) :
    OutSound q (execMonGlitch mv det s) := by
  delta execMonGlitch
  exact OutSound.next (monGlitchEffect_sound hs)

theorem monTempEffect_sound {q : List Instr} {diode ring : Byte} {s : State} (hs : Sound q s) :
    Sound q (monTempEffect diode ring s) := by
  delta monTempEffect
  exact Sound.ite hs (monOut_sound (monStat_sound (setF_sound (setF_sound hs))))

theorem execMonTemp_sound {q : List Instr} {diode ring : Byte} {s : State} (hs : Sound q s) :
    OutSound q (execMonTemp diode ring s) := by
  delta execMonTemp
  exact OutSound.next (monTempEffect_sound hs)

theorem monVddEffect_sound {q : List Instr} {rail mv det : Nat} {s : State} (hs : Sound q s) :
    Sound q (monVddEffect rail mv det s) := by
  delta monVddEffect
  exact Sound.ite hs (Sound.ite (monStat_sound (Sound.mk (Good.of hs))) (monOut_sound (monStat_sound (Sound.mk
      (Good.of hs)))))

theorem execMonVdd_sound {q : List Instr} {rail mv det : Nat} {s : State} (hs : Sound q s) :
    OutSound q (execMonVdd rail mv det s) := by
  delta execMonVdd
  exact OutSound.next (monVddEffect_sound hs)

theorem monitorsArmedEffect_sound {q : List Instr} {s : State} (hs : Sound q s) :
    Sound q (monitorsArmedEffect s) := by
  delta monitorsArmedEffect
  exact Sound.ite hs (Sound.ite (event_sound (setFlag_sound hs)) (fire_sound (event_sound (setFlag_sound hs))))

theorem execMonitorsArmed_sound {q : List Instr} {s : State} (hs : Sound q s) :
    OutSound q (execMonitorsArmed s) := by
  delta execMonitorsArmed
  exact OutSound.next (monitorsArmedEffect_sound hs)

/-! ### Wear -/

theorem battSync_sound {q : List Instr} {s : State} (hs : Sound q s) :
    Sound q (battSync s) := by
  delta battSync
  exact setF_sound (setF_sound hs)

theorem checkpoint_sound {q : List Instr} {s : State} {ok : Bool} (hs : Sound q s) :
    Sound q (checkpoint s ok) := by
  delta checkpoint
  exact Sound.ite (event_sound hs) (Sound.mk (Good.of hs))

theorem wearCheckpointEffect_sound {q : List Instr} {ok : Bool} {s : State} (hs : Sound q s) :
    Sound q (wearCheckpointEffect ok s) := by
  delta wearCheckpointEffect
  exact Sound.ite hs (checkpoint_sound hs)

theorem execWearCheckpoint_sound {q : List Instr} {ok : Bool} {s : State} (hs : Sound q s) :
    OutSound q (execWearCheckpoint ok s) := by
  delta execWearCheckpoint
  exact OutSound.next (wearCheckpointEffect_sound hs)

theorem wearCond_sound {q : List Instr} {s : State} {bit detail : Nat} {holds : Bool} (hs : Sound q s) :
    Sound q (wearCond s bit detail holds) := by
  delta wearCond
  exact Sound.ite (fire_sound (event_sound (setReg_sound hs))) (setReg_sound hs)

theorem wearJudge_sound {q : List Instr} {s : State} {i : Nat} (hs : Sound q s) :
    Sound q (wearJudge s i) := by
  delta wearJudge
  exact wearCond_sound (wearCond_sound (wearCond_sound hs))

theorem wearSampleEffect_sound {q : List Instr} {slow : Nat} {s : State} (hs : Sound q s) :
    Sound q (wearSampleEffect slow s) := by
  delta wearSampleEffect
  exact Sound.ite hs (Sound.ite (setFlag_sound (Sound.foldl (countReg_sound (setF_sound (Sound.mk (Good.of hs))))
      fun _ _ h_0 => wearJudge_sound h_0)) (Sound.foldl (countReg_sound (setF_sound (Sound.mk (Good.of hs)))) fun _
      _ h_0 => wearJudge_sound h_0))

theorem execWearSample_sound {q : List Instr} {slow : Nat} {s : State} (hs : Sound q s) :
    OutSound q (execWearSample slow s) := by
  delta execWearSample
  exact OutSound.next (wearSampleEffect_sound hs)

theorem wearBoot_sound {q : List Instr} {s : State} (hs : Sound q s) :
    Sound q (wearBoot s) := by
  delta wearBoot
  extract_lets +onlyGivenNames -merge -useContext -underBinder s1_0
  have hs1_0 : Sound q s1_0 := by
    unfold s1_0
    exact setFlag_sound hs
  clear_value s1_0
  split
  · exact battSync_sound hs1_0
  · exact Sound.ite (battSync_sound (event_sound (setFlag_sound (Sound.mk (Good.of (setF_sound hs1_0))))))
      (battSync_sound (Sound.mk (Good.of (setF_sound hs1_0))))

theorem werCtrlWrite_sound {q : List Instr} {s : State} {v : Word} (hs : Sound q s) :
    Sound q (werCtrlWrite s v) := by
  delta werCtrlWrite
  exact checkpoint_sound (battSync_sound (event_sound (setFlag_sound (Sound.mk (Good.of (setF_sound (Sound.ite
      (setF_sound hs) hs)))))))

/-! ### Entropy -/

theorem setRng_sound {q : List Instr} {s : State} {r : Rng} (hs : Sound q s) :
    Sound q (setRng s r) := by
  delta setRng
  exact Sound.mk (Good.of hs)

theorem chanAnswered_sound {q : List Instr} {s : State} {init : Nat} {w : Word} (hs : Sound q s) :
    Sound q (chanAnswered s init w) := by
  delta chanAnswered
  split
  · exact setRng_sound hs
  · exact hs

theorem replyRng_sound {q : List Instr} {s : State} {init : Nat} {w : Word} (hs : Sound q s) :
    Sound q (replyRng s init w) := by
  have h1 : Sound q (emit (chanAnswered s init w) (.readReply init Reg.RNG_DATA w)) :=
    emit_sound (chanAnswered_sound hs)
  rw [replyRng]
  dsimp only
  split
  · exact h1
  · exact setPost_sound (s := emit (chanAnswered s init w) (.readReply init Reg.RNG_DATA w)) h1
      (postAligned_of (getPost_aligned h1 (p := init)) rfl rfl)

theorem answerWaiting_sound {q : List Instr} {s : State} (hs : Sound q s) :
    Sound q (answerWaiting s) := by
  delta answerWaiting
  exact setRng_sound (Sound.foldl hs fun _ _ h_0 => replyRng_sound h_0)

theorem entropyCut_sound {q : List Instr} {s : State} {n : Nat} {c : Ctx} (hs : Sound q s) :
    Sound q (entropyCut s n c) := by
  delta entropyCut
  exact Sound.ite (setCtx_sound hs) hs

theorem healthFailed_sound {q : List Instr} {s : State} {cells cause : Nat} (hs : Sound q s) :
    Sound q (healthFailed s cells cause) := by
  delta healthFailed
  exact Sound.ite hs (Sound.foldl (setRng_sound (event_sound (setReg_sound (setF_sound (setF_sound (setFlag_sound
      (setFlag_sound (setFlag_sound (setFlag_sound (answerWaiting_sound hs)))))))))) fun _ _ h_0 => entropyCut_sound
      h_0)

theorem healthFailure_sound {q : List Instr} {s : State} {cells cause : Nat} (hs : Sound q s) :
    Sound q (healthFailure s cells cause) := by
  delta healthFailure
  exact Sound.ite hs (firePlain_sound (healthFailed_sound hs))

theorem healthWindowEffect_sound {q : List Instr} {kind : Nat} {m : List (Nat × Nat)} {s : State} (hs : Sound q s) :
    Sound q (healthWindowEffect kind m s) := by
  delta healthWindowEffect
  exact Sound.ite hs (Sound.ite (Sound.ite (setRng_sound (setRng_sound hs)) (setRng_sound hs)) (healthFailure_sound
      (setRng_sound hs)))

theorem execHealthTestWindow_sound {q : List Instr} {kind : Nat} {m : List (Nat × Nat)} {s : State} (hs : Sound q s) :
    OutSound q (execHealthTestWindow kind m s) := by
  delta execHealthTestWindow
  exact OutSound.next (healthWindowEffect_sound hs)

theorem repetitionEffect_sound {q : List Instr} {cells : Nat} {s : State} (hs : Sound q s) :
    Sound q (repetitionEffect cells s) := by
  delta repetitionEffect
  exact Sound.ite hs (healthFailure_sound hs)

theorem execRepetitionCountFailure_sound {q : List Instr} {cells : Nat} {s : State} (hs : Sound q s) :
    OutSound q (execRepetitionCountFailure cells s) := by
  delta execRepetitionCountFailure
  exact OutSound.next (repetitionEffect_sound hs)

theorem serveReads_sound {q : List Instr} {n : Nat} {s : State} (hs : Sound q s) : Sound q (serveReads n s) := by
  induction n generalizing s with
  | zero => exact hs
  | succ k ih =>
    rw [serveReads]
    split
    · exact ih (replyRng_sound (setRng_sound hs))
    · exact hs

theorem rngReadEffect_sound {q : List Instr} {init : Nat} {s0 : State} (hs0 : Sound q s0) :
    Sound q (rngReadEffect init s0) := by
  delta rngReadEffect
  exact Sound.ite (access_sound hs0) (Sound.ite (emit_sound (access_sound hs0)) (serveReads_sound (setRng_sound
      (access_sound hs0))))

theorem execRngDataRead_sound {q : List Instr} {init : Nat} {s : State} (hs : Sound q s) :
    OutSound q (execRngDataRead init s) := by
  delta execRngDataRead
  exact OutSound.next (rngReadEffect_sound hs)

theorem rngTimeoutEffect_sound {q : List Instr} {s : State} (hs : Sound q s) :
    Sound q (rngTimeoutEffect s) := by
  delta rngTimeoutEffect
  split
  · exact hs
  · exact event_sound (countF_sound (replyRng_sound (setRng_sound hs)))

theorem execRngDataTimeout_sound {q : List Instr} {s : State} (hs : Sound q s) :
    OutSound q (execRngDataTimeout s) := by
  delta execRngDataTimeout
  exact OutSound.next (rngTimeoutEffect_sound hs)

theorem maskSync_sound {q : List Instr} {s : State} (hs : Sound q s) :
    Sound q (maskSync s) := by
  delta maskSync
  extract_lets +onlyGivenNames -merge -useContext -underBinder put_0
  have hput_0 : ∀ y0 y1 y2, Sound q y0 → Sound q (put_0 y0 y1 y2) := by
    intro y0 y1 y2 h_1
    unfold put_0
    exact Sound.ite (event_sound (setFlag_sound h_1)) (setFlag_sound h_1)
  clear_value put_0
  exact hput_0 _ _ _ (hput_0 _ _ _ (hput_0 _ _ _ hs))

theorem firstSeed_sound {q : List Instr} {s : State} (hs : Sound q s) :
    Sound q (firstSeed s) := by
  delta firstSeed
  exact childSync_sound (maskSync_sound (setRng_sound (event_sound (setRng_sound (setFlag_sound (setFlag_sound
      (setFlag_sound hs)))))))

theorem firstSeedingEffect_sound {q : List Instr} {katOk : Bool} {s : State} (hs : Sound q s) :
    Sound q (firstSeedingEffect katOk s) := by
  delta firstSeedingEffect
  exact Sound.ite hs (Sound.ite (Sound.ite (healthFailure_sound hs) hs) (inKerf_sound (fun _ h_0 => Sound.ite h_0
      (firstSeed_sound h_0)) hs))

theorem execRngFirstSeeding_sound {q : List Instr} {katOk : Bool} {s : State} (hs : Sound q s) :
    OutSound q (execRngFirstSeeding katOk s) := by
  delta execRngFirstSeeding
  exact OutSound.next (firstSeedingEffect_sound hs)

theorem rngRawEffect_sound {q : List Instr} {init : Nat} {bits : Word} {s : State} (hs : Sound q s) :
    Sound q (rngRawEffect init bits s) := by
  delta rngRawEffect
  exact emit_sound hs

theorem execRngRawRead_sound {q : List Instr} {init : Nat} {bits : Word} {s : State} (hs : Sound q s) :
    OutSound q (execRngRawRead init bits s) := by
  delta execRngRawRead
  exact OutSound.next (rngRawEffect_sound hs)

theorem rootReseedEffect_sound {q : List Instr} {s : State} (hs : Sound q s) :
    Sound q (rootReseedEffect s) := by
  delta rootReseedEffect
  exact Sound.ite (countReg_sound (setRng_sound hs)) hs

theorem execRootReseed_sound {q : List Instr} {s : State} (hs : Sound q s) :
    OutSound q (execRootReseed s) := by
  delta execRootReseed
  exact OutSound.next (inKerf_sound (fun _ h_0 => rootReseedEffect_sound h_0) hs)

theorem gatherRaw_sound {q : List Instr} {s : State} (hs : Sound q s) :
    Sound q (gatherRaw s) := by
  delta gatherRaw
  exact Sound.ite hs (setRng_sound (drawBytes_sound hs))

theorem kerfReseed_sound {q : List Instr} {s0 : State} (hs0 : Sound q s0) :
    Sound q (kerfReseed s0) := by
  delta kerfReseed
  exact Sound.ite (childSync_sound (maskSync_sound (setRng_sound (gatherRaw_sound hs0)))) (childSync_sound
      (maskSync_sound (setRng_sound (gatherRaw_sound hs0))))

theorem refillRng_sound {q : List Instr} {s : State} (hs : Sound q s) :
    Sound q (refillRng s) := by
  delta refillRng
  exact Sound.ite hs (serveReads_sound (setRng_sound hs))

theorem rngCell1Read_sound {q : List Instr} {s : State} (hs : Sound q s) :
    Sound q (rngCell1Read s) := by
  delta rngCell1Read
  exact setRng_sound hs

/-! ### Boot -/

theorem bootEarly_sound {q : List Instr} {s : State} (hs : Sound q s) :
    Sound q (bootEarly s) := by
  delta bootEarly
  extract_lets +onlyGivenNames -merge -useContext -underBinder s1_0
  have hs1_0 : Sound q s1_0 := by
    unfold s1_0
    exact Sound.ite (setFlag_sound (setFlag_sound hs)) hs
  clear_value s1_0
  exact Sound.ite (wearBoot_sound (Sound.ite (sillLogReadEffect_sound (resetScanEffect_sound hs1_0)) hs1_0))
      (Sound.ite (sillLogReadEffect_sound (resetScanEffect_sound hs1_0)) hs1_0)

theorem bootEngines_sound {q : List Instr} {s : State} (hs : Sound q s) :
    Sound q (bootEngines s) := by
  delta bootEngines
  split
  · exact hs
  · exact Sound.ite (setFlag_sound (Sound.ite (Sound.foldl hs fun _ _ h_0 => setFlag_sound h_0) hs)) (Sound.ite
      (Sound.foldl hs fun _ _ h_0 => setFlag_sound h_0) hs)

theorem bootIv_sound {q : List Instr} {s : State} (hs : Sound q s) :
    Sound q (bootIv s) := by
  delta bootIv
  exact ivPersist_sound (Sound.mk (Good.of hs))

theorem bootTables_sound {q : List Instr} {s : State} (hs : Sound q s) :
    Sound q (bootTables s) := by
  delta bootTables
  split
  · exact hs
  · exact Sound.ite (setGates_sound hs) hs

theorem bootSlice_sound {q : List Instr} {s : State} {n : Nat} {x : Slice} (hs : Sound q s) :
    Sound q (bootSlice s n x) := by
  delta bootSlice
  exact Sound.ite (returnKeys_sound (Sound.ite (setChainSt_sound (renewChildren_sound (setSlice_sound hs)))
      (renewChildren_sound (setSlice_sound hs)))) (Sound.ite (setChainSt_sound (renewChildren_sound (setSlice_sound
      hs))) (renewChildren_sound (setSlice_sound hs)))

theorem restoreBoot_sound {q : List Instr} {s : State} (hs : Sound q s) :
    Sound q (restoreBoot s) := by
  delta restoreBoot
  extract_lets +onlyGivenNames -merge -useContext -underBinder done_0
  have hdone_0 : ∀ y0, Sound q y0 → Sound q (done_0 y0) := by
    intro y0 h_1
    unfold done_0
    exact kstSync_sound (setFlag_sound (Sound.mk (Good.of h_1)))
  clear_value done_0
  extract_lets +onlyGivenNames -merge -useContext -underBinder s0_2
  have hs0_2 : Sound q s0_2 := by
    unfold s0_2
    exact bootIv_sound (bootTables_sound (Sound.mk (Good.of hs)))
  clear_value s0_2
  exact Sound.ite (hdone_0 _ (eraseStores_sound hs0_2)) (hdone_0 _ (tombSync_sound (infillBoot_sound (Sound.foldl
      (Sound.ite (setChainSt_sound (setF_sound (Sound.ite (setFlag_sound (restoreMaster_sound hs0_2)) hs0_2)))
      (setF_sound (Sound.ite (setFlag_sound (restoreMaster_sound hs0_2)) hs0_2))) fun _ _ h_3 => bootSlice_sound
      h_3))))

theorem bootImage_sound {q : List Instr} {s : State} (hs : Sound q s) :
    Sound q (bootImage s) := by
  delta bootImage
  extract_lets +onlyGivenNames -merge -useContext -underBinder stage_0
  clear_value stage_0
  refine Sound.ite ?_ ?_
  · exact Sound.ite (selectImage_sound hs) hs
  · refine Sound.ite ?_ ?_
    · refine Sound.ite ?_ ?_
      · exact bootDead_sound hs
      · refine Sound.ite ?_ ?_
        · exact hs
        · split
          · exact hs
          · exact Sound.ite (restoreBoot_sound (verifyImage_sound hs)) (verifyImage_sound hs)
    · exact hs

theorem tryStall_sound {q : List Instr} {s : State} (hs : Sound q s) :
    Sound q (tryStall s) := by
  delta tryStall
  exact Sound.ite (setF_sound (setFlag_sound hs)) hs

theorem tryRun_sound {q : List Instr} {s : State} (hs : Sound q s) :
    Sound q (tryRun s) := by
  delta tryRun
  exact Sound.ite (setReg_sound (setF_sound (setFlag_sound hs))) hs

theorem bootKerf_sound {q : List Instr} {s : State} (hs : Sound q s) :
    Sound q (bootKerf s) := by
  delta bootKerf
  exact Sound.ite (tryStall_sound (tryRun_sound (bootEngines_sound (vltReadySync_sound (bootImage_sound
      (bootEarly_sound hs)))))) hs

theorem execBootStalled_sound {q : List Instr} {s : State} (hs : Sound q s) :
    OutSound q (execBootStalled s) := by
  delta execBootStalled
  exact OutSound.next (Sound.ite hs (tryStall_sound hs))

theorem execRunStart_sound {q : List Instr} {s : State} (hs : Sound q s) :
    OutSound q (execRunStart s) := by
  delta execRunStart
  exact OutSound.next (tryRun_sound hs)

/-! ### Channels -/

theorem chanFault_sound {q : List Instr} {s : State} {f status off : Nat} (hs : Sound q s) :
    Sound q (chanFault s f status off) := by
  delta chanFault
  exact Sound.ite hs (Sound.ite (countF_sound (event_sound (setF_sound (setF_sound (setF_sound (setReg_sound
      hs)))))) (Sound.ite (countF_sound (event_sound (setF_sound (setF_sound (setF_sound (setReg_sound hs))))))
      (event_sound (setF_sound (setF_sound (setF_sound (setReg_sound hs)))))))

theorem setChan_sound {q : List Instr} {s : State} {f : Nat} {c : Chan} (hs : Sound q s) :
    Sound q (setChan s f c) := by
  delta setChan
  exact Sound.mk (Good.of hs)

theorem chanEnd_sound {q : List Instr} {s : State} {f status off : Nat} (hs : Sound q s) :
    Sound q (chanEnd s f status off) := by
  delta chanEnd
  exact chanFault_sound (setChan_sound (setF_sound hs))

theorem setChanState_sound {q : List Instr} {s : State} {f v : Nat} (hs : Sound q s) :
    Sound q (setChanState s f v) := by
  delta setChanState
  exact setF_sound hs

theorem channelStart_sound {q : List Instr} {f : Nat} {v : Word} {s : State} (hs : Sound q s) :
    Sound q (channelStart f v s) := by
  delta channelStart
  exact Sound.ite hs (Sound.ite (event_sound hs) (setChanState_sound (setChan_sound hs)))

theorem settleChan_sound {q : List Instr} {s : State} {f : Nat} (hs : Sound q s) :
    Sound q (settleChan s f) := by
  delta settleChan
  extract_lets +onlyGivenNames -merge -useContext -underBinder c_0
  clear_value c_0
  refine Sound.ite ?_ ?_
  · exact hs
  · extract_lets +onlyGivenNames -merge -useContext -underBinder failed_1
    clear_value failed_1
    refine Sound.ite ?_ ?_
    · split
      · exact chanEnd_sound hs
      · exact hs
    · exact Sound.ite (Sound.ite hs (chanEnd_sound hs)) (Sound.ite (chanEnd_sound hs) hs)

theorem channelStop_sound {q : List Instr} {f : Nat} {v : Word} {s : State} (hs : Sound q s) :
    Sound q (channelStop f v s) := by
  delta channelStop
  exact Sound.ite hs (settleChan_sound (setChan_sound hs))

theorem execShtChNextWrite_sound {q : List Instr} {f : Nat} {v : Word} {s : State} (hs : Sound q s) :
    OutSound q (execShtChNextWrite f v s) := by
  delta execShtChNextWrite
  exact OutSound.next (Sound.ite hs (channelStart_sound hs))

theorem execShtChStop_sound {q : List Instr} {f : Nat} {s : State} (hs : Sound q s) :
    OutSound q (execShtChStop f s) := by
  delta execShtChStop
  exact OutSound.next (Sound.ite hs (channelStop_sound hs))

theorem putBytes_sound {q : List Instr} {s : State} {init x1 : Nat} {b : Bytes} (hs : Sound q s) :
    Sound q (putBytes s init x1 b) := by
  delta putBytes
  exact Sound.ite (memWrite_sound hs) (Sound.mk (Good.of (memWrite_sound hs)))

theorem writeBack_sound {q : List Instr} {s : State} {f status : Nat} (hs : Sound q s) :
    Sound q (writeBack s f status).2 := by
  delta writeBack
  exact Sound.ite_snd (Sound.pair_snd (setF_sound (putBytes_sound (access_sound hs)))) (access_sound hs)

theorem haltChannels_sound {q : List Instr} {s : State} {b : Nat} (hs : Sound q s) :
    Sound q (haltChannels s b) := by
  delta haltChannels
  exact Sound.foldl hs fun _ _ h_0 => setChanState_sound (setChan_sound (Sound.ite (setF_sound (chanFault_sound
      (setF_sound (writeBack_sound h_0)))) h_0))

/-! ### Responses -/

theorem restoreAfterZeroise_sound {q : List Instr} {s : State} (hs : Sound q s) :
    Sound q (restoreAfterZeroise s) := by
  delta restoreAfterZeroise
  exact Sound.ite hs (Sound.ite hs (Sound.foldl (setFlag_sound (restoreMaster_sound hs)) fun _ _ h_0 =>
      returnKeys_sound h_0))

theorem setFaults_sound {q : List Instr} {s : State} {f : Faults} (hs : Sound q s) :
    Sound q (setFaults s f) := by
  delta setFaults
  exact Sound.mk (Good.of hs)

theorem applyClear_sound {q : List Instr} {fired : List Nat} {s : State} {src : Nat} (hs : Sound q s) :
    Sound q (applyClear fired s src) := by
  delta applyClear
  exact Sound.ite hs (Sound.ite (setFlag_sound hs) (Sound.ite (restoreAfterZeroise_sound (setFaults_sound
      (clearPending_sound hs))) (clearPending_sound hs)))

theorem fclPendClearEffect_sound {q : List Instr} {n : Nat} {v : Word} {s : State} (hs : Sound q s) :
    Sound q (fclPendClearEffect n v s) := by
  delta fclPendClearEffect
  exact Sound.ite hs (setFaults_sound hs)

theorem execFclPendClear_sound {q : List Instr} {n : Nat} {v : Word} {s : State} (hs : Sound q s) :
    OutSound q (execFclPendClear n v s) := by
  delta execFclPendClear
  exact OutSound.next (fclPendClearEffect_sound hs)

theorem fclRearmEffect_sound {q : List Instr} {v : Word} {s : State} (hs : Sound q s) :
    Sound q (fclRearmEffect v s) := by
  delta fclRearmEffect
  exact Sound.ite (rearm_sound hs) hs

theorem execFclRearm_sound {q : List Instr} {v : Word} {s : State} (hs : Sound q s) :
    OutSound q (execFclRearm v s) := by
  delta execFclRearm
  exact OutSound.next (fclRearmEffect_sound hs)

theorem fclSelfEffect_sound {q : List Instr} {agree : Bool} {s : State} (hs : Sound q s) :
    Sound q (fclSelfEffect agree s) := by
  delta fclSelfEffect
  exact setFaults_sound (Sound.ite (firePlain_sound hs) (setFlag_sound hs))

theorem execFclSelf_sound {q : List Instr} {agree : Bool} {s : State} (hs : Sound q s) :
    OutSound q (execFclSelf agree s) := by
  delta execFclSelf
  exact OutSound.next (fclSelfEffect_sound hs)

theorem haltCut_sound {q : List Instr} {s : State} {src n : Nat} {c : Ctx} (hs : Sound q s) :
    Sound q (haltCut s src n c) := by
  delta haltCut
  refine Sound.ite ?_ ?_
  · split
    · exact setCtx_sound hs
    · exact Sound.ite (setCtx_sound hs) hs
  · exact hs

theorem haltFence_sound {q : List Instr} {s : State} {src : Nat} (hs : Sound q s) :
    Sound q (haltFence s src) := by
  delta haltFence
  split
  · exact hs
  · split
    · exact hs
    · exact Sound.ite (setCtx_sound hs) hs

theorem haltPlans_sound {q : List Instr} {s : State} {src : Nat} (hs : Sound q s) :
    Sound q (haltPlans s src) := by
  delta haltPlans
  refine Sound.foldl ?_ ?_
  · exact hs
  · intro t_0 a_1 h_2
    split
    · exact h_2
    · exact Sound.foldl h_2 fun _ _ h_3 => pushPlan_sound h_3

theorem haltRaiser_sound {q : List Instr} {s : State} {f : Firing} (hs : Sound q s) :
    Sound q (haltRaiser s f) := by
  delta haltRaiser
  split
  · split
    · exact Sound.ite (setCtx_sound hs) hs
    · exact hs
  · exact hs

theorem respondInterrupt_sound {q : List Instr} {s : State} {f : Firing} (hs : Sound q s) :
    Sound q (respondInterrupt s f) := by
  delta respondInterrupt
  exact Sound.ite (Sound.ite (setF_sound hs) hs) (Sound.ite (Sound.mk (Good.of (Sound.ite (raiseMsix_sound
      (raiseMgmt_sound (Sound.ite (setF_sound hs) hs))) (raiseMgmt_sound (Sound.ite (setF_sound hs) hs)))))
      (Sound.ite (raiseMsix_sound (raiseMgmt_sound (Sound.ite (setF_sound hs) hs))) (raiseMgmt_sound (Sound.ite
      (setF_sound hs) hs))))

theorem respondRaiser_sound {q : List Instr} {s : State} {f : Firing} (hs : Sound q s) :
    Sound q (respondRaiser s f) := by
  delta respondRaiser
  split
  · split
    · exact Sound.ite (setCtx_sound hs) hs
    · exact hs
  · exact hs

theorem squashOthers_sound {q : List Instr} {s : State} {slice : Nat} {keep : List Nat} (hs : Sound q s) :
    Sound q (squashOthers s slice keep) := by
  delta squashOthers
  exact Sound.foldl hs fun _ _ h_0 => Sound.ite h_0 (endEarly_sound h_0)

theorem quiesceFault_sound {q : List Instr} {s : State} {slice src : Nat} {keep : List Nat} (hs : Sound q s) :
    Sound q (quiesceFault s slice src keep) := by
  delta quiesceFault
  extract_lets +onlyGivenNames -merge -useContext -underBinder x_0
  clear_value x_0
  extract_lets +onlyGivenNames -merge -useContext -underBinder y_1
  clear_value y_1
  extract_lets +onlyGivenNames -merge -useContext -underBinder squash_2
  have hsquash_2 : ∀ y0, Sound q y0 → Sound q (squash_2 y0) := by
    intro y0 h_3
    unfold squash_2
    exact withdrawPlans_sound (squashOthers_sound (squashFetched_sound h_3))
  clear_value squash_2
  split
  · exact Sound.ite (hsquash_2 _ (setSlice_sound hs)) (Sound.ite hs (hsquash_2 _ (setSlice_sound hs)))
  · exact Sound.ite (event_sound (setSlice_sound hs)) (Sound.ite (hsquash_2 _ (event_sound (setSlice_sound hs))) hs)

theorem zeroiseRng_sound {q : List Instr} {s : State} (hs : Sound q s) :
    Sound q (zeroiseRng s) := by
  delta zeroiseRng
  exact childSync_sound (Sound.mk (Good.of hs))

theorem zeroiseKeys_sound {q : List Instr} {s : State} (hs : Sound q s) :
    Sound q (zeroiseKeys s) := by
  delta zeroiseKeys
  exact Sound.foldl (Sound.foldl hs fun _ _ h_0 => zeroiseSliceKeys_sound h_0) fun _ _ h_1 => setKey_sound h_1

theorem respondZeroise_sound {q : List Instr} {s : State} {src : Nat} (hs : Sound q s) :
    Sound q (respondZeroise s src) := by
  delta respondZeroise
  exact setFaults_sound (setFlag_sound (zeroiseRng_sound (zeroiseKeys_sound (Sound.foldl hs fun _ _ h_0 =>
      quiesceFault_sound h_0))))

theorem renameSerials_sound {q : List Instr} {s : State} (hs : Sound q s) :
    Sound q (renameSerials s) := by
  delta renameSerials
  exact Sound.mk (Good.of hs)

theorem respondHalt_sound {q : List Instr} {s : State} {src : Nat} (hs : Sound q s) :
    Sound q (respondHalt s src) := by
  delta respondHalt
  exact Sound.ite (haltChannels_sound (renameSerials_sound (haltUnit_sound (haltFence_sound (haltPlans_sound
      (Sound.foldl hs fun _ _ h_0 => haltCut_sound h_0)))))) (renameSerials_sound (haltUnit_sound (haltFence_sound
      (haltPlans_sound (Sound.foldl hs fun _ _ h_0 => haltCut_sound h_0)))))

theorem kerfResponses_sound {q : List Instr} {s : State} (hs : Sound q s) :
    Sound q (kerfResponses s) := by
  delta kerfResponses
  extract_lets +onlyGivenNames -merge -useContext -underBinder fs_0
  clear_value fs_0
  extract_lets +onlyGivenNames -merge -useContext -underBinder cs_1
  clear_value cs_1
  extract_lets +onlyGivenNames -merge -useContext -underBinder _2
  clear_value _2
  extract_lets +onlyGivenNames -merge -useContext -underBinder s0_3
  have hs0_3 : Sound q s0_3 := by
    unfold s0_3
    exact setFaults_sound hs
  clear_value s0_3
  extract_lets +onlyGivenNames -merge -useContext -underBinder s1_4
  have hs1_4 : Sound q s1_4 := by
    unfold s1_4
    exact Sound.foldl hs0_3 fun _ _ h_5 => respondInterrupt_sound h_5
  clear_value s1_4
  refine Sound.ite ?_ ?_
  · exact hs1_4
  · extract_lets +onlyGivenNames -merge -useContext -underBinder keep_6
    clear_value keep_6
    extract_lets +onlyGivenNames -merge -useContext -underBinder s2_7
    have hs2_7 : Sound q s2_7 := by
      unfold s2_7
      exact Sound.foldl hs1_4 fun _ _ h_8 => respondRaiser_sound h_8
    clear_value s2_7
    extract_lets +onlyGivenNames -merge -useContext -underBinder s3_9
    have hs3_9 : Sound q s3_9 := by
      unfold s3_9
      refine Sound.foldl ?_ ?_
      · exact hs2_7
      · intro t_10 a_11 h_12
        split
        · exact Sound.ite (quiesceFault_sound h_12) h_12
        · exact h_12
    clear_value s3_9
    exact Sound.foldl (Sound.foldl (Sound.foldl hs3_9 fun _ _ h_13 => Sound.ite (respondZeroise_sound h_13) h_13)
        fun _ _ h_14 => Sound.ite (respondHalt_sound (haltRaiser_sound h_14)) h_14) fun _ _ h_15 => applyClear_sound
        h_15

end Sys2Proof.Machine
end

