-- ==== Sys2Proof/Laws/SoundBus.lean ====
section
/-!
SUPPORT. Soundness (Laws/Sound.lean) is kept by each operation of the register map, the bus, the data path, integrity, the shuttle and the safe state.
-/
namespace Sys2Proof.Machine
open Sys2Proof

/-! ### Registers -/

theorem markChange_sound {q : List Instr} {s : State} {key : Nat} {old new : Word} (hs : Sound q s) :
    Sound q (markChange s key old new) := by
  delta markChange
  exact Sound.ite hs (markPage_sound hs)

theorem plainWrite_sound {q : List Instr} {s : State} {init key : Nat} {v : Word} (hs : Sound q s) :
    Sound q (plainWrite s init key v) := by
  delta plainWrite
  split
  · exact hs
  · exact Sound.ite (markChange_sound (setReg_sound hs)) (gwWrite_sound (markChange_sound (setReg_sound hs)))

theorem checkedWrite_sound {q : List Instr} {s : State} {init key : Nat} {v : Word} {ok : Bool} (hs : Sound q s) :
    Sound q (checkedWrite s init key v ok) := by
  delta checkedWrite
  exact Sound.ite (plainWrite_sound hs) hs

theorem clearRc_sound {q : List Instr} {s : State} {key : Nat} (hs : Sound q s) :
    Sound q (clearRc s key) := by
  delta clearRc
  split
  · exact Sound.ite hs (setReg_sound hs)
  · exact hs

theorem fixedWrite_sound {q : List Instr} {s : State} {init key : Nat} {v : Word} {lo k x : Nat} (hs : Sound q s) :
    Sound q (fixedWrite s init key v lo k x) := by
  delta fixedWrite
  exact plainWrite_sound hs

theorem headerWrite_sound {q : List Instr} {s : State} {page off : Nat} {v : Word} (hs : Sound q s) :
    Sound q (headerWrite s page off v) := by
  delta headerWrite
  split
  · exact Sound.ite (markPage_sound hs) hs
  · exact setReg_sound hs
  · exact setReg_sound hs
  · exact hs

theorem setSelChain_sound {q : List Instr} {s : State} {f : Chain → Chain} (hs : Sound q s) :
    Sound q (setSelChain s f) := by
  delta setSelChain
  exact markPage_sound (setChain_sound hs)

theorem jsizeWrite_sound {q : List Instr} {s : State} {v : Word} (hs : Sound q s) :
    Sound q (jsizeWrite s v) := by
  delta jsizeWrite
  exact Sound.ite (Sound.ite hs (setSelChain_sound hs)) (Sound.ite (setSelChain_sound (Sound.ite (setSelChain_sound
      hs) hs)) (Sound.ite (setSelChain_sound hs) hs))

theorem notePage_sound {q : List Instr} {s : State} {key : Nat} (hs : Sound q s) :
    Sound q (notePage s key) := by
  delta notePage
  exact Sound.ite (setReg_sound hs) hs

theorem setLatch_sound {q : List Instr} {s : State} {init key : Nat} {w : Word} (hs : Sound q s) :
    Sound q (setLatch s init key w) := by
  delta setLatch
  exact Sound.mk (Good.of hs)

theorem readReg_sound {q : List Instr} {s0 : State} {init key : Nat} (hs0 : Sound q s0) :
    Sound q (readReg s0 init key).2 := by
  delta readReg
  extract_lets +onlyGivenNames -merge -useContext -underBinder s_0
  have hs_0 : Sound q s_0 := by
    unfold s_0
    exact notePage_sound hs0
  clear_value s_0
  refine Sound.ite_snd ?_ ?_
  · exact Sound.pair_snd hs_0
  · exact Sound.ite_snd (Sound.pair_snd (setLatch_sound hs_0)) (Sound.ite_snd (Sound.pair_snd (Sound.ite hs_0
      (setRng_sound hs_0))) (Sound.ite_snd (Sound.pair_snd (rngCell1Read_sound hs_0)) (Sound.ite_snd (Sound.ite_snd
      (Sound.pair_snd (drawBytes_sound hs_0)) (Sound.pair_snd hs_0)) (Sound.pair_snd (clearRc_sound hs_0)))))

theorem writeFcl_sound {q : List Instr} {s : State} {init key : Nat} {v : Word} (hs : Sound q s) :
    Sound q (writeFcl s init key v) := by
  delta writeFcl
  exact Sound.ite (fclColdEffect_sound hs) (Sound.ite (fclRearmEffect_sound hs) (Sound.ite (fclPendClearEffect_sound
      hs) (plainWrite_sound hs)))

theorem writeFls_sound {q : List Instr} {s : State} {init key : Nat} {v : Word} (hs : Sound q s) :
    Sound q (writeFls s init key v) := by
  delta writeFls
  exact Sound.ite (Sound.ite (flsGo_sound (plainWrite_sound hs)) (plainWrite_sound hs)) (plainWrite_sound hs)

theorem writeGov_sound {q : List Instr} {s : State} {init key : Nat} {v : Word} (hs : Sound q s) :
    Sound q (writeGov s init key v) := by
  delta writeGov
  exact Sound.ite (fixedWrite_sound hs) (Sound.ite (checkedWrite_sound hs) (Sound.ite (checkedWrite_sound hs)
      (Sound.ite (checkedWrite_sound hs) (plainWrite_sound hs))))

theorem writeGte_sound {q : List Instr} {s : State} {init key : Nat} {v : Word} (hs : Sound q s) :
    Sound q (writeGte s init key v) := by
  delta writeGte
  exact Sound.ite (Sound.ite (gteStage_sound hs) hs) (Sound.ite (markPage_sound (gteDiscard_sound hs)) (Sound.ite
      (markPage_sound (gteWindowWrite_sound hs)) (plainWrite_sound hs)))

theorem writeHq_sound {q : List Instr} {s : State} {init key : Nat} {v : Word} (hs : Sound q s) :
    Sound q (writeHq s init key v) := by
  delta writeHq
  exact Sound.ite (checkedWrite_sound hs) (Sound.ite (checkedWrite_sound hs) (plainWrite_sound hs))

theorem writeLms_sound {q : List Instr} {s : State} {init key : Nat} {v : Word} (hs : Sound q s) :
    Sound q (writeLms s init key v) := by
  delta writeLms
  exact Sound.ite (markPage_sound (lmsReqWrite_sound hs)) (Sound.ite (fixedWrite_sound hs) (plainWrite_sound hs))

theorem writeOfc_sound {q : List Instr} {s : State} {init key : Nat} {v : Word} (hs : Sound q s) :
    Sound q (writeOfc s init key v) := by
  delta writeOfc
  exact Sound.ite (checkedWrite_sound hs) (Sound.ite (fixedWrite_sound hs) (plainWrite_sound hs))

theorem writePst_sound {q : List Instr} {s : State} {init key : Nat} {v : Word} (hs : Sound q s) :
    Sound q (writePst s init key v) := by
  delta writePst
  exact Sound.ite (Sound.ite (checkedWrite_sound hs) (Sound.ite hs (plainWrite_sound hs))) (plainWrite_sound hs)

theorem writeRng_sound {q : List Instr} {s : State} {init key : Nat} {v : Word} (hs : Sound q s) :
    Sound q (writeRng s init key v) := by
  delta writeRng
  exact Sound.ite (setFlag_sound (plainWrite_sound hs)) (plainWrite_sound hs)

theorem writeVlt_sound {q : List Instr} {s : State} {init key : Nat} {v : Word} (hs : Sound q s) :
    Sound q (writeVlt s init key v) := by
  delta writeVlt
  exact Sound.ite (checkedWrite_sound hs) (Sound.ite (Sound.ite hs (setSelChain_sound hs)) (Sound.ite (Sound.ite hs
      (setSelChain_sound hs)) (Sound.ite (jsizeWrite_sound hs) (Sound.ite (markPage_sound (jheadWriteEffect_sound
      hs)) (plainWrite_sound hs)))))

theorem writeSht_sound {q : List Instr} {s : State} {init key : Nat} {v : Word} (hs : Sound q s) :
    Sound q (writeSht s init key v) := by
  delta writeSht
  extract_lets +onlyGivenNames -merge -useContext -underBinder off_0
  clear_value off_0
  refine Sound.ite ?_ ?_
  · exact Sound.foldl hs fun _ _ h_1 => Sound.ite (setChan_sound h_1) h_1
  · refine Sound.ite ?_ ?_
    · split
      · exact markPage_sound (channelStart_sound hs)
      · exact channelStop_sound hs
      · exact hs
    · exact plainWrite_sound hs

theorem writeSil_sound {q : List Instr} {s : State} {init key : Nat} {v : Word} (hs : Sound q s) :
    Sound q (writeSil s init key v) := by
  delta writeSil
  exact Sound.ite (sillWriteEffect_sound hs) (plainWrite_sound hs)

theorem writeReg_sound {q : List Instr} {s0 : State} {init key : Nat} {v : Word} (hs0 : Sound q s0) :
    Sound q (writeReg s0 init key v) := by
  delta writeReg
  extract_lets +onlyGivenNames -merge -useContext -underBinder s_0
  have hs_0 : Sound q s_0 := by
    unfold s_0
    exact notePage_sound hs0
  clear_value s_0
  extract_lets +onlyGivenNames -merge -useContext -underBinder page_1
  clear_value page_1
  refine Sound.ite ?_ ?_
  · exact hs_0
  · refine Sound.ite ?_ ?_
    · exact headerWrite_sound hs_0
    · split
      · exact Sound.ite (gwWrite_sound hs_0) (plainWrite_sound hs_0)
      · exact writeFcl_sound hs_0
      · exact Sound.ite (fixedWrite_sound hs_0) (plainWrite_sound hs_0)
      · exact writeGov_sound hs_0
      · exact Sound.ite (markPage_sound (hlkCtrlWrite_sound hs_0)) (plainWrite_sound hs_0)
      · exact writeHq_sound hs_0
      · exact Sound.ite (checkedWrite_sound hs_0) (plainWrite_sound hs_0)
      · exact writeLms_sound hs_0
      · exact writeRng_sound hs_0
      · exact writeVlt_sound hs_0
      · exact Sound.ite (fixedWrite_sound hs_0) (plainWrite_sound hs_0)
      · exact writeSht_sound hs_0
      · exact writePst_sound hs_0
      · exact writeGte_sound hs_0
      · exact writeFls_sound hs_0
      · exact writeSil_sound hs_0
      · exact writeOfc_sound hs_0
      · exact Sound.ite (markPage_sound (werCtrlWrite_sound hs_0)) (Sound.ite (fixedWrite_sound hs_0)
          (plainWrite_sound hs_0))
      · exact plainWrite_sound hs_0

/-! ### Bus -/

theorem answerRead_sound {q : List Instr} {s : State} {init key : Nat} {r : Option Word × State} (hs : Sound q s)
    (hr : Sound q r.2) :
    Sound q (answerRead s init key r) := by
  delta answerRead
  refine Sound.ite ?_ ?_
  · exact hs
  · split
    · exact emit_sound hr
    · exact Sound.ite hr (Sound.ite (emit_sound hr) (emit_sound hr))

theorem applyPosted_sound {q : List Instr} {s : State} {p : Posted} (hs : Sound q s) :
    Sound q (applyPosted s p) := by
  delta applyPosted
  exact Sound.ite (firePlain_sound hs) (Sound.ite (notice_sound hs) (Sound.ite (Sound.ite (writeReg_sound hs)
      (notice_sound hs)) (putBytes_sound hs)))

theorem bastingApplyEffect_sound {q : List Instr} {init gate : Nat} {s : State} (hs : Sound q s) :
    Sound q (bastingApplyEffect init gate s) := by
  delta bastingApplyEffect
  refine Sound.ite ?_ ?_
  · exact hs
  · split
    · exact hs
    · exact applyPosted_sound (setGates_sound hs)

theorem drainPosted_sound {q : List Instr} {s : State} {f : Posted → Bool} (hs : Sound q s) :
    Sound q (drainPosted s f) := by
  delta drainPosted
  exact Sound.foldl (setGates_sound hs) fun _ _ h_0 => applyPosted_sound h_0

theorem regWords_sound {q : List Instr} {n : Nat} {s : State} {init key : Nat} (hs : Sound q s) :
    Sound q (regWords n s init key).2 := by
  induction n generalizing s key with
  | zero => exact hs
  | succ k ih =>
    rw [regWords]
    exact ih (readReg_sound hs)

theorem flashReadAt_sound {q : List Instr} {s : State} {off n : Nat} (hs : Sound q s) :
    Sound q (flashReadAt s off n).2 := by
  delta flashReadAt
  split
  · exact Sound.pair_snd (countUe_sound hs)
  · exact Sound.pair_snd (flashBytes_sound hs)

theorem flashRead_sound {q : List Instr} {s : State} {x1 n : Nat} (hs : Sound q s) :
    Sound q (flashRead s x1 n).2 := by
  delta flashRead
  exact flashReadAt_sound hs

theorem busRead_sound {q : List Instr} {s0 : State} {init x1 n : Nat} (hs0 : Sound q s0) :
    Sound q (busRead s0 init x1 n).2 := by
  delta busRead
  extract_lets +onlyGivenNames -merge -useContext -underBinder g_0
  clear_value g_0
  extract_lets +onlyGivenNames -merge -useContext -underBinder s_1
  have hs_1 : Sound q s_1 := by
    unfold s_1
    exact drainPosted_sound hs0
  clear_value s_1
  extract_lets +onlyGivenNames -merge -useContext -underBinder r_2
  have hr_2 : Sound q r_2.2 := by
    unfold r_2
    exact access_sound hs_1
  clear_value r_2
  exact Sound.ite_snd (Sound.pair_snd hr_2) (Sound.ite_snd (Sound.ite_snd (Sound.pair_snd (regWords_sound hr_2))
      (Sound.pair_snd (refuseAccess_sound hr_2))) (Sound.ite_snd (flashRead_sound hr_2) (Sound.ite_snd
      (Sound.pair_snd hr_2) (Sound.pair_snd hr_2))))

theorem busRegRead_sound {q : List Instr} {s0 : State} {init key : Nat} (hs0 : Sound q s0) :
    Sound q (busRegRead s0 init key).2 := by
  delta busRegRead
  exact Sound.ite_snd (Sound.pair_snd (readReg_sound (access_sound (drainPosted_sound hs0)))) (Sound.pair_snd
      (access_sound (drainPosted_sound hs0)))

theorem busRegWrite_sound {q : List Instr} {s0 : State} {init key : Nat} {v : Word} (hs0 : Sound q s0) :
    Sound q (busRegWrite s0 init key v) := by
  delta busRegWrite
  exact Sound.ite (writeReg_sound (drainPosted_sound hs0)) (notice_sound (drainPosted_sound hs0))

theorem execBastingApply_sound {q : List Instr} {init gate : Nat} {s : State} (hs : Sound q s) :
    OutSound q (execBastingApply init gate s) := by
  delta execBastingApply
  exact OutSound.next (bastingApplyEffect_sound hs)

theorem msixWrite_sound {q : List Instr} {s : State} {slice off : Nat} {v : Word} (hs : Sound q s) :
    Sound q (msixWrite s slice off v) := by
  delta msixWrite
  split
  · exact setMsixWord_sound hs
  · exact Sound.ite (setMsixWord_sound hs) (msixUnmask_sound hs)
  · exact setMsixWord_sound hs

theorem queueWrite_sound {q : List Instr} {s : State} {slice queue off : Nat} {v : Word} (hs : Sound q s) :
    Sound q (queueWrite s slice queue off v) := by
  delta queueWrite
  extract_lets +onlyGivenNames -merge -useContext -underBinder q_0
  clear_value q_0
  extract_lets +onlyGivenNames -merge -useContext -underBinder n_1
  clear_value n_1
  refine Sound.ite ?_ ?_
  · exact hs
  · refine Sound.ite ?_ ?_
    · exact Sound.ite (queueEnableEffect_sound hs) (queueDisableEffect_sound hs)
    · refine Sound.ite ?_ ?_
      · exact hs
      · split
        · exact setQueue_sound hs
        · exact setQueue_sound hs
        · exact setQueue_sound hs
        · exact setQueue_sound hs
        · exact setQueue_sound hs
        · exact setQueue_sound hs
        · exact hs

theorem fnWrite_sound {q : List Instr} {s : State} {slice off width : Nat} {v : Word} (hs : Sound q s) :
    Sound q (fnWrite s slice off width v) := by
  delta fnWrite
  split
  · exact Sound.ite (Sound.ite (Sound.ite (dropDoorbell_sound hs) hs) (Sound.ite (cqHeadEffect_sound hs)
      (sqTailEffect_sound hs))) hs
  · refine Sound.ite ?_ ?_
    · exact hs
    · refine Sound.ite ?_ ?_
      · exact msixWrite_sound hs
      · split
        · exact queueWrite_sound hs
        · exact hs

theorem writeEffect_sound {q : List Instr} {init key : Nat} {v : Word} {s : State} (hs : Sound q s) :
    Sound q (writeEffect init key v s) := by
  delta writeEffect
  exact Sound.ite hs (Sound.ite (Sound.ite (fnWrite_sound hs) hs) (busRegWrite_sound hs))

theorem execGwWrite_sound {q : List Instr} {init key : Nat} {v : Word} {s : State} (hs : Sound q s) :
    OutSound q (execGwWrite init key v s) := by
  delta execGwWrite
  exact OutSound.next (writeEffect_sound hs)

theorem fnRead_sound {q : List Instr} {s : State} {slice off : Nat} (hs : Sound q s) :
    Sound q (fnRead s slice off).2 := by
  delta fnRead
  exact Sound.ite_snd (Sound.pair_snd (setLatch_sound hs)) (Sound.ite_snd (Sound.pair_snd hs) (Sound.ite_snd
      (Sound.pair_snd (Sound.mk (Good.of hs))) (Sound.pair_snd hs)))

theorem fnReply_sound {q : List Instr} {init key slice off : Nat} {served : Bool} {s : State} (hs : Sound q s) :
    Sound q (fnReply init key slice off served s) := by
  delta fnReply
  exact Sound.ite (emit_sound (fnRead_sound hs)) hs

theorem readEffect_sound {q : List Instr} {init key : Nat} {s : State} (hs : Sound q s) :
    Sound q (readEffect init key s) := by
  delta readEffect
  exact Sound.ite hs (Sound.ite (fnReply_sound hs) (Sound.ite (Sound.ite (rngReadEffect_sound (access_sound
      (drainPosted_sound hs))) (answerRead_sound hs (Sound.pair_snd (access_sound (drainPosted_sound hs)))))
      (answerRead_sound hs (busRegRead_sound hs))))

theorem hostRequestEffect_sound {q : List Instr} {slice : Nat} {wr : Bool} {addr width : Nat} {v : Word} {s : State}
    (hs : Sound q s) :
    Sound q (hostRequestEffect slice wr addr width v s) := by
  delta hostRequestEffect
  exact Sound.ite hs (Sound.ite (Sound.ite (Sound.ite hs (emit_sound hs)) (Sound.ite (fnWrite_sound hs)
      (readEffect_sound hs))) (Sound.ite hs (Sound.ite (Sound.ite (writeEffect_sound hs) (readEffect_sound hs))
      (Sound.ite (notice_sound hs) (answerRead_sound hs (Sound.pair_snd (refuseAccess_sound hs)))))))

theorem execHostRequest_sound {q : List Instr} {slice : Nat} {wr : Bool} {addr width : Nat} {v : Word} {s : State}
    (hs : Sound q s) :
    OutSound q (execHostRequest slice wr addr width v s) := by
  delta execHostRequest
  exact OutSound.next (hostRequestEffect_sound hs)

theorem execLoRead_sound {q : List Instr} {init key : Nat} {s : State} (hs : Sound q s) :
    OutSound q (execLoRead init key s) := by
  delta execLoRead
  exact OutSound.next (readEffect_sound hs)

theorem msixUnmaskEffect_sound {q : List Instr} {slice vec : Nat} {s : State} (hs : Sound q s) :
    Sound q (msixUnmaskEffect slice vec s) := by
  delta msixUnmaskEffect
  exact Sound.ite hs (msixUnmask_sound hs)

theorem execMsixUnmask_sound {q : List Instr} {slice vec : Nat} {s : State} (hs : Sound q s) :
    OutSound q (execMsixUnmask slice vec s) := by
  delta execMsixUnmask
  exact OutSound.next (msixUnmaskEffect_sound hs)

theorem execRcRead_sound {q : List Instr} {init key : Nat} {s : State} (hs : Sound q s) :
    OutSound q (execRcRead init key s) := by
  delta execRcRead
  exact OutSound.next (readEffect_sound hs)

theorem execRecheck_sound {q : List Instr} {init page : Nat} {s : State} (hs : Sound q s) :
    OutSound q (execRecheck init page s) := by
  delta execRecheck
  exact OutSound.next (writeEffect_sound hs)

theorem execRegisterWrite_sound {q : List Instr} {init key : Nat} {v : Word} {s : State} (hs : Sound q s) :
    OutSound q (execRegisterWrite init key v s) := by
  delta execRegisterWrite
  exact OutSound.next (writeEffect_sound hs)

theorem writeWords_sound {q : List Instr} {fuel : Nat} {s : State} {init key : Nat} {b : Bytes} (hs : Sound q s) :
    Sound q (writeWords fuel s init key b) := by
  induction fuel generalizing s key b with
  | zero => exact hs
  | succ k ih =>
    rw [writeWords]
    exact Sound.ite hs (ih (writeReg_sound hs))

/-! ### DataPath -/

theorem abortEffect_sound {q : List Instr} {slice queue cmdId : Nat} {s : State} (hs : Sound q s) :
    Sound q (abortEffect slice queue cmdId s) := by
  delta abortEffect
  split
  · exact hs
  · exact Sound.ite hs (inKerf_sound (fun _ h_0 => abortEntry_sound h_0) hs)

theorem execAbort_sound {q : List Instr} {slice queue cmdId : Nat} {s : State} (hs : Sound q s) :
    OutSound q (execAbort slice queue cmdId s) := by
  delta execAbort
  exact OutSound.next (abortEffect_sound hs)

theorem execAttest_sound {q : List Instr} {ctx : Nat} {s : State} (hs : Sound q s) :
    OutSound q (execAttest ctx s) := by
  delta execAttest
  exact OutSound.next (runRow_sound hs)

theorem execCipher_sound {q : List Instr} {ctx : Nat} {s : State} (hs : Sound q s) :
    OutSound q (execCipher ctx s) := by
  delta execCipher
  exact OutSound.next (runRow_sound hs)

theorem execCipherTranslate_sound {q : List Instr} {ctx : Nat} {s : State} (hs : Sound q s) :
    OutSound q (execCipherTranslate ctx s) := by
  delta execCipherTranslate
  exact OutSound.next (runRow_sound hs)

theorem execCredIssue_sound {q : List Instr} {ctx : Nat} {s : State} (hs : Sound q s) :
    OutSound q (execCredIssue ctx s) := by
  delta execCredIssue
  exact OutSound.next (runRow_sound hs)

theorem execCredKill_sound {q : List Instr} {ctx : Nat} {s : State} (hs : Sound q s) :
    OutSound q (execCredKill ctx s) := by
  delta execCredKill
  exact OutSound.next (runRow_sound hs)

theorem execCredRedeem_sound {q : List Instr} {ctx : Nat} {s : State} (hs : Sound q s) :
    OutSound q (execCredRedeem ctx s) := by
  delta execCredRedeem
  exact OutSound.next (runRow_sound hs)

theorem execDetokenize_sound {q : List Instr} {ctx : Nat} {s : State} (hs : Sound q s) :
    OutSound q (execDetokenize ctx s) := by
  delta execDetokenize
  exact OutSound.next (runRow_sound hs)

theorem execDukptDerive_sound {q : List Instr} {ctx : Nat} {s : State} (hs : Sound q s) :
    OutSound q (execDukptDerive ctx s) := by
  delta execDukptDerive
  exact OutSound.next (runRow_sound hs)

theorem execEcdh_sound {q : List Instr} {ctx : Nat} {s : State} (hs : Sound q s) :
    OutSound q (execEcdh ctx s) := by
  delta execEcdh
  exact OutSound.next (runRow_sound hs)

theorem execHash_sound {q : List Instr} {ctx : Nat} {s : State} (hs : Sound q s) :
    OutSound q (execHash ctx s) := by
  delta execHash
  exact OutSound.next (runRow_sound hs)

theorem infillCallEffect_sound {q : List Instr} {n : Nat} {a0 a1 a2 a3 a4 a5 : Word} {out : Bytes} {s : State} (hs :
    Sound q s) :
    Sound q (infillCallEffect n a0 a1 a2 a3 a4 a5 out s) := by
  delta infillCallEffect
  split
  · exact hs
  · exact putResult_sound hs

theorem execInfillCall_sound {q : List Instr} {ctx : Nat} {a0 a1 a2 a3 a4 a5 : Word} {out : Bytes} {s : State} (hs :
    Sound q s) :
    OutSound q (execInfillCall ctx a0 a1 a2 a3 a4 a5 out s) := by
  delta execInfillCall
  exact OutSound.next (infillCallEffect_sound hs)

theorem execKemDecaps_sound {q : List Instr} {ctx : Nat} {s : State} (hs : Sound q s) :
    OutSound q (execKemDecaps ctx s) := by
  delta execKemDecaps
  exact OutSound.next (runRow_sound hs)

theorem execKemEncaps_sound {q : List Instr} {ctx : Nat} {s : State} (hs : Sound q s) :
    OutSound q (execKemEncaps ctx s) := by
  delta execKemEncaps
  exact OutSound.next (runRow_sound hs)

theorem execKeyDerive_sound {q : List Instr} {ctx : Nat} {s : State} (hs : Sound q s) :
    OutSound q (execKeyDerive ctx s) := by
  delta execKeyDerive
  exact OutSound.next (runRow_sound hs)

theorem execKeyExport_sound {q : List Instr} {ctx : Nat} {s : State} (hs : Sound q s) :
    OutSound q (execKeyExport ctx s) := by
  delta execKeyExport
  exact OutSound.next (runRow_sound hs)

theorem execKeyGenerate_sound {q : List Instr} {ctx : Nat} {s : State} (hs : Sound q s) :
    OutSound q (execKeyGenerate ctx s) := by
  delta execKeyGenerate
  exact OutSound.next (runRow_sound hs)

theorem execKeyImport_sound {q : List Instr} {ctx : Nat} {s : State} (hs : Sound q s) :
    OutSound q (execKeyImport ctx s) := by
  delta execKeyImport
  exact OutSound.next (runRow_sound hs)

theorem execKeyKill_sound {q : List Instr} {ctx : Nat} {s : State} (hs : Sound q s) :
    OutSound q (execKeyKill ctx s) := by
  delta execKeyKill
  exact OutSound.next (runRow_sound hs)

theorem execMacGen_sound {q : List Instr} {ctx : Nat} {s : State} (hs : Sound q s) :
    OutSound q (execMacGen ctx s) := by
  delta execMacGen
  exact OutSound.next (runRow_sound hs)

theorem execMacVerify_sound {q : List Instr} {ctx : Nat} {s : State} (hs : Sound q s) :
    OutSound q (execMacVerify ctx s) := by
  delta execMacVerify
  exact OutSound.next (runRow_sound hs)

theorem execPinTranslate_sound {q : List Instr} {ctx : Nat} {s : State} (hs : Sound q s) :
    OutSound q (execPinTranslate ctx s) := by
  delta execPinTranslate
  exact OutSound.next (runRow_sound hs)

theorem execPinVerify_sound {q : List Instr} {ctx : Nat} {s : State} (hs : Sound q s) :
    OutSound q (execPinVerify ctx s) := by
  delta execPinVerify
  exact OutSound.next (runRow_sound hs)

theorem execRandom_sound {q : List Instr} {ctx : Nat} {s : State} (hs : Sound q s) :
    OutSound q (execRandom ctx s) := by
  delta execRandom
  exact OutSound.next (runRow_sound hs)

theorem selftestEffect_sound {q : List Instr} {n : Nat} {failed : Option Nat} {s : State} (hs : Sound q s) :
    Sound q (selftestEffect n failed s) := by
  delta selftestEffect
  split
  · exact hs
  · refine Sound.ite ?_ ?_
    · exact hs
    · extract_lets +onlyGivenNames -merge -useContext -underBinder bad_0
      clear_value bad_0
      extract_lets +onlyGivenNames -merge -useContext -underBinder s1_1
      have hs1_1 : Sound q s1_1 := by
        unfold s1_1
        exact putResult_sound hs
      clear_value s1_1
      split
      · exact hs1_1
      · exact fire_sound hs1_1

theorem execSelftest_sound {q : List Instr} {ctx : Nat} {failed : Option Nat} {s : State} (hs : Sound q s) :
    OutSound q (execSelftest ctx failed s) := by
  delta execSelftest
  exact OutSound.next (selftestEffect_sound hs)

theorem execSignSeam_sound {q : List Instr} {ctx : Nat} {s : State} (hs : Sound q s) :
    OutSound q (execSignSeam ctx s) := by
  delta execSignSeam
  exact OutSound.next (runRow_sound hs)

theorem execTokenize_sound {q : List Instr} {ctx : Nat} {s : State} (hs : Sound q s) :
    OutSound q (execTokenize ctx s) := by
  delta execTokenize
  exact OutSound.next (runRow_sound hs)

theorem execVaultDelete_sound {q : List Instr} {ctx : Nat} {s : State} (hs : Sound q s) :
    OutSound q (execVaultDelete ctx s) := by
  delta execVaultDelete
  exact OutSound.next (runRow_sound hs)

theorem execVaultGet_sound {q : List Instr} {ctx : Nat} {s : State} (hs : Sound q s) :
    OutSound q (execVaultGet ctx s) := by
  delta execVaultGet
  exact OutSound.next (runRow_sound hs)

theorem execVaultPut_sound {q : List Instr} {ctx : Nat} {s : State} (hs : Sound q s) :
    OutSound q (execVaultPut ctx s) := by
  delta execVaultPut
  exact OutSound.next (runRow_sound hs)

theorem execVerifySeam_sound {q : List Instr} {ctx : Nat} {s : State} (hs : Sound q s) :
    OutSound q (execVerifySeam ctx s) := by
  delta execVerifySeam
  exact OutSound.next (runRow_sound hs)

/-! ### Integrity -/

theorem retireFailed_sound {q : List Instr} {s : State} {slot : Nat} (hs : Sound q s) :
    Sound q (retireFailed s slot) := by
  delta retireFailed
  exact event_sound (setF_sound (setF_sound (Sound.ite (endKey_sound (setKey_sound hs)) hs)))

theorem thmInvalid_sound {q : List Instr} {s : State} (hs : Sound q s) :
    Sound q (thmInvalid s) := by
  delta thmInvalid
  exact thmLog_sound (thmLatch_sound (thmErase_sound hs))

theorem silLost_sound {q : List Instr} {s : State} (hs : Sound q s) :
    Sound q (silLost s) := by
  delta silLost
  exact silSync_sound (setNv_sound hs)

theorem causeEffect_sound {q : List Instr} {s : State} {src : Nat} {slice : Option Nat} {addr detail : Nat} {cause :
    FireCause} (hs : Sound q s) :
    Sound q (causeEffect s src slice addr detail cause) := by
  delta causeEffect
  split
  · exact Sound.ite (retireFailed_sound hs) hs
  · exact Sound.ite (Sound.foldl (guardDrop_sound hs) fun _ _ h_0 => closeSession_sound h_0) hs
  · exact Sound.ite (thmInvalid_sound hs) hs
  · refine Sound.ite ?_ ?_
    · extract_lets +onlyGivenNames -merge -useContext -underBinder level_1
      clear_value level_1
      split
      · exact integrityMark_sound hs
      · split
        · exact integrityMark_sound hs
        · exact hs
    · exact Sound.ite (healthFailed_sound hs) (Sound.ite (nvHalt_sound hs) (Sound.ite (silLost_sound hs) hs))

theorem faultSourceFireEffect_sound {q : List Instr} {src acc init addr detail cycle : Nat} {imprecise : Bool}
    {slice ctx : Option Nat} {cause : FireCause} {s : State} (hs : Sound q s) :
    Sound q (faultSourceFireEffect src acc init addr detail cycle imprecise slice ctx cause s) := by
  delta faultSourceFireEffect
  exact Sound.ite (fireAt_sound (causeEffect_sound hs)) (causeEffect_sound hs)

theorem execFaultSourceFire_sound {q : List Instr} {src acc init addr detail cycle : Nat} {imprecise : Bool} {slice
    ctx : Option Nat} {cause : FireCause} {s : State} (hs : Sound q s) :
    OutSound q (execFaultSourceFire src acc init addr detail cycle imprecise slice ctx cause s) := by
  delta execFaultSourceFire
  exact OutSound.next (faultSourceFireEffect_sound hs)

/-! ### Shuttle -/

theorem afterBack_sound {q : List Instr} {s : State} {f status : Nat} (hs : Sound q s) :
    Sound q (afterBack s f status) := by
  delta afterBack
  extract_lets +onlyGivenNames -merge -useContext -underBinder c_0
  clear_value c_0
  extract_lets +onlyGivenNames -merge -useContext -underBinder d_1
  clear_value d_1
  extract_lets +onlyGivenNames -merge -useContext -underBinder s1_2
  have hs1_2 : Sound q s1_2 := by
    unfold s1_2
    exact Sound.ite (setChan_sound (Sound.foldl hs fun _ _ h_3 => raiseLine_sound h_3)) hs
  clear_value s1_2
  exact Sound.ite (setChanState_sound (setChan_sound hs1_2)) (Sound.ite (setChan_sound hs1_2) (setChanState_sound
      (setChan_sound hs1_2)))

theorem pieceGot_sound {q : List Instr} {s : State} {f n : Nat} {r : Option Bytes} {status : Nat} (hs : Sound q s) :
    Sound q (pieceGot s f n r status) := by
  delta pieceGot
  extract_lets +onlyGivenNames -merge -useContext -underBinder c_0
  clear_value c_0
  extract_lets +onlyGivenNames -merge -useContext -underBinder s1_1
  have hs1_1 : Sound q s1_1 := by
    unfold s1_1
    exact countPiece_sound hs
  clear_value s1_1
  refine settleChan_sound ?_
  split
  · exact setChan_sound hs1_1
  · exact setChan_sound hs1_1

theorem rngPiece_sound {q : List Instr} {f x1 n : Nat} {s : State} (hs : Sound q s) :
    OptSound q (rngPiece f x1 n s) := by
  delta rngPiece
  extract_lets +onlyGivenNames -merge -useContext -underBinder init_0
  clear_value init_0
  refine OptSound.ite ?_ ?_
  · exact OptSound.none
  · split
    · exact OptSound.some (pieceGot_sound (setRng_sound hs))
    · exact OptSound.some hs
    · exact OptSound.ite OptSound.none (OptSound.some (setRng_sound hs))

theorem readPiece_sound {q : List Instr} {f : Nat} {r : ReadResult} {s : State} (hs : Sound q s) :
    Sound q (readPiece f r s) := by
  delta readPiece
  extract_lets +onlyGivenNames -merge -useContext -underBinder c_0
  clear_value c_0
  extract_lets +onlyGivenNames -merge -useContext -underBinder d_1
  clear_value d_1
  extract_lets +onlyGivenNames -merge -useContext -underBinder a_2
  clear_value a_2
  extract_lets +onlyGivenNames -merge -useContext -underBinder n_3
  clear_value n_3
  refine Sound.ite ?_ ?_
  · exact hs
  · refine Sound.ite ?_ ?_
    · exact hs
    · refine Sound.ite ?_ ?_
      · extract_lets +onlyGivenNames -merge -useContext -underBinder l_4
        have hl_4 : Sound q l_4.2 := by
          unfold l_4
          exact linkAccess_sound hs
        clear_value l_4
        refine Sound.ite ?_ ?_
        · exact pieceGot_sound hl_4
        · extract_lets +onlyGivenNames -merge -useContext -underBinder s1_5
          have hs1_5 : Sound q s1_5 := by
            unfold s1_5
            exact emit_sound hl_4
          clear_value s1_5
          split
          · exact pieceGot_sound hs1_5
          · exact pieceGot_sound (linkError_sound hs1_5)
      · split
        · have : Sound q _ := OptSound.of_some (by assumption) (by
            exact rngPiece_sound hs)
          assumption
        · extract_lets +onlyGivenNames -merge -useContext -underBinder x_6
          have hx_6 : Sound q x_6.2 := by
            unfold x_6
            exact busRead_sound hs
          clear_value x_6
          split
          · exact pieceGot_sound hx_6
          · exact pieceGot_sound hx_6
          · exact pieceGot_sound hx_6

theorem channelData_sound {q : List Instr} {f : Nat} {r : ReadResult} {s : State} (hs : Sound q s) :
    Sound q (channelData f r s) := by
  delta channelData
  extract_lets +onlyGivenNames -merge -useContext -underBinder c_0
  clear_value c_0
  refine Sound.ite ?_ ?_
  · exact hs
  · split
    · extract_lets +onlyGivenNames -merge -useContext -underBinder s1_1
      have hs1_1 : Sound q s1_1 := by
        unfold s1_1
        split
        · exact linkError_sound (countF_sound hs)
        · exact hs
      clear_value s1_1
      exact confirmHost_sound (setChan_sound hs1_1)
    · exact Sound.ite (readPiece_sound hs) hs

theorem ctxData_sound {q : List Instr} {n : Nat} {r : ReadResult} {s : State} (hs : Sound q s) :
    Sound q (ctxData n r s) := by
  delta ctxData
  split
  · exact hs
  · refine Sound.ite ?_ ?_
    · exact hs
    · split
      · exact setCtx_sound hs
      · exact setCtx_sound (linkError_sound (countReg_sound (Sound.ite (countF_sound (planFault_sound hs)) hs)))

theorem fetchFails_sound {q : List Instr} {s : State} {f : Nat} (hs : Sound q s) :
    Sound q (fetchFails s f) := by
  delta fetchFails
  exact setChanState_sound (chanFault_sound (setF_sound (setF_sound hs)))

theorem descriptorFetchEffect_sound {q : List Instr} {f : Nat} {s : State} (hs : Sound q s) :
    Sound q (descriptorFetchEffect f s) := by
  delta descriptorFetchEffect
  extract_lets +onlyGivenNames -merge -useContext -underBinder c_0
  clear_value c_0
  extract_lets +onlyGivenNames -merge -useContext -underBinder init_1
  clear_value init_1
  refine Sound.ite ?_ ?_
  · exact hs
  · exact Sound.ite (fetchFails_sound (access_sound hs)) (Sound.ite (fetchFails_sound hs) (Sound.ite
      (setChanState_sound (access_sound hs)) (Sound.ite (chanEnd_sound (setChan_sound (access_sound hs))) (Sound.ite
      (settleChan_sound (emit_sound (setChan_sound (access_sound hs)))) (settleChan_sound (setChan_sound
      (access_sound hs)))))))

theorem descriptorWriteBackEffect_sound {q : List Instr} {f : Nat} {s : State} (hs : Sound q s) :
    Sound q (descriptorWriteBackEffect f s) := by
  delta descriptorWriteBackEffect
  extract_lets +onlyGivenNames -merge -useContext -underBinder c_0
  clear_value c_0
  split
  · exact hs
  · exact Sound.ite hs (Sound.ite (afterBack_sound (setF_sound (writeBack_sound hs))) (setChanState_sound
      (setChan_sound (chanFault_sound (setF_sound (writeBack_sound hs))))))

theorem readArrives_sound {q : List Instr} {dest : ReadDest} {r : ReadResult} {s : State} (hs : Sound q s) :
    Sound q (readArrives dest r s) := by
  delta readArrives
  refine Sound.ite ?_ ?_
  · exact hs
  · split
    · exact ctxData_sound hs
    · exact entryFetchEffect_sound hs
    · exact channelData_sound hs
    · exact loadPublicData_sound hs
    · exact flushData_sound hs

theorem execAtsTranslationCompletion_sound {q : List Instr} {dest : ReadDest} {ok : Bool} {s : State} (hs : Sound q
    s) :
    OutSound q (execAtsTranslationCompletion dest ok s) := by
  delta execAtsTranslationCompletion
  exact OutSound.next (Sound.ite hs (readArrives_sound hs))

theorem execCompletionTimeout_sound {q : List Instr} {dest : ReadDest} {s : State} (hs : Sound q s) :
    OutSound q (execCompletionTimeout dest s) := by
  delta execCompletionTimeout
  exact OutSound.next (readArrives_sound hs)

theorem execDescriptorFetch_sound {q : List Instr} {f : Nat} {s : State} (hs : Sound q s) :
    OutSound q (execDescriptorFetch f s) := by
  delta execDescriptorFetch
  exact OutSound.next (descriptorFetchEffect_sound hs)

theorem execDescriptorWriteBack_sound {q : List Instr} {f : Nat} {s : State} (hs : Sound q s) :
    OutSound q (execDescriptorWriteBack f s) := by
  delta execDescriptorWriteBack
  exact OutSound.next (descriptorWriteBackEffect_sound hs)

theorem execHostReadCompletion_sound {q : List Instr} {dest : ReadDest} {r : ReadResult} {s : State} (hs : Sound q
    s) :
    OutSound q (execHostReadCompletion dest r s) := by
  delta execHostReadCompletion
  exact OutSound.next (readArrives_sound hs)

theorem readbackEffect_sound {q : List Instr} {f : Nat} {r : ReadResult} {same : Bool} {s : State} (hs : Sound q s) :
    Sound q (readbackEffect f r same s) := by
  delta readbackEffect
  extract_lets +onlyGivenNames -merge -useContext -underBinder c_0
  clear_value c_0
  extract_lets +onlyGivenNames -merge -useContext -underBinder d_1
  clear_value d_1
  refine Sound.ite ?_ ?_
  · exact hs
  · refine Sound.ite ?_ ?_
    · split
      · exact chanEnd_sound hs
      · exact chanEnd_sound (linkError_sound hs)
    · split
      · exact chanEnd_sound hs
      · exact Sound.ite (chanEnd_sound hs) (chanEnd_sound (firePlain_sound hs))

theorem execReadback_sound {q : List Instr} {f : Nat} {r : ReadResult} {same : Bool} {s : State} (hs : Sound q s) :
    OutSound q (execReadback f r same s) := by
  delta execReadback
  exact OutSound.next (readbackEffect_sound hs)

theorem writeFails_sound {q : List Instr} {s : State} {f status : Nat} (hs : Sound q s) :
    Sound q (writeFails s f status) := by
  delta writeFails
  exact chanEnd_sound (countPiece_sound hs)

theorem pieceWritten_sound {q : List Instr} {s : State} {f n : Nat} (hs : Sound q s) :
    Sound q (pieceWritten s f n) := by
  delta pieceWritten
  exact settleChan_sound (setChan_sound (countPiece_sound hs))

theorem writePiece_sound {q : List Instr} {f : Nat} {r : ReadResult} {s : State} (hs : Sound q s) :
    Sound q (writePiece f r s) := by
  delta writePiece
  extract_lets +onlyGivenNames -merge -useContext -underBinder c_0
  clear_value c_0
  extract_lets +onlyGivenNames -merge -useContext -underBinder d_1
  clear_value d_1
  extract_lets +onlyGivenNames -merge -useContext -underBinder init_2
  clear_value init_2
  extract_lets +onlyGivenNames -merge -useContext -underBinder a_3
  clear_value a_3
  extract_lets +onlyGivenNames -merge -useContext -underBinder n_4
  clear_value n_4
  extract_lets +onlyGivenNames -merge -useContext -underBinder b_5
  clear_value b_5
  refine Sound.ite ?_ ?_
  · exact hs
  · refine Sound.ite ?_ ?_
    · extract_lets +onlyGivenNames -merge -useContext -underBinder l_6
      have hl_6 : Sound q l_6.2 := by
        unfold l_6
        exact linkAccess_sound hs
      clear_value l_6
      refine Sound.ite ?_ ?_
      · exact writeFails_sound hl_6
      · split
        · exact writeFails_sound (linkError_sound hl_6)
        · exact pieceWritten_sound (sentByBent_sound (sendHost_sound hl_6))
    · exact Sound.ite (writeFails_sound (refuseAccess_sound hs)) (Sound.ite (Sound.ite (pieceWritten_sound
        (writeWords_sound hs)) (pieceWritten_sound (setChan_sound (notice_sound hs)))) (Sound.ite
        (pieceWritten_sound (putBytes_sound hs)) (writeFails_sound (refuseAccess_sound hs))))

theorem shuttlePieceEffect_sound {q : List Instr} {f : Nat} {wr : Bool} {r : ReadResult} {s : State} (hs : Sound q
    s) :
    Sound q (shuttlePieceEffect f wr r s) := by
  delta shuttlePieceEffect
  refine Sound.ite ?_ ?_
  · split
    · exact Sound.ite hs (linkError_sound (dstFails_sound hs))
    · exact hs
  · exact Sound.ite hs (Sound.ite (writePiece_sound hs) (readPiece_sound hs))

theorem execShuttlePiece_sound {q : List Instr} {f : Nat} {wr : Bool} {r : ReadResult} {s : State} (hs : Sound q s) :
    OutSound q (execShuttlePiece f wr r s) := by
  delta execShuttlePiece
  exact OutSound.next (shuttlePieceEffect_sound hs)

/-! ### SafeState -/

theorem safeZeroise_sound {q : List Instr} {s : State} (hs : Sound q s) : Sound q (safeZeroise s) := by
  delta safeZeroise
  dsimp only
  apply setFlag_sound
  apply setFlag_sound
  apply childSync_sound
  apply maskSync_sound
  refine Sound.mk (Good.of (answerWaiting_sound ?_))
  apply setFlag_sound
  apply loseVault_sound
  apply zeroiseSram_sound
  exact Sound.mk (Good.of (zeroiseStore_sound hs))

theorem writeOwed_sound {q : List Instr} {x : State × List (Nat × Nat)} {e : Completion} (hx : Sound q x.1) :
    Sound q (writeOwed x e).1 := by
  delta writeOwed
  exact Sound.ite_fst hx (Sound.ite_fst (Sound.pair_fst (countReg_sound hx)) (Sound.pair_fst (setQueue_sound
      (sendHost_sound hx))))

theorem safeQueues_sound {q : List Instr} {s : State} (hs : Sound q s) :
    Sound q (safeQueues s) := by
  delta safeQueues
  exact event_sound (setFlag_sound (Sound.foldl (Sound.mk (Good.of (Sound.foldl (Sound.foldl_fst (Sound.pair_fst hs)
      fun _ _ h_0 => writeOwed_sound h_0) fun _ _ h_1 => raiseMsix_sound h_1))) fun _ _ h_2 => setQueue_sound h_2))

theorem safeStop_sound {q : List Instr} {s : State} (hs : Sound q s) : Sound q (safeStop s) := by
  delta safeStop
  dsimp only
  refine setFlag_sound (setFlag_sound (Sound.mk (Good.posts (Good.of hs) ?_)))
  have h := hs.2.2.1
  unfold Safety.postsWf at h ⊢
  simp only [Bool.and_eq_true] at h ⊢
  refine ⟨trising_map _ h.1, ?_⟩
  rw [List.all_map]
  exact h.2

theorem enterSafe_sound {q : List Instr} {s : State} (hs : Sound q s) :
    Sound q (enterSafe s) := by
  delta enterSafe
  exact Sound.ite (Sound.mk (Good.of hs)) (linkForget_sound (ofcSafe_sound (nvSafe_sound (safeStop_sound
      (safeZeroise_sound (safeQueues_sound (classOneEnd_sound (setFlag_sound (Sound.mk (Good.of hs))))))))))

theorem safeIfDue_sound {q : List Instr} {s : State} (hs : Sound q s) :
    Sound q (safeIfDue s) := by
  delta safeIfDue
  exact Sound.ite (enterSafe_sound hs) hs

theorem execSafeStateEntry_sound {q : List Instr} {s : State} (hs : Sound q s) :
    OutSound q (execSafeStateEntry s) := by
  delta execSafeStateEntry
  exact OutSound.next (Sound.ite hs (safeIfDue_sound hs))

end Sys2Proof.Machine
end

