-- ==== Sys2Proof/Laws/SoundPosts.lean ====
section
/-!
SUPPORT. Soundness (Laws/Sound.lean) is kept by each operation of the posts.
-/
namespace Sys2Proof.Machine
open Sys2Proof

/-! ### Posts -/

theorem clearDepth_sound {q : List Instr} {s : State} {p : Nat} (hs : Sound q s) :
    Sound q (clearDepth s p) := by
  delta clearDepth
  exact Sound.foldl (setFlag_sound (setF_sound hs)) fun _ _ h_0 => setReg_sound h_0

theorem enterVector_sound {q : List Instr} {s : State} {p : Nat} {a : Word} {flags : Nat} {xaddr : Word}
    {code stack : Tenon} {d fp : Nat} (hs : Sound q s) (hc : code.cursor % 4 = 0) :
    Sound q (enterVector s p a flags xaddr code stack d fp) := by
  delta enterVector
  dsimp only
  refine countF_sound (setF_sound (setReg_sound (setF_sound (setReg_sound (setPost_sound (putBytes_sound hs) ?_)))))
  exact postAligned_none (aligned4_ofNat hc) rfl

theorem firePost_sound {q : List Instr} {s : State} {src p detail : Nat} (hs : Sound q s) :
    Sound q (firePost s src p detail) := by
  delta firePost
  exact fireAt_sound hs

theorem stopPost_sound {q : List Instr} {s : State} {p : Nat} (hs : Sound q s) : Sound q (stopPost s p) := by
  have hp : Safety.aligned4 (getPost s p).pc = true := postAligned_pc (getPost_aligned hs)
  delta stopPost
  dsimp only
  refine firePost_sound (event_sound (setFlag_sound (setPost_sound hs ?_)))
  exact postAligned_none hp rfl

theorem escalate_sound {q : List Instr} {s0 : State} {p cause : Nat} {a : Word} {spent : Nat} (hs : Sound q s0) :
    Sound q (escalate s0 p cause a spent) := by
  have hp : Safety.aligned4 (getPost s0 p).pc = true := postAligned_pc (getPost_aligned hs)
  delta escalate
  extract_lets d x0 s w fp s1 c x area y s2 i s3 s4
  have h1 : Sound q s := setPost_sound hs (postAligned_none hp rfl)
  have hw : Sound q w.2 := access_sound h1
  split
  · exact stopPost_sound (Sound.ite h1 hw)
  · rename_i hn
    have hk : x0.kpcode.code = true := by
      revert hn
      cases x0.kpcode.code <;> simp
    have h2 : Sound q s2 :=
      setPost_sound (drawBytes_sound (putBytes_sound hw)) (postAligned_none (aligned4_ofNat (code_cursor hk)) rfl)
    exact firePost_sound (event_sound (countF_sound (countF_sound (setFlag_sound
      (setF_sound (setF_sound (setF_sound h2)))))))

theorem fetchPost_sound {q : List Instr} {s : State} {p : Nat} (hs : Sound q s) :
    Sound q (fetchPost s p).2 := by
  delta fetchPost
  extract_lets +onlyGivenNames -merge -useContext -underBinder x_0
  have hx_0 : Safety.postAligned x_0 = true := by
    unfold x_0
    refine getPost_aligned (q := q) ?_
    exact hs
  clear_value x_0
  extract_lets +onlyGivenNames -merge -useContext -underBinder a_1
  clear_value a_1
  refine Sound.ite_snd ?_ ?_
  · exact Sound.pair_snd hs
  · extract_lets +onlyGivenNames -merge -useContext -underBinder r_2
    have hr_2 : Sound q r_2.2 := by
      unfold r_2
      exact access_sound hs
    clear_value r_2
    extract_lets +onlyGivenNames -merge -useContext -underBinder busy_3
    clear_value busy_3
    refine Sound.ite_snd ?_ ?_
    · exact Sound.pair_snd hr_2
    · refine Sound.pair_snd ?_
      refine setPost_sound ?_ ?_
      · exact hr_2
      · first
          | (with_reducible refine postAligned_dispatch ?_; assumption)
          | exact postAligned_of (getPost_aligned (q := q) (by assumption)) rfl rfl
          | exact postAligned_of (getPost_aligned (q := q) (by assumption)) (afterStores_pc _ _) (afterStores_delay _ _)
          | exact postAligned_of (by assumption) (by simp) (by simp)

theorem retire_sound {q : List Instr} {s : State} {p : Nat} {was : Option Delay} (hs : Sound q s)
    (hw : Safety.delayAligned was = true) : Sound q (retire s p was) := by
  have hp : Safety.aligned4 (getPost s p).pc = true := postAligned_pc (getPost_aligned hs)
  have hd : Safety.delayAligned (getPost s p).delay = true := postAligned_delay (getPost_aligned hs)
  unfold retire
  dsimp only
  split
  · exact setPost_sound hs (postAligned_mk (aligned4_add hp (by decide)) hd)
  · rename_i d
    refine setPost_sound hs (postAligned_none ?_ rfl)
    unfold Safety.delayAligned at hw
    simp only [Bool.and_eq_true] at hw
    cases ht : d.target with
    | none => exact aligned4_add hw.1 (by decide)
    | some t => simpa [ht] using hw.2

theorem takeException_sound {q : List Instr} {s0 : State} {p : Nat} {a : Word} {t : Trap} (hs : Sound q s0) :
    Sound q (takeException s0 p a t) := by
  have hp : Safety.aligned4 (getPost s0 p).pc = true := postAligned_pc (getPost_aligned hs)
  delta takeException
  extract_lets x0 s d desc r code stack w
  have h1 : Sound q s := setPost_sound hs (postAligned_none hp rfl)
  refine Sound.ite (stopPost_sound h1) (Sound.ite (escalate_sound h1) (Sound.ite (escalate_sound (access_sound h1))
      ?_))
  split
  · exact escalate_sound h1
  · rename_i hn
    have hk : code.code = true := by
      revert hn
      cases code.code <;> simp
    exact Sound.ite (escalate_sound (access_sound h1)) (enterVector_sound h1 (code_cursor hk))

theorem runPost_sound {q : List Instr} {p : Nat} {slotOk : Bool} {srcs : List Nat} {body : State → Ran} {s0 : State}
    (hbody : ∀ y0, Sound q y0 → RanSound q (body y0)) (hs : Sound q s0) : Sound q (runPost p slotOk srcs body s0) :=
        by
  delta runPost
  extract_lets was pc back f x s
  have hf : Sound q f.2 := fetchPost_sound hs
  have hw : Safety.delayAligned was = true := postAligned_delay (getPost_aligned hs (p := p))
  have h1 : Sound q s := setPost_sound hf (postAligned_of (getPost_aligned hf (p := p)) rfl rfl)
  refine Sound.ite hs ?_
  split
  · exact takeException_sound hf
  · refine Sound.ite (takeException_sound h1) ?_
    split
    · rename_i e
      exact retire_sound (RanSound.of_on e (hbody _ h1)) hw
    · rename_i e
      exact RanSound.of_jump e (hbody _ h1)
    · rename_i e
      exact takeException_sound (RanSound.of_trap e (hbody _ h1))

theorem sealedReturn_sound {q : List Instr} {s : State} {p tn d : Nat} (hs : Sound q s) :
    Sound q (sealedReturn s p tn d) := by
  have hd : Safety.delayAligned (getPost s p).delay = true := postAligned_delay (getPost_aligned hs)
  delta sealedReturn
  dsimp only
  refine Sound.ite (setF_sound (setReg_sound (setPost_sound hs ?_))) (escalate_sound hs)
  exact postAligned_mk (aligned4_alignPc _) hd

/-! ### PostAlu -/

theorem accBody_sound {q : List Instr} {p : Nat} {v : Post → BitVec 96} {s : State} (hs : Sound q s) :
    RanSound q (accBody p v s) := by
  delta accBody
  extract_lets +onlyGivenNames -merge -useContext -underBinder x_0
  have hx_0 : Safety.postAligned x_0 = true := by
    unfold x_0
    refine getPost_aligned (q := q) ?_
    exact hs
  clear_value x_0
  refine RanSound.on ?_
  refine setPost_sound ?_ ?_
  · exact hs
  · first
      | (with_reducible refine postAligned_dispatch ?_; assumption)
      | exact postAligned_of (getPost_aligned (q := q) (by assumption)) rfl rfl
      | exact postAligned_of (getPost_aligned (q := q) (by assumption)) (afterStores_pc _ _) (afterStores_delay _ _)
      | exact postAligned_of (by assumption) (by simp) (by simp)

theorem aluBody_sound {q : List Instr} {p rd lat : Nat} {v : Post → Word} {s : State} (hs : Sound q s) :
    RanSound q (aluBody p rd lat v s) := by
  delta aluBody
  extract_lets +onlyGivenNames -merge -useContext -underBinder x_0
  have hx_0 : Safety.postAligned x_0 = true := by
    unfold x_0
    refine getPost_aligned (q := q) ?_
    exact hs
  clear_value x_0
  refine RanSound.on ?_
  refine setPost_sound ?_ ?_
  · exact hs
  · first
      | (with_reducible refine postAligned_dispatch ?_; assumption)
      | exact postAligned_of (getPost_aligned (q := q) (by assumption)) rfl rfl
      | exact postAligned_of (getPost_aligned (q := q) (by assumption)) (afterStores_pc _ _) (afterStores_delay _ _)
      | exact postAligned_of (by assumption) (by simp) (by simp)

theorem accrdBody_sound {q : List Instr} {p rd k : Nat} {s : State} (hs : Sound q s) :
    RanSound q (accrdBody p rd k s) := by
  delta accrdBody
  exact RanSound.ite (RanSound.trap hs) (aluBody_sound hs)

theorem accshBody_sound {q : List Instr} {p rd : Nat} {s : State} (hs : Sound q s) :
    RanSound q (accshBody p rd s) := by
  delta accshBody
  extract_lets +onlyGivenNames -merge -useContext -underBinder x_0
  have hx_0 : Safety.postAligned x_0 = true := by
    unfold x_0
    refine getPost_aligned (q := q) ?_
    exact hs
  clear_value x_0
  extract_lets +onlyGivenNames -merge -useContext -underBinder _1
  have h_1 : Safety.postAligned _1 = true := by
    unfold _1
    first
      | exact postAligned_cleared (getPost_aligned (q := q) (by assumption))
      | (split <;> first | assumption | exact postAligned_of (by assumption) rfl rfl)
      | exact postAligned_of (by assumption) (by simp) (by simp)
  clear_value _1
  extract_lets +onlyGivenNames -merge -useContext -underBinder y_2
  have hy_2 : Safety.postAligned y_2 = true := by
    unfold y_2
    first
      | exact postAligned_cleared (getPost_aligned (q := q) (by assumption))
      | (split <;> first | assumption | exact postAligned_of (by assumption) rfl rfl)
      | exact postAligned_of (by assumption) (by simp) (by simp)
  clear_value y_2
  refine RanSound.on ?_
  refine setPost_sound ?_ ?_
  · exact hs
  · first
      | (with_reducible refine postAligned_dispatch ?_; assumption)
      | exact postAligned_of (getPost_aligned (q := q) (by assumption)) rfl rfl
      | exact postAligned_of (getPost_aligned (q := q) (by assumption)) (afterStores_pc _ _) (afterStores_delay _ _)
      | exact postAligned_of (by assumption) (by simp) (by simp)

theorem accwrBody_sound {q : List Instr} {p rs1 k : Nat} {s : State} (hs : Sound q s) :
    RanSound q (accwrBody p rs1 k s) := by
  delta accwrBody
  exact RanSound.ite (RanSound.trap hs) (accBody_sound hs)

theorem chainBody_sound {q : List Instr} {p rd rs1 rs2 : Nat} {start : Bool} {f : Word → Word → Bool → Word × Bool}
    {s : State} (hs : Sound q s) :
    RanSound q (chainBody p rd rs1 rs2 start f s) := by
  delta chainBody
  extract_lets +onlyGivenNames -merge -useContext -underBinder x_0
  have hx_0 : Safety.postAligned x_0 = true := by
    unfold x_0
    refine getPost_aligned (q := q) ?_
    exact hs
  clear_value x_0
  extract_lets +onlyGivenNames -merge -useContext -underBinder r_1
  clear_value r_1
  refine RanSound.on ?_
  refine setPost_sound ?_ ?_
  · exact hs
  · first
      | (with_reducible refine postAligned_dispatch ?_; assumption)
      | exact postAligned_of (getPost_aligned (q := q) (by assumption)) rfl rfl
      | exact postAligned_of (getPost_aligned (q := q) (by assumption)) (afterStores_pc _ _) (afterStores_delay _ _)
      | exact postAligned_of (by assumption) (by simp) (by simp)

theorem execAccrd_sound {q : List Instr} {post rd k : Nat} {s : State} (hs : Sound q s) :
    OutSound q (execAccrd post rd k s) := by
  delta execAccrd
  exact OutSound.next (runPost_sound (fun _ h_0 => accrdBody_sound h_0) hs)

theorem execAccsh_sound {q : List Instr} {post rd : Nat} {s : State} (hs : Sound q s) :
    OutSound q (execAccsh post rd s) := by
  delta execAccsh
  exact OutSound.next (runPost_sound (fun _ h_0 => accshBody_sound h_0) hs)

theorem execAccwr_sound {q : List Instr} {post rs1 k : Nat} {s : State} (hs : Sound q s) :
    OutSound q (execAccwr post rs1 k s) := by
  delta execAccwr
  exact OutSound.next (runPost_sound (fun _ h_0 => accwrBody_sound h_0) hs)

theorem execAccz_sound {q : List Instr} {post : Nat} {s : State} (hs : Sound q s) :
    OutSound q (execAccz post s) := by
  delta execAccz
  exact OutSound.next (runPost_sound (fun _ h_0 => accBody_sound h_0) hs)

theorem regOp_sound {q : List Instr} {p rd rs1 rs2 lat : Nat} {f : Word → Word → Word} {s : State} (hs : Sound q s) :
    Sound q (regOp p rd rs1 rs2 lat f s) := by
  delta regOp
  exact runPost_sound (fun _ h_0 => aluBody_sound h_0) hs

theorem execAdd_sound {q : List Instr} {post rd rs1 rs2 : Nat} {s : State} (hs : Sound q s) :
    OutSound q (execAdd post rd rs1 rs2 s) := by
  delta execAdd
  exact OutSound.next (regOp_sound hs)

theorem execAddc_sound {q : List Instr} {post rd rs1 rs2 : Nat} {start : Bool} {s : State} (hs : Sound q s) :
    OutSound q (execAddc post rd rs1 rs2 start s) := by
  delta execAddc
  exact OutSound.next (runPost_sound (fun _ h_0 => chainBody_sound h_0) hs)

theorem immOp_sound {q : List Instr} {p rd rs1 : Nat} {f : Word → Word} {s : State} (hs : Sound q s) :
    Sound q (immOp p rd rs1 f s) := by
  delta immOp
  exact runPost_sound (fun _ h_0 => aluBody_sound h_0) hs

theorem execAddi_sound {q : List Instr} {post rd rs1 imm : Nat} {s : State} (hs : Sound q s) :
    OutSound q (execAddi post rd rs1 imm s) := by
  delta execAddi
  exact OutSound.next (immOp_sound hs)

theorem execAnd_sound {q : List Instr} {post rd rs1 rs2 : Nat} {s : State} (hs : Sound q s) :
    OutSound q (execAnd post rd rs1 rs2 s) := by
  delta execAnd
  exact OutSound.next (regOp_sound hs)

theorem execAndi_sound {q : List Instr} {post rd rs1 imm : Nat} {s : State} (hs : Sound q s) :
    OutSound q (execAndi post rd rs1 imm s) := by
  delta execAndi
  exact OutSound.next (immOp_sound hs)

theorem execLui_sound {q : List Instr} {post rd imm : Nat} {s : State} (hs : Sound q s) :
    OutSound q (execLui post rd imm s) := by
  delta execLui
  exact OutSound.next (runPost_sound (fun _ h_0 => aluBody_sound h_0) hs)

theorem macBody_sound {q : List Instr} {p rs1 rs2 : Nat} {s : State} (hs : Sound q s) :
    RanSound q (macBody p rs1 rs2 s) := by
  delta macBody
  extract_lets +onlyGivenNames -merge -useContext -underBinder x_0
  have hx_0 : Safety.postAligned x_0 = true := by
    unfold x_0
    refine getPost_aligned (q := q) ?_
    exact hs
  clear_value x_0
  refine RanSound.on ?_
  refine setPost_sound ?_ ?_
  · exact hs
  · first
      | (with_reducible refine postAligned_dispatch ?_; assumption)
      | exact postAligned_of (getPost_aligned (q := q) (by assumption)) rfl rfl
      | exact postAligned_of (getPost_aligned (q := q) (by assumption)) (afterStores_pc _ _) (afterStores_delay _ _)
      | exact postAligned_of (by assumption) (by simp) (by simp)

theorem execMac_sound {q : List Instr} {post rs1 rs2 : Nat} {s : State} (hs : Sound q s) :
    OutSound q (execMac post rs1 rs2 s) := by
  delta execMac
  exact OutSound.next (runPost_sound (fun _ h_0 => macBody_sound h_0) hs)

theorem execMul_sound {q : List Instr} {post rd rs1 rs2 : Nat} {s : State} (hs : Sound q s) :
    OutSound q (execMul post rd rs1 rs2 s) := by
  delta execMul
  exact OutSound.next (regOp_sound hs)

theorem execMulh_sound {q : List Instr} {post rd rs1 rs2 : Nat} {s : State} (hs : Sound q s) :
    OutSound q (execMulh post rd rs1 rs2 s) := by
  delta execMulh
  exact OutSound.next (regOp_sound hs)

theorem execMulhu_sound {q : List Instr} {post rd rs1 rs2 : Nat} {s : State} (hs : Sound q s) :
    OutSound q (execMulhu post rd rs1 rs2 s) := by
  delta execMulhu
  exact OutSound.next (regOp_sound hs)

theorem execOr_sound {q : List Instr} {post rd rs1 rs2 : Nat} {s : State} (hs : Sound q s) :
    OutSound q (execOr post rd rs1 rs2 s) := by
  delta execOr
  exact OutSound.next (regOp_sound hs)

theorem execOri_sound {q : List Instr} {post rd rs1 imm : Nat} {s : State} (hs : Sound q s) :
    OutSound q (execOri post rd rs1 imm s) := by
  delta execOri
  exact OutSound.next (immOp_sound hs)

theorem execSelz_sound {q : List Instr} {post rd rs1 rs2 : Nat} {s : State} (hs : Sound q s) :
    OutSound q (execSelz post rd rs1 rs2 s) := by
  delta execSelz
  exact OutSound.next (runPost_sound (fun _ h_0 => aluBody_sound h_0) hs)

theorem execSll_sound {q : List Instr} {post rd rs1 rs2 : Nat} {s : State} (hs : Sound q s) :
    OutSound q (execSll post rd rs1 rs2 s) := by
  delta execSll
  exact OutSound.next (regOp_sound hs)

theorem execSlli_sound {q : List Instr} {post rd rs1 sh : Nat} {s : State} (hs : Sound q s) :
    OutSound q (execSlli post rd rs1 sh s) := by
  delta execSlli
  exact OutSound.next (immOp_sound hs)

theorem execSlt_sound {q : List Instr} {post rd rs1 rs2 : Nat} {s : State} (hs : Sound q s) :
    OutSound q (execSlt post rd rs1 rs2 s) := by
  delta execSlt
  exact OutSound.next (regOp_sound hs)

theorem execSlti_sound {q : List Instr} {post rd rs1 imm : Nat} {s : State} (hs : Sound q s) :
    OutSound q (execSlti post rd rs1 imm s) := by
  delta execSlti
  exact OutSound.next (immOp_sound hs)

theorem execSltiu_sound {q : List Instr} {post rd rs1 imm : Nat} {s : State} (hs : Sound q s) :
    OutSound q (execSltiu post rd rs1 imm s) := by
  delta execSltiu
  exact OutSound.next (immOp_sound hs)

theorem execSltu_sound {q : List Instr} {post rd rs1 rs2 : Nat} {s : State} (hs : Sound q s) :
    OutSound q (execSltu post rd rs1 rs2 s) := by
  delta execSltu
  exact OutSound.next (regOp_sound hs)

theorem execSra_sound {q : List Instr} {post rd rs1 rs2 : Nat} {s : State} (hs : Sound q s) :
    OutSound q (execSra post rd rs1 rs2 s) := by
  delta execSra
  exact OutSound.next (regOp_sound hs)

theorem execSrai_sound {q : List Instr} {post rd rs1 sh : Nat} {s : State} (hs : Sound q s) :
    OutSound q (execSrai post rd rs1 sh s) := by
  delta execSrai
  exact OutSound.next (immOp_sound hs)

theorem execSrl_sound {q : List Instr} {post rd rs1 rs2 : Nat} {s : State} (hs : Sound q s) :
    OutSound q (execSrl post rd rs1 rs2 s) := by
  delta execSrl
  exact OutSound.next (regOp_sound hs)

theorem execSrli_sound {q : List Instr} {post rd rs1 sh : Nat} {s : State} (hs : Sound q s) :
    OutSound q (execSrli post rd rs1 sh s) := by
  delta execSrli
  exact OutSound.next (immOp_sound hs)

theorem execSub_sound {q : List Instr} {post rd rs1 rs2 : Nat} {s : State} (hs : Sound q s) :
    OutSound q (execSub post rd rs1 rs2 s) := by
  delta execSub
  exact OutSound.next (regOp_sound hs)

theorem execSubb_sound {q : List Instr} {post rd rs1 rs2 : Nat} {start : Bool} {s : State} (hs : Sound q s) :
    OutSound q (execSubb post rd rs1 rs2 start s) := by
  delta execSubb
  exact OutSound.next (runPost_sound (fun _ h_0 => chainBody_sound h_0) hs)

theorem execXor_sound {q : List Instr} {post rd rs1 rs2 : Nat} {s : State} (hs : Sound q s) :
    OutSound q (execXor post rd rs1 rs2 s) := by
  delta execXor
  exact OutSound.next (regOp_sound hs)

theorem execXori_sound {q : List Instr} {post rd rs1 imm : Nat} {s : State} (hs : Sound q s) :
    OutSound q (execXori post rd rs1 imm s) := by
  delta execXori
  exact OutSound.next (immOp_sound hs)

/-! ### PostMem -/

theorem dmacTrap_sound {q : List Instr} {p tn x1 : Nat} {s : State} (hs : Sound q s) :
    Sound q (dmacTrap p tn x1 s).2 := by
  delta dmacTrap
  split
  · exact Sound.pair_snd hs
  · exact Sound.ite_snd (Sound.pair_snd (access_sound hs)) (Sound.pair_snd (access_sound hs))

theorem dmacBody_sound {q : List Instr} {p tn ra rb : Nat} {sa sb : Bool} {s : State} (hs : Sound q s) :
    RanSound q (dmacBody p tn ra rb sa sb s) := by
  delta dmacBody
  extract_lets +onlyGivenNames -merge -useContext -underBinder x_0
  have hx_0 : Safety.postAligned x_0 = true := by
    unfold x_0
    refine getPost_aligned (q := q) ?_
    exact hs
  clear_value x_0
  extract_lets +onlyGivenNames -merge -useContext -underBinder a_1
  clear_value a_1
  extract_lets +onlyGivenNames -merge -useContext -underBinder b_2
  clear_value b_2
  refine RanSound.ite ?_ ?_
  · exact RanSound.trap hs
  · refine RanSound.ite ?_ ?_
    · exact RanSound.trap hs
    · extract_lets +onlyGivenNames -merge -useContext -underBinder s1_3
      have hs1_3 : Sound q s1_3 := by
        unfold s1_3
        exact drainPosted_sound hs
      clear_value s1_3
      extract_lets +onlyGivenNames -merge -useContext -underBinder ta_4
      have hta_4 : Sound q ta_4.2 := by
        unfold ta_4
        exact dmacTrap_sound hs1_3
      clear_value ta_4
      split
      · exact RanSound.trap hta_4
      · extract_lets +onlyGivenNames -merge -useContext -underBinder tb_5
        have htb_5 : Sound q tb_5.2 := by
          unfold tb_5
          exact dmacTrap_sound hta_4
        clear_value tb_5
        split
        · exact RanSound.trap htb_5
        · extract_lets +onlyGivenNames -merge -useContext -underBinder va_6
          clear_value va_6
          extract_lets +onlyGivenNames -merge -useContext -underBinder vb_7
          clear_value vb_7
          extract_lets +onlyGivenNames -merge -useContext -underBinder y_8
          have hy_8 : Safety.postAligned y_8 = true := by
            unfold y_8
            refine getPost_aligned (q := q) ?_
            exact htb_5
          clear_value y_8
          extract_lets +onlyGivenNames -merge -useContext -underBinder y1_9
          have hy1_9 : Safety.postAligned y1_9 = true := by
            unfold y1_9
            first
              | exact postAligned_cleared (getPost_aligned (q := q) (by assumption))
              | (split <;> first | assumption | exact postAligned_of (by assumption) rfl rfl)
              | exact postAligned_of (by assumption) (by simp) (by simp)
          clear_value y1_9
          refine RanSound.on ?_
          refine setPost_sound ?_ ?_
          · exact htb_5
          · first
              | (with_reducible refine postAligned_dispatch ?_; assumption)
              | exact postAligned_of (getPost_aligned (q := q) (by assumption)) rfl rfl
              | exact postAligned_of (getPost_aligned (q := q) (by assumption)) (afterStores_pc _ _) (afterStores_delay _ _)
              | exact postAligned_of (by assumption) (by simp) (by simp)

theorem execDmac_sound {q : List Instr} {post tn ra rb : Nat} {sa sb : Bool} {s : State} (hs : Sound q s) :
    OutSound q (execDmac post tn ra rb sa sb s) := by
  delta execDmac
  exact OutSound.next (runPost_sound (fun _ h_0 => dmacBody_sound h_0) hs)

theorem loadAt_sound {q : List Instr} {p tn x1 w : Nat} {s0 : State} (hs0 : Sound q s0) :
    LoadSound q (loadAt p tn x1 w s0) := by
  delta loadAt
  split
  · exact LoadSound.trap hs0
  · extract_lets +onlyGivenNames -merge -useContext -underBinder g_0
    clear_value g_0
    extract_lets +onlyGivenNames -merge -useContext -underBinder s_1
    have hs_1 : Sound q s_1 := by
      unfold s_1
      refine setPost_sound ?_ ?_
      · exact hs0
      · first
          | (with_reducible refine postAligned_dispatch ?_; assumption)
          | exact postAligned_of (getPost_aligned (q := q) (by assumption)) rfl rfl
          | exact postAligned_of (getPost_aligned (q := q) (by assumption)) (afterStores_pc _ _) (afterStores_delay _ _)
          | exact postAligned_of (by assumption) (by simp) (by simp)
    clear_value s_1
    extract_lets +onlyGivenNames -merge -useContext -underBinder r_2
    have hr_2 : Sound q r_2.2 := by
      unfold r_2
      exact busRead_sound hs_1
    clear_value r_2
    refine LoadSound.ite ?_ ?_
    · exact LoadSound.held hs_1
    · split
      · refine LoadSound.got ?_
        refine setPost_sound ?_ ?_
        · exact hr_2
        · first
            | (with_reducible refine postAligned_dispatch ?_; assumption)
            | exact postAligned_of (getPost_aligned (q := q) (by assumption)) rfl rfl
            | exact postAligned_of (getPost_aligned (q := q) (by assumption)) (afterStores_pc _ _) (afterStores_delay _ _)
            | exact postAligned_of (by assumption) (by simp) (by simp)
      · extract_lets +onlyGivenNames -merge -useContext -underBinder s1_3
        have hs1_3 : Sound q s1_3 := by
          unfold s1_3
          exact setReg_sound hr_2
        clear_value s1_3
        refine LoadSound.got ?_
        refine setPost_sound ?_ ?_
        · exact hs1_3
        · first
            | (with_reducible refine postAligned_dispatch ?_; assumption)
            | exact postAligned_of (getPost_aligned (q := q) (by assumption)) rfl rfl
            | exact postAligned_of (getPost_aligned (q := q) (by assumption)) (afterStores_pc _ _) (afterStores_delay _ _)
            | exact postAligned_of (by assumption) (by simp) (by simp)
      · exact LoadSound.trap hr_2

theorem loadInto_sound {q : List Instr} {p rd x1 c : Nat} {w : Word} {s : State} (hs : Sound q s) :
    RanSound q (loadInto p rd x1 c w s) := by
  delta loadInto
  extract_lets +onlyGivenNames -merge -useContext -underBinder x_0
  have hx_0 : Safety.postAligned x_0 = true := by
    unfold x_0
    refine getPost_aligned (q := q) ?_
    exact hs
  clear_value x_0
  extract_lets +onlyGivenNames -merge -useContext -underBinder late_1
  clear_value late_1
  refine RanSound.on ?_
  refine setPost_sound ?_ ?_
  · exact hs
  · first
      | (with_reducible refine postAligned_dispatch ?_; assumption)
      | exact postAligned_of (getPost_aligned (q := q) (by assumption)) rfl rfl
      | exact postAligned_of (getPost_aligned (q := q) (by assumption)) (afterStores_pc _ _) (afterStores_delay _ _)
      | exact postAligned_of (by assumption) (by simp) (by simp)

theorem loadBody_sound {q : List Instr} {p rd rs1 tn w : Nat} {off : Int} {ext : Nat → Word} {s : State} (hs : Sound
    q s) :
    RanSound q (loadBody p rd rs1 tn w off ext s) := by
  delta loadBody
  extract_lets +onlyGivenNames -merge -useContext -underBinder a_0
  clear_value a_0
  split
  · have : Sound q _ := LoadSound.of_got (by assumption) (by
      exact loadAt_sound hs)
    refine loadInto_sound ?_
    assumption
  · have : Sound q _ := LoadSound.of_held (by assumption) (by
      exact loadAt_sound hs)
    extract_lets +onlyGivenNames -merge -useContext -underBinder _1
    clear_value _1
    extract_lets +onlyGivenNames -merge -useContext -underBinder s2_2
    have hs2_2 : Sound q s2_2 := by
      unfold s2_2
      refine setRng_sound ?_
      assumption
    clear_value s2_2
    refine RanSound.on ?_
    refine setPost_sound ?_ ?_
    · exact hs2_2
    · first
        | (with_reducible refine postAligned_dispatch ?_; assumption)
        | exact postAligned_of (getPost_aligned (q := q) (by assumption)) rfl rfl
        | exact postAligned_of (getPost_aligned (q := q) (by assumption)) (afterStores_pc _ _) (afterStores_delay _ _)
        | exact postAligned_of (by assumption) (by simp) (by simp)
  · have : Sound q _ := LoadSound.of_trap (by assumption) (by
      exact loadAt_sound hs)
    refine RanSound.trap ?_
    assumption

theorem execLb_sound {q : List Instr} {post rd rs1 tn : Nat} {off : Int} {s : State} (hs : Sound q s) :
    OutSound q (execLb post rd rs1 tn off s) := by
  delta execLb
  exact OutSound.next (runPost_sound (fun _ h_0 => loadBody_sound h_0) hs)

theorem execLbu_sound {q : List Instr} {post rd rs1 tn : Nat} {off : Int} {s : State} (hs : Sound q s) :
    OutSound q (execLbu post rd rs1 tn off s) := by
  delta execLbu
  exact OutSound.next (runPost_sound (fun _ h_0 => loadBody_sound h_0) hs)

theorem execLh_sound {q : List Instr} {post rd rs1 tn : Nat} {off : Int} {s : State} (hs : Sound q s) :
    OutSound q (execLh post rd rs1 tn off s) := by
  delta execLh
  exact OutSound.next (runPost_sound (fun _ h_0 => loadBody_sound h_0) hs)

theorem execLhu_sound {q : List Instr} {post rd rs1 tn : Nat} {off : Int} {s : State} (hs : Sound q s) :
    OutSound q (execLhu post rd rs1 tn off s) := by
  delta execLhu
  exact OutSound.next (runPost_sound (fun _ h_0 => loadBody_sound h_0) hs)

theorem execLw_sound {q : List Instr} {post rd rs1 tn : Nat} {off : Int} {s : State} (hs : Sound q s) :
    OutSound q (execLw post rd rs1 tn off s) := by
  delta execLw
  exact OutSound.next (runPost_sound (fun _ h_0 => loadBody_sound h_0) hs)

theorem slotWrite_sound {q : List Instr} {s : State} {x1 : Nat} {kp : Bool} {t : Tenon} (hs : Sound q s) :
    Sound q (slotWrite s x1 kp t) := by
  delta slotWrite
  extract_lets +onlyGivenNames -merge -useContext -underBinder x_0
  have hx_0 : Safety.postAligned x_0 = true := by
    unfold x_0
    refine getPost_aligned (q := q) ?_
    exact hs
  clear_value x_0
  refine Sound.ite ?_ ?_
  · refine Sound.ite ?_ ?_
    · exact hs
    · refine setPost_sound ?_ ?_
      · exact hs
      · first
          | (with_reducible refine postAligned_dispatch ?_; assumption)
          | exact postAligned_of (getPost_aligned (q := q) (by assumption)) rfl rfl
          | exact postAligned_of (getPost_aligned (q := q) (by assumption)) (afterStores_pc _ _) (afterStores_delay _ _)
          | exact postAligned_of (by assumption) (by simp) (by simp)
  · refine Sound.ite ?_ ?_
    · exact hs
    · refine setPost_sound ?_ ?_
      · exact hs
      · first
          | (with_reducible refine postAligned_dispatch ?_; assumption)
          | exact postAligned_of (getPost_aligned (q := q) (by assumption)) rfl rfl
          | exact postAligned_of (getPost_aligned (q := q) (by assumption)) (afterStores_pc _ _) (afterStores_delay _ _)
          | exact postAligned_of (by assumption) (by simp) (by simp)

theorem postStore_sound {q : List Instr} {s : State} {p x1 : Nat} {b : Bytes} (hs : Sound q s) :
    Sound q (postStore s p x1 b) := by
  delta postStore
  extract_lets +onlyGivenNames -merge -useContext -underBinder _0
  clear_value _0
  extract_lets +onlyGivenNames -merge -useContext -underBinder s1_1
  have hs1_1 : Sound q s1_1 := by
    unfold s1_1
    exact setGates_sound hs
  clear_value s1_1
  extract_lets +onlyGivenNames -merge -useContext -underBinder x_2
  have hx_2 : Safety.postAligned x_2 = true := by
    unfold x_2
    refine getPost_aligned (q := q) ?_
    exact hs1_1
  clear_value x_2
  refine setPost_sound ?_ ?_
  · exact hs1_1
  · first
      | (with_reducible refine postAligned_dispatch ?_; assumption)
      | exact postAligned_of (getPost_aligned (q := q) (by assumption)) rfl rfl
      | exact postAligned_of (getPost_aligned (q := q) (by assumption)) (afterStores_pc _ _) (afterStores_delay _ _)
      | exact postAligned_of (by assumption) (by simp) (by simp)

theorem storeAt_sound {q : List Instr} {p tn x1 : Nat} {b : Bytes} {tag : Bool} {src : Tenon} {s : State} (hs :
    Sound q s) :
    RanSound q (storeAt p tn x1 b tag src s) := by
  delta storeAt
  split
  · exact RanSound.trap hs
  · extract_lets +onlyGivenNames -merge -useContext -underBinder g_0
    clear_value g_0
    refine RanSound.ite ?_ ?_
    · extract_lets +onlyGivenNames -merge -useContext -underBinder r_1
      have hr_1 : Sound q r_1.2 := by
        unfold r_1
        exact access_sound hs
      clear_value r_1
      refine RanSound.ite ?_ ?_
      · extract_lets +onlyGivenNames -merge -useContext -underBinder s1_2
        have hs1_2 : Sound q s1_2 := by
          unfold s1_2
          exact putBytes_sound hr_1
        clear_value s1_2
        extract_lets +onlyGivenNames -merge -useContext -underBinder s2_3
        have hs2_3 : Sound q s2_3 := by
          unfold s2_3
          exact Sound.ite (Sound.mk (Good.of hs1_2)) hs1_2
        clear_value s2_3
        refine RanSound.on ?_
        refine setPost_sound ?_ ?_
        · exact hs2_3
        · first
            | (with_reducible refine postAligned_dispatch ?_; assumption)
            | exact postAligned_of (getPost_aligned (q := q) (by assumption)) rfl rfl
            | exact postAligned_of (getPost_aligned (q := q) (by assumption)) (afterStores_pc _ _) (afterStores_delay _ _)
            | exact postAligned_of (by assumption) (by simp) (by simp)
      · exact RanSound.trap hr_1
    · split
      · refine RanSound.ite ?_ ?_
        · extract_lets +onlyGivenNames -merge -useContext -underBinder s0_4
          have hs0_4 : Sound q s0_4 := by
            unfold s0_4
            exact drainPosted_sound hs
          clear_value s0_4
          extract_lets +onlyGivenNames -merge -useContext -underBinder r_5
          clear_value r_5
          extract_lets +onlyGivenNames -merge -useContext -underBinder s1_6
          have hs1_6 : Sound q s1_6 := by
            unfold s1_6
            exact Sound.ite (slotWrite_sound hs0_4) (notice_sound hs0_4)
          clear_value s1_6
          extract_lets +onlyGivenNames -merge -useContext -underBinder x_7
          have hx_7 : Safety.postAligned x_7 = true := by
            unfold x_7
            refine getPost_aligned (q := q) ?_
            exact hs1_6
          clear_value x_7
          refine RanSound.on ?_
          refine setPost_sound ?_ ?_
          · exact hs1_6
          · first
              | (with_reducible refine postAligned_dispatch ?_; assumption)
              | exact postAligned_of (getPost_aligned (q := q) (by assumption)) rfl rfl
              | exact postAligned_of (getPost_aligned (q := q) (by assumption)) (afterStores_pc _ _) (afterStores_delay _ _)
              | exact postAligned_of (by assumption) (by simp) (by simp)
        · extract_lets +onlyGivenNames -merge -useContext -underBinder s1_8
          have hs1_8 : Sound q s1_8 := by
            unfold s1_8
            exact postStore_sound hs
          clear_value s1_8
          refine RanSound.on ?_
          refine setPost_sound ?_ ?_
          · exact hs1_8
          · first
              | (with_reducible refine postAligned_dispatch ?_; assumption)
              | exact postAligned_of (getPost_aligned (q := q) (by assumption)) rfl rfl
              | exact postAligned_of (getPost_aligned (q := q) (by assumption)) (afterStores_pc _ _) (afterStores_delay _ _)
              | exact postAligned_of (by assumption) (by simp) (by simp)
      · extract_lets +onlyGivenNames -merge -useContext -underBinder s1_9
        have hs1_9 : Sound q s1_9 := by
          unfold s1_9
          exact Sound.ite (postStore_sound hs) (access_sound hs)
        clear_value s1_9
        refine RanSound.on ?_
        refine setPost_sound ?_ ?_
        · exact hs1_9
        · first
            | (with_reducible refine postAligned_dispatch ?_; assumption)
            | exact postAligned_of (getPost_aligned (q := q) (by assumption)) rfl rfl
            | exact postAligned_of (getPost_aligned (q := q) (by assumption)) (afterStores_pc _ _) (afterStores_delay _ _)
            | exact postAligned_of (by assumption) (by simp) (by simp)

theorem storeBody_sound {q : List Instr} {p rs2 rs1 tn w : Nat} {off : Int} {s : State} (hs : Sound q s) :
    RanSound q (storeBody p rs2 rs1 tn w off s) := by
  delta storeBody
  extract_lets +onlyGivenNames -merge -useContext -underBinder x_0
  have hx_0 : Safety.postAligned x_0 = true := by
    unfold x_0
    refine getPost_aligned (q := q) ?_
    exact hs
  clear_value x_0
  exact storeAt_sound hs

theorem execSb_sound {q : List Instr} {post rs2 rs1 tn : Nat} {off : Int} {s : State} (hs : Sound q s) :
    OutSound q (execSb post rs2 rs1 tn off s) := by
  delta execSb
  exact OutSound.next (runPost_sound (fun _ h_0 => storeBody_sound h_0) hs)

theorem execSh_sound {q : List Instr} {post rs2 rs1 tn : Nat} {off : Int} {s : State} (hs : Sound q s) :
    OutSound q (execSh post rs2 rs1 tn off s) := by
  delta execSh
  exact OutSound.next (runPost_sound (fun _ h_0 => storeBody_sound h_0) hs)

theorem execSw_sound {q : List Instr} {post rs2 rs1 tn : Nat} {off : Int} {s : State} (hs : Sound q s) :
    OutSound q (execSw post rs2 rs1 tn off s) := by
  delta execSw
  exact OutSound.next (runPost_sound (fun _ h_0 => storeBody_sound h_0) hs)

theorem tldBody_sound {q : List Instr} {p td rs1 tn : Nat} {off : Int} {s : State} (hs : Sound q s) :
    RanSound q (tldBody p td rs1 tn off s) := by
  delta tldBody
  extract_lets +onlyGivenNames -merge -useContext -underBinder x_0
  have hx_0 : Safety.postAligned x_0 = true := by
    unfold x_0
    refine getPost_aligned (q := q) ?_
    exact hs
  clear_value x_0
  extract_lets +onlyGivenNames -merge -useContext -underBinder a_1
  clear_value a_1
  extract_lets +onlyGivenNames -merge -useContext -underBinder tag_2
  clear_value tag_2
  split
  · have : Sound q _ := LoadSound.of_got (by assumption) (by
      exact loadAt_sound hs)
    refine RanSound.on ?_
    refine setPost_sound ?_ ?_
    · assumption
    · first
        | (with_reducible refine postAligned_dispatch ?_; assumption)
        | exact postAligned_of (getPost_aligned (q := q) (by assumption)) rfl rfl
        | exact postAligned_of (getPost_aligned (q := q) (by assumption)) (afterStores_pc _ _) (afterStores_delay _ _)
        | exact postAligned_of (by assumption) (by simp) (by simp)
  · have : Sound q _ := LoadSound.of_held (by assumption) (by
      exact loadAt_sound hs)
    refine RanSound.on ?_
    assumption
  · have : Sound q _ := LoadSound.of_trap (by assumption) (by
      exact loadAt_sound hs)
    refine RanSound.trap ?_
    assumption

theorem execTld_sound {q : List Instr} {post td rs1 tn : Nat} {off : Int} {s : State} (hs : Sound q s) :
    OutSound q (execTld post td rs1 tn off s) := by
  delta execTld
  exact OutSound.next (runPost_sound (fun _ h_0 => tldBody_sound h_0) hs)

theorem tstBody_sound {q : List Instr} {p ts rs1 tn : Nat} {off : Int} {s : State} (hs : Sound q s) :
    RanSound q (tstBody p ts rs1 tn off s) := by
  delta tstBody
  extract_lets +onlyGivenNames -merge -useContext -underBinder x_0
  have hx_0 : Safety.postAligned x_0 = true := by
    unfold x_0
    refine getPost_aligned (q := q) ?_
    exact hs
  clear_value x_0
  exact storeAt_sound hs

theorem execTst_sound {q : List Instr} {post ts rs1 tn : Nat} {off : Int} {s : State} (hs : Sound q s) :
    OutSound q (execTst post ts rs1 tn off s) := by
  delta execTst
  exact OutSound.next (runPost_sound (fun _ h_0 => tstBody_sound h_0) hs)

/-! ### PostFlow -/

theorem delayed_sound {q : List Instr} {p : Nat} {target push : Option Word} {pop : Bool} {s : State} (hs : Sound q s)
    (ht : Safety.aligned4 (target.getD 0#32) = true) : RanSound q (delayed p target push pop s) := by
  have hp : Safety.aligned4 (getPost s p).pc = true := postAligned_pc (getPost_aligned hs)
  refine RanSound.on (setPost_sound hs (postAligned_mk hp ?_))
  simp [spend, Safety.delayAligned, hp, ht]

theorem branchBody_sound {q : List Instr} {p rs1 rs2 : Nat} {off : Int} {f : Word → Word → Bool} {s : State}
    (hs : Sound q s) : RanSound q (branchBody p rs1 rs2 off f s) := by
  have hp : Safety.aligned4 (getPost s p).pc = true := postAligned_pc (getPost_aligned hs)
  refine delayed_sound hs ?_
  split
  · exact aligned4_branchTarget hp
  · decide

theorem branchOp_sound {q : List Instr} {p rs1 rs2 : Nat} {off : Int} {f : Word → Word → Bool} {s : State} (hs :
    Sound q s) :
    Sound q (branchOp p rs1 rs2 off f s) := by
  delta branchOp
  exact runPost_sound (fun _ h_0 => branchBody_sound h_0) hs

theorem callBody_sound {q : List Instr} {p : Nat} {target : Post → Word} {s : State}
    (ht : ∀ x : Post, Safety.aligned4 x.pc = true → Safety.aligned4 (target x) = true) (hs : Sound q s) :
    RanSound q (callBody p target s) :=
  RanSound.ite (RanSound.trap hs) (delayed_sound hs (ht _ (postAligned_pc (getPost_aligned hs))))

theorem execBeq_sound {q : List Instr} {post rs1 rs2 : Nat} {off : Int} {s : State} (hs : Sound q s) :
    OutSound q (execBeq post rs1 rs2 off s) := by
  delta execBeq
  exact OutSound.next (branchOp_sound hs)

theorem execBge_sound {q : List Instr} {post rs1 rs2 : Nat} {off : Int} {s : State} (hs : Sound q s) :
    OutSound q (execBge post rs1 rs2 off s) := by
  delta execBge
  exact OutSound.next (branchOp_sound hs)

theorem execBgeu_sound {q : List Instr} {post rs1 rs2 : Nat} {off : Int} {s : State} (hs : Sound q s) :
    OutSound q (execBgeu post rs1 rs2 off s) := by
  delta execBgeu
  exact OutSound.next (branchOp_sound hs)

theorem execBlt_sound {q : List Instr} {post rs1 rs2 : Nat} {off : Int} {s : State} (hs : Sound q s) :
    OutSound q (execBlt post rs1 rs2 off s) := by
  delta execBlt
  exact OutSound.next (branchOp_sound hs)

theorem execBltu_sound {q : List Instr} {post rs1 rs2 : Nat} {off : Int} {s : State} (hs : Sound q s) :
    OutSound q (execBltu post rs1 rs2 off s) := by
  delta execBltu
  exact OutSound.next (branchOp_sound hs)

theorem execBne_sound {q : List Instr} {post rs1 rs2 : Nat} {off : Int} {s : State} (hs : Sound q s) :
    OutSound q (execBne post rs1 rs2 off s) := by
  delta execBne
  exact OutSound.next (branchOp_sound hs)

theorem execCall_sound {q : List Instr} {post : Nat} {off : Int} {s : State} (hs : Sound q s) :
    OutSound q (execCall post off s) :=
  OutSound.next (runPost_sound (fun _ h => callBody_sound (fun _ h => aligned4_branchTarget h) h) hs)

theorem execCallr_sound {q : List Instr} {post : Nat} {rs1 : Nat} {s : State} (hs : Sound q s) :
    OutSound q (execCallr post rs1 s) :=
  OutSound.next (runPost_sound (fun _ h => callBody_sound (fun _ _ => aligned4_alignPc _) h) hs)

theorem jumpBody_sound {q : List Instr} {p : Nat} {target : Post → Word} {s : State}
    (ht : ∀ x : Post, Safety.aligned4 x.pc = true → Safety.aligned4 (target x) = true) (hs : Sound q s) :
    RanSound q (jumpBody p target s) :=
  delayed_sound hs (ht _ (postAligned_pc (getPost_aligned hs)))

theorem execJ_sound {q : List Instr} {post : Nat} {off : Int} {s : State} (hs : Sound q s) :
    OutSound q (execJ post off s) :=
  OutSound.next (runPost_sound (fun _ h => jumpBody_sound (fun _ h => aligned4_branchTarget h) h) hs)

theorem execJr_sound {q : List Instr} {post : Nat} {rs1 : Nat} {s : State} (hs : Sound q s) :
    OutSound q (execJr post rs1 s) :=
  OutSound.next (runPost_sound (fun _ h => jumpBody_sound (fun _ _ => aligned4_alignPc _) h) hs)

theorem retBody_sound {q : List Instr} {p : Nat} {s : State} (hs : Sound q s) : RanSound q (retBody p s) := by
  unfold retBody
  split
  · exact RanSound.trap hs
  · exact delayed_sound hs (aligned4_alignPc _)

theorem execRet_sound {q : List Instr} {post : Nat} {s : State} (hs : Sound q s) :
    OutSound q (execRet post s) := by
  delta execRet
  exact OutSound.next (runPost_sound (fun _ h_0 => retBody_sound h_0) hs)

theorem execRsdepth_sound {q : List Instr} {post rd : Nat} {s : State} (hs : Sound q s) :
    OutSound q (execRsdepth post rd s) := by
  delta execRsdepth
  exact OutSound.next (runPost_sound (fun _ h_0 => aluBody_sound h_0) hs)

theorem rspopBody_sound {q : List Instr} {p rd : Nat} {s : State} (hs : Sound q s) :
    RanSound q (rspopBody p rd s) := by
  delta rspopBody
  extract_lets +onlyGivenNames -merge -useContext -underBinder x_0
  have hx_0 : Safety.postAligned x_0 = true := by
    unfold x_0
    refine getPost_aligned (q := q) ?_
    exact hs
  clear_value x_0
  split
  · exact RanSound.trap hs
  · refine RanSound.on ?_
    refine setPost_sound ?_ ?_
    · exact hs
    · first
        | (with_reducible refine postAligned_dispatch ?_; assumption)
        | exact postAligned_of (getPost_aligned (q := q) (by assumption)) rfl rfl
        | exact postAligned_of (getPost_aligned (q := q) (by assumption)) (afterStores_pc _ _) (afterStores_delay _ _)
        | exact postAligned_of (by assumption) (by simp) (by simp)

theorem execRspop_sound {q : List Instr} {post rd : Nat} {s : State} (hs : Sound q s) :
    OutSound q (execRspop post rd s) := by
  delta execRspop
  exact OutSound.next (runPost_sound (fun _ h_0 => rspopBody_sound h_0) hs)

theorem rspushBody_sound {q : List Instr} {p rs1 : Nat} {s : State} (hs : Sound q s) :
    RanSound q (rspushBody p rs1 s) := by
  delta rspushBody
  extract_lets +onlyGivenNames -merge -useContext -underBinder x_0
  have hx_0 : Safety.postAligned x_0 = true := by
    unfold x_0
    refine getPost_aligned (q := q) ?_
    exact hs
  clear_value x_0
  refine RanSound.ite ?_ ?_
  · exact RanSound.trap hs
  · refine RanSound.on ?_
    refine setPost_sound ?_ ?_
    · exact hs
    · first
        | (with_reducible refine postAligned_dispatch ?_; assumption)
        | exact postAligned_of (getPost_aligned (q := q) (by assumption)) rfl rfl
        | exact postAligned_of (getPost_aligned (q := q) (by assumption)) (afterStores_pc _ _) (afterStores_delay _ _)
        | exact postAligned_of (by assumption) (by simp) (by simp)

theorem execRspush_sound {q : List Instr} {post rs1 : Nat} {s : State} (hs : Sound q s) :
    OutSound q (execRspush post rs1 s) := by
  delta execRspush
  exact OutSound.next (runPost_sound (fun _ h_0 => rspushBody_sound h_0) hs)

/-! ### PostTen -/

theorem tenBody_sound {q : List Instr} {p td : Nat} {v : Post → Tenon} {s : State} (hs : Sound q s) :
    RanSound q (tenBody p td v s) := by
  delta tenBody
  extract_lets +onlyGivenNames -merge -useContext -underBinder x_0
  have hx_0 : Safety.postAligned x_0 = true := by
    unfold x_0
    refine getPost_aligned (q := q) ?_
    exact hs
  clear_value x_0
  refine RanSound.on ?_
  refine setPost_sound ?_ ?_
  · exact hs
  · first
      | (with_reducible refine postAligned_dispatch ?_; assumption)
      | exact postAligned_of (getPost_aligned (q := q) (by assumption)) rfl rfl
      | exact postAligned_of (getPost_aligned (q := q) (by assumption)) (afterStores_pc _ _) (afterStores_delay _ _)
      | exact postAligned_of (by assumption) (by simp) (by simp)

theorem tboundBody_sound {q : List Instr} {p td ts rs : Nat} {s : State} (hs : Sound q s) :
    RanSound q (tboundBody p td ts rs s) := by
  delta tboundBody
  exact RanSound.ite (RanSound.trap hs) (tenBody_sound hs)

theorem execTbound_sound {q : List Instr} {post td ts rs : Nat} {s : State} (hs : Sound q s) :
    OutSound q (execTbound post td ts rs s) := by
  delta execTbound
  exact OutSound.next (runPost_sound (fun _ h_0 => tboundBody_sound h_0) hs)

theorem tcallBody_sound {q : List Instr} {p td ts : Nat} {s : State} (hs : Sound q s) :
    RanSound q (tcallBody p td ts s) := by
  have hd : Safety.delayAligned (getPost s p).delay = true := postAligned_delay (getPost_aligned hs)
  unfold tcallBody
  extract_lets x code data y
  have hy : y.delay = (getPost s p).delay := Post.setT_delay _ _ _
  clear_value y data code
  split
  · rename_i h
    unfold tcallOk at h
    simp only [Bool.and_eq_true, beq_iff_eq] at h
    have hc : code.cursor % 4 = 0 := h.1.1.2
    clear h
    refine RanSound.jump (setPost_sound hs (postAligned_mk ?_ ?_))
    · rw [spend_pc]
      exact aligned4_ofNat hc
    · rw [spend_delay]
      exact hy ▸ hd
  · exact RanSound.trap hs

theorem execTcall_sound {q : List Instr} {post td ts : Nat} {s : State} (hs : Sound q s) :
    OutSound q (execTcall post td ts s) := by
  delta execTcall
  exact OutSound.next (runPost_sound (fun _ h_0 => tcallBody_sound h_0) hs)

theorem tgetBody_sound {q : List Instr} {p ts rs sel : Nat} {s : State} (hs : Sound q s) :
    RanSound q (tgetBody p ts rs sel s) := by
  delta tgetBody
  exact RanSound.ite (RanSound.trap hs) (aluBody_sound hs)

theorem execTget_sound {q : List Instr} {post ts rs sel : Nat} {s : State} (hs : Sound q s) :
    OutSound q (execTget post ts rs sel s) := by
  delta execTget
  exact OutSound.next (runPost_sound (fun _ h_0 => tgetBody_sound h_0) hs)

theorem execTmov_sound {q : List Instr} {post td ts : Nat} {s : State} (hs : Sound q s) :
    OutSound q (execTmov post td ts s) := by
  delta execTmov
  exact OutSound.next (runPost_sound (fun _ h_0 => tenBody_sound h_0) hs)

theorem execTnull_sound {q : List Instr} {post td : Nat} {s : State} (hs : Sound q s) :
    OutSound q (execTnull post td s) := by
  delta execTnull
  exact OutSound.next (runPost_sound (fun _ h_0 => tenBody_sound h_0) hs)

theorem execTperm_sound {q : List Instr} {post td ts rs : Nat} {s : State} (hs : Sound q s) :
    OutSound q (execTperm post td ts rs s) := by
  delta execTperm
  exact OutSound.next (runPost_sound (fun _ h_0 => tenBody_sound h_0) hs)

theorem execTseal_sound {q : List Instr} {post td ts rs : Nat} {s : State} (hs : Sound q s) :
    OutSound q (execTseal post td ts rs s) := by
  delta execTseal
  exact OutSound.next (runPost_sound (fun _ h_0 => tenBody_sound h_0) hs)

theorem execTtag_sound {q : List Instr} {post ts rs : Nat} {s : State} (hs : Sound q s) :
    OutSound q (execTtag post ts rs s) := by
  delta execTtag
  exact OutSound.next (runPost_sound (fun _ h_0 => aluBody_sound h_0) hs)

theorem execTunseal_sound {q : List Instr} {post td ts rs : Nat} {s : State} (hs : Sound q s) :
    OutSound q (execTunseal post td ts rs s) := by
  delta execTunseal
  exact OutSound.next (runPost_sound (fun _ h_0 => tenBody_sound h_0) hs)

/-! ### PostSys -/

theorem chargeAsk_sound {q : List Instr} {s : State} {p : Nat} {x1 : RingAsk} (hs : Sound q s) :
    Sound q (chargeAsk s p x1) := by
  delta chargeAsk
  exact Sound.mk (Good.of hs)

theorem engineReplyEffect_sound {q : List Instr} {post ticket : Nat} {status : Word} {s : State} (hs : Sound q s) :
    Sound q (engineReplyEffect post ticket status s) := by
  delta engineReplyEffect
  extract_lets +onlyGivenNames -merge -useContext -underBinder x_0
  have hx_0 : Safety.postAligned x_0 = true := by
    unfold x_0
    refine getPost_aligned (q := q) ?_
    exact hs
  clear_value x_0
  split
  · exact hs
  · refine Sound.ite ?_ ?_
    · exact hs
    · refine Sound.ite ?_ ?_
      · refine setPost_sound ?_ ?_
        · exact hs
        · first
            | (with_reducible refine postAligned_dispatch ?_; assumption)
            | exact postAligned_of (getPost_aligned (q := q) (by assumption)) rfl rfl
            | exact postAligned_of (getPost_aligned (q := q) (by assumption)) (afterStores_pc _ _) (afterStores_delay _ _)
            | exact postAligned_of (by assumption) (by simp) (by simp)
      · extract_lets +onlyGivenNames -merge -useContext -underBinder d_1
        have hd_1 : Sound q d_1.2 := by
          unfold d_1
          exact Sound.ite_snd (drawFrom_sound hs) (Sound.pair_snd hs)
        clear_value d_1
        extract_lets +onlyGivenNames -merge -useContext -underBinder a_2
        clear_value a_2
        refine chargeAsk_sound ?_
        refine setPost_sound ?_ ?_
        · exact hd_1
        · first
            | (with_reducible refine postAligned_dispatch ?_; assumption)
            | exact postAligned_of (getPost_aligned (q := q) (by assumption)) rfl rfl
            | exact postAligned_of (getPost_aligned (q := q) (by assumption)) (afterStores_pc _ _) (afterStores_delay _ _)
            | exact postAligned_of (by assumption) (by simp) (by simp)

theorem eretBody_sound {q : List Instr} {p tn : Nat} {s : State} (hs : Sound q s) :
    RanSound q (eretBody p tn s) := by
  delta eretBody
  exact RanSound.ite (RanSound.trap hs) (RanSound.jump (sealedReturn_sound hs))

theorem execCyc_sound {q : List Instr} {post rd : Nat} {s : State} (hs : Sound q s) :
    OutSound q (execCyc post rd s) := by
  delta execCyc
  exact OutSound.next (runPost_sound (fun _ h_0 => aluBody_sound h_0) hs)

theorem execEngineRequestReply_sound {q : List Instr} {post ticket : Nat} {status : Word} {s : State} (hs : Sound q
    s) :
    OutSound q (execEngineRequestReply post ticket status s) := by
  delta execEngineRequestReply
  exact OutSound.next (engineReplyEffect_sound hs)

theorem execEret_sound {q : List Instr} {post tn : Nat} {s : State} (hs : Sound q s) :
    OutSound q (execEret post tn s) := by
  delta execEret
  exact OutSound.next (runPost_sound (fun _ h_0 => eretBody_sound h_0) hs)

theorem execFeat_sound {q : List Instr} {post rd imm : Nat} {s : State} (hs : Sound q s) :
    OutSound q (execFeat post rd imm s) := by
  delta execFeat
  exact OutSound.next (runPost_sound (fun _ h_0 => aluBody_sound h_0) hs)

theorem fenceBody_sound {q : List Instr} {p : Nat} {s : State} (hs : Sound q s) :
    RanSound q (fenceBody p s) := by
  delta fenceBody
  extract_lets +onlyGivenNames -merge -useContext -underBinder s1_0
  have hs1_0 : Sound q s1_0 := by
    unfold s1_0
    exact drainPosted_sound hs
  clear_value s1_0
  extract_lets +onlyGivenNames -merge -useContext -underBinder x_1
  have hx_1 : Safety.postAligned x_1 = true := by
    unfold x_1
    refine getPost_aligned (q := q) ?_
    exact hs1_0
  clear_value x_1
  refine RanSound.on ?_
  refine setPost_sound ?_ ?_
  · exact hs1_0
  · first
      | (with_reducible refine postAligned_dispatch ?_; assumption)
      | exact postAligned_of (getPost_aligned (q := q) (by assumption)) rfl rfl
      | exact postAligned_of (getPost_aligned (q := q) (by assumption)) (afterStores_pc _ _) (afterStores_delay _ _)
      | exact postAligned_of (by assumption) (by simp) (by simp)

theorem execFence_sound {q : List Instr} {post : Nat} {s : State} (hs : Sound q s) :
    OutSound q (execFence post s) := by
  delta execFence
  exact OutSound.next (runPost_sound (fun _ h_0 => fenceBody_sound h_0) hs)

theorem execIllegal_sound {q : List Instr} {post : Nat} {s : State} (hs : Sound q s) :
    OutSound q (execIllegal post s) := by
  delta execIllegal
  exact OutSound.next (runPost_sound (fun _ h_0 => RanSound.trap h_0) hs)

theorem interruptEffect_sound {q : List Instr} {p : Nat} {s : State} (hs : Sound q s) :
    Sound q (interruptEffect p s) := by
  delta interruptEffect
  extract_lets +onlyGivenNames -merge -useContext -underBinder x_0
  have hx_0 : Safety.postAligned x_0 = true := by
    unfold x_0
    refine getPost_aligned (q := q) ?_
    exact hs
  clear_value x_0
  refine Sound.ite ?_ ?_
  · exact hs
  · split
    · exact hs
    · exact takeException_sound hs

theorem execInterrupt_sound {q : List Instr} {post : Nat} {s : State} (hs : Sound q s) :
    OutSound q (execInterrupt post s) := by
  delta execInterrupt
  exact OutSound.next (interruptEffect_sound hs)

theorem ringCut_sound {q : List Instr} {s : State} {p ring : Nat} (hs : Sound q s) :
    Sound q (ringCut s p ring) := by
  delta ringCut
  refine Sound.ite ?_ ?_
  · exact hs
  · split
    · exact hs
    · split
      · exact hs
      · exact Sound.ite (setCtx_sound hs) hs

theorem ringCounted_sound {q : List Instr} {s : State} {x : Post} {ring size : Nat} (hs : Sound q s) :
    Sound q (ringCounted s x ring size) := by
  delta ringCounted
  exact Sound.ite (Sound.mk (Good.of hs)) hs

theorem rqsubBody_sound {q : List Instr} {p rd rs1 ring mem tn size : Nat} {handles : List Word} {ask : RingAsk}
    {room : Bool} {s : State} (hs : Sound q s) :
    RanSound q (rqsubBody p rd rs1 ring mem tn size handles ask room s) := by
  delta rqsubBody
  extract_lets +onlyGivenNames -merge -useContext -underBinder x_0
  have hx_0 : Safety.postAligned x_0 = true := by
    unfold x_0
    refine getPost_aligned (q := q) ?_
    exact hs
  clear_value x_0
  extract_lets +onlyGivenNames -merge -useContext -underBinder a_1
  clear_value a_1
  refine RanSound.ite ?_ ?_
  · exact RanSound.trap hs
  · split
    · exact RanSound.trap hs
    · extract_lets +onlyGivenNames -merge -useContext -underBinder r_2
      have hr_2 : Sound q r_2.2 := by
        unfold r_2
        exact access_sound hs
      clear_value r_2
      refine RanSound.ite ?_ ?_
      · exact RanSound.trap hr_2
      · refine RanSound.ite ?_ ?_
        · exact RanSound.trap hr_2
        · extract_lets +onlyGivenNames -merge -useContext -underBinder y_3
          have hy_3 : Safety.postAligned y_3 = true := by
            unfold y_3
            refine getPost_aligned (q := q) ?_
            exact hr_2
          clear_value y_3
          extract_lets +onlyGivenNames -merge -useContext -underBinder ok_4
          clear_value ok_4
          extract_lets +onlyGivenNames -merge -useContext -underBinder z_5
          have hz_5 : Safety.postAligned z_5 = true := by
            unfold z_5
            first
              | exact postAligned_cleared (getPost_aligned (q := q) (by assumption))
              | (split <;> first | assumption | exact postAligned_of (by assumption) rfl rfl)
              | exact postAligned_of (by assumption) (by simp) (by simp)
          clear_value z_5
          extract_lets +onlyGivenNames -merge -useContext -underBinder s1_6
          have hs1_6 : Sound q s1_6 := by
            unfold s1_6
            exact Sound.ite (ringCut_sound (ringCounted_sound hr_2)) hr_2
          clear_value s1_6
          refine RanSound.on ?_
          refine setPost_sound ?_ ?_
          · exact hs1_6
          · first
              | (with_reducible refine postAligned_dispatch ?_; assumption)
              | exact postAligned_of (getPost_aligned (q := q) (by assumption)) rfl rfl
              | exact postAligned_of (getPost_aligned (q := q) (by assumption)) (afterStores_pc _ _) (afterStores_delay _ _)
              | exact postAligned_of (by assumption) (by simp) (by simp)

theorem execRqsub_sound {q : List Instr} {post rd rs1 ring mem tn size : Nat} {handles : List Word} {room : RingUse}
    {s : State} (hs : Sound q s) :
    OutSound q (execRqsub post rd rs1 ring mem tn size handles room s) := by
  delta execRqsub
  exact OutSound.next (runPost_sound (fun _ h_0 => rqsubBody_sound h_0) hs)

theorem rqwaitBody_sound {q : List Instr} {p rd rs1 : Nat} {reply : Word} {s : State} (hs : Sound q s) :
    RanSound q (rqwaitBody p rd rs1 reply s) := by
  delta rqwaitBody
  extract_lets +onlyGivenNames -merge -useContext -underBinder x_0
  have hx_0 : Safety.postAligned x_0 = true := by
    unfold x_0
    refine getPost_aligned (q := q) ?_
    exact hs
  clear_value x_0
  extract_lets +onlyGivenNames -merge -useContext -underBinder id_1
  clear_value id_1
  refine RanSound.ite ?_ ?_
  · exact RanSound.trap hs
  · split
    · extract_lets +onlyGivenNames -merge -useContext -underBinder d_2
      have hd_2 : Sound q d_2.2 := by
        unfold d_2
        exact drawBytes_sound hs
      clear_value d_2
      extract_lets +onlyGivenNames -merge -useContext -underBinder y_3
      have hy_3 : Safety.postAligned y_3 = true := by
        unfold y_3
        refine getPost_aligned (q := q) ?_
        exact hd_2
      clear_value y_3
      refine RanSound.on ?_
      refine setPost_sound ?_ ?_
      · exact hd_2
      · first
          | (with_reducible refine postAligned_dispatch ?_; assumption)
          | exact postAligned_of (getPost_aligned (q := q) (by assumption)) rfl rfl
          | exact postAligned_of (getPost_aligned (q := q) (by assumption)) (afterStores_pc _ _) (afterStores_delay _ _)
          | exact postAligned_of (by assumption) (by simp) (by simp)
    · refine RanSound.ite ?_ ?_
      · extract_lets +onlyGivenNames -merge -useContext -underBinder w_4
        clear_value w_4
        extract_lets +onlyGivenNames -merge -useContext -underBinder y_5
        have hy_5 : Safety.postAligned y_5 = true := by
          unfold y_5
          first
            | exact postAligned_cleared (getPost_aligned (q := q) (by assumption))
            | (split <;> first | assumption | exact postAligned_of (by assumption) rfl rfl)
            | exact postAligned_of (by assumption) (by simp) (by simp)
        clear_value y_5
        refine RanSound.on ?_
        refine setPost_sound ?_ ?_
        · exact hs
        · first
            | (with_reducible refine postAligned_dispatch ?_; assumption)
            | exact postAligned_of (getPost_aligned (q := q) (by assumption)) rfl rfl
            | exact postAligned_of (getPost_aligned (q := q) (by assumption)) (afterStores_pc _ _) (afterStores_delay _ _)
            | exact postAligned_of (by assumption) (by simp) (by simp)
      · refine RanSound.on ?_
        refine setPost_sound ?_ ?_
        · exact hs
        · first
            | (with_reducible refine postAligned_dispatch ?_; assumption)
            | exact postAligned_of (getPost_aligned (q := q) (by assumption)) rfl rfl
            | exact postAligned_of (getPost_aligned (q := q) (by assumption)) (afterStores_pc _ _) (afterStores_delay _ _)
            | exact postAligned_of (by assumption) (by simp) (by simp)

theorem execRqwait_sound {q : List Instr} {post rd rs1 : Nat} {reply : Word} {s : State} (hs : Sound q s) :
    OutSound q (execRqwait post rd rs1 reply s) := by
  delta execRqwait
  exact OutSound.next (runPost_sound (fun _ h_0 => rqwaitBody_sound h_0) hs)

theorem execTick_sound {q : List Instr} {post rd : Nat} {s : State} (hs : Sound q s) :
    OutSound q (execTick post rd s) := by
  delta execTick
  exact OutSound.next (runPost_sound (fun _ h_0 => aluBody_sound h_0) hs)

theorem execTrap_sound {q : List Instr} {post imm : Nat} {s : State} (hs : Sound q s) :
    OutSound q (execTrap post imm s) := by
  delta execTrap
  exact OutSound.next (runPost_sound (fun _ h_0 => RanSound.trap h_0) hs)

theorem yieldBody_sound {q : List Instr} {p : Nat} {s : State} (hs : Sound q s) : RanSound q (yieldBody p s) := by
  have hp : Safety.aligned4 (getPost s p).pc = true := postAligned_pc (getPost_aligned hs)
  have hd : Safety.delayAligned (getPost s p).delay = true := postAligned_delay (getPost_aligned hs)
  unfold yieldBody
  dsimp only
  refine RanSound.ite (RanSound.jump (setPost_sound hs (postAligned_mk (aligned4_add hp (by decide)) hd)))
    (RanSound.ite (RanSound.jump (clearDepth_sound (setPost_sound hs (postAligned_mk (aligned4_alignPc _) hd))))
      (RanSound.on (setPost_sound hs (postAligned_mk hp hd))))

theorem execYield_sound {q : List Instr} {post : Nat} {s : State} (hs : Sound q s) :
    OutSound q (execYield post s) := by
  delta execYield
  exact OutSound.next (runPost_sound (fun _ h_0 => yieldBody_sound h_0) hs)

end Sys2Proof.Machine
end

