-- ==== Sys2Proof/Laws/SoundTick.lean ====
section
/-!
SUPPORT. Soundness (Laws/Sound.lean) is kept by each operation of the tick, the kerf, SMBus and SPDM.
-/
namespace Sys2Proof.Machine
open Sys2Proof

/-! ### Tick -/

theorem askCtx_sound {q : List Instr} {t : Nat} {s : State} {n : Nat} (hs : Sound q s) :
    Sound q (askCtx t s n) := by
  delta askCtx
  split
  · exact hs
  · exact Sound.ite hs (Sound.ite (setCtx_sound (shortPieces_sound (Sound.ite hs (useIn_sound (countPiece_sound
      (emit_sound hs)))))) (setCtx_sound (countF_sound (planFault_sound (linkAccess_sound (Sound.ite hs (useIn_sound
      (countPiece_sound (emit_sound hs)))))))))

theorem openTick_sound {q : List Instr} {t : Nat} {s : State} (hs : Sound q s) :
    Sound q (openTick t s) := by
  delta openTick
  exact Sound.mk (Good.of hs)

theorem rollPieces_sound {q : List Instr} {s : State} (hs : Sound q s) :
    Sound q (rollPieces s) := by
  delta rollPieces
  exact Sound.mk (Good.of hs)

theorem startPosts_sound {q : List Instr} {s : State} (hs : Sound q s) :
    Sound q (startPosts s) := by
  delta startPosts
  extract_lets +onlyGivenNames -merge -useContext -underBinder s1_0
  have hs1_0 : Sound q s1_0 := by
    unfold s1_0
    refine Sound.foldl ?_ ?_
    · exact hs
    · intro t_1 a_2 h_3
      extract_lets +onlyGivenNames -merge -useContext -underBinder x_4
      have hx_4 : Safety.postAligned x_4 = true := by
        unfold x_4
        refine getPost_aligned (q := q) ?_
        exact h_3
      clear_value x_4
      refine Sound.ite ?_ ?_
      · refine setPost_sound ?_ ?_
        · exact h_3
        · first
            | (with_reducible refine postAligned_dispatch ?_; assumption)
            | exact postAligned_of (getPost_aligned (q := q) (by assumption)) rfl rfl
            | exact postAligned_of (getPost_aligned (q := q) (by assumption)) (afterStores_pc _ _) (afterStores_delay _ _)
            | exact postAligned_of (by assumption) (by simp) (by simp)
      · exact h_3
  clear_value s1_0
  refine Sound.foldl ?_ ?_
  · exact hs1_0
  · intro t_5 a_6 h_7
    refine setPost_sound ?_ ?_
    · exact h_7
    · first
        | (with_reducible refine postAligned_dispatch ?_; assumption)
        | exact postAligned_of (getPost_aligned (q := q) (by assumption)) rfl rfl
        | exact postAligned_of (getPost_aligned (q := q) (by assumption)) (afterStores_pc _ _) (afterStores_delay _ _)
        | exact postAligned_of (by assumption) (by simp) (by simp)

theorem moveCompEnd_sound {q : List Instr} {s : State} {c : Ctx} {t : Nat} (hs : Sound q s) :
    Sound q (moveCompEnd s c t) := by
  delta moveCompEnd
  extract_lets +onlyGivenNames -merge -useContext -underBinder bump_0
  have hbump_0 : ∀ y0 y1, Sound q y0 → Sound q (bump_0 y0 y1) := by
    intro y0 y1 h_1
    unfold bump_0
    exact Sound.ite h_1 (Sound.mk (Good.of h_1))
  clear_value bump_0
  exact Sound.ite (hbump_0 _ _ (Sound.ite (hbump_0 _ _ hs) hs)) (Sound.ite (hbump_0 _ _ hs) hs)

theorem stallPlan_sound {q : List Instr} {s : State} {n : Nat} {c : Ctx} {t fed : Nat} (hs : Sound q s) :
    Sound q (stallPlan s n c t fed) := by
  delta stallPlan
  exact event_sound (countReg_sound (moveCompEnd_sound (setPlan_sound (Sound.mk (Good.of hs)))))

theorem stallCtx_sound {q : List Instr} {t : Nat} {x : State × List Nat} {n : Nat} (hx : Sound q x.1) :
    Sound q (stallCtx t x n).1 := by
  delta stallCtx
  extract_lets +onlyGivenNames -merge -useContext -underBinder s_0
  have hs_0 : Sound q s_0 := by
    unfold s_0
    exact hx
  clear_value s_0
  split
  · exact hx
  · exact Sound.ite_fst hx (Sound.ite_fst (Sound.pair_fst (Sound.ite (setCtx_sound hs_0) hs_0)) (Sound.ite_fst
      (Sound.pair_fst (Sound.ite (setCtx_sound hs_0) hs_0)) (Sound.ite_fst (Sound.pair_fst (stallPlan_sound hs_0))
      hx)))

theorem stalls_sound {q : List Instr} {s : State} {t : Nat} (hs : Sound q s) :
    Sound q (stalls s t) := by
  delta stalls
  exact Sound.foldl_fst (Sound.pair_fst hs) fun _ _ h_0 => stallCtx_sound h_0

theorem tickStartEffect_sound {q : List Instr} {s0 : State} (hs0 : Sound q s0) :
    Sound q (tickStartEffect s0) := by
  delta tickStartEffect
  exact Sound.ite hs0 (Sound.ite (openTick_sound (Sound.mk (Good.of (safeIfDue_sound hs0)))) (openTick_sound
      (refillRng_sound (refetch_sound (Sound.foldl (stalls_sound (Sound.foldl (rollPieces_sound (startPosts_sound
      (Sound.mk (Good.of (safeIfDue_sound hs0))))) fun _ _ h_0 => drainCtx_sound h_0)) fun _ _ h_1 => askCtx_sound
      h_1)))))

theorem execTickStart_sound {q : List Instr} {s : State} (hs : Sound q s) :
    OutSound q (execTickStart s) := by
  delta execTickStart
  exact OutSound.next (tickStartEffect_sound hs)

theorem kerfPost_sound {q : List Instr} {t : Nat} {s : State} {p : Nat} (hs : Sound q s) :
    Sound q (kerfPost t s p) := by
  delta kerfPost
  extract_lets +onlyGivenNames -merge -useContext -underBinder o_0
  clear_value o_0
  extract_lets +onlyGivenNames -merge -useContext -underBinder x_1
  have hx_1 : Safety.postAligned x_1 = true := by
    unfold x_1
    first
      | exact postAligned_cleared (getPost_aligned (q := q) (by assumption))
      | (split <;> first | assumption | exact postAligned_of (by assumption) rfl rfl)
      | exact postAligned_of (by assumption) (by simp) (by simp)
  clear_value x_1
  extract_lets +onlyGivenNames -merge -useContext -underBinder sl_2
  clear_value sl_2
  extract_lets +onlyGivenNames -merge -useContext -underBinder w_3
  clear_value w_3
  refine clearDepth_sound ?_
  refine setPost_sound ?_ ?_
  · exact hs
  · first
      | (with_reducible refine postAligned_dispatch ?_; assumption)
      | exact postAligned_of (getPost_aligned (q := q) (by assumption)) rfl rfl
      | exact postAligned_of (getPost_aligned (q := q) (by assumption)) (afterStores_pc _ _) (afterStores_delay _ _)
      | exact postAligned_of (by assumption) (by simp) (by simp)

theorem kerfPosts_sound {q : List Instr} {t : Nat} {s : State} (hs : Sound q s) :
    Sound q (kerfPosts t s) := by
  delta kerfPosts
  extract_lets +onlyGivenNames -merge -useContext -underBinder s1_0
  have hs1_0 : Sound q s1_0 := by
    unfold s1_0
    exact Sound.ite (Sound.foldl hs fun _ _ h_1 => kerfPost_sound h_1) hs
  clear_value s1_0
  refine Sound.foldl ?_ ?_
  · exact hs1_0
  · intro t_2 a_3 h_4
    refine setPost_sound ?_ ?_
    · exact h_4
    · first
        | (with_reducible refine postAligned_dispatch ?_; assumption)
        | exact postAligned_of (getPost_aligned (q := q) (by assumption)) rfl rfl
        | exact postAligned_of (getPost_aligned (q := q) (by assumption)) (afterStores_pc _ _) (afterStores_delay _ _)
        | exact postAligned_of (by assumption) (by simp) (by simp)

theorem loadWindows_sound {q : List Instr} {t : Nat} {s : State} {e : Nat × Ctx} (hs : Sound q s) :
    Sound q (loadWindows t s e) := by
  delta loadWindows
  exact Sound.ite hs (Sound.foldl hs fun _ _ h_0 => Sound.mk (Good.of h_0))

theorem kerfWindows_sound {q : List Instr} {t : Nat} {s : State} (hs : Sound q s) :
    Sound q (kerfWindows t s) := by
  delta kerfWindows
  exact Sound.foldl (Sound.mk (Good.of hs)) fun _ _ h_0 => loadWindows_sound h_0

theorem lendGroup_sound {q : List Instr} {cls t : Nat} {x : State × Nat} {gid : Nat} (hx : Sound q x.1) :
    Sound q (lendGroup cls t x gid).1 := by
  delta lendGroup
  extract_lets +onlyGivenNames -merge -useContext -underBinder ns_0
  clear_value ns_0
  refine Sound.foldl_fst ?_ ?_
  · exact hx
  · intro t_1 a_2 h_3
    split
    · exact h_3
    · exact Sound.ite_fst h_3 (Sound.pair_fst (setCtx_sound h_3))

theorem lendClass_sound {q : List Instr} {t : Nat} {s : State} {cls : Nat} (hs : Sound q s) :
    Sound q (lendClass t s cls) := by
  delta lendClass
  exact Sound.foldl_fst (Sound.pair_fst hs) fun _ _ h_0 => lendGroup_sound h_0

theorem lending_sound {q : List Instr} {s : State} {t : Nat} (hs : Sound q s) :
    Sound q (lending s t) := by
  delta lending
  exact Sound.ite (Sound.foldl hs fun _ _ h_0 => lendClass_sound h_0) hs

theorem releaseLent_sound {q : List Instr} {t : Nat} {s : State} (hs : Sound q s) :
    Sound q (releaseLent t s) := by
  delta releaseLent
  exact Sound.mk (Good.of hs)

theorem useCtx_sound {q : List Instr} {t : Nat} {s : State} {e : Nat × Ctx} (hs : Sound q s) :
    Sound q (useCtx t s e) := by
  delta useCtx
  extract_lets +onlyGivenNames -merge -useContext -underBinder c_0
  clear_value c_0
  extract_lets +onlyGivenNames -merge -useContext -underBinder u_1
  clear_value u_1
  extract_lets +onlyGivenNames -merge -useContext -underBinder k_2
  clear_value k_2
  extract_lets +onlyGivenNames -merge -useContext -underBinder h_3
  clear_value h_3
  extract_lets +onlyGivenNames -merge -useContext -underBinder s_4
  have hs_4 : Sound q s_4 := by
    unfold s_4
    split
    · exact Sound.ite (Sound.mk (Good.of hs)) hs
    · exact hs
  clear_value s_4
  exact Sound.ite hs_4 (Sound.ite (Sound.mk (Good.of hs_4)) (Sound.ite (Sound.mk (Good.of hs_4)) (Sound.ite
      (Sound.mk (Good.of hs_4)) hs_4)))

theorem tickUse_sound {q : List Instr} {test : Option Nat} {s : State} {t : Nat} (hs : Sound q s) :
    Sound q (tickUse test s t) := by
  delta tickUse
  exact Sound.foldl (Sound.mk (Good.of hs)) fun _ _ h_0 => useCtx_sound h_0

/-! ### Kerf -/

theorem closeTick_sound {q : List Instr} {t : Nat} {s : State} (hs : Sound q s) :
    Sound q (closeTick t s) := by
  delta closeTick
  exact Sound.mk (Good.of hs)

theorem dropGhosts_sound {q : List Instr} {t : Nat} {s : State} (hs : Sound q s) :
    Sound q (dropGhosts t s) := by
  delta dropGhosts
  exact Sound.mk (Good.of hs)

theorem suiteFail_sound {q : List Instr} {n base count mask : Nat} {s : State} (hs : Sound q s) :
    Sound q (suiteFail n base count mask s) := by
  delta suiteFail
  exact Sound.foldl hs fun _ _ h_0 => fire_sound h_0

theorem fenceEnd_sound {q : List Instr} {ndlFail lduFail purFail hshFail : Nat} {s : State} (hs : Sound q s) :
    Sound q (fenceEnd ndlFail lduFail purFail hshFail s) := by
  delta fenceEnd
  split
  · exact hs
  · refine Sound.ite ?_ ?_
    · exact hs
    · extract_lets +onlyGivenNames -merge -useContext -underBinder ndl_0
      clear_value ndl_0
      extract_lets +onlyGivenNames -merge -useContext -underBinder ldu_1
      clear_value ldu_1
      extract_lets +onlyGivenNames -merge -useContext -underBinder pur_2
      clear_value pur_2
      extract_lets +onlyGivenNames -merge -useContext -underBinder hsh_3
      clear_value hsh_3
      extract_lets +onlyGivenNames -merge -useContext -underBinder bad_4
      clear_value bad_4
      extract_lets +onlyGivenNames -merge -useContext -underBinder s1_5
      have hs1_5 : Sound q s1_5 := by
        unfold s1_5
        split
        · exact Sound.ite (setCtx_sound hs) hs
        · exact hs
      clear_value s1_5
      exact event_sound (setFlag_sound (setFlag_sound (Sound.mk (Good.of (suiteFail_sound (suiteFail_sound
          (suiteFail_sound (suiteFail_sound hs1_5))))))))

theorem fenceEndEffect_sound {q : List Instr} {ndlFail lduFail purFail hshFail : Nat} {s : State} (hs : Sound q s) :
    Sound q (fenceEndEffect ndlFail lduFail purFail hshFail s) := by
  delta fenceEndEffect
  refine Sound.ite ?_ ?_
  · exact hs
  · refine Sound.ite ?_ ?_
    · split
      · exact hs
      · exact Sound.ite hs (Sound.mk (Good.of hs))
    · exact inKerf_sound (fun _ h_0 => fenceEnd_sound h_0) hs

theorem execFenceEnd_sound {q : List Instr} {ndlFail lduFail purFail hshFail : Nat} {s : State} (hs : Sound q s) :
    OutSound q (execFenceEnd ndlFail lduFail purFail hshFail s) := by
  delta execFenceEnd
  exact OutSound.next (fenceEndEffect_sound hs)

theorem suiteStart_sound {q : List Instr} {s : State} (hs : Sound q s) :
    Sound q (suiteStart s) := by
  delta suiteStart
  split
  · exact hs
  · exact Sound.ite hs (setFlag_sound (Sound.mk (Good.of (Sound.foldl hs fun _ _ h_0 => endEarly_sound h_0))))

theorem execFenceSuiteStart_sound {q : List Instr} {s : State} (hs : Sound q s) :
    OutSound q (execFenceSuiteStart s) := by
  delta execFenceSuiteStart
  exact OutSound.next (Sound.ite hs (inKerf_sound (fun _ h_0 => suiteStart_sound h_0) hs))

theorem execGovTempUpdate_sound {q : List Instr} {deg : Byte} {s : State} (hs : Sound q s) :
    OutSound q (execGovTempUpdate deg s) := by
  delta execGovTempUpdate
  exact OutSound.next (Sound.ite hs (setF_sound hs))

theorem govMove_sound {q : List Instr} {s : State} {step vdd : Nat} (hs : Sound q s) :
    Sound q (govMove s step vdd) := by
  delta govMove
  exact setF_sound (Sound.mk (Good.of (setReg_sound (countReg_sound (setF_sound hs)))))

theorem governorStepUpEffect_sound {q : List Instr} {s : State} (hs : Sound q s) :
    Sound q (governorStepUpEffect s) := by
  delta governorStepUpEffect
  exact Sound.ite hs (govMove_sound hs)

theorem execGovernorStepUp_sound {q : List Instr} {s : State} (hs : Sound q s) :
    OutSound q (execGovernorStepUp s) := by
  delta execGovernorStepUp
  exact OutSound.next (inKerf_sound (fun _ h_0 => governorStepUpEffect_sound h_0) hs)

theorem floorBroken_sound {q : List Instr} {s : State} (hs : Sound q s) :
    Sound q (floorBroken s) := by
  delta floorBroken
  exact firePlain_sound (setFlag_sound hs)

theorem grefDrift_sound {q : List Instr} {vdd : Nat} {s : State} (hs : Sound q s) :
    Sound q (grefDrift vdd s) := by
  delta grefDrift
  exact Sound.ite hs (Sound.ite (setF_sound (drawBelow_sound hs)) (setF_sound (drawBelow_sound hs)))

theorem kerfGovernor_sound {q : List Instr} {temp : Int} {vdd : Nat} {s0 : State} (hs0 : Sound q s0) :
    Sound q (kerfGovernor temp vdd s0) := by
  delta kerfGovernor
  extract_lets +onlyGivenNames -merge -useContext -underBinder droop_0
  extract_lets +onlyGivenNames -merge -useContext -underBinder hot_1
  extract_lets +onlyGivenNames -merge -useContext -underBinder hard_2
  extract_lets +onlyGivenNames -merge -useContext -underBinder calm_3
  clear_value calm_3
  extract_lets +onlyGivenNames -merge -useContext -underBinder s1_4
  have hs1_4 : Sound q s1_4 := by
    unfold s1_4
    exact setFlag_sound (Sound.ite (setF_sound hs0) hs0)
  clear_value s1_4
  extract_lets +onlyGivenNames -merge -useContext -underBinder step_5
  clear_value step_5
  extract_lets +onlyGivenNames -merge -useContext -underBinder floor_6
  clear_value floor_6
  extract_lets +onlyGivenNames -merge -useContext -underBinder s2_7
  have hs2_7 : Sound q s2_7 := by
    unfold s2_7
    exact setFlag_sound hs1_4
  clear_value s2_7
  extract_lets +onlyGivenNames -merge -useContext -underBinder _8
  clear_value _8
  extract_lets +onlyGivenNames -merge -useContext -underBinder s3_9
  have hs3_9 : Sound q s3_9 := by
    unfold s3_9
    exact Sound.ite hs2_7 (Sound.mk (Good.of hs2_7))
  clear_value s3_9
  exact Sound.ite (Sound.ite (floorBroken_sound (govMove_sound hs3_9)) (govMove_sound hs3_9)) (Sound.ite (Sound.ite
      (floorBroken_sound (govMove_sound hs3_9)) (govMove_sound hs3_9)) (Sound.ite (govMove_sound hs3_9)
      (grefDrift_sound hs3_9)))

theorem kerfCommits_sound {q : List Instr} {s : State} (hs : Sound q s) :
    Sound q (kerfCommits s) := by
  delta kerfCommits
  extract_lets +onlyGivenNames -merge -useContext -underBinder m_0
  clear_value m_0
  extract_lets +onlyGivenNames -merge -useContext -underBinder s1_1
  have hs1_1 : Sound q s1_1 := by
    unfold s1_1
    exact fenceEnd_sound (suiteStart_sound hs)
  clear_value s1_1
  extract_lets +onlyGivenNames -merge -useContext -underBinder s2_2
  have hs2_2 : Sound q s2_2 := by
    unfold s2_2
    exact kerfQueues_sound (kerfImports_sound (kerfSlices_sound (kerfGates_sound hs1_1)))
  clear_value s2_2
  exact releaseAdmin_sound (setFlag_sound (ceremonyTimeoutEffect_sound (sessionExpiry_sound (freeInfill_sound
      (tamperLifecycle_sound (kerfCapture_sound (kerfDestroy_sound (kerfTombs_sound (kerfVault_sound (kstSync_sound
      (activateRestored_sound (kerfRecords_sound (kerfVendor_sound (kerfGuard_sound (kerfPfFlr_sound
      hs2_2)))))))))))))))

theorem selectTest_sound {q : List Instr} {t : Nat} {s : State} (hs : Sound q s) :
    Sound q (selectTest t s) := by
  delta selectTest
  exact Sound.ite (setF_sound (Sound.mk (Good.of hs))) (Sound.mk (Good.of hs))

theorem kerfSteps_sound {q : List Instr} {s : State} (hs : Sound q s) :
    Sound q (kerfSteps s) := by
  delta kerfSteps
  exact kerfReseed_sound (selectTest_sound (kerfWindows_sound (kerfPosts_sound (kerfAdmit_sound (kerfCommits_sound
      (kerfAborts_sound (freeWritten_sound (zeroiseSweep_sound (kerfRelease_sound (kerfResponses_sound
      (kerfAssign_sound hs)))))))))))

theorem kerfChecks_sound {q : List Instr} {s : State} (hs : Sound q s) :
    Sound q (kerfChecks s) := by
  delta kerfChecks
  exact Sound.foldl (Sound.mk (Good.of hs)) fun _ _ h_0 => setReg_sound h_0

theorem overrun_sound {q : List Instr} {s : State} {p n : Nat} {c : Ctx} (hs : Sound q s) :
    Sound q (overrun s p n c) := by
  delta overrun
  exact fireAt_sound (event_sound (countReg_sound (setF_sound (setF_sound (setF_sound hs)))))

theorem overrunPost_sound {q : List Instr} {s : State} {p : Nat} (hs : Sound q s) :
    Sound q (overrunPost s p) := by
  delta overrunPost
  extract_lets +onlyGivenNames -merge -useContext -underBinder x_0
  have hx_0 : Safety.postAligned x_0 = true := by
    unfold x_0
    refine getPost_aligned (q := q) ?_
    exact hs
  clear_value x_0
  refine Sound.ite ?_ ?_
  · extract_lets +onlyGivenNames -merge -useContext -underBinder s1_1
    have hs1_1 : Sound q s1_1 := by
      unfold s1_1
      refine setPost_sound ?_ ?_
      · exact hs
      · first
          | (with_reducible refine postAligned_dispatch ?_; assumption)
          | exact postAligned_of (getPost_aligned (q := q) (by assumption)) rfl rfl
          | exact postAligned_of (getPost_aligned (q := q) (by assumption)) (afterStores_pc _ _) (afterStores_delay _ _)
          | exact postAligned_of (by assumption) (by simp) (by simp)
    clear_value s1_1
    split
    · exact hs1_1
    · split
      · exact overrun_sound hs1_1
      · exact hs1_1
  · exact hs

theorem overrunInfill_sound {q : List Instr} {t : Nat} {s : State} {e : Nat × Ctx} (hs : Sound q s) :
    Sound q (overrunInfill t s e) := by
  delta overrunInfill
  exact Sound.ite (overrun_sound hs) hs

theorem overruns_sound {q : List Instr} {s : State} (hs : Sound q s) :
    Sound q (overruns s) := by
  delta overruns
  exact Sound.foldl (Sound.foldl hs fun _ _ h_0 => overrunPost_sound h_0) fun _ _ h_1 => overrunInfill_sound h_1

theorem rotate_sound {q : List Instr} {pass : Bool} {s : State} (hs : Sound q s) :
    Sound q (rotate pass s) := by
  delta rotate
  split
  · exact hs
  · exact Sound.ite (countF_sound (setReg_sound (Sound.mk (Good.of hs)))) (fire_sound (countF_sound (setReg_sound
      (Sound.mk (Good.of hs)))))

theorem ghostSlot_sound {q : List Instr} {s : State} {i : Nat} (hs : Sound q s) :
    Sound q (ghostSlot s i) := by
  delta ghostSlot
  split
  · exact hs
  · exact Sound.mk (Good.of (idleSlot_sound hs))

theorem oneSlot_sound {q : List Instr} {t : Nat} {s : State} {x : Nat × Nat} (hs : Sound q s) :
    Sound q (oneSlot t s x) := by
  delta oneSlot
  refine Sound.ite ?_ ?_
  · exact ghostSlot_sound hs
  · split
    · exact Sound.ite (runSlots_sound hs) hs
    · exact hs

theorem stageInfill_sound {q : List Instr} {s : State} {e : Nat × Ctx} (hs : Sound q s) :
    Sound q (stageInfill s e) := by
  delta stageInfill
  exact Sound.ite hs (setCtx_sound (memWrite_sound hs))

theorem finishWork_sound {q : List Instr} {s : State} {t : Nat} (hs : Sound q s) :
    Sound q (finishWork s t) := by
  delta finishWork
  exact dropGhosts_sound (releaseLent_sound (Sound.foldl (Sound.foldl (Sound.foldl hs fun _ _ h_0 =>
      stageInfill_sound h_0) fun _ _ h_1 => oneSlot_sound h_1) fun _ _ h_2 => advance_sound (overReserved_sound
      h_2)))

theorem tickEnd_sound {q : List Instr} {s : State} (hs : Sound q s) :
    Sound q (tickEnd s) := by
  delta tickEnd
  exact kerfReservations_sound (tickUse_sound (finishWork_sound (lending_sound (kerfChecks_sound (overruns_sound
      (rotate_sound (kerfSill_sound (releasePrev_sound (drainPosted_sound hs)))))))))

theorem runBegins_sound {q : List Instr} {before : Bool} {s : State} (hs : Sound q s) :
    Sound q (runBegins before s) := by
  delta runBegins
  exact Sound.ite (kerfQueues_sound (Sound.foldl hs fun _ _ h_0 => activateSlice_sound h_0)) hs

theorem kerfEffect_sound {q : List Instr} {temp : Int} {vddCore : Nat} {s0 : State} (hs0 : Sound q s0) :
    Sound q (kerfEffect temp vddCore s0) := by
  delta kerfEffect
  refine Sound.ite ?_ ?_
  · exact hs0
  · extract_lets +onlyGivenNames -merge -useContext -underBinder s_0
    have hs_0 : Sound q s_0 := by
      unfold s_0
      exact safeIfDue_sound hs0
    clear_value s_0
    exact Sound.ite (closeTick_sound (kerfGovernor_sound (setFlag_sound (tamperLifecycle_sound (kerfResponses_sound
        hs_0))))) (closeTick_sound (runBegins_sound (bootKerf_sound (kerfEpoch_sound (kerfGovernor_sound
        (downDiscard_sound (atsDrain_sound (kerfInterrupts_sound (kerfSteps_sound (tickEnd_sound hs_0))))))))))

theorem execKerf_sound {q : List Instr} {temp : Int} {vddCore : Nat} {s : State} (hs : Sound q s) :
    OutSound q (execKerf temp vddCore s) := by
  delta execKerf
  exact OutSound.next (kerfEffect_sound hs)

theorem execRotatingTest_sound {q : List Instr} {pass : Bool} {s : State} (hs : Sound q s) :
    OutSound q (execRotatingTest pass s) := by
  delta execRotatingTest
  exact OutSound.next (Sound.ite (rotate_sound hs) hs)

/-! ### Smbus -/

theorem alertResponseEffect_sound {q : List Instr} {s : State} (hs : Sound q s) :
    Sound q (alertResponseEffect s) := by
  delta alertResponseEffect
  exact Sound.ite (emit_sound (Sound.mk (Good.of hs))) hs

theorem execAlertResponse_sound {q : List Instr} {s : State} (hs : Sound q s) :
    OutSound q (execAlertResponse s) := by
  delta execAlertResponse
  exact OutSound.next (alertResponseEffect_sound hs)

theorem smbusRead_sound {q : List Instr} {s : State} {status : Bool} {b : Bytes} (hs : Sound q s) :
    Sound q (smbusRead s status b) := by
  delta smbusRead
  exact Sound.ite hs (emit_sound hs)

theorem execFault_sound {q : List Instr} {s : State} (hs : Sound q s) :
    OutSound q (execFault s) := by
  delta execFault
  exact OutSound.next (smbusRead_sound hs)

theorem execLifecycle_sound {q : List Instr} {s : State} (hs : Sound q s) :
    OutSound q (execLifecycle s) := by
  delta execLifecycle
  exact OutSound.next (smbusRead_sound hs)

theorem execRevision_sound {q : List Instr} {s : State} (hs : Sound q s) :
    OutSound q (execRevision s) := by
  delta execRevision
  exact OutSound.next (smbusRead_sound hs)

theorem execSmbusTimeout_sound {q : List Instr} {s : State} (hs : Sound q s) :
    OutSound q (execSmbusTimeout s) := by
  delta execSmbusTimeout
  exact OutSound.next hs

theorem execStatus_sound {q : List Instr} {s : State} (hs : Sound q s) :
    OutSound q (execStatus s) := by
  delta execStatus
  exact OutSound.next (smbusRead_sound hs)

theorem execTemp_sound {q : List Instr} {s : State} (hs : Sound q s) :
    OutSound q (execTemp s) := by
  delta execTemp
  exact OutSound.next (smbusRead_sound hs)

/-! ### Spdm -/

theorem dropSession_sound {q : List Instr} {s : State} {id : Nat} (hs : Sound q s) :
    Sound q (dropSession s id) := by
  delta dropSession
  exact setLink_sound hs

theorem spdmSend_sound {q : List Instr} {s : State} {m : Bytes} (hs : Sound q s) :
    Sound q (spdmSend s m) := by
  delta spdmSend
  exact emit_sound hs

theorem spdmError_sound {q : List Instr} {s : State} {code : Nat} (hs : Sound q s) :
    Sound q (spdmError s code) := by
  delta spdmError
  exact spdmSend_sound hs

theorem spdmSync_sound {q : List Instr} {s : State} (hs : Sound q s) :
    Sound q (spdmSync s) := by
  delta spdmSync
  exact setFlag_sound (setF_sound (setF_sound hs))

theorem spdmGuard_sound {q : List Instr} {s : State} {code : Nat} {r : Bytes} {need neg : Bool} {work : State →
    State} (hs : Sound q s) (hwork : ∀ y0, Sound q y0 → Sound q (work y0)) :
    Sound q (spdmGuard s code r need neg work) := by
  delta spdmGuard
  exact Sound.ite hs (Sound.ite (spdmError_sound hs) (Sound.ite (spdmError_sound hs) (Sound.ite (spdmError_sound hs)
      (spdmSync_sound (hwork _ hs)))))

theorem inSession_sound {q : List Instr} {s : State} {code session : Nat} {r : Bytes} {work : State → Session →
    State} (hs : Sound q s) (hwork : ∀ y0 y1, Sound q y0 → Sound q (work y0 y1)) :
    Sound q (inSession s code session r work) := by
  delta inSession
  refine spdmGuard_sound ?_ ?_
  · exact hs
  · intro z_0 h_1
    split
    · exact Sound.ite (hwork _ _ h_1) (spdmError_sound h_1)
    · exact spdmError_sound h_1

theorem execEndSession_sound {q : List Instr} {session : Nat} {req : Bytes} {s : State} (hs : Sound q s) :
    OutSound q (execEndSession session req s) := by
  delta execEndSession
  exact OutSound.next (inSession_sound hs (fun _ _ h_0 => spdmSend_sound (dropSession_sound h_0)))

theorem setSession_sound {q : List Instr} {s : State} {x : Session} (hs : Sound q s) :
    Sound q (setSession s x) := by
  delta setSession
  exact setLink_sound hs

theorem finishEffect_sound {q : List Instr} {session : Nat} {req : Bytes} {s : State} (hs : Sound q s) :
    Sound q (finishEffect session req s) := by
  delta finishEffect
  refine spdmGuard_sound ?_ ?_
  · exact hs
  · intro z_0 h_1
    split
    · exact spdmError_sound h_1
    · exact Sound.ite (spdmError_sound h_1) (Sound.ite (spdmError_sound (dropSession_sound h_1)) (spdmSend_sound
        (setSession_sound h_1)))

theorem execFinish_sound {q : List Instr} {session : Nat} {req : Bytes} {s : State} (hs : Sound q s) :
    OutSound q (execFinish session req s) := by
  delta execFinish
  exact OutSound.next (finishEffect_sound hs)

theorem noteA_sound {q : List Instr} {s : State} {m : Bytes} (hs : Sound q s) :
    Sound q (noteA s m) := by
  delta noteA
  exact setLink_sound hs

theorem getCapabilitiesEffect_sound {q : List Instr} {req : Bytes} {s : State} (hs : Sound q s) :
    Sound q (getCapabilitiesEffect req s) := by
  delta getCapabilitiesEffect
  exact spdmGuard_sound hs (fun _ h_0 => Sound.ite (spdmError_sound h_0) (Sound.ite (spdmError_sound h_0)
      (spdmSend_sound (noteA_sound (setLink_sound h_0)))))

theorem execGetCapabilities_sound {q : List Instr} {req : Bytes} {s : State} (hs : Sound q s) :
    OutSound q (execGetCapabilities req s) := by
  delta execGetCapabilities
  exact OutSound.next (getCapabilitiesEffect_sound hs)

theorem noteB_sound {q : List Instr} {s : State} {m : Bytes} (hs : Sound q s) :
    Sound q (noteB s m) := by
  delta noteB
  exact setLink_sound hs

theorem getCertificateEffect_sound {q : List Instr} {req : Bytes} {s : State} (hs : Sound q s) :
    Sound q (getCertificateEffect req s) := by
  delta getCertificateEffect
  exact spdmGuard_sound hs (fun _ h_0 => Sound.ite (spdmError_sound h_0) (spdmSend_sound (noteB_sound h_0)))

theorem execGetCertificate_sound {q : List Instr} {req : Bytes} {s : State} (hs : Sound q s) :
    OutSound q (execGetCertificate req s) := by
  delta execGetCertificate
  exact OutSound.next (getCertificateEffect_sound hs)

theorem getDigestsEffect_sound {q : List Instr} {req : Bytes} {s : State} (hs : Sound q s) :
    Sound q (getDigestsEffect req s) := by
  delta getDigestsEffect
  exact spdmGuard_sound hs (fun _ h_0 => spdmSend_sound (noteB_sound h_0))

theorem execGetDigests_sound {q : List Instr} {req : Bytes} {s : State} (hs : Sound q s) :
    OutSound q (execGetDigests req s) := by
  delta execGetDigests
  exact OutSound.next (getDigestsEffect_sound hs)

theorem spdmSign_sound {q : List Instr} {s : State} {ctx : String} {trans : Bytes} (hs : Sound q s) :
    Sound q (spdmSign s ctx trans).2 := by
  delta spdmSign
  exact Sound.pair_snd (ownPurlin_sound (drawFrom_sound hs))

theorem getMeasurementsEffect_sound {q : List Instr} {req : Bytes} {s : State} (hs : Sound q s) :
    Sound q (getMeasurementsEffect req s) := by
  delta getMeasurementsEffect
  exact spdmGuard_sound hs (fun _ h_0 => Sound.ite (spdmError_sound h_0) (Sound.ite (spdmError_sound h_0) (Sound.ite
      (spdmSend_sound (setLink_sound (spdmSign_sound (drawFrom_sound h_0)))) (spdmSend_sound (setLink_sound
      (drawFrom_sound h_0))))))

theorem execGetMeasurements_sound {q : List Instr} {req : Bytes} {s : State} (hs : Sound q s) :
    OutSound q (execGetMeasurements req s) := by
  delta execGetMeasurements
  exact OutSound.next (getMeasurementsEffect_sound hs)

theorem getVersionEffect_sound {q : List Instr} {req : Bytes} {s : State} (hs : Sound q s) :
    Sound q (getVersionEffect req s) := by
  delta getVersionEffect
  exact spdmGuard_sound hs (fun _ h_0 => spdmSend_sound (setLink_sound h_0))

theorem execGetVersion_sound {q : List Instr} {req : Bytes} {s : State} (hs : Sound q s) :
    OutSound q (execGetVersion req s) := by
  delta execGetVersion
  exact OutSound.next (getVersionEffect_sound hs)

theorem execHeartbeat_sound {q : List Instr} {session : Nat} {req : Bytes} {s : State} (hs : Sound q s) :
    OutSound q (execHeartbeat session req s) := by
  delta execHeartbeat
  exact OutSound.next (inSession_sound hs (fun _ _ h_0 => spdmSend_sound h_0))

theorem keyExchangeEffect_sound {q : List Instr} {req : Bytes} {s : State} (hs : Sound q s) :
    Sound q (keyExchangeEffect req s) := by
  delta keyExchangeEffect
  refine spdmGuard_sound ?_ ?_
  · exact hs
  · intro z_0 h_1
    split
    · exact spdmError_sound h_1
    · extract_lets +onlyGivenNames -merge -useContext -underBinder d_2
      have hd_2 : Sound q d_2.2 := by
        unfold d_2
        exact drawFrom_sound h_1
      clear_value d_2
      extract_lets +onlyGivenNames -merge -useContext -underBinder scalar_3
      clear_value scalar_3
      split
      · exact spdmError_sound h_1
      · exact spdmSend_sound (setLink_sound (spdmSign_sound hd_2))

theorem execKeyExchange_sound {q : List Instr} {req : Bytes} {s : State} (hs : Sound q s) :
    OutSound q (execKeyExchange req s) := by
  delta execKeyExchange
  exact OutSound.next (keyExchangeEffect_sound hs)

theorem keyUpdate_sound {q : List Instr} {req : Bytes} {s : State} {x : Session} (hs : Sound q s) :
    Sound q (keyUpdate req s x) := by
  delta keyUpdate
  exact Sound.ite (spdmError_sound hs) (spdmSend_sound (Sound.ite hs (setSession_sound hs)))

theorem execKeyUpdate_sound {q : List Instr} {session : Nat} {req : Bytes} {s : State} (hs : Sound q s) :
    OutSound q (execKeyUpdate session req s) := by
  delta execKeyUpdate
  exact OutSound.next (inSession_sound hs (fun _ _ h_0 => keyUpdate_sound h_0))

theorem negotiateEffect_sound {q : List Instr} {req : Bytes} {s : State} (hs : Sound q s) :
    Sound q (negotiateEffect req s) := by
  delta negotiateEffect
  exact spdmGuard_sound hs (fun _ h_0 => Sound.ite (spdmError_sound h_0) (Sound.ite (spdmError_sound h_0)
      (spdmSend_sound (noteA_sound (setLink_sound h_0)))))

theorem execNegotiateAlgorithms_sound {q : List Instr} {req : Bytes} {s : State} (hs : Sound q s) :
    OutSound q (execNegotiateAlgorithms req s) := by
  delta execNegotiateAlgorithms
  exact OutSound.next (negotiateEffect_sound hs)

theorem spdmChallengeEffect_sound {q : List Instr} {req : Bytes} {s : State} (hs : Sound q s) :
    Sound q (spdmChallengeEffect req s) := by
  delta spdmChallengeEffect
  exact spdmGuard_sound hs (fun _ h_0 => Sound.ite (spdmError_sound h_0) (spdmSend_sound (setLink_sound
      (spdmSign_sound (drawFrom_sound h_0)))))

theorem execSpdmChallenge_sound {q : List Instr} {req : Bytes} {s : State} (hs : Sound q s) :
    OutSound q (execSpdmChallenge req s) := by
  delta execSpdmChallenge
  exact OutSound.next (spdmChallengeEffect_sound hs)

theorem ideKm_sound {q : List Instr} {o : Bytes} {s : State} {x : Bytes × State} (hs : Sound q s)
    (e : ideKm o s = some x) : Sound q x.2 := by
  revert e
  rw [ideKm]
  dsimp only
  repeat' split
  all_goals intro e
  all_goals first
    | cases e; exact hs
    | cases e; exact setLink_sound hs
    | cases e; exact ideSync_sound (setLink_sound hs)
    | cases e

theorem vendorRequest_sound {q : List Instr} {req : Bytes} {s : State} (hs : Sound q s) :
    Sound q (vendorRequest req s) := by
  delta vendorRequest
  refine Sound.ite (spdmError_sound hs) ?_
  split
  · exact spdmError_sound hs
  · rename_i e
    exact spdmSend_sound (ideKm_sound hs e)

theorem execVendorDefinedRequest_sound {q : List Instr} {session : Nat} {req : Bytes} {s : State} (hs : Sound q s) :
    OutSound q (execVendorDefinedRequest session req s) := by
  delta execVendorDefinedRequest
  exact OutSound.next (inSession_sound hs (fun _ _ h_0 => vendorRequest_sound h_0))

end Sys2Proof.Machine
end

