-- ==== Sys2Proof/Tests/Slice0.lean ====
section
/-!
SUPPORT. Tests on small states: words of the spec's tables, worked examples of the spec, and, for every statement of
Certificates/Slice0/Obligations.lean that has hypotheses, a state and operands that meet them together. A test named
`test_hyp_…` is such a witness. Expected values come from the rules of spec/ by hand.
-/
set_option maxRecDepth 20000
namespace Sys2Proof.Tests
open Sys2Proof Sys2Proof.Machine Sys2Proof.Claims

/-- The state a command answers. -/
def after (s : State) (i : Instr) : State :=
  match exec i s with
  | .next t => t
  | _ => s

/-- The machine after reset with post 0 changed. -/
def post0 (f : Post → Post) : State := setPost State.reset 0 (f (Post.reset 0))

/-- A code tenon and a stack tenon of the own store. -/
def codeT : Tenon := Tenon.mk' 1 0x25 0 0xFFFF 0x2000 0
def stackT : Tenon := Tenon.mk' 1 0x3 0x8000 0xBFFF 0xC000 0

/-- The die released, and inside the span of a tick. -/
def begun : State := { State.reset with boot := { State.reset.boot with begun := true } }
def span (t : Nat) (s : State) : State := { s with tick := { s.tick with span := true, count := t } }

/-! ### Commands in contexts -/

/-- An entry: opcode, parameter word, length, capacity and the bytes from 28H on. -/
def ent (op param len cap : Nat) (cls : Bytes) : Bytes :=
  leBytes 1 op ++ zeros 11 ++ leBytes 4 param ++ zeros 16 ++ leBytes 4 len ++ leBytes 4 cap ++ padTo 24 cls

/-- A context whose one unit of work has run by tick 20, in a class, for slice 1, with its source. -/
def ctx (op param cap : Nat) (cls : Nat) (units : Nat) (spec src : Bytes) : Ctx :=
  { slice := 1, queue := 0, fetchNo := 0, gid := 0, order := 0, entry := ent op param src.length cap spec, arrival := 0, admitted := 5, cls := cls
    units := units, s0 := 10, owed := 0, rate := units, k := 1, release := 40, lastTick := 10, serial := false, refused := false
    status := 0, keyA := some ⟨300, 0, false⟩, keyB := some ⟨301, 0, false⟩, newSlots := [310], iv := [], lmsIndex := none
    lmsPair := none, src := src, srcFail := false, srcGate := false, asked := 0, result := none, done := 0, slots := 0, scratch := []
    drained := 0, drainFrom := 0, dstStop := false, lent := 0, lentAt := 0, lentOld := 0, late := 0, floorOld := 0, floorNew := 0
    floorAt := 0, formula := 40, ctrlAt := [], vltAt := [], hshAt := none, laneAt := [], phase := .running, fail := none, place := []
    hour := 100, code := [], link := [], linkT := [], reason := 0, adminDone := none }

/-- Two AES-128 keys of slice 1 in slots 300 and 301, and a slot that a creating command took. -/
def keyed : State :=
  { span 20 begun with
    slices := [(0, Slice.zero), (1, { Slice.none with st := .active, fnEn := true })]
    keys := [(300, { KeySlot.empty with st := .loaded, level := 4, owner := 1, typ := 1, material := zeros 16 }),
             (301, { KeySlot.empty with st := .loaded, level := 4, owner := 1, typ := 1, material := List.replicate 16 1#8 }),
             (310, { KeySlot.empty with st := .loaded, level := 4, owner := 1, gen := 7 })] }
def put (c : Ctx) : State := setCtx keyed 5 c

/-- `Due` as a computation. -/
def isDue (s : State) (op : Nat) (c : Ctx) : Bool :=
  getCtx s 5 == some c && eOp c.entry == op && working c && decide (c.s0 ≤ begunTick s) && srcDone c &&
  workDone c (begunTick s) && c.result == none && c.cls != clVault
theorem due_of {s : State} {op : Nat} {c : Ctx} (h : isDue s op c = true) : Due s 5 op c := by
  simp only [isDue, Bool.and_eq_true, beq_iff_eq, bne_iff_ne, decide_eq_true_eq] at h
  obtain ⟨⟨⟨⟨⟨⟨⟨h1, h2⟩, h3⟩, h4⟩, h5⟩, h6⟩, h7⟩, h8⟩ := h
  exact ⟨h1, by decide, h2, h3, h4, h5, h6, h7, h8⟩
/-- A vault whose panels were never written verifies, and reads as zeros. -/
theorem intact_empty {s : State} (h1 : s.vault.tree.minors = []) (h2 : s.vault.tree.majors = []) : intact s := by
  intro p
  simp [panelFault, treeCtr, h1, h2, tget, List.findSome?_eq_none_iff]
/-- `SlotsDue` as a computation, with `k` slots due, over a vault whose panels were never written. -/
def slotsDue (s : State) (op k : Nat) (c : Ctx) : Bool :=
  getCtx s 5 == some c && eOp c.entry == op && working c && decide (c.s0 ≤ begunTick s) &&
  decide (∀ j, j < k → slotFed { c with slots := j } = true) &&
  (s.vault.tree.minors == [] && s.vault.tree.majors == []) &&
  (c.cls == clVault || compUnits c.entry != 0) && c.slots == 0 && slotsThrough c (begunTick s) == k
theorem slots_of {s : State} {op k : Nat} {c : Ctx} (h : slotsDue s op k c = true) : SlotsDue s 5 op c k := by
  simp only [slotsDue, Bool.and_eq_true, Bool.or_eq_true, beq_iff_eq, bne_iff_ne, decide_eq_true_eq] at h
  obtain ⟨⟨⟨⟨⟨⟨⟨⟨h1, h2⟩, h3⟩, h4⟩, h5⟩, h9, h10⟩, h6⟩, h7⟩, h8⟩ := h
  exact ⟨h1, by decide, h2, h3, h4, h5, intact_empty h9 h10, h6, h7, h8⟩

/-- The command of the context is due in the state that holds it. -/
def due (op : Nat) (c : Ctx) : Bool := isDue (put c) op c
theorem due_put {op : Nat} {c : Ctx} (h : due op c = true) : Due (put c) 5 op c := due_of h
theorem working_put {op : Nat} {c : Ctx} (h : due op c = true) : Working (put c) 5 op c :=
  let d := due_of h
  ⟨d.held, d.data, d.op, d.working, d.begun, d.cls⟩

/-- Slice 1 with one unit of each table and a record limit, and the tombstone table of the domain, over given buckets. -/
def vst (limit : Nat) (bs : List Bucket) (c : Ctx) : State :=
  { put c with
    slices := [(0, { Slice.zero with cfg := { SliceCfg.zero with tableMap := [0, 0, 0, 0, 1], recordLimit := limit } }),
               (1, { Slice.none with st := .active, cfg := { SliceCfg.zero with tableMap := [1, 1, 1, 1, 0], recordLimit := limit } })]
    vault := { keyed.vault with buckets := bs, tree := ⟨[(0, zeros 80)], [], [], [], []⟩ } }

/-- A seam pair of set 1 that may sign. -/
def spair : SeamPair :=
  { st := .ready, set := 1, slice := 1, serial := 1, scalar := zeros 48, seed := zeros 32, pub := zeros 256, refSlot := none, next := 5
    reservedTo := 4096, builtTo := 4096, capturing := false, capTick := 0, failed := false, skip := 0, cached := true, retiring := false }

/-! ### Posts -/

theorem inv_reset : Safety.Inv State.reset := ⟨by decide, by decide, by decide⟩
theorem issues_reset : Issues State.reset 0 := ⟨by decide, by decide⟩

/-- Post 0 with g2 = FFFFFFFEH, g3 = 35, acc = 3 · 2^64 + 2 · 2^32 + 1 and one return entry. -/
def alu : State :=
  post0 (fun x => { x with g := [(2, 0xFFFFFFFE#32), (3, 35#32)], acc := 0x000000030000000200000001#96, rs := [0x100#32] })

/-- R309, R314 to R316, R327, R331: values of the register instructions, by hand. -/
theorem test_alu_or : [Instr.add 0 1 2 3, .sub 0 1 2 3, .and 0 1 2 3, .or 0 1 2 3, .xor 0 1 2 3].map
    (fun i => (getPost (after alu i) 0).getG 1) = [33#32, 0xFFFFFFDB#32, 34#32, 0xFFFFFFFF#32, 0xFFFFFFDD#32] := by decide
theorem test_alu_shift : [Instr.sll 0 1 2 3, .srl 0 1 2 3, .sra 0 1 2 3, .slli 0 1 3 4, .srli 0 1 2 31, .srai 0 1 2 31].map
    (fun i => (getPost (after alu i) 0).getG 1) =
    [0xFFFFFFF0#32, 0x1FFFFFFF#32, 0xFFFFFFFF#32, 560#32, 1#32, 0xFFFFFFFF#32] := by decide
theorem test_alu_set : [Instr.slt 0 1 2 3, .sltu 0 1 2 3, .slti 0 1 2 0xFFFF, .sltiu 0 1 2 0xFFFF, .selz 0 3 2 0, .selz 0 3 2 2].map
    (fun i => (getPost (after alu i) 0).getG (if i = .selz 0 3 2 0 ∨ i = .selz 0 3 2 2 then 3 else 1)) =
    [1#32, 0#32, 1#32, 1#32, 0xFFFFFFFE#32, 35#32] := by decide
theorem test_alu_imm : [Instr.addi 0 1 3 0xFFFF, .andi 0 1 2 0xFFFF, .ori 0 1 3 0x8000, .xori 0 1 3 1, .lui 0 1 0x1234].map
    (fun i => (getPost (after alu i) 0).getG 1) = [34#32, 0xFFFE#32, 0x8023#32, 34#32, 0x12340000#32] := by decide
theorem test_alu_mul : [Instr.mul 0 1 2 3, .mulhu 0 1 2 3, .mulh 0 1 2 3].map
    (fun i => (getPost (after alu i) 0).getG 1) = [0xFFFFFFBA#32, 34#32, 0xFFFFFFFF#32] := by decide
theorem test_alu_moves : [Instr.accrd 0 1 0, .accrd 0 1 1, .accrd 0 1 2, .rsdepth 0 1, .tick 0 1, .tget 0 2 1 1, .ttag 0 2 1,
    .feat 0 1 2].map
    (fun i => (getPost (after alu i) 0).getG 1) =
    [1#32, 2#32, 3#32, 1#32, 0#32, 0xFFFFFFFF#32, 1#32, 0x03E00400#32] := by decide
/-- R309: a write of `g0` writes nothing, and the post goes on. -/
theorem test_g0 : (getPost (after alu (.add 0 0 2 3)) 0).getG 0 = 0#32 ∧ (getPost (after alu (.add 0 0 2 3)) 0).pc = 0xFFFF0004#32 := by
  decide

/-- RegisterResults: every instruction it names, at reset. -/
theorem test_hyp_RegisterResults :
    (∀ i ∈ [Instr.add 0 1 2 3, .sub 0 1 2 3, .and 0 1 2 3, .or 0 1 2 3, .xor 0 1 2 3, .sll 0 1 2 3, .srl 0 1 2 3, .sra 0 1 2 3,
      .slt 0 1 2 3, .sltu 0 1 2 3, .selz 0 1 2 3, .mul 0 1 2 3, .mulhu 0 1 2 3, .mulh 0 1 2 3, .slli 0 1 2 31, .srli 0 1 2 31,
      .srai 0 1 2 31, .addi 0 1 2 0xFFFF, .slti 0 1 2 0, .sltiu 0 1 2 0, .andi 0 1 2 0, .ori 0 1 2 0, .xori 0 1 2 0, .lui 0 1 0,
      .accrd 0 1 2, .rsdepth 0 1, .feat 0 1 0, .tick 0 1, .tget 0 15 1 3, .ttag 0 0 1],
      (aluOf State.reset i).map (fun r => (r.1, r.2.1)) = some (0, 1)) ∧
    Memory.wf State.reset.mem = true ∧ Safety.regsWf State.reset.regs = true ∧ Safety.postsWf State.reset.posts = true ∧
    postServes State.reset 0 = true ∧ (fetchPost State.reset 0).1 = none := by decide

/-- AccumulatorMovesAndCycle: accsh, accz, accwr and cyc run on this state. -/
theorem test_hyp_AccumulatorMovesAndCycle : Safety.Inv alu ∧ Issues alu 0 ∧ (2 : Nat) < 3 :=
  ⟨⟨by decide, by decide, by decide⟩, ⟨by decide, by decide⟩, by decide⟩
theorem test_acc : (getPost (after alu (.accsh 0 1)) 0).acc = 0x0000000300000002#96 ∧
    (getPost (after alu (.accz 0)) 0).acc = 0#96 ∧ (getPost (after alu (.accwr 0 3 2)) 0).acc = 0x000000230000000200000001#96 := by
  decide

/-- Branches: taken and not taken, outside a delay slot. -/
theorem test_hyp_Branches : (∀ i ∈ [Instr.beq 0 1 2 (-1), .bne 0 1 2 3, .blt 0 1 2 3, .bge 0 1 2 3, .bltu 0 1 2 3, .bgeu 0 1 2 3,
      .j 0 5, .jr 0 2], (branchOf i).map (fun r => r.1) = some 0) ∧
    Memory.wf alu.mem = true ∧ Safety.regsWf alu.regs = true ∧ Safety.postsWf alu.posts = true ∧
    postServes alu 0 = true ∧ (fetchPost alu 0).1 = none ∧ (getPost alu 0).delay = none := by decide
theorem test_branch : (getPost (after alu (.blt 0 2 3 (-1))) 0).delay = some ⟨0xFFFF0000#32, some 0xFFFF0000#32, none, false⟩ ∧
    (getPost (after alu (.bltu 0 2 3 (-1))) 0).delay = some ⟨0xFFFF0000#32, none, none, false⟩ := by decide

/-- CallsAndReturnStack: a stack with one entry, and a full one under RSWRAP or not. -/
theorem test_hyp_Calls : Safety.Inv alu ∧ Issues alu 0 ∧ (getPost alu 0).delay = none ∧ pushes alu 0 ∧
    (getPost alu 0).rs = 0x100#32 :: [] := ⟨⟨by decide, by decide, by decide⟩, ⟨by decide, by decide⟩, by decide, .inl (by decide), by decide⟩
/-- Sixteen entries, with RSWRAP. -/
def fullRs : State :=
  setF (post0 (fun x => { x with rs := (List.range 16).map (fun i => BitVec.ofNat 32 (4 * i)) })) (pstFld 0 Reg.PST_CTRL_RSWRAP) 1
theorem test_hyp_Calls_full : Safety.Inv fullRs ∧ Issues fullRs 0 ∧ (getPost fullRs 0).delay = none ∧ pushes fullRs 0 ∧
    (getPost fullRs 0).rs.length = 16 := ⟨⟨by decide, by decide, by decide⟩, ⟨by decide, by decide⟩, by decide, .inr (by decide), by decide⟩
theorem test_rspush_wraps : ((getPost (after fullRs (.rspush 0 0)) 0).rs.getLast?) = some 56#32 := by decide

/-- TrapsBeforeAnyEffect: a trap of each instruction that raises one on its own operands, at reset (its stack is empty). -/
theorem test_hyp_Traps : (∀ e ∈ [(Instr.illegal 0, xIllegal), (.trap 0 63, xTrap), (.accrd 0 1 3, xIllegal), (.accwr 0 1 3, xIllegal),
      (.tget 0 1 1 4, xIllegal), (.tbound 0 1 1 31, xIllegal), (.eret 0 1, xIllegal), (.ret 0, xRsUnder), (.rspop 0 1, xRsUnder),
      (.tcall 0 1 2, xTenon), (.dmac 0 0 1 2 false false, xDmac), (.lw 0 1 0 0 2, xAlign), (.lb 0 1 0 15 0, xTenon),
      (.lbu 0 1 0 15 0, xTenon), (.lh 0 1 0 0 1, xAlign), (.lhu 0 1 0 0 1, xAlign), (.tld 0 1 0 0 8, xAlign), (.sb 0 1 0 15 0, xTenon),
      (.sh 0 1 0 0 1, xAlign), (.sw 0 1 0 0 1, xAlign), (.tst 0 1 0 0 8, xAlign)],
      (trapOf State.reset e.1).map (fun r => (r.1, r.2.cause)) = some (0, e.2)) ∧
    Memory.wf State.reset.mem = true ∧ Safety.regsWf State.reset.regs = true ∧ Safety.postsWf State.reset.posts = true ∧
    postServes State.reset 0 = true ∧ (fetchPost State.reset 0).1 = none := by decide
/-- A full return stack without RSWRAP. -/
theorem test_hyp_Traps_rs : let s := post0 (fun x => { x with rs := List.replicate 16 0#32 })
    (∀ i ∈ [Instr.call 0 1, .callr 0 1, .rspush 0 1], (trapOf s i).map (fun r => (r.1, r.2.cause)) = some (0, xRsOver)) ∧
    Memory.wf s.mem = true ∧ Safety.regsWf s.regs = true ∧ Safety.postsWf s.posts = true ∧
    postServes s 0 = true ∧ (fetchPost s 0).1 = none := by decide
/-- A post in a delay slot, and one without FRAME. -/
theorem test_hyp_Traps_slot : let s := post0 (fun x => { x with pct := Tenon.mk' 1 0x05 0xFFFF0000 0xFFFFFFFF 0 0
                                                                delay := some ⟨0xFFFF0004#32, none, none, false⟩ })
    (getPost s 0).delay.isSome = true ∧ slotForbidden (.call 0 1) = some 0 ∧
    (trapOf s (.rqsub 0 1 2 0 0 0 0 [] ⟨.plain, true⟩)).map (fun r => (r.1, r.2.cause)) = some (0, xIllegal) ∧
    (trapOf s (.rqwait 0 1 2 0#32)).map (fun r => (r.1, r.2.cause)) = some (0, xIllegal) ∧
    Memory.wf s.mem = true ∧ Safety.regsWf s.regs = true ∧ Safety.postsWf s.posts = true ∧
    postServes s 0 = true ∧ (fetchPost s 0).1 = none := by decide

/-- Post 0 with pointers: g2 in the loft, g3 and g4 in the two halves of the own store, g5 at a register page, g6 a number. -/
def ptr : State :=
  setF { post0 (fun x => { x with g := [(2, 0x02000000#32), (3, 0x0007FFFC#32), (4, 0x00080000#32), (5, 0x40026104#32), (6, 0x89ABCDEF#32),
                                   (7, 0x4001B010#32), (8, 0x40033004#32)] }) with
    mem := [(0x0107FFFC, 0xFF#8), (0x01080000, 0x02#8), (0x02000000, 0x80#8), (0x02000001, 0x81#8)], tags := [(0x01080000 / 16, true)] } Reg.RNG_STAT_ERR 0
theorem ptr_ok : Safety.Inv ptr ∧ Issues ptr 0 := ⟨⟨by decide, by decide, by decide⟩, ⟨by decide, by decide⟩⟩
theorem ptr_none (g : Nat) : nonePosted ptr 0 g := by unfold nonePosted; rfl

/-- LoadsFromMemory: each load, from the loft and from the own store; TLD of a tagged granule. -/
theorem test_hyp_Loads : (∀ i ∈ [Instr.lb 0 1 2 1 0, .lh 0 1 2 1 0, .lw 0 1 2 1 0, .lbu 0 1 2 1 0, .lhu 0 1 2 1 0],
      (loadOf i).map (fun r => (r.1, r.2.1)) = some (0, 1)) ∧
    Safety.Inv ptr ∧ Issues ptr 0 ∧ Reaches ptr 0 1 0x02000000 4 permR .read ∧ gateOf 0 0x02000000 ≤ 10 ∧ nonePosted ptr 0 8 ∧
    Reaches ptr 0 0 0x00080000 16 permR .read ∧ gateOf 0 0x00080000 ≤ 10 ∧ nonePosted ptr 0 0 :=
  ⟨by decide, ptr_ok.1, ptr_ok.2, ⟨by decide, by decide, by decide⟩, by decide, ptr_none 8, ⟨by decide, by decide, by decide⟩, by decide,
   ptr_none 0⟩
theorem test_loads : [Instr.lb 0 1 2 1 0, .lh 0 1 2 1 0, .lw 0 1 2 1 0, .lbu 0 1 2 1 0, .lhu 0 1 2 1 0].map
    (fun i => (getPost (after ptr i) 0).getG 1) = [0xFFFFFF80#32, 0xFFFF8180#32, 0x8180#32, 0x80#32, 0x8180#32] := by decide
theorem test_tld : (getPost (after ptr (.tld 0 5 4 0 0)) 0).getT 5 = ⟨2#128, true⟩ ∧
    (getPost (after ptr (.tld 0 5 2 1 0)) 0).getT 5 = ⟨0x8180#128, false⟩ := by decide

/-- LoadsFromRegisterPages: a word of a page, and RNG_DATA with no word ready (R264). -/
theorem test_hyp_LoadsFromRegisterPages : Safety.Inv ptr ∧ Issues ptr 0 ∧
    Reaches ptr 0 1 0x40026104 4 permR .read ∧ gateOf 0 0x40026104 = 11 ∧ nonePosted ptr 0 11 ∧ rngErr ptr = false ∧ ptr.rng.fifo = [] ∧
    Reaches ptr 0 1 0x40026100 4 permR .read ∧ gateOf 0 0x40026100 = 11 :=
  ⟨ptr_ok.1, ptr_ok.2, ⟨by decide, by decide, by decide⟩, by decide, ptr_none 11, by decide, by decide, ⟨by decide, by decide, by decide⟩,
   by decide⟩
theorem test_held_read : (getPost (after ptr (.lw 0 9 5 1 0)) 0).held = some 9 ∧ (after ptr (.lw 0 9 5 1 0)).rng.waiting = [0] := by
  decide

/-- StoresToTheOwnStore: each store, at the last bytes of the own store that its tenon reaches. -/
theorem test_hyp_StoresToTheOwnStore : (∀ i ∈ [Instr.sb 0 6 4 0 0, .sh 0 6 4 0 0, .sw 0 6 4 0 0], (storeOf i).map (fun r => r.1) = some 0) ∧
    Safety.Inv ptr ∧ Issues ptr 0 ∧ Reaches ptr 0 0 0x00080000 4 permW .write ∧ Reaches ptr 0 0 0x000FFBFC 4 permW .write ∧
    Reaches ptr 0 0 0x000FFBF0 16 permW .write :=
  ⟨by decide, ptr_ok.1, ptr_ok.2, ⟨by decide, by decide, by decide⟩, ⟨by decide, by decide, by decide⟩, ⟨by decide, by decide, by decide⟩⟩
theorem test_stores : [Instr.sb 0 6 4 0 0, .sh 0 6 4 0 0, .sw 0 6 4 0 0].map (fun i => memRead (after ptr i) 0x01080000 4) =
    [[0xEF#8, 0#8, 0#8, 0#8], [0xEF#8, 0xCD#8, 0#8, 0#8], [0xEF#8, 0xCD#8, 0xAB#8, 0x89#8]] ∧
    (after ptr (.sb 0 6 4 0 0)).tags = [] := by decide
theorem test_tst : tget false (after ptr (.tst 0 0 3 0 4)).tags (0x01080000 / 16) = true ∧
    tget false (after ptr (.tst 0 9 3 0 4)).tags (0x01080000 / 16) = false := by decide

/-- StoresElsewhereArePosted: to another bent's store, to the loft, to a register page; TST to a tenon slot. -/
theorem test_hyp_StoresElsewhereArePosted : Safety.Inv ptr ∧ Issues ptr 0 ∧
    ((getPost ptr 0).getT 1).allows 0x02000000 4 permW = true ∧ gateOf 0 0x02000000 ≤ 11 ∧
    ((getPost ptr 0).getT 1).allows 0x02000000 16 permW = true ∧ slotOf 0x02000000 = none ∧
    Reaches ptr 0 1 0x400414A0 16 permW .write ∧ slotOf 0x400414A0 = some (1, false) ∧
    slotOf 0x400414B0 = some (1, true) ∧ ((getPost ptr 0).getT 0).tag = true ∧ nonePosted ptr 0 11 :=
  ⟨ptr_ok.1, ptr_ok.2, by decide, by decide, by decide, by decide, ⟨by decide, by decide, by decide⟩, by decide, by decide, by decide,
   ptr_none 11⟩

/-- DualFetchMultiply, at the last word of the lower half and the first of the upper (R325). -/
theorem test_hyp_DualFetch : Safety.Inv ptr ∧ Issues ptr 0 ∧ ((getPost ptr 0).getG 3).toNat ≤ 0x0007FFFF ∧
    0x00080000 ≤ ((getPost ptr 0).getG 4).toNat ∧ Reaches ptr 0 0 0x0007FFFC 4 permR .read ∧ Reaches ptr 0 0 0x00080000 4 permR .read ∧
    nonePosted ptr 0 0 :=
  ⟨ptr_ok.1, ptr_ok.2, by decide, by decide, ⟨by decide, by decide, by decide⟩, ⟨by decide, by decide, by decide⟩, ptr_none 0⟩
theorem test_dmac : let y := getPost (after ptr (.dmac 0 0 3 4 true false)) 0
    y.acc = 510#96 ∧ y.getG 3 = 0x0007FFF8#32 ∧ y.getG 4 = 0x00080004#32 := by decide

/-- Tenons: t4 sealed with type 5, t5 a sealer of type 5, t6 untagged; g2 names t5 and g4, g5 give bounds. -/
def ten : State :=
  post0 (fun x => { x with g := [(2, 5#32), (4, 0x100#32), (5, 0x1FF#32)]
                           t := x.t ++ [(4, Tenon.mk' 1 0x21 0 0xFFF 0x10 5), (5, Tenon.mk' 3 3 5 5 0 0), (6, ⟨1#128, false⟩),
                                        (7, Tenon.mk' 1 0x21 0 0xFFF 0 5)] })
theorem ten_ok : Safety.Inv ten ∧ Issues ten 0 := ⟨⟨by decide, by decide, by decide⟩, ⟨by decide, by decide⟩⟩
theorem test_hyp_Tenons : Safety.Inv ten ∧ Issues ten 0 ∧ sealerFor ((getPost ten 0).getT 5) 0 ∧ ((getPost ten 0).getT 0).tag = true ∧
    ((getPost ten 0).getT 0).otype = 0 ∧ ((getPost ten 0).getT 0).kind ≠ 0 ∧ sealerFor ((getPost ten 0).getT 5) 1 ∧
    ((getPost ten 0).getT 4).tag = true ∧ ((getPost ten 0).getT 4).otype = ((getPost ten 0).getT 5).base ∧
    ¬ sealerFor ((getPost ten 0).getT 6) 0 ∧ 4 % 32 ≠ 31 :=
  ⟨ten_ok.1, ten_ok.2, by unfold sealerFor; decide, by decide, by decide, by decide, by unfold sealerFor; decide, by decide, by decide,
   by unfold sealerFor; decide, by decide⟩
theorem test_tenons : let d := fun i => (getPost (after ten i) 0).getT 8
    d (.tmov 0 8 1) = (getPost ten 0).getT 1 ∧ d (.tnull 0 8) = ⟨0#128, false⟩ ∧ d (.tbound 0 8 0 4) = Tenon.mk' 1 0x3F 0x100 0x1FF 0x100 0 ∧
    d (.tperm 0 8 0 5) = Tenon.mk' 1 0 0 0x000FFBFF 0 0 ∧ d (.tseal 0 8 0 2) = Tenon.mk' 1 0x3F 0 0x000FFBFF 0 5 ∧
    d (.tunseal 0 8 4 2) = Tenon.mk' 1 0x21 0 0xFFF 0x10 0 ∧ (d (.tbound 0 8 5 4)).tag = false := by decide
/-- TenonsAreNeverWidened: a derivation whose result is tagged. -/
theorem test_hyp_TenonsAreNeverWidened : Safety.Inv ten ∧ Issues ten 0 ∧ exec (.tbound 0 8 0 4) ten = .next (after ten (.tbound 0 8 0 4)) ∧
    ((getPost (after ten (.tbound 0 8 0 4)) 0).getT 8).tag = true := ⟨ten_ok.1, ten_ok.2, rfl, by decide⟩

/-- The bytes of a descriptor at `a` that differ from zero: the code tenon and the stack tenon. -/
def descAt (a : Nat) : List Host.Cell :=
  [(a + 4, 0xFF#8), (a + 5, 0xFF#8), (a + 9, 0x20#8), (a + 12, 0x25#8), (a + 13, 1#8),
   (a + 17, 0x80#8), (a + 20, 0xFF#8), (a + 21, 0xBF#8), (a + 25, 0xC0#8), (a + 28, 3#8), (a + 29, 1#8)]
def vec : State :=
  setReg { State.reset with
    mem := descAt 0x01001020 ++ descAt 0x01001140 ++ descAt 0x01001200
    tags := [(0x100102, true), (0x100103, true), (0x100114, true), (0x100115, true), (0x100120, true), (0x100121, true)] }
    (pstKey 0 Reg.PST_VBASE) 0x1000#32
theorem vec_ok : Safety.Inv vec ∧ Issues vec 0 := ⟨⟨by decide, by decide, by decide⟩, ⟨by decide, by decide⟩⟩

/-- TrapEntersItsVector: the frame goes to BFF0H, as in the example of 15_tenons. -/
theorem test_hyp_TrapEnters : Safety.Inv vec ∧ Issues vec 0 ∧ (getPost vec 0).delay = none ∧
    EntryOpen vec 0 xTrap 0x1140 0xBFF0 codeT stackT ∧ EntryOpen vec 0 xIllegal 0x1020 0xBFF0 codeT stackT :=
  ⟨vec_ok.1, vec_ok.2, by decide, ⟨by decide, by decide, by decide, by decide, by decide, by decide, by decide, by decide⟩,
   ⟨by decide, by decide, by decide, by decide, by decide, by decide, by decide, by decide⟩⟩
theorem test_trap_entry : let t := after vec (.trap 0 5)
    (getPost t 0).pc = 0x2000#32 ∧ (getPost t 0).getG 31 = 0xBFF0#32 ∧ (getPost t 0).pct = codeT ∧ (getPost t 0).getT 15 = stackT ∧
    postDepth t 0 = 1 ∧ getReg t (pstKey 0 Reg.PST_XADDR) = 0xFFFF0000#32 := by decide

/-- InterruptEntersItsVector: line 3 is the lowest pending and enabled one. -/
def irq : State :=
  let s := setF (setF (setF (setPost vec 0 { Post.reset 0 with issued := true }) (pstFld 0 Reg.PST_CTRL_IRQ) 1)
    (pstFld 0 Reg.PST_IRQ_PEND_LINES) 0x2A) (pstFld 0 Reg.PST_IRQ_LEN_LINES) 0x38
  s
theorem test_hyp_InterruptEnters : Safety.Inv irq ∧ (getPost irq 0).issued = true ∧ postServes irq 0 = true ∧
    (getPost irq 0).delay = none ∧ postDepth irq 0 = 0 ∧ flag irq (pstFld 0 Reg.PST_CTRL_IRQ) = true ∧
    EntryOpen irq 0 xInterrupt 0x1200 0xBFF0 codeT stackT ∧
    bitAt (getF irq (pstFld 0 Reg.PST_IRQ_PEND_LINES)) 3 = true ∧ bitAt (getF irq (pstFld 0 Reg.PST_IRQ_LEN_LINES)) 3 = true ∧
    (∀ k, k < 3 → ¬ (bitAt (getF irq (pstFld 0 Reg.PST_IRQ_PEND_LINES)) k = true ∧
      bitAt (getF irq (pstFld 0 Reg.PST_IRQ_LEN_LINES)) k = true)) :=
  ⟨⟨by decide, by decide, by decide⟩, by decide, by decide, by decide, by decide, by decide,
   ⟨by decide, by decide, by decide, by decide, by decide, by decide, by decide, by decide⟩, by decide, by decide, by decide⟩
theorem test_interrupt : (getPost (after irq (.interrupt 0)) 0).pc = 0x2000#32 ∧ after vec (.interrupt 0) = vec ∧
    after irq (.interrupt 2) = irq := by decide

/-- TcallInvokesASealedPair: a code and a data tenon of type 5. -/
def pair : State :=
  post0 (fun x => { x with t := x.t ++ [(4, Tenon.mk' 1 0x25 0x2000 0x2FFF 0x2000 5), (5, Tenon.mk' 1 0x03 0x3000 0x3FFF 0x3000 5)] })
theorem test_hyp_Tcall : Safety.Inv pair ∧ Issues pair 0 ∧ (getPost pair 0).delay = none ∧
    (let c := (getPost pair 0).getT 4; let d := (getPost pair 0).getT 5
     c.tag = true ∧ d.tag = true ∧ c.kind = 1 ∧ d.kind = 1 ∧ c.otype ≠ 0 ∧ c.otype = d.otype ∧ c.has permX = true ∧ c.cursor % 4 = 0 ∧
     c.base ≤ c.cursor ∧ c.cursor ≤ c.top) := ⟨⟨by decide, by decide, by decide⟩, ⟨by decide, by decide⟩, by decide, by decide⟩
theorem test_tcall : let y := getPost (after pair (.tcall 0 5 4)) 0
    y.pc = 0x2000#32 ∧ y.pct = Tenon.mk' 1 0x25 0x2000 0x2FFF 0x2000 0 ∧ y.getT 5 = Tenon.mk' 1 0x03 0x3000 0x3FFF 0x3000 0 := by decide

/-- SealedReturn: a frame at BFF0H that returns to 2008H under t1. -/
def retBase : State :=
  setF (setReg State.reset (frameKey 0 0) 0xBFF0#32) (pstFld 0 Reg.PST_STAT_DEPTH) 1
def retFrame : Bytes := frameBytes retBase 0 0x2008#32 3 (authPrint retBase 0 ((getPost retBase 0).getT 1)) 1
def ret : State := memWrite retBase 0x0100BFF0 retFrame

/-- What memory holds does not decide whether a post issues. -/
theorem access_mem (s : State) (m : List Host.Cell) (p a : Nat) (k : Acc) :
    (access { s with mem := m } p a k).1 = (access s p a k).1 := by
  unfold access
  simp only [apply_ite Prod.fst]
  rfl
theorem issues_mem {s : State} {p : Nat} (m : List Host.Cell) (h : Issues s p) : Issues { s with mem := m } p := by
  refine ⟨h.1, ?_⟩
  have h2 := h.2
  have ha := access_mem s m p (getPost s p).pc.toNat .fetch
  unfold fetchPost at h2 ⊢
  simp only [apply_ite Prod.fst] at h2 ⊢
  refine Eq.trans ?_ h2
  have hp : getPost { s with mem := m } p = getPost s p := rfl
  have hf : ∀ a b, flashKind { s with mem := m } a b = flashKind s a b := fun _ _ => rfl
  simp only [hp, hf, ha]

theorem left24_lt (b : Bytes) : left24 b < 2 ^ 24 := by
  unfold left24 beNat
  match b with
  | [] => simp
  | [x] => have := x.isLt; simp [List.take]; omega
  | [x, y] => have := x.isLt; have := y.isLt; simp [List.take]; omega
  | x :: y :: z :: r => have := x.isLt; have := y.isLt; have := z.isLt; simp [List.take]; omega

theorem frame_parts (s : State) (p : Nat) (a : Word) (fl f k : Nat) (hf : fl < 2 ^ 16) (hp : f < 2 ^ 24) :
    (frameBytes s p a fl f k).length = 16 ∧ leNat ((frameBytes s p a fl f k).take 2) = fl ∧
    leNat (((frameBytes s p a fl f k).drop 2).take 3) = f ∧
    leNat (((frameBytes s p a fl f k).drop 5).take 3) = frameSeal s p a fl f k ∧
    leNat (((frameBytes s p a fl f k).drop 8).take 4) = a.toNat := by
  have hs : frameSeal s p a fl f k < 2 ^ 24 := left24_lt _
  have ha := a.isLt
  unfold frameBytes
  generalize frameSeal s p a fl f k = m at hs
  generalize a.toNat = n at ha
  refine ⟨rfl, ?_, ?_, ?_, ?_⟩
  all_goals
    simp only [leBytes, leNat, zeros, List.replicate, List.cons_append, List.nil_append, List.take, List.drop, BitVec.toNat_ofNat]
    omega

theorem test_hyp_SealedReturn : Safety.Inv ret ∧ Issues ret 0 ∧ (getPost ret 0).delay = none ∧ 1 ≤ postDepth ret 0 ∧
    postDepth ret 0 ≤ 4 ∧ postKp ret 0 = false ∧
    (let b := memRead ret (memAddr 0 (getReg ret (frameKey 0 0)).toNat) 16
     ((getPost ret 0).getT 1).tag = true ∧ authPrint ret 0 ((getPost ret 0).getT 1) = leNat ((b.drop 2).take 3) ∧
     frameSeal ret 0 (BitVec.ofNat 32 (leNat ((b.drop 8).take 4))) (leNat (b.take 2)) (leNat ((b.drop 2).take 3)) 1 =
       leNat ((b.drop 5).take 3)) := by
  have hp := frame_parts retBase 0 0x2008#32 3 (authPrint retBase 0 ((getPost retBase 0).getT 1)) 1 (by decide) (left24_lt _)
  have hr : memRead ret 0x0100BFF0 16 = retFrame := by
    have := memRead_memWrite retBase 0x0100BFF0 retFrame
    unfold ret
    rwa [show retFrame.length = 16 from hp.1] at this
  obtain ⟨m, he⟩ : ∃ m, ret = { retBase with mem := m } := ⟨_, memWrite_rest _ _ _⟩
  have hb : Sound [] retBase := ⟨by decide, by decide, by decide, by decide⟩
  have hi : Safety.Inv ret := (memWrite_sound (q := []) hb).inv
  have hk : memAddr 0 (getReg ret (frameKey 0 0)).toNat = 0x0100BFF0 := by rw [he]; rfl
  have hq : leNat (retFrame.take 2) = 3 := hp.2.1
  refine ⟨hi, ?_⟩
  rw [hk, hr]
  dsimp only
  rw [hq, show leNat ((retFrame.drop 2).take 3) = _ from hp.2.2.1, show leNat ((retFrame.drop 5).take 3) = _ from hp.2.2.2.1,
    show leNat ((retFrame.drop 8).take 4) = _ from hp.2.2.2.2, he]
  exact ⟨issues_mem m (show Issues retBase 0 from ⟨by decide, by decide⟩), rfl, Nat.le_refl _, (by decide : (1 : Nat) ≤ 4), (show postKp retBase 0 = false by decide), rfl, rfl, rfl⟩

/-- SealedReturn under a null tenon: the check fails, and without kingpost code the post stops (R345, R346). -/
theorem test_eret_null : flag (after retBase (.eret 0 9)) (pstFld 0 Reg.PST_STAT_STOPPED) = true := by decide

/-- YieldAndFence: a stitch program on post 2, a management post at the kingpost level and outside it. -/
def stitch : State :=
  setPost State.reset 2 { Post.reset 2 with run := true, owner := some 0, slice := 0, pc := 0x100#32, pct := Tenon.mk' 1 0x25 0 0xFFFF 0 0 }
def king : State :=
  setF (post0 (fun x => { x with rs := [4#32], dispatch := Tenon.mk' 1 0x25 0 0xFFFF 0x402 0 })) (pstFld 0 Reg.PST_STAT_KP) 1
theorem test_hyp_Yield : Safety.Inv stitch ∧ (getPost stitch 2).delay = none ∧ Safety.Inv king ∧
    Issues king 0 ∧ (getPost king 0).delay = none ∧ postKp king 0 = true ∧ postKp State.reset 0 = false ∧ State.reset.gates.basting = [] :=
  ⟨⟨by decide, by decide, by decide⟩, by decide, ⟨by decide, by decide, by decide⟩, ⟨by decide, by decide⟩, by decide, by decide, by decide,
   by decide⟩
theorem test_hyp_Yield_stitch : Issues stitch 2 := ⟨by decide, by decide⟩
theorem test_yield : (getPost (after king (.yield 0)) 0).pc = 0x400#32 ∧ (getPost (after king (.yield 0)) 0).rs = [] ∧
    postKp (after king (.yield 0)) 0 = false ∧ (getPost (after stitch (.yield 2)) 2).run = false := by decide

/-- EngineRequests: a request block of two handles at 100H, a key tenon over every handle; a ticket that waits. -/
def rings : State := post0 (fun x => { x with g := [(2, 0x100#32), (3, 1#32)], tickets := [⟨1, 2, 0, none, .plain, 0, []⟩], ticket := 1, work := true })
/-- The same machine a tick later: the ticket's operation can have ended. -/
def later : State := { rings with tick := { rings.tick with count := 1 } }
theorem test_hyp_EngineRequests : Safety.Inv rings ∧ Issues rings 0 ∧ (getPost rings 0).pct.has permFrame = true ∧
    Reaches rings 0 0 0x100 64 permR .read ∧ keyTenonOk ((getPost rings 0).getT 2) [0x0C08C007#32, 0x0C08C407#32] = true ∧
    reqRoom (getPost rings 0) 0 4 true = true ∧ reqRoom (getPost rings 0) 0 300 true = false ∧
    (getPost rings 0).tickets.find? (fun k => k.id == ((getPost rings 0).getG 3).toNat) = some ⟨1, 2, 0, none, .plain, 0, []⟩ ∧ rings.boot.held = false :=
  ⟨⟨by decide, by decide, by decide⟩, ⟨by decide, by decide⟩, by decide, ⟨by decide, by decide, by decide⟩, by decide, by decide,
   by decide, by decide, by decide⟩
/-- A ring whose work a health failure has cut off, and one that it leaves. -/
theorem test_hyp_RingDead : let s := { later with rng := { later.rng with failTick := some 0 } }
    ringDead s 3 = true ∧ ringDead s 2 = false ∧ ringDead later 3 = false := by decide
theorem test_rq : (getPost (after rings (.rqsub 0 9 2 0 0 2 4 [0x0C08C007#32] ⟨.plain, true⟩)) 0).getG 9 = 2#32 ∧
    (getPost (after rings (.rqwait 0 9 3 0#32)) 0).getG 9 = 0#32 ∧
    after rings (.engineRequestReply 0 1 7#32) = rings ∧ rings.tick.count < 0 + askTicks .plain ∧ 0 + askTicks .plain ≤ later.tick.count ∧
    (getPost (after (after later (.engineRequestReply 0 1 7#32)) (.rqwait 0 9 3 0#32)) 0).getG 9 = 7#32 := by decide

/-! ### Queues and the tick -/

/-- The admin queue with 16 entries each way, entries 2 to 4 not yet fetched, on a function that may use the bus. -/
def live : Queue :=
  { Queue.reset with sqBase := 0x100000, cqBase := 0x200000, st := .enabled, en := true, sqHead := 2, sqTail := 5, cqHead := 3
                     cqTail := 7, aggCount := 1 }
def adm (q : Queue) : State := setQueue { State.reset with slices := [(0, { Slice.zero with busOff := false })] } 0 adminQ q

/-- Doorbells in range at both ends of the range (R66): tail 5 to 1, head 3 to 7. -/
theorem test_hyp_Doorbells : windowOpen (adm live) 0 adminQ = true ∧ (getQueue (adm live) 0 adminQ).st = .enabled ∧
    (∀ v ∈ [5, 1], v < sqSize live ∧ modSub 5 2 16 ≤ modSub v 2 16) ∧
    (∀ v ∈ [3, 7], v < cqSize live ∧ modSub 7 v 16 ≤ modSub 7 3 16) ∧ live.heldFetch = 0 ∧ mayFetch (adm live) 0 adminQ = true := by decide
theorem test_tail : let t := after (adm live) (.sqTailDoorbell 0 adminQ 4 1#32)
    (getQueue t 0 adminQ).sqTail = 1 ∧ (getQueue t 0 adminQ).heldFetch = 8 ∧ t.out = [.hostRead 0 none 0x100080 512] := by decide
theorem test_doorbell_dropped : let s := adm { live with st := .stopped }
    windowOpen s 0 adminQ = true ∧ (getReg (after s (.sqTailDoorbell 0 adminQ 4 6#32)) Reg.HQ_DB_DROP).toNat = 1 ∧
    (getReg (after (adm live) (.cqHeadDoorbell 0 adminQ 2 6#32)) Reg.HQ_DB_DROP).toNat = 1 := by decide
theorem test_hyp_QueueControl : let d := { Queue.reset with sqBase := 0x100000, cqBase := 0x200000 }
    windowOpen (adm d) 0 adminQ = true ∧ (getQueue (adm d) 0 adminQ).st = .disabled ∧
    (getQueue (after (adm d) (.queueEnable 0 adminQ)) 0 adminQ).staged = some true ∧
    (getQueue (after (adm Queue.reset) (.queueEnable 0 adminQ)) 0 adminQ).cause = 1 ∧
    (getQueue (after (adm { d with qsize := 0x411#32 }) (.queueEnable 0 adminQ)) 0 adminQ).cause = 2 ∧
    (getQueue (after (adm { d with qsize := 0x405#32 }) (.queueEnable 0 adminQ)) 0 adminQ).cause = 3 ∧
    (getQueue (after (adm { d with qvec := 0x7FF#32 }) (.queueEnable 0 adminQ)) 0 adminQ).staged = some true ∧
    (getQueue (after (adm live) (.queueDisable 0 adminQ)) 0 adminQ).staged = some false ∧
    (getQueue (after (adm d) (.queueDisable 0 adminQ)) 0 adminQ).staged = none := by decide

/-- EntriesArrive: a read of two entries is outstanding. -/
theorem test_hyp_EntriesArrive : (getQueue (adm { live with heldFetch := 2 }) 0 adminQ).st = .enabled ∧
    (getQueue (adm { live with heldFetch := 2 }) 0 adminQ).heldFetch ≠ 0 ∧ (zeros 128).length = 64 * 2 := by decide
theorem test_entries : let t := after (adm { live with heldFetch := 2 }) (.entryFetch 0 adminQ (.data (zeros 128)))
    (getQueue t 0 adminQ).sqHead = 4 ∧ t.fetched.length = 2 ∧ (t.fetched.map (fun f => f.entry.length)) = [64, 64] := by decide

/-- CompletionEntriesAreWritten: two completions wait; the earlier one goes out, at tail 15 with the phase of this pass. -/
def compl (r o : Nat) : Completion :=
  ⟨0, adminQ, 0x1234, 0, false, false, false, false, 0, r, [], false, none, 0, o, o, false⟩
def outgoing : State :=
  let s := adm { live with cqTail := 15, cqHead := 3, phase := true }
  { s with compls := [compl 8 2, compl 9 1], tick := { s.tick with count := 10, span := true } }
theorem test_hyp_Completions : outgoing.tick.span = true ∧ outgoing.faults.safe = false ∧
    egressFree outgoing (flag outgoing Reg.TIK_STAT_PACE_ACT) 0 = true ∧
    (∀ x ∈ outgoing.compls, x.slice = 0 → cqFull (getQueue outgoing x.slice x.queue) = false) ∧
    pickCompl outgoing (flag outgoing Reg.TIK_STAT_PACE_ACT) (outgoing.compls.filter (fun x =>
      flag outgoing Reg.TIK_STAT_PACE_ACT || x.slice == 0)) none = some (compl 8 2) ∧ (compl 8 2).slice = 0 := by decide
theorem test_completion : let t := after outgoing (.completionWrite 0 true)
    (getQueue t 0 adminQ).cqTail = 0 ∧ (getQueue t 0 adminQ).phase = false ∧ t.compls = [compl 9 1] ∧ t.out.length = 1 := by decide

/-- InterruptsOfQueues: one completion counted with a threshold of 0, on a masked and on an unmasked vector. -/
def unmasked : State := { adm live with msixTab := [(12, 0#32)] }
theorem test_hyp_Interrupts : (getQueue (adm live) 0 adminQ).aggCount ≠ 0 ∧ max 1 (aggCnt live) ≤ live.aggCount ∧
    (getSlice (adm live) 0).busOff = false ∧ (adm live).faults.safe = false ∧ (adm live).boot.held = false ∧
    (getSlice (adm live) 0).fnEn = true ∧ msixMasked (adm live) 0 0 = true ∧ msixMasked unmasked 0 0 = false := by decide
theorem test_interrupts : (after unmasked (.interruptDue 0 adminQ)).out = [.msix 0 0] ∧
    msixPending (after (adm live) (.interruptDue 0 adminQ)) 0 0 = true := by decide
theorem test_unmask : msixMasked (after (adm live) (.msixUnmask 0 0)) 0 0 = false := by decide

/-- TicksOpenAndClose: before and inside a span, and before reset release. -/
theorem test_hyp_Ticks : Safety.Inv begun ∧ ticking begun = true ∧ begun.tick.span = false ∧ ticking (span 5 begun) = true ∧
    (span 5 begun).tick.span = true ∧ ticking State.reset = false ∧ Safety.Inv (span 5 begun) ∧
    begun.faults.safe = false ∧ begun.faults.safeDue = false ∧ begun.rng.waiting = [] :=
  ⟨⟨by decide, by decide, by decide⟩, by decide, by decide, by decide, by decide, by decide, ⟨by decide, by decide, by decide⟩, by decide,
   by decide, by decide⟩
theorem test_tick_start : (after begun .tickStart).tick.span = true ∧
    (getPost (after (setPost begun 2 { Post.reset 2 with owner := some 0, dispatch := codeT }) .tickStart) 2).pc = 0x2000#32 := by decide

/-- GovernorTestsAndFences: an up-step due at step 3, a needle under test, a fence with its drain over and its length over. -/
def governed : State :=
  let s := setF (setF (setF begun Reg.GOV_STAT_STEP 3) Reg.GOV_STAT_DROOP 0) Reg.GOV_UPDWELL_N 0
  { s with tick := { s.tick with count := 101, span := true, testNeedle := some 5, fence := some ⟨10, 20, 90, 4032, false⟩ } }
/-- The same state in the kerf of tick 100. -/
def atKerf : State := { governed with tick := { governed.tick with span := false } }
theorem test_hyp_Governor : serves governed ∧ serves atKerf ∧ flag atKerf Reg.GOV_STAT_DROOP = false ∧ atKerf.tick.span = false ∧
    0 < atKerf.tick.count ∧ upDue (inTick atKerf (atKerf.tick.count - 1)) = true ∧ (10 + 20 < atKerf.tick.count) ∧
    10 + 90 < atKerf.tick.count ∧ atKerf.tick.fence = some ⟨10, 20, 90, 4032, false⟩ ∧
    governed.tick.span = true ∧ governed.tick.testNeedle = some 5 ∧ governed.tick.fence = some ⟨10, 20, 90, 4032, false⟩ :=
  ⟨⟨by decide, by decide⟩, ⟨by decide, by decide⟩, by decide, by decide, by decide, by decide, by decide, by decide, by decide,
   by decide, by decide, by decide⟩
theorem test_governor : getF (after atKerf .governorStepUp) Reg.GOV_STAT_STEP = 2 ∧ after governed .governorStepUp = governed ∧
    getF (after governed (.govTempUpdate 0xF0#8)) Reg.GOV_TEMP_DEG = 0xF0 ∧
    getReg (after governed (.rotatingTest true)) Reg.NDL_KAT_TICK = 101#32 ∧
    (after governed (.rotatingTest false)).faults.fired.length = 1 ∧ flag (after atKerf .fenceSuiteStart) Reg.TIK_STAT_SUITE = true ∧
    (after atKerf (.fenceEnd 0 0 0 0)).tick.fence = none ∧ (after governed (.fenceEnd 1 0 0 0)).tick.suiteFails = [1, 0, 0, 0] ∧
    (after atKerf (.fenceEnd 1 0 0 0)).faults.fired.length = 1 ∧
    (after (setReg atKerf Reg.NDL_HALTED 1#32) (.fenceEnd 1 0 0 0)).faults.fired = [] := by decide

/-! ### Resets, the thimble domain, the monitors, wear -/

/-- ResetsHoldTheDie: every row that resets, in a state in which it acts, and the rows that then do nothing. -/
theorem test_hyp_Resets : let s := { begun with boot := { begun.boot with selfReset := some 0 } }
    [Instr.perstN, .crstN, .fclCold 0xC01D#32, .selfReset, .mainPowerLoss].map (resetRow s) = [some 1, some 2, some 3, some 3, some 3] ∧
    (0xC01E#32 : Word) ≠ 0xC01D#32 ∧ (after s .mainPowerLoss).thm.main = false ∧ s.thm.main = true ∧ s.reserveDue = [] ∧
    s.vault.pendingAnchor = none ∧
    ((after { s with vault := { s.vault with pendingAnchor := some ⟨7, 0, 0, [], []⟩ } } .perstN).vault.anchors.map (·.number)) = [7] := by decide
theorem test_reset : let t := after (span 77 { begun with mem := [(0x02000000, 1#8)], ledger := [([1#8], 5)] }) .perstN
    t.boot.held = true ∧ t.tick.count = 0 ∧ t.mem = [] ∧ t.ledger = [([1#8], 5)] ∧ getF t Reg.HLK_RST_CAUSE = 1 := by decide

/-- StartUpToRun: reset release, the sill log, RUN with every condition true, and a stall at tick 2^19. -/
def allReady : State :=
  [Reg.NDL_STAT_READY, Reg.LDU_STAT_READY, Reg.PUR_STAT_READY, Reg.HSH_STAT_READY, Reg.SHT_STAT_READY, Reg.FLS_STAT_READY,
   Reg.SIL_STAT_READY, Reg.KST_STAT_READY, Reg.VLT_STAT_READY, Reg.RNG_STAT_READY, Reg.THM_STAT_READY, Reg.OFC_STAT_READY,
   Reg.GTE_STAT_READY, Reg.NDL_STAT_IV_OK, Reg.MON_STAT_ARMED, Reg.SLC_STAT_RESTORED, Reg.LCY_CTRL_BOOTED].foldl
    (fun s f => setFlag s f true) begun
theorem test_hyp_StartUp : State.reset.thm.main = true ∧ State.reset.boot.begun = false ∧ begun.boot.begun = true ∧
    begun.boot.held = false ∧ begun.boot.dead = false ∧ flag begun Reg.SIL_STAT_READY = false ∧ begun.nv.silWait = [] ∧
    silCount begun 0 < 1000000 ∧ booting allReady = true ∧ (∀ b ∈ runConds allReady, b = true) ∧
    booting (span (2 ^ 19) begun) = true ∧ (runConds (span (2 ^ 19) begun))[0]? = some false := by decide
/-- The memory's keys stand, or do not. -/
theorem test_hyp_StartUp_sram : State.reset.sram.scramble = [] ∧ ({ State.reset with sram := ⟨[zeros 8], zeros 16⟩ } : State).sram.scramble ≠ [] := by
  decide
theorem test_run : running (after allReady .runStart) = true ∧ getF (after (span (2 ^ 19) begun) .bootStalled) Reg.LCY_POST_WAIT = 1 ∧
    (after State.reset (.resetRelease 0)).boot.begun = true ∧ flag (after begun .sillLogRead) Reg.SIL_STAT_READY = true := by decide

/-- ThimbleDomainEvents: main power off; a loop armed with ERASE; its window over; a switch that closed once. -/
def thimble : State :=
  { begun with thm := { begun.thm with key := [7#8], loops := [(2, { ThmLoop.zero with mode := 2, ref := 1000, ohm := 1000 })]
                                       switches := [(1, ⟨2, true, 1⟩)], arming := some 0x01000005#32 } }
theorem test_hyp_Thimble : { begun with thm := { begun.thm with main := false } }.thm.main = false ∧ (getLoop thimble 2).mode ≠ 0 ∧
    (getLoop thimble 2).window = none ∧ (getLoop thimble 2).a = false ∧ (getLoop thimble 2).b = false ∧
    ohmBad (getLoop thimble 2).ref 1001 = false ∧ ohmBad (getLoop thimble 2).ref 1251 = true ∧ ohmBad (getLoop thimble 2).ref 1250 = false ∧
    (getSwitch thimble 1).mode ≠ 0 ∧ (getSwitch thimble 1).run = 1 ∧ (getSwitch thimble 1).closed = true ∧
    thimble.thm.arming = some 0x01000005#32 ∧ thimble.thm.main = true := by decide
theorem test_loop : let t := after thimble (.thimbleLoopCheck 8 2 true true 1251)
    t.thm.key = [] ∧ (getLoop t 2).window = some 8 ∧ t.thm.log = [⟨1, 2, false, true, false, true, 8⟩] ∧
    (getReg t Reg.THM_LATCH).getLsbD 2 = true ∧ t.faults.fired.length = 1 := by decide
/-- DISAGREEMENT_WINDOW_END: 64 cycles after an alarm that one detector saw. -/
theorem test_hyp_Window : let s := after thimble (.thimbleLoopCheck 8 2 true true 1251)
    (getLoop s 2).window = some 8 ∧ windowOver (thmAdvance s 64) 8 = true ∧ windowOver (thmAdvance s 63) 8 = false ∧
    s.thm.log.find? (fun e => e.kind == 1 && e.unit == 2 && e.time == 8) = some ⟨1, 2, false, true, false, true, 8⟩ ∧
    (getReg (after s (.disagreementWindowEnd 64 2)) Reg.THM_DISAGREE).getLsbD 2 = true := by decide
/-- The second sample that finds a switch closed alarms; one that finds it open starts again. -/
theorem test_switch : (after thimble (.switchSample 8 1 true)).thm.key = [] ∧ (getSwitch (after thimble (.switchSample 8 1 false)) 1).run = 0 ∧
    (let s := setSwitch thimble 1 ⟨2, true, 3⟩
     (getReg s Reg.THM_LATCH).getLsbD 9 = false ∧ (after s (.switchSample 8 1 true)).thm.key = [] ∧
     (after (setSwitch thimble 1 ⟨1, true, 3⟩) (.switchSample 8 1 true)).thm.log = []) := by
  decide
/-- Calibration: loop 0 takes the median of five runs; a value above 100,000 ohms leaves it OFF. -/
theorem test_arm : let t := after thimble (.armDone 0 [[900, 1100, 1000, 950, 1050], [100001, 100001, 100001, 100001, 100001]] 0)
    (getLoop t 0).mode = 1 ∧ (getLoop t 0).ref = 1000 ∧ (getLoop t 1).mode = 0 ∧ flag t Reg.THM_STAT_CAL_FAIL = true ∧
    t.thm.arming = none := by decide
theorem test_vbat : flag (after begun (.vbatMeasure 2499)) Reg.THM_STAT_BATT_LOW = true ∧
    flag (after begun (.vbatMeasure 2500)) Reg.THM_STAT_BATT_LOW = flag begun Reg.THM_STAT_BATT_LOW ∧
    (after begun (.vbatMeasure 2499)).faults.fired.length = 1 ∧ flag (after begun .xtalFail) Reg.THM_STAT_XTAL_FAIL = true := by decide

/-- MonitorsFireTheirSources: each row out of its window and in it, armed and not. -/
def armed : State := setF (setF begun Reg.MON_STAT_ARMED 1) Reg.MON_GREF_MV 750
theorem test_hyp_Monitors : armed.thm.main = true ∧ armed.boot.held = false ∧
    [Instr.monVdd 0 900 3, .monClk 1700 false 1, .monTemp 126#8 20#8, .monGlitch 690 2, .monGlitch 691 2].map (outOf armed) =
      [some (0, 3, 0), some (9, 1, 0), some (10, 1, 0), some (11, 2, 2), none] ∧
    flag armed Reg.MON_STAT_ARMED = true ∧ (∀ c ∈ [0, 9, 10, 11], tget 0 armed.monAlone c = 0) ∧
    flag begun Reg.MON_STAT_ARMED = false ∧ outOf begun (.monVdd 0 900 3) = some (0, 3, 0) ∧ railOk 0 750 = true ∧
    clkOk armed 1600 = true ∧ tempOk 125#8 = true ∧ tempOk 0xC9#8 = true ∧ tempOk 126#8 = false ∧ tempOk 0xC8#8 = false := by decide
theorem test_monitors : (after armed (.monVdd 0 900 1)).faults.fired.length = 1 ∧ tget 0 (after armed (.monVdd 0 900 1)).monAlone 0 = 1 ∧
    (after begun (.monVdd 0 900 1)).boot.held = true ∧
    (getReg (after (after armed (.monVdd 0 900 1)) (.monDisagree 0)) Reg.MON_DISAGREE).getLsbD 0 = true := by decide
theorem test_hyp_MonitorsArm : let s := span 1024 (setF (setF begun Reg.MON_STAT_ARMED 0) Reg.MON_STAT_RAIL_OK 0x1FF)
    s.boot.held = false ∧ s.boot.begun = true ∧ 2 ^ 10 ≤ s.tick.count ∧ flag s Reg.MON_STAT_ARMED = false ∧
    getF s Reg.MON_STAT_RAIL_OK = 0x1FF ∧ (lifeOf (getReg s Reg.LCY_FUSE) (tget 0#32 s.sill 6)).2 = true ∧
    flag (after s .monitorsArmed) Reg.MON_STAT_ARMED = true := by decide

/-- WearSamplesAndCheckpoints: the last tick of a wear period, and the tick before. -/
theorem test_hyp_Wear : let s := span (2 ^ 24 - 1) (setF begun Reg.WER_STAT_READY 1)
    s.boot.held = false ∧ s.faults.safe = false ∧ s.tick.count % 2 ^ 24 = 2 ^ 24 - 1 ∧ (span (2 ^ 24) s).tick.count % 2 ^ 24 ≠ 2 ^ 24 - 1 ∧
    flag s Reg.WER_STAT_READY = true ∧ s.faults.flashHalted = false ∧ (after s (.wearSample 100)).wear.samples.length = 1 ∧
    getF (after s (.wearSample 100)) Reg.WER_AGE_SLOW = 100 ∧ (after s (.wearCheckpoint true)).wear.ckpt.isSome = true ∧
    flag (after s (.wearCheckpoint false)) Reg.WER_EVT_CHECKPOINT_FAIL = true := by decide

/-- CipherResults: the four modes, IVGEN with CTR and CBC, GCM both ways. -/
theorem test_hyp_Cipher : (∀ p ∈ [0x01, 0x02, 0x03, 0x04, 0x11, 0x12, 0x13, 0x14, 0x21, 0x22, 0x1003, 0x1013], due 0x01 (ctx 0x01 p 64 0 1 [] (zeros 32))) ∧
    cIvgen (ent 0x01 0x22 32 64 []) = true ∧ cMode (ent 0x01 0x22 32 64 []) = 2 ∧ cMode (ent 0x01 0x21 32 64 []) = 1 ∧
    cDecrypt (ent 0x01 0x21 32 64 []) = false ∧ cIvgen (ent 0x01 0x21 32 64 []) = true ∧ cMode (ent 0x01 0x1003 32 64 []) = 3 ∧
    cDecrypt (ent 0x01 0x1013 32 64 []) = true ∧ cIvgen (ent 0x01 0x1013 32 64 []) = false ∧ cTagLen (ent 0x01 0x1013 32 64 []) = 16 ∧
    cMode (ent 0x01 0x04 32 64 []) = 4 := by decide
/-- TranslateResults: every pair of modes 1 to 3. -/
theorem test_hyp_Translate : (∀ a ∈ [1, 2, 3], ∀ b ∈ [1, 2, 3], due 0x02 (ctx 0x02 (a + 16 * b) 64 0 1 [] (zeros 32)) = true ∧
    tInMode (ent 0x02 (a + 16 * b) 32 64 []) = a ∧ tOutMode (ent 0x02 (a + 16 * b) 32 64 []) = b) := by decide
theorem test_hyp_Macs : due 0x03 (ctx 0x03 0x1000 0 0 1 [] (zeros 32)) = true ∧ due 0x04 (ctx 0x04 0x400 0 0 1 [] (zeros 32)) = true ∧
    due 0x05 (ctx 0x05 1 64 1 1 [] (zeros 32)) = true ∧ due 0x30 (ctx 0x30 0 64 12 0 [] []) = true ∧
    due 0x3E (ctx 0x3E 0 0 0 1 [] []) = true ∧ (ctx 0x3E 0 0 0 1 [] []).slice ≠ 0 := by decide

/-- RFC 4493, example 1: the CMAC of the empty message, through MAC_GEN's function. -/
theorem test_cmac : cmac [0x2B#8, 0x7E#8, 0x15#8, 0x16#8, 0x28#8, 0xAE#8, 0xD2#8, 0xA6#8, 0xAB#8, 0xF7#8, 0x15#8, 0x88#8, 0x09#8, 0xCF#8, 0x4F#8, 0x3C#8] [] =
    [0xBB#8, 0x1D#8, 0x69#8, 0x29#8, 0xE9#8, 0x59#8, 0x37#8, 0x28#8, 0x7F#8, 0xA3#8, 0x7D#8, 0x12#8, 0x9B#8, 0x75#8, 0x67#8, 0x46#8] := by decide +kernel

/-- `Working` of the batch commands (PinCommands, DukptItems, DerivedTokens). -/
theorem test_hyp_Batches : (∀ x ∈ [(0x08, 0x40, 48), (0x0A, 0x001, 64), (0x10, 0, 32), (0x11, 0, 32)],
    due x.1 (ctx x.1 x.2.1 96 0 1 [] (zeros x.2.2)) = true) ∧ due 0x09 (ctx 0x09 4 0 0 1 [] (zeros 48)) = true := by decide

theorem test_hyp_PinVerify_fails : panOk (byteAt (zeros 48) 0) (panDigits (zeros 48) 4 (byteAt (zeros 48) 0)) = false := by decide

/-! ### The vault's commands -/

/-- A record that its own bucket A holds is found there. -/
theorem lookup_there (s : State) (slice table a b i : Nat) (v : VEntry) (p : Bytes → Bool)
    (hs : s.vault.buckets = [⟨slice, table, a, [(i, v)]⟩]) (hp : p v.bytes = true) : lookupTwo s slice table a b p = some (a, i, v) := by
  simp [lookupTwo, cellsOf, isBucket, hs, hp]

def rkey : Bytes := List.replicate 32 9#8
def vput : Ctx := ctx 0x12 0 0 clVault 2 [] (rkey ++ [1#8, 2#8, 3#8])
def vget : Ctx := ctx 0x13 0 64 clVault 1 [] rkey
def vdel : Ctx := ctx 0x14 0 0 clVault 2 [] rkey
/-- The bucket that holds the record of `rkey` in cell 3. -/
def genBucket : Bucket :=
  let t := genIndex (zeros 16) rkey
  ⟨1, tbGen, candA t (2 ^ 20 / 41), [(3, ⟨genCell 0 2 (fingerprint t) rkey⟩)]⟩
theorem gen_matches (t : Bytes) : genMatches (fingerprint t) rkey (genCell 0 2 (fingerprint t) rkey) = true := by
  unfold genMatches genCell fingerprint
  generalize beNat (sub t 8 8) = x
  simp [leBytes, zeros, sub, byteAt, rkey, List.replicate]

/-- VaultRecords: a record that stands, a new one with room, and one past the record limit. -/
theorem test_hyp_VaultRecords : SlotsDue (vst 10 [genBucket] vput) 5 0x12 vput vput.units ∧ 2 ≤ vput.units ∧ vput.cls = clVault ∧
    SlotsDue (vst 10 [] vput) 5 0x12 vput vput.units ∧ SlotsDue (vst 0 [] vput) 5 0x12 vput vput.units ∧
    SlotsDue (vst 10 [genBucket] vget) 5 0x13 vget 1 ∧ SlotsDue (vst 10 [genBucket] vdel) 5 0x14 vdel 2 ∧ limitHit (vst 10 [] vput) 1 = false ∧
    limitHit (vst 0 [] vput) 1 = true :=
  ⟨slots_of (by decide), by decide, by decide, slots_of (by decide), slots_of (by decide), slots_of (by decide), slots_of (by decide),
   by decide, by decide⟩
theorem test_hyp_VaultRecords_found (c : Ctx) (hc : c = vput ∨ c = vget ∨ c = vdel) :
    let s := vst 10 [genBucket] c
    let ix := genIndex (keyMatA s c) (sub c.src 0 32)
    ∃ v, lookupTwo s c.slice tbGen (candA ix (tableBuckets s c.slice tbGen)) (candB ix (tableBuckets s c.slice tbGen))
      (genMatches (fingerprint ix) (sub c.src 0 32)) = some (candA ix (tableBuckets s c.slice tbGen), 3, v) := by
  have h1 : keyMatA (vst 10 [genBucket] c) c = zeros 16 := by rcases hc with rfl | rfl | rfl <;> decide
  have h2 : sub c.src 0 32 = rkey := by rcases hc with rfl | rfl | rfl <;> decide
  have h3 : tableBuckets (vst 10 [genBucket] c) c.slice tbGen = 2 ^ 20 / 41 := by rcases hc with rfl | rfl | rfl <;> decide
  have h4 : c.slice = 1 := by rcases hc with rfl | rfl | rfl <;> decide
  dsimp only
  rw [h3, h1, h2, h4]
  exact ⟨_, lookup_there _ _ _ _ _ _ _ _ rfl (gen_matches _)⟩
theorem test_hyp_VaultRecords_new : let s := vst 10 [] vput
    let ix := genIndex (keyMatA s vput) (sub vput.src 0 32)
    let a := candA ix (tableBuckets s 1 tbGen)
    let b := candB ix (tableBuckets s 1 tbGen)
    lookupTwo s 1 tbGen a b (genMatches (fingerprint ix) (sub vput.src 0 32)) = none ∧
    chooseBucket s 1 tbGen a b 0 = some a ∧ (openCells s 1 tbGen a 0).head? = some 0 := ⟨rfl, rfl, rfl⟩

/-- VaultedTokens: a malformed item, a new PAN with room, and a DETOKENIZE. -/
def pan12 : Bytes := [12#8, 0#8, 0#8, 0#8] ++ List.replicate 12 0x31#8 ++ zeros 16
def vtok (src : Bytes) : Ctx := ctx 0x10 1 32 clVault 3 [] src
def vdet : Ctx := ctx 0x11 1 32 clVault 1 [] pan12
theorem test_hyp_VaultedTokens : SlotsDue (vst 10 [] (vtok (zeros 32))) 5 0x10 (vtok (zeros 32)) 3 ∧ (vtok (zeros 32)).cls = clVault ∧
    (tokItem (zeros 32) true).ok = false ∧ SlotsDue (vst 10 [] (vtok pan12)) 5 0x10 (vtok pan12) 3 ∧ (tokItem pan12 true).ok = true ∧
    SlotsDue (vst 10 [] vdet) 5 0x11 vdet 1 ∧ limitHit (vst 0 [] (vtok pan12)) 1 = true ∧ limitHit (vst 10 [] (vtok pan12)) 1 = false :=
  ⟨slots_of (by decide), by decide, by decide, slots_of (by decide), by decide, slots_of (by decide), by decide, by decide⟩
theorem test_hyp_VaultedTokens_new (t rix : Bytes) (n : Nat) : let s := vst 10 [] (vtok pan12)
    lookupTwo s 1 tbTok (candA t n) (candB t n) (panMatches (tokItem pan12 true) (fingerprint t)) = none ∧
    chooseBucket s 1 tbTok (candA t n) (candB t n) 0 = some (candA t n) ∧ (openCells s 1 tbTok (candA t n) 0).head? = some 0 ∧
    (cellsOf s 1 tbRev (candA rix n)).any (fun y => sub y.2.bytes 0 8 == fingerprint rix) = false ∧
    (openCells s 1 tbRev (candA rix n) 0).head? = some 0 := ⟨rfl, rfl, rfl, rfl, rfl⟩

/-- CredentialUse: a credential of the identifier of zeros, LIVE with 3 attempts until hour 200, and states that end it. -/
def cred (op : Nat) (hour : Nat) : Ctx := { ctx op 0 0 clVault 2 [] (if op = 0x19 then List.replicate 6 0x30#8 else []) with hour := hour }
def credBucket (st : Nat) : Bucket :=
  let t := credIndex (zeros 16) (zeros 16)
  ⟨1, tbCrd, candA t (2 ^ 20), [(2, ⟨crdRecord st 3 3 6 200 (fingerprint t) (zeros 16) (zeros 16)⟩)]⟩
theorem crd_matches (t : Bytes) (st : Nat) (h : 2 ≤ st ∧ st ≤ 4) :
    crdMatches (fingerprint t) (zeros 16) (crdRecord st 3 3 6 200 (fingerprint t) (zeros 16) (zeros 16)) = true := by
  unfold crdMatches crdRecord fingerprint
  generalize beNat (sub t 8 8) = x
  obtain ⟨h1, h2⟩ := h
  have : st = 2 ∨ st = 3 ∨ st = 4 := by omega
  rcases this with rfl | rfl | rfl <;> simp [leBytes, zeros, sub, byteAt, List.replicate]
theorem test_hyp_CredentialUse : SlotsDue (vst 10 [] (cred 0x19 100)) 5 0x19 (cred 0x19 100) 2 ∧ crdLookup (vst 10 [] (cred 0x19 100)) (cred 0x19 100) = none ∧
    SlotsDue (vst 10 [credBucket 2] (cred 0x19 100)) 5 0x19 (cred 0x19 100) 2 ∧ SlotsDue (vst 10 [credBucket 2] (cred 0x1A 100)) 5 0x1A (cred 0x1A 100) 2 :=
  ⟨slots_of (by decide), rfl, slots_of (by decide), slots_of (by decide)⟩
theorem test_hyp_CredentialUse_found (op hour st : Nat) (h : 2 ≤ st ∧ st ≤ 4) (ho : op = 0x19 ∨ op = 0x1A) :
    ∃ q v, crdLookup (vst 10 [credBucket st] (cred op hour)) (cred op hour) = some (q, 2, v) ∧
      byteAt v.bytes 1 = 3 ∧ leAt v.bytes 4 4 = 200 ∧ byteAt v.bytes 0 = st := by
  have h' : st = 2 ∨ st = 3 ∨ st = 4 := by omega
  have h1 : keyMatA (vst 10 [credBucket st] (cred op hour)) (cred op hour) = zeros 16 := rfl
  have h2 : credId (cred op hour).entry = zeros 16 := by rcases ho with rfl | rfl <;> rfl
  have h4 : (cred op hour).slice = 1 := rfl
  have h5 : getSlice (vst 10 [credBucket st] (cred op hour)) 1 = getSlice (vst 10 [] vput) 1 := rfl
  have h3 : tableBuckets (vst 10 [credBucket st] (cred op hour)) 1 tbCrd = 2 ^ 20 := by
    unfold tableBuckets tableUnits
    rw [if_neg (by decide : ¬ (tbCrd == tbTmb) = true), h5]
    decide
  unfold crdLookup
  dsimp only
  rw [h4, h3, h1, h2]
  refine ⟨_, _, lookup_there _ _ _ _ _ _ _ _ rfl (crd_matches _ st h), ?_⟩
  generalize credIndex (zeros 16) (zeros 16) = t
  unfold crdRecord fingerprint
  generalize beNat (sub t 8 8) = x
  rcases h' with rfl | rfl | rfl <;> simp [leBytes, zeros, leAt, sub, byteAt, List.replicate, leNat]
/-- CredentialIssue, with room and with a full bucket list. -/
def issue : Ctx := { ctx 0x18 0 64 3 1 (zeros 24) [] with k := 2, vltAt := [0] }
theorem test_hyp_CredentialIssue : SlotsDue (vst 10 [] issue) 5 0x18 issue 3 ∧ crdLookup (vst 10 [] issue) issue = none ∧
    limitHit (vst 10 [] issue) 1 = false ∧ ∀ a b, chooseBucket (vst 10 [] issue) 1 tbCrd a b issue.hour = some a ∧
      (openCells (vst 10 [] issue) 1 tbCrd a issue.hour).head? = some 0 ∧ cellsOf (vst 10 [] issue) 1 tbCrd a = [] :=
  ⟨slots_of (by decide), rfl, by decide, fun _ _ => ⟨rfl, rfl, rfl⟩⟩

/-! ### Seam commands, calls, aborts, keys -/

/-- SeamCommands: a pair with an assigned index for SIGN_SEAM and ATTEST, and a VERIFY_SEAM of a short container. -/
def sign (op : Nat) : Ctx := { ctx op 1 6000 4 1 [] (zeros 16) with lmsPair := some 130, lmsIndex := some 4, place := [0, 10] }
def paired (c : Ctx) : State := setPair (put c) 130 spair
theorem test_hyp_Seam : (sign 0x20).lmsPair = some 130 ∧ (sign 0x20).lmsIndex = some 4 ∧ getPair (paired (sign 0x20)) 130 = some spair ∧
    isDue (paired { sign 0x20 with cls := 1 }) 0x20 { sign 0x20 with cls := 1 } = true ∧
    isDue (paired { sign 0x31 with cls := 1 }) 0x31 { sign 0x31 with cls := 1 } = true ∧
    due 0x21 (ctx 0x21 1 0 1 1 [] (zeros 32)) = true ∧ ((zeros 32).drop 32).length ≠ 5208 := by decide

/-- CallsAndAborts: an INFILL_CALL with room for 16 bytes; an ABORT of a waiting entry, of a running command, of neither. -/
def call : Ctx := ctx 0x38 0 16 3 1 [] (zeros 8)
theorem test_hyp_Calls_infill : getCtx (put call) 5 = some call ∧ eOp call.entry = 0x38 ∧ working call = true ∧ call.result = none ∧
    call.s0 ≤ begunTick (put call) ∧ srcDone call = true ∧ (16#32).toNat ≤ eCap call.entry ∧ eCap call.entry < (17#32).toNat := by decide
theorem test_infill : ((getCtx (after (put call) (.infillCall 5 0#32 2#32 1#32 0#32 0#32 0#32 [7#8, 8#8, 9#8])) 5).bind (·.result)).map
      (fun r => (r.status, r.dest)) = some (0, [7#8, 8#8]) ∧
    ((getCtx (after (put call) (.infillCall 5 0x12345#32 0#32 0#32 0#32 0#32 0#32 [])) 5).bind (·.result)).map (fun r => (r.status, r.inline)) =
      some (0x0401, [0x45#8, 0x23#8]) := by decide
def abortEntry : Fetched := ⟨1, 0, leBytes 1 0x3F ++ zeros 1 ++ leBytes 2 9 ++ zeros 8 ++ leBytes 4 0x00000003 ++ zeros 48, 20, 8⟩
def waiting : Fetched := ⟨1, 0, leBytes 1 0x05 ++ zeros 1 ++ leBytes 2 3 ++ zeros 60, 19, 7⟩
/-- Slice 1 with one queue, the ABORT fetched behind `fs`, and contexts. -/
def aborting (fs : List Fetched) (cs : List (Nat × Ctx)) : State :=
  { keyed with slices := [(0, Slice.zero), (1, { Slice.none with st := .active, cfg := { SliceCfg.zero with pairs := 1 } })]
               fetched := fs ++ [abortEntry], ctxs := cs, tick := { keyed.tick with span := false } }
def aborted : Ctx := { ctx 0x05 1 0 1 1 [] [] with entry := leBytes 1 0x05 ++ zeros 1 ++ leBytes 2 3 ++ zeros 60 }
theorem test_hyp_Abort : (∀ s ∈ [aborting [waiting] [], aborting [] [(5, aborted)], aborting [] []],
      (s.fetched.find? (fun g => g.slice == 1 && g.queue == 0 && eId g.entry == 9 && eOp g.entry == 0x3F)) = some abortEntry ∧
      s.faults.safe = false ∧ s.tick.span = false ∧ 0 < s.tick.count ∧ lcyState s ≠ lcyTampered ∧ dupId s abortEntry = false ∧
      queueHeld s 1 (bitsAt (eParam abortEntry.entry) 16 9) = true) ∧
    (infoAbort abortEntry.entry).badField = false ∧ (infoAbort abortEntry.entry).badLength = false := by decide
theorem test_abort : (after (aborting [waiting] []) (.abort 1 0 9)).compls.map (fun x => (x.status, x.cmdId)) = [(0x0601, 3), (0, 9)] ∧
    (after (aborting [] [(5, aborted)]) (.abort 1 0 9)).compls.map (fun x => (x.status, x.cmdId)) = [(0x0601, 3), (0, 9)] ∧
    (after (aborting [] []) (.abort 1 0 9)).compls.map (fun x => (x.status, x.cmdId)) = [(0x0602, 9)] := by decide

/-- KeysAreCreated: each creating command with its companion slot due; a generation that succeeds. -/
def create (op param : Nat) : Ctx := { ctx op param 2000 3 1 [] [] with k := 2, vltAt := [0] }
theorem test_hyp_KeysAreCreated : (∀ op ∈ [0x22, 0x23, 0x24, 0x28, 0x29, 0x2B],
      slotsDue (put (create op 0x01)) op 1 (create op 0x01) = true ∧ (getKey (put (create op 0x01)) ((create op 0x01).newSlots.headD 0)).st = .loaded) ∧
    gType (create 0x28 0x01).entry = 0x01 ∧ typSym 0x01 = true ∧ xFormat (create 0x29 2).entry = 2 ∧ xFormat (create 0x29 3).entry = 3 ∧
    (newKeyOf (put (create 0x28 0x01)) (create 0x28 0x01) 0).1.st = 0 := by decide

/-- KeysLeave: an export, and a kill whose tombstone stands, is new, or finds no room. -/
def ident : Bytes := List.replicate 16 3#8
def kill : Ctx := { ctx 0x2C 0 0 clVault 2 [] [] with slice := 1, scratch := [leNat ident] }
def killing (limit : Nat) (bs : List Bucket) : State :=
  let s := vst limit bs kill
  setKey s 300 { getKey s 300 with ident := ident }
theorem test_hyp_KeysLeave : due 0x2A (ctx 0x2A 2 64 0 1 [] []) = true ∧ slotsDue (killing 10 []) 0x2C 2 kill = true ∧
    leBytes 16 (kill.scratch.headD 0) = ident ∧ tableBuckets (killing 10 []) 0 tbTmb ≠ 0 ∧ limitHit (killing 10 []) 0 = false ∧
    limitHit (killing 0 []) 0 = true ∧ slotsDue (killing 0 []) 0x2C 2 kill = true := by decide
theorem test_hyp_KeysLeave_there : let a := candA ident (2 ^ 20)
    lookupTwo (killing 10 []) 0 tbTmb a (candB ident (2 ^ 20)) (fun x => x == ident) = none ∧
    chooseBucket (killing 10 []) 0 tbTmb a (candB ident (2 ^ 20)) 0 = some a ∧
    lookupTwo (killing 10 [⟨0, tbTmb, a, [(4, ⟨ident⟩)]⟩]) 0 tbTmb a (candB ident (2 ^ 20)) (fun x => x == ident) = some (a, 4, ⟨ident⟩) := by
  decide

/-! ### Slices -/

/-- An admin command in context 4032. -/
def admin (op param : Nat) (src : Bytes) : Ctx :=
  { ctx op param 65536 12 0 (zeros 24) src with slice := 0, queue := adminQ, keyA := none, keyB := none, newSlots := [] }
/-- A device that serves slices, or not, with slice 3 as given. -/
def domain (served : Bool) (x : Slice) (c : Ctx) : State :=
  let s := setF (setF { keyed with slices := [(0, Slice.zero), (3, x)] } Reg.LCY_STAT_STATE (if served then 4 else 0)) Reg.KST_STAT_DOMAIN 1
  setCtx s 4032 c
def isAdmin (s : State) (op : Nat) (c : Ctx) : Bool :=
  getCtx s 4032 == some c && c.phase == .running && !c.refused && c.adminDone == none && eOp c.entry == op && c.done == 0
theorem admin_of {s : State} {op : Nat} {c : Ctx} (h : isAdmin s op c = true) : AdminDue s 4032 op c := by
  simp only [isAdmin, Bool.and_eq_true, beq_iff_eq, Bool.not_eq_true'] at h
  obtain ⟨⟨⟨⟨⟨h1, h2⟩, h3⟩, h4⟩, h5⟩, h6⟩ := h
  exact ⟨h1, by decide, h2, h3, h4, h5, h6⟩
def up : Slice := { Slice.none with st := .active, fnEn := true }
def quiet : Slice := { Slice.none with st := .quiesced, cfg := { SliceCfg.zero with migratable := true } }
/-- The record of 2,304 bytes with no groups and an egress allotment of 4. -/
def record : Bytes := [1#8, 0#8, 0#8, 0#8, 0#8, 0#8, 4#8] ++ zeros 2297
def busy : StagedChange := changeBy .quiesce false 4033

/-- SliceAdmin: each command in each state that its clauses name. -/
theorem test_hyp_SliceAdmin :
    (∀ op ∈ [0x80, 0x81, 0x82, 0x83, 0x84], ∀ k ∈ [0, 3], isAdmin (domain true up (admin op k [])) op (admin op k []) = true) ∧
    slicesServed (domain true up (admin 0x80 3 [])) = true ∧ slicesServed (domain false up (admin 0x80 3 [])) = false ∧
    bitsAt (eParam (admin 0x82 0x103 []).entry) 0 7 = 3 ∧ bitAt (eParam (admin 0x82 0x103 []).entry) 8 = true ∧
    up.st = .active ∧ up.change = none ∧ quiet.st = .quiesced ∧ quiet.change = none ∧ quiet.quiesceSources = [] ∧
    { up with change := some busy }.change ≠ none ∧ Slice.none.st = .none := by decide
theorem test_hyp_SliceAdmin_record : (∀ c ∈ [admin 0x80 3 record, admin 0x81 3 record],
      c.srcFail = false ∧ eLen c.entry ≤ c.src.length) ∧ (parseCfg record).isSome = true ∧ parseCfg (zeros 2304) = none ∧
    (parseCfg record).map (fun r => recordReason (domain true Slice.none (admin 0x80 3 record)) 3 r) = some 0 ∧
    { admin 0x80 3 record with src := [], asked := 0 }.src.length < eLen (admin 0x80 3 record).entry := by decide
theorem test_slice_admin : (getSlice (after (domain true up (admin 0x82 0x3 [])) (.sliceQuiesce 4032)) 3).change = some (changeBy .quiesce false 4032) ∧
    ((getCtx (after (domain true up (admin 0x83 0x0 [])) (.sliceReset 4032)) 4032).bind (·.adminDone)).map (fun r => (r.status, r.inline)) =
      some (0x0104, leBytes 8 1) ∧
    (getSlice (after (domain true quiet (admin 0x82 0x103 [])) (.sliceResume 4032)) 3).resumeStaged = some 4032 ∧
    (getSlice (after (domain true up (admin 0x84 0x3 [])) (.sliceDestroy 4032)) 3).change = some (changeBy .destroy false 4032) ∧
    (getSlice (after (domain true Slice.none (admin 0x80 3 record)) (.sliceCreate 4032)) 3).stagedCfg.isSome = true := by decide

/-- LogsAndMigration: START of a free log, FLIP and STOP of a running one; an export, an offer and an import. -/
def logCls : Bytes := leBytes 8 0x10000 ++ leBytes 8 0x2000 ++ zeros 8
def dirty (action : Nat) : Ctx :=
  { admin 0x87 (3 + action * 2 ^ 12) [] with
    entry := leBytes 1 0x87 ++ zeros 11 ++ leBytes 4 (3 + action * 2 ^ 12) ++ leBytes 8 0x100000 ++ leBytes 8 0x200000 ++ zeros 8 ++ logCls }
def logged : Slice := { up with logs := [(0, startLog (dirty 0).entry)] }
theorem test_hyp_Logs : (∀ a ∈ [0, 1, 2], isAdmin (domain true up (dirty a)) 0x87 (dirty a) = true ∧ bitsAt (eParam (dirty a).entry) 12 2 = a) ∧
    logBad (startLog (dirty 0).entry) = false ∧ tfind up.logs (bitsAt (eParam (dirty 0).entry) 10 2) = none ∧
    tfind logged.logs (bitsAt (eParam (dirty 1).entry) 10 2) ≠ none ∧ up.st ≠ .none := by decide
theorem test_logs : ((getCtx (after (domain true up (dirty 0)) (.dirtyLogStart 4032)) 4032).map (·.done)) = some 1 ∧
    ((getCtx (after (domain true logged (dirty 1)) (.dirtyLogFlip 4032)) 4032).map (·.done)) = some 1 ∧
    ((getCtx (after (domain true logged (dirty 2)) (.dirtyLogStop 4032)) 4032).map (·.done)) = some 1 ∧
    ((getCtx (after (domain true up (dirty 2)) (.dirtyLogStop 4032)) 4032).bind (·.adminDone)).map (·.inline) = some (leBytes 8 14) := by decide
theorem test_hyp_Migration : isAdmin (domain true quiet (admin 0x85 3 [])) 0x85 (admin 0x85 3 []) = true ∧
    quiet.cfg.migratable = true ∧ noPurlin (domain true quiet (admin 0x85 3 [])) = false ∧
    isAdmin (domain true Slice.none (admin 0x86 3 [])) 0x86 (admin 0x86 3 []) = true ∧ bitsAt (eParam (admin 0x86 3 []).entry) 8 3 = 0 ∧
    deviceSigns (setPair (domain true Slice.none (admin 0x86 3 [])) 128 spair) = some 0 ∧
    isAdmin (domain true Slice.none (admin 0x86 0x103 [])) 0x86 (admin 0x86 0x103 []) = true ∧
    bitsAt (eParam (admin 0x86 0x103 []).entry) 8 3 = 1 ∧
    packageReason (domain true Slice.none (admin 0x86 0x103 [])) 3 [] = 10 := by decide

/-- SlicesEndTheirChanges: a committed quiesce and a committed reset, with nothing left of the slice. -/
def ending (kind : SliceChange) (flr : Bool) (unacked : Nat) : Slice :=
  { up with st := .changing, unacked := unacked
            change := some ⟨kind, true, none, some 15, false, flr, false⟩ }
def ended (x : Slice) : State := { keyed with slices := [(0, Slice.zero), (3, x)] }
/-- The same state in a kerf. -/
def endedKerf (x : Slice) : State := { ended x with tick := { keyed.tick with span := false } }
theorem test_hyp_SliceChanges : (∀ k ∈ [SliceChange.quiesce, .reset, .destroy, .exporting], ∀ u ∈ [0, 1, 2],
      noCtx (endedKerf (ending k true u)) 3 = true ∧ noCompl (endedKerf (ending k true u)) 3 = true ∧
      ((ending k true u).change.map (·.committed)) = some (some 15)) ∧ up.change = none ∧ up.stagedCfg = none ∧ up.resumeStaged = none ∧
    keyed.faults.safe = false ∧ (getSlice (ended up) 3).fnEn = true ∧ (endedKerf up).tick.span = false ∧ 0 < (endedKerf up).tick.count ∧
    (ended up).tick.span = true := by decide
theorem test_slice_changes : (getSlice (after (endedKerf (ending .quiesce false 0)) (.sliceChangeComplete 3)) 3).st = .quiesced ∧
    (getSlice (after (endedKerf (ending .reset true 0)) (.sliceChangeComplete 3)) 3).unacked = 1 ∧
    (getSlice (after (endedKerf (ending .destroy false 2)) (.sliceChangeComplete 3)) 3).st = .none ∧
    (getSlice (after (endedKerf (ending .reset true 1)) (.flrTimeout 3)) 3).unacked = 2 ∧
    ((getSlice (after (ended up) (.vfFlr 3)) 3).change.map (·.byFlr)) = some true ∧
    (getSlice (after (ended up) (.vfEnableClear 2)) 3).fnEn = false ∧ (getSlice (after (ended up) (.vfEnableClear 3)) 3).fnEn = true ∧
    (getSlice (after (ended up) (.vfEnableSet 2)) 2).fnEn = true := by decide

/-- FunctionPowerAndResets and HostLink: a running die, with a link, a secure stream, a command that waits for its source. -/
def linked : State := { ended up with link := { keyed.link with secure := [3, 130] }, ctxs := [(5, { ctx 1 1 64 0 1 [] [] with asked := 32, slice := 3 })] }
theorem test_hyp_Link : linked.boot.held = false ∧ linked.faults.safe = false ∧ linked.link.atsWait = [] ∧ readsOut linked 3 = true ∧
    readsOut linked 4 = false ∧ 130 ∈ linked.link.secure ∧ 131 ∉ linked.link.secure ∧
    (getCtx linked 5).map (fun c => (c.phase, c.srcFail, decide (c.src.length < c.asked))) = some (.running, false, true) ∧
    min 4 (getF linked Reg.HLK_CTRL_MAXWIDTH) ≠ 1 := by decide
theorem test_link : getF (after linked .pfFlr) Reg.HLK_RST_CAUSE = 6 ∧ getF (after linked (.hotReset true)) Reg.HLK_RST_CAUSE = 5 ∧
    (getSlice (after linked (.d3hot 3)) 3).busOff = true ∧ (getSlice (after linked (.returnToD0 3)) 3).busOff = false ∧
    (after linked (.ideIntegrityFailure 130)).link.secure = [3] ∧ (after linked (.atsInvalidation 3)).link.atsWait = [(3, 20)] ∧
    (after linked (.atsInvalidation 4)).out = [.link 2 [4]] ∧ getF (after linked .inboundPoisonedWrite) Reg.HLK_AER_CNT_CORR = 1 := by decide
/-- The example of 12_shuttle: 256 slots at 4.0 and ×8. -/
theorem test_link_slots : getF (after linked (.linkTraining 3 3 false)) Reg.SHT_LINK_SLOTS = 256 := by decide
theorem test_host_read : ((getCtx (after linked (.hostReadCompletion (.ctx 5) (.data [1#8, 2#8]))) 5).map (·.src)) = some [1#8, 2#8] ∧
    ((getCtx (after linked (.hostReadCompletion (.ctx 5) .error)) 5).map (·.srcFail)) = some true ∧
    after linked (.atsTranslationCompletion (.ctx 5) true) = linked ∧
    (getF (after linked (.retrain 0x43#32)) Reg.HLK_CTRL_MAXSPEED, getF (after linked (.retrain 0x43#32)) Reg.HLK_CTRL_MAXWIDTH) = (3, 4) := by decide

/-! ### Channels, gates, registers, faults -/

/-- Channel 0 may reach the first megabyte of the loft, and slice 0's host memory below 2^32; the channel runs. -/
def descCells : List Host.Cell :=
  [(0x02000000, 1#8), (0x02000009, 0x10#8), (0x0200000B, 2#8), (0x02000011, 0x20#8), (0x02000013, 2#8), (0x02000018, 0x80#8),
   (0x0200001C, 1#8), (0x0200001E, 1#8), (0x02000020, 1#8), (0x02001000, 0xAB#8)]
def gated (cells : List Host.Cell) (c : Chan) (st : Nat) : State :=
  setF (setF { begun with
    mem := cells, chans := [(0, c)]
    gates := { begun.gates with live := [(56 * 32, ⟨0x02000007#32, 0#32, 0x020FFFC0#32, 0#32⟩), (512 * 32, ⟨0x07#32, 0#32, 0xFFFFFFC0#32, 0#32⟩)] } }
    (chanFld 0 Reg.SHT_CH_STAT_STATE) st) Reg.SHT_STAT_READY 1
def descr : Bytes := memRead (gated descCells Chan.zero 1) 0x02000000 64
def at0 : Chan := { Chan.zero with addr := 0x02000000 }
/-- PlanWritesFail: a command that has sent a part of its destination. -/
theorem test_hyp_PlanWrites : let c := { ctx 0x01 0 64 0 1 [] (zeros 16) with drained := 8 }
    (put c).boot.held = false ∧ (put c).faults.safe = false ∧ getCtx (put c) 5 = some c ∧ c.dstStop = false ∧ c.drained ≠ 0 ∧
    c.phase ≠ .written ∧ getF (after (put c) (.shuttlePiece 69 true .error)) Reg.HLK_AER_CNT_UNCORR = 1 ∧
    ((getCtx (after (put c) (.shuttlePiece 69 true .error)) 5).map (·.dstStop)) = some true := by decide
/-- ChannelsStartAndStop and DescriptorsAreFetched. -/
theorem test_hyp_Channels : (gated [] at0 0).boot.held = false ∧ (gated [] at0 0).faults.safe = false ∧
    shuttleHalted (gated [] at0 0) (chanBent 0) = false ∧ flag (gated [] at0 0) Reg.SHT_STAT_READY = true ∧
    chanState (gated [] at0 0) 0 ≠ 1 ∧ chanState (gated [] at0 1) 0 = 1 ∧ chanRuns (gated descCells at0 1) 0 = true ∧
    shuttleHalted (setF begun Reg.SHT_STAT_HALTED 1) (chanBent 0) = true ∧
    gateCheck (gated descCells at0 1) (gated descCells at0 1).gates.live (chanInit 0) 0x02000000 .read = .allow ∧
    descHome (chanInit 0) 0x02000000 = true ∧ dValid descr = true ∧ dDone descr = false ∧ dBad descr (chanPriv 0) = false ∧
    dBarrier descr = false ∧ dBarrier (5#8 :: descr.drop 1) = true ∧
    bentDirty { gated descCells at0 1 with hostSent := [(0, 1)] } (chanBent 0) = true ∧ dBad (leBytes 4 1 ++ zeros 60) (chanPriv 0) = true := by decide
theorem test_channels : chanState (after (gated [] at0 0) (.shtChNextWrite 0 0x02000041#32)) 0 = 1 ∧
    (getChan (after (gated [] at0 0) (.shtChNextWrite 0 0x02000041#32)) 0).addr = 0x02000040 ∧
    (getChan (after (gated [] at0 1) (.shtChStop 0)) 0).stop = true ∧
    (getChan (after (gated descCells at0 1) (.descriptorFetch 0)) 0).desc = descr ∧
    chanState (after (gated descCells { at0 with addr := 0x02100000 } 1) (.descriptorFetch 0)) 0 = 2 := by decide
/-- PiecesMoveBytes: a piece of 64 bytes from 02001000H, its write to 02002000H, and one that the gate refuses. -/
def moving (r w : Nat) (b : Bytes) : State :=
  { gated descCells { at0 with desc := descr, read := r, written := w, buf := b } 1 with tick := { begun.tick with span := true } }
theorem moves_of (r w : Nat) (b : Bytes) (h : chanRuns (moving r w b) 0 = true) : Moves (moving r w b) 0 := by
  have hd : (descr ≠ []) := by decide
  exact ⟨h, rfl, hd, rfl, rfl, rfl, rfl⟩
theorem test_hyp_Pieces : Moves (moving 0 0 []) 0 ∧ Moves (moving 64 0 (zeros 64)) 0 ∧ Moves (moving 128 64 (zeros 64)) 0 ∧
    dFill descr = false ∧ dTotal descr = 128 ∧ pieceLen descr 0 0x02001000 = 64 ∧ dSrc descr 0 = 0x02001000 ∧ dDst descr 64 = 0x02002040 ∧
    dSrcHost descr = false ∧ gateOf (chanInit 0) 0x02001000 ≤ 10 ∧ (moving 0 0 []).gates.basting = [] ∧
    gateCheck (moving 0 0 []) (moving 0 0 []).gates.live (chanInit 0) 0x02002040 .write = .allow ∧
    linkCheck (moving 0 0 []) 0 0x5000 .read = .allow ∧ (getSlice (moving 0 0 []) 0).logs = [] ∧
    engineFree (moving 0 0 []) (chanBent 0) = true ∧ engineFree (moving 128 64 (zeros 64)) (8 + chanBent 0) = true :=
  ⟨moves_of 0 0 [] (by decide), moves_of 64 0 _ (by decide), moves_of 128 64 _ (by decide), by decide, by decide, by decide, by decide,
   by decide, by decide, by decide, by decide, by decide, by decide, by decide, by decide, by decide⟩
theorem test_pieces : (after (gated descCells { at0 with desc := descr } 1) (.shuttlePiece 0 false .error)).pieces = [] ∧ ((getChan (after (moving 0 0 []) (.shuttlePiece 0 false .error)) 0).buf.take 2) = [0xAB#8, 0#8] ∧
    (getChan (after (moving 128 64 (zeros 64)) (.shuttlePiece 0 true .error)) 0).done = some 0 := by decide
/-- DescriptorsEnd: READBACK after the last byte, and the write-back of a descriptor that ended. -/
theorem test_hyp_DescriptorsEnd : let s := gated [] { at0 with desc := leBytes 4 9 ++ zeros 60 } 1
    chanRuns s 0 = true ∧ (getChan s 0).done = none ∧ dReadback (getChan s 0).desc = true ∧ (getChan s 0).written = dTotal (getChan s 0).desc ∧
    dDstHost (getChan s 0).desc = false ∧ (getChan s 0).dropped = none ∧
    (getChan (after s (.readback 0 .error true)) 0).done = some 0 ∧ (getChan (after s (.readback 0 .error false)) 0).done = some 6 := by decide
theorem test_write_back : let s := gated descCells { at0 with desc := descr, done := some 0 } 1
    chanRuns s 0 = true ∧ (getChan s 0).done = some 0 ∧ gateCheck s s.gates.live (chanInit 0) (getChan s 0).addr .write = .allow ∧
    chanState (after s (.descriptorWriteBack 0)) 0 = 0 ∧ (memRead (after s (.descriptorWriteBack 0)) 0x02000000 4) = backWord descr 0 := by decide

/-- PostedWrites: a store of post 0 to the loft, and one of channel 1, which no region admits. -/
def basted : State :=
  { begun with gates := { begun.gates with basting := [⟨0, 0x02000010, [1#8, 2#8], 0⟩, ⟨57, 0x02000010, [3#8], 0⟩] } }
theorem test_hyp_PostedWrites : basted.gates.basting.find? (ofGate 0 8) = some ⟨0, 0x02000010, [1#8, 2#8], 0⟩ ∧
    basted.gates.basting.find? (ofGate 57 8) = some ⟨57, 0x02000010, [3#8], 0⟩ ∧ basted.gates.basting.find? (ofGate 1 8) = none ∧
    gateOf 0 0x02000010 ≤ 10 ∧ gateCheck basted (tablesAt basted 0) 0 0x02000010 .write = .allow ∧
    gateCheck basted (tablesAt basted 0) 57 0x02000010 .write = .deny ∧
    epochKnown basted 0 = true ∧ epochKnown basted 5 = false := by decide
theorem test_basting : memRead (after basted (.bastingApply 0 8)) 0x02000010 2 = [1#8, 2#8] ∧
    getF (after basted (.bastingApply 57 8)) Reg.GTE_NOTICE_INIT = 57 ∧ (after basted (.bastingApply 57 8)).faults.fired.length = 1 := by decide

/-- TablesAreStaged and HostAccesses. -/
theorem test_hyp_Tables : (1#32 : Word).getLsbD 0 = true ∧ begun.faults.safe = false ∧ begun.gates.staged = none ∧
    flag (after begun (.gteCommitWrite 1#32)) Reg.GTE_STAT_STAGED = true ∧ (after begun (.gteCommitWrite 0#32)) = begun := by decide
theorem test_hyp_Host : (getSlice (ended up) 3).fnEn = true ∧ (getSlice (ended up) 4).fnEn = false ∧ doorbellAt (ended up) 3 (msixBase 3 + 4) = none ∧
    (after (ended up) (.hostRequest 3 true (2 ^ 24 + msixBase 3 + 4) 4 7#32)).msixTab = [(3 * 65536 + 4, 7#32)] ∧
    (after begun (.hostRequest 1 true 0x26100 4 7#32)) = begun ∧ (after begun (.hostRequest 0 false 0x26102 4 7#32)).out = [.link 3 [352, 0x26102]] ∧
    (after { begun with faults := { begun.faults with safe := true } } (.hostRequest 0 false 0x26102 4 7#32)).out = [.readReply 352 0x26102 0#32] := by
  decide
theorem test_slice_faults_clear : let s := ended up
    let t := after { s with faults := { s.faults with sliceCnt := [(3, 9)] } } (.hostRequest 3 false (2 ^ 24 + 0xA004) 4 0#32)
    t.faults.sliceCnt = [] ∧ t.out = [.readReply 355 (fnBase 3 + 0xA004) 9#32] := by decide

/-- WordsAreWritten: post 0 through gate 11 to a word of page 020H; a channel that no region admits; RECHECK. -/
theorem test_hyp_WordsAreWritten : begun.boot.held = false ∧ begun.gates.basting = [] ∧ Reg.NDL_IRQ_EN < 2 ^ 24 ∧
    gateCheck begun begun.gates.live 0 (regAddr Reg.NDL_IRQ_EN) .write = .allow ∧ gateCheck begun begun.gates.live 57 (regAddr Reg.NDL_IRQ_EN) .write = .deny ∧
    (regRow Reg.NDL_IRQ_EN).map (fun r => r.gw) = some 0 ∧ Reg.NDL_IRQ_EN / 0x1000 ∈ plainPages ∧ 0x100 ≤ Reg.NDL_IRQ_EN % 0x1000 ∧
    Reg.NDL_IRQ_EN % 4 = 0 ∧ 0x003 ∈ assignedPages ∧ gateCheck begun begun.gates.live 0 (regAddr (0x003 * 0x1000 + 8)) .write = .allow := by decide
/-- GuardedWritesAreStaged: TIK_CTRL, whose limit must lie between 8 and 16. -/
theorem test_hyp_Guarded : Reg.TIK_CTRL ∈ guardedKeys ∧ gateCheck begun begun.gates.live 0 (regAddr Reg.TIK_CTRL) .write = .allow ∧
    lcyState begun ≠ lcyTerminated ∧ lcyState begun ≠ lcyDiagnostic ∧
    (0x0900#32 &&& gwMask Reg.TIK_CTRL) ≠ gwValue begun Reg.TIK_CTRL 0 &&& gwMask Reg.TIK_CTRL ∧ begun.ofc.change = none ∧
    gwAccepted begun Reg.TIK_CTRL 0 (0x0900#32 &&& gwMask Reg.TIK_CTRL) = true ∧
    gwAccepted begun Reg.TIK_CTRL 0 (0x0700#32 &&& gwMask Reg.TIK_CTRL) = false := by decide
theorem test_guarded : ((after begun (.gwWrite 0 Reg.TIK_CTRL 0x0900#32)).ofc.change.map (fun c => (c.number, c.entries.length))) = some (1, 1) ∧
    getF (after begun (.gwWrite 0 Reg.TIK_CTRL 0x0700#32)) Reg.OFC_ERR_INFO_REASON = 4 := by decide
/-- WordsAreRead: a plain word, a pair of LO and HI words, and a refused read. -/
theorem test_hyp_WordsAreRead : gateCheck begun begun.gates.live 0 (regAddr Reg.NDL_IRQ_EN) .read = .allow ∧ Reg.NDL_IRQ_EN ∉ loKeys ∧
    Reg.NDL_IRQ_EN - 4 ∉ loKeys ∧ Reg.LCY_SVN_LO ∈ loKeys ∧ gateCheck begun begun.gates.live 0 (regAddr Reg.LCY_SVN_LO) .read = .allow ∧
    gateCheck begun begun.gates.live 0 (regAddr (Reg.LCY_SVN_LO + 4)) .read = .allow ∧ pageReady begun (Reg.LCY_SVN_LO / 0x1000) = true ∧
    gateCheck begun begun.gates.live 57 (regAddr Reg.NDL_IRQ_EN) .read = .deny := by decide
theorem test_lo_hi : let s := span (5 * 2 ^ 32 + 7) begun
    (after (after s (.loRead 0 Reg.TIK_COUNT_LO)) (.rcRead 0 (Reg.TIK_COUNT_LO + 4))).out =
      [.readReply 0 (Reg.TIK_COUNT_LO + 4) 5#32, .readReply 0 Reg.TIK_COUNT_LO 7#32] := by decide

/-- SourcesFire: a source, a reserved index, and a key slot's integrity. -/
theorem test_hyp_SourcesFire : (srcRow srcNdlKat).isSome = true ∧ srcRow 511 = none ∧ srcNdlKat ≠ srcFlsInteg ∧ srcNdlKat ≠ srcSilInteg ∧
    (let s := setKey keyed 300 { getKey keyed 300 with st := .active }
     (getKey s 300).st = .active ∧ (getKey (after s (.faultSourceFire srcKstInteg 0 511 0 0 0 true none none (.slot 300))) 300).st = .retired) ∧
    srcPending (after begun (.faultSourceFire srcNdlKat 0 511 0 0 9 true none none .other)) srcNdlKat = true := by decide
/-- The health source before any failure, and a check of a page of chain 1. -/
theorem test_hyp_SourcesFire_blocks : begun.rng.failTick = none ∧
    chainOfPanel (setChain { keyed with slices := [(1, { Slice.none with cfg := { SliceCfg.zero with vaultUnits := 4 } })] } 1
      { Chain.none with st := .ready }) (3 * 16 ^ (1 % 8)) = some 1 ∧
    flag (after begun (.faultSourceFire srcRngHealth 0 511 0 0 0 true none none .other)) Reg.RNG_STAT_ERR = true ∧
    (begun.faults.first = none ∧ srcRngHealth ≠ srcVltInteg) := by decide
theorem test_hyp_Collector : (after begun (.fclSelf false)).faults.safeDue = true ∧
    (after (after begun (.faultSourceFire srcNdlKat 0 511 0 0 9 true none none .other)) (.fclPendClear (srcNdlKat / 32) 0xFFFFFFFF#32)).faults.clears = [srcNdlKat] ∧
    (after begun (.fclRearm 1#32)).faults.first = none := by decide
theorem test_hyp_SafeState : let s := after begun (.fclSelf false)
    s.boot.held = false ∧ s.faults.safeDue = true ∧ s.faults.safe = false ∧ (after s .safeStateEntry).faults.safe = true ∧
    begun.faults.safeDue = false := by decide

/-! ### The vault's chains, the memory controllers, the key store, the seam pairs -/

def jrec : JRecord := ⟨List.replicate 128 1#8, 8, none, 19⟩
/-- Chain 1 is READY with a ring of 256 entries; the record of two entries was placed in tick 19. -/
def chain (tail : Nat) (w : List JRecord) : Chain :=
  { Chain.none with st := .ready, ringBase := 0x400000, ringEn := true, head := 4, tail := tail, seq := 8, held := true, epoch := 1, waiting := w }
def chained (c : Chain) : State := setChain { keyed with vault := { keyed.vault with advanced := true } } 1 c
/-- JournalRings: a record that fits, one behind a PAD at the ring's end, one without room, one of this tick; the head. -/
theorem test_hyp_JournalRings : (∀ t ∈ [10, 254, 255], (getChain (chained (chain t [jrec])) 1).waiting = jrec :: [] ∧
      jrec.placed < (chained (chain t [jrec])).tick.count ∧ ringRoom (chain t [jrec]) 2 = true) ∧ ringRoom (chain 1 [jrec]) 2 = true ∧
    ringRoom (chain 2 [jrec]) 2 = false ∧ ringPad (chain 255 [jrec]) 2 = 1 ∧ ringPad (chain 254 [jrec]) 2 = 0 ∧ jrec.bytes.length / 64 = 2 := by decide
theorem test_journal : (getChain (after (chained (chain 255 [jrec])) (.journalRecordWrite 1)) 1).tail = 2 ∧
    (getChain (after (chained (chain 254 [jrec])) (.journalRecordWrite 1)) 1).tail = 0 ∧
    (after (chained (chain 255 [jrec])) (.journalRecordWrite 1)).out.length = 2 ∧
    flag (after (chained (chain 2 [jrec])) (.journalRecordWrite 1)) Reg.VLT_EVT_RING_HOLD = true := by decide
theorem test_hyp_Jhead : let s := setF (chained (chain 10 [])) Reg.VLT_JSEL_CHAIN 1
    getF s Reg.VLT_JSEL_CHAIN = 1 ∧ (getChain (after s (.vltJheadWrite 10#32)) 1).head = 10 ∧ (getChain (after s (.vltJheadWrite 11#32)) 1).head = 4 := by
  decide
/-- AnchorsStand: a VAULT_ANCHOR with a rebase, a capture that is due, and its programming. -/
def anch : Ctx := admin 0x89 0x101 []
def anchored : State := setCtx (setF (chained (chain 10 [])) Reg.VLT_STAT_PRESENT 1) 4032 anch
theorem test_hyp_Anchors : isAdmin anchored 0x89 anch = true ∧ anchored.vault.pendingAnchor = none ∧ (getChain anchored 1).st = .ready ∧
    bitsAt (eParam anch.entry) 0 8 = 1 ∧ bitAt (eParam anch.entry) 8 = true ∧
    (let t := after anchored (.vaultAnchor 4032)
     anchorAllowed t = true ∧ flag t Reg.VLT_STAT_PRESENT = true ∧ t.vault.anchorWanted = true ∧ (getChain t 1).rebase = some none) ∧
    anchored.vault.anchorWanted = false ∧ anchored.tick.count % 2 ^ 20 ≠ 2 ^ 20 - 1 := by decide
theorem test_anchor : let t := after (after (after anchored (.vaultAnchor 4032)) .anchorCapture) .anchorProgrammed
    (t.vault.anchors.map (·.number)) = [1] ∧ getReg t Reg.VLT_ANCHOR_NUM = 1#32 ∧
    ((getCtx t 4032).bind (·.adminDone)).map (·.inline) = some (leBytes 4 1) := by decide
/-- UpkeepRuns: a rebase queued and one at its end, sweeps, a queued re-encryption, a tombstone that waits. -/
theorem test_hyp_Upkeep : (chained { chain 10 [] with rebase := some none }).vault.sweep = none ∧
    walkRuns (chained { chain 10 [] with rebase := some none }) = false ∧ walkPanels (chained (chain 10 [])) 1 ≤ 0 ∧
    (getChain (chained { chain 10 [] with rebase := some (some 0) }) 1).rebase = some (some 0) ∧
    2 ^ 35 ≤ tget 0 [(0, 2 ^ 35)] 0 ∧ tfind keyed.vault.tree.keys 1 = none ∧ totalPanels keyed ≤ 5 ∧ keyed.vault.sweep = none ∧
    (∀ x ∈ keyed.vault.tree.seals, some x.2.gen ≠ some 0) := by decide
/-- A page queued for re-encryption: its panels were written too often, and none has a tag that verifies, or none was written. -/
def worn (minors : List (Nat × Nat)) : State :=
  let s := vst 10 [] vput
  setVault { s with slices := [(1, { Slice.none with cfg := { SliceCfg.zero with vaultUnits := 4 } })] }
    { s.vault with tree := { s.vault.tree with minors := minors, queue := [ctrKey 1 3] } }
theorem test_hyp_Reencryption : (worn []).vault.tree.queue = ctrKey 1 3 :: [] ∧ renewFault (worn []).vault.tree (ctrKey 1 3) = none ∧
    (tfind (worn []).vault.tree.keys (worn []).vault.gen).isSome = true ∧ keyLevel (ctrKey 1 3) ∈ [1, 2, 3, 4] ∧
    renewFault (worn [(ctrKey 0 49, 2)]).vault.tree (ctrKey 1 3) = some (ctrKey 0 49) ∧
    chainOfPanel (worn [(ctrKey 0 49, 2)]) (keyIndex (ctrKey 1 3) * 16 ^ keyLevel (ctrKey 1 3)) = some 1 := by decide
theorem test_upkeep : let s := setVault keyed { keyed.vault with genUse := [(0, 2 ^ 35)] }
    (after s .rekeySweepStart).vault.gen = 1 ∧ (after (setVault keyed { keyed.vault with sweep := some 5, oldGen := some 0 }) .rekeySweepEnd).vault.sweep = none ∧
    tget 0 (after (worn []) .reencryption).vault.tree.majors (ctrKey 1 3) = 1 ∧
    (after (worn [(ctrKey 0 49, 2)]) .reencryption).faults.fired.length = 1 := by decide
theorem test_hyp_Tombstone : let s := { vst 10 [] kill with tombPend := [ident], ctxs := [] }
    s.tombPend.find? (fun i => !killRuns s i) = some ident ∧ tableBuckets s 0 tbTmb ≠ 0 ∧ ident ≠ [] ∧ tombHeld s ident = false ∧
    limitHit s 0 = false ∧ (chooseBucket s 0 tbTmb (candA ident (tableBuckets s 0 tbTmb)) (candB ident (tableBuckets s 0 tbTmb)) 0).isSome = true := by
  decide
theorem test_hyp_Tombstone_held : let s := { vst 10 [⟨0, tbTmb, candA ident (2 ^ 20), [(4, ⟨ident⟩)]⟩] kill with tombPend := [ident], ctxs := [] }
    s.tombPend.find? (fun i => !killRuns s i) = some ident ∧ tombHeld s ident = true ∧ (after s .tombstoneCommit).tombPend = [] := by decide
/-- ReloadsRun: a source that failed, one that has come with a malformed record, a chain that is NONE, and an empty image. -/
def reload (param : Nat) (src : Bytes) : Ctx := admin 0x88 param src
def reloading (c : Ctx) (st : VaultSt) : State := setCtx (setChain keyed 1 { Chain.none with st := st }) 4032 c
theorem test_hyp_Reload : isAdmin (reloading (reload 0x101 []) .unloaded) 0x88 (reload 0x101 []) = true ∧
    imageRecords 1 [] = some [] ∧ imageRecords 2 (zeros 64) = none ∧ (getChain (reloading (reload 0x101 []) .unloaded) 1).st = .unloaded ∧
    (getChain (reloading (reload 0x101 []) .none) 1).st = .none ∧ bitAt (eParam (reload 0x101 []).entry) 8 = true ∧
    bitsAt (eParam (reload 0x101 []).entry) 0 8 = 1 ∧ bitAt (eParam (reload 0x101 []).entry) 9 = false ∧
    (getChain (after (reloading (reload 0x101 []) .unloaded) (.vaultReload 4032)) 1).st = .reloading ∧
    (let c := { reload 0x101 [] with srcFail := true }
     isAdmin (reloading c .unloaded) 0x88 c = true ∧ (getChain (after (reloading c .unloaded) (.vaultReload 4032)) 1).st = .failed ∧
     (getChain (after (reloading c .ready) (.vaultReload 4032)) 1).st = .ready) := by decide
/-- A reload while the channels rest: its chain may begin one, and the image holds no record. -/
theorem test_hyp_Reload_rest : reloadOwn (setFlag (reloading (reload 0x101 []) .unloaded) Reg.DDR_STAT_SREF true) 1 true [] ∧
    reloadOwn (reloading (reload 0x101 []) .unloaded) 1 true [] ∧
    flag (setFlag (reloading (reload 0x101 []) .unloaded) Reg.DDR_STAT_SREF true) Reg.DDR_STAT_SREF = true ∧
    flag (reloading (reload 0x101 []) .unloaded) Reg.DDR_STAT_SREF = false :=
  ⟨⟨.inl (by decide), fun h => absurd h (by decide)⟩, ⟨.inl (by decide), fun h => absurd h (by decide)⟩, by decide, by decide⟩
/-- An anchor whose AES-CMAC verifies stands. -/
theorem test_hyp_LastAnchor (a : Anchor) : ∃ b, lastAnchor { keyed with vault := { keyed.vault with anchors := [b] } } = some b :=
  ⟨{ a with mac := anchorMac a }, by simp [lastAnchor, anchorMac, anchorBytes]⟩
theorem test_hyp_NoAnchor : lastAnchor keyed = none := rfl
/-- A tombstone's probe reads a panel that was written and has no tag. -/
theorem test_hyp_Tombstone_fault :
    let s := vst 10 [] kill
    let s2 := setVault { s with tombPend := [ident], ctxs := [] }
      { s.vault with tree := { s.vault.tree with minors := [(ctrKey 0 ((pairPanels s 0 tbTmb ident).headD 0), 1)] } }
    s2.tombPend.find? (fun i => !killRuns s2 i) = some ident ∧ (readFault s2 (pairPanels s2 0 tbTmb ident)).isSome = true := by decide
/-- VaultPanelsOpenAsWritten: the keys of the generation stand; a panel, and the panels of a page. -/
theorem test_hyp_Panels : let s := vst 10 [] vput
    tfind s.vault.tree.keys s.vault.gen = some (zeros 80) ∧ (zeros 80).length = 80 ∧ (zeros 256).length = 256 ∧
    keyLevel (ctrKey 1 3) = 1 ∧ (openChild s.vault.tree (childKey (ctrKey 1 3) 15)).length = 256 := by decide
/-- MemoryControllers. -/
theorem test_memory : flag (after begun (.ddrTrainingDone 0xF 0xF 3 1 0)) Reg.VLT_STAT_PRESENT = true ∧
    flag (after begun (.ddrTrainingDone 2 2 3 1 0)) Reg.VLT_STAT_PRESENT = false ∧
    getF (after begun (.ddrTrainingDone 0xF 0x7 3 1 0)) Reg.DDR_CFG_CHMASK = 3 ∧ popOf (0xF &&& 0xF) ≠ 0 ∧
    (getChain (chained (chain 10 [])) 1).st ≠ .none ∧
    (getChain (after (chained (chain 10 [])) (.ddrError 0 0 true (some 1) 5 none)) 1).st = .failed ∧
    (after begun (.ddrThermal 90#8 true)).faults.fired.length = 1 := by decide

/-- KeyStoreWorks: a slot that awaits its reservation, late or in time; a retired slot; the IV counter past 2^39. -/
def store : State :=
  setF { span 400 keyed with
    keys := [(300, { getKey keyed 300 with recorded := true, budget := 5 }), (302, { KeySlot.empty with st := .retired, gen := 16, changedTick := 9 })]
    reserveDue := [(300, 100)], recordDue := [(300, 100)], ivCtr := 2 ^ 39 + 1 } Reg.SIL_STAT_READY 1
theorem test_hyp_KeyStore : (store.reserveDue.any (fun x => x.1 == 300)) = true ∧ (store.recordDue.any (fun x => x.1 == 300)) = true ∧
    store.faults.flashHalted = false ∧ store.reserveDue.find? (fun x => x.1 == 300) = some (300, 100) ∧ 100 + 256 < store.tick.count ∧
    (getKey store 302).st = .retired ∧ (getKey store 302).extOf = none ∧ (getKey store 302).changedTick < store.tick.count ∧
    keyInUse store 302 = false ∧ 2 ^ 39 < store.ivCtr % 2 ^ 40 ∧ sillVal store 1 % 2 ^ 24 = store.ivCtr / 2 ^ 40 % 2 ^ 24 ∧
    silPending store 1 = false ∧ flag store Reg.SIL_STAT_READY = true ∧ silCount store 1 < 1000000 ∧ store.nv.silWait.length < 8 := by decide
/-- The record of a VAULT key is due, and its chain takes it or not. -/
theorem test_hyp_KeyStore_vault : let s := setKey store 300 { getKey store 300 with attr := 2 * 2 ^ 26 }
    aStore (getKey s 300).attr = 2 ∧ vaultTakes s 300 = false ∧ vaultTakes (setChain s 1 { Chain.none with st := .ready }) 300 = true ∧
    vaultTakes store 300 = true ∧ aStore (getKey store 300).attr ≠ 2 := by decide
theorem test_key_store : (after store (.budgetReservation 300)).reserveDue = [] ∧ (after store (.kstReserve 300)).faults.fired.length = 1 ∧
    (after store (.storedRecordWrite 300)).recordDue = [] ∧ (getKey (after store (.keySlotZeroise 302)) 302) = { KeySlot.empty with gen := nextGen 16 } ∧
    (1, 1#32) ∈ (after store .ivReservation).nv.silWait ++ (after store .ivReservation).nv.silProg ∧
    (let s := setKey (putRecord store (recordOf store 302)) 302 { getKey store 302 with failed := true }
     ((after s (.keySlotZeroise 302)).records.map (·.slot)) = [302] ∧
     (after (putRecord store (recordOf store 302)) (.keySlotZeroise 302)).records = []) := by decide

/-- SeamRequests and SeamUpkeep. -/
def lmsUp : State :=
  setF (setF { ended { up with cfg := { SliceCfg.zero with keyQuota := 10 } } with lms := { keyed.lms with pairs := [(130, spair)] } }
    Reg.LMS_REQ_STAT_STATE 0) Reg.LCY_STAT_STATE 4
def lmsDom : State := setF lmsUp Reg.KST_STAT_DOMAIN 1
theorem test_hyp_SeamRequests : reqBusy lmsDom = false ∧ lmsServed lmsDom = true ∧ lmsServed begun = false ∧ generateErr lmsDom 1 3 = 0 ∧
    generateErr lmsDom 3 3 = 6 ∧ generateErr lmsDom 1 4 = 1 ∧ freePair lmsDom = some 131 ∧ (getSlice lmsDom 3).st = .active ∧ reqAddr lmsDom % 256 = 0 ∧
    reqBusy (setF lmsDom Reg.LMS_REQ_STAT_STATE 1) = true := by decide
theorem test_seam_requests : (after lmsDom (.lmsGenerate 1 3)).lms.generating = some 131 ∧ getF (after lmsDom (.lmsGenerate 3 3)) Reg.LMS_REQ_STAT_ERR = 6 ∧
    (after lmsDom (.lmsLoadPublic 3)).lms.loadWait = true ∧ getF (after lmsDom .lmsDestroy) Reg.LMS_REQ_STAT_ERR = 2 := by decide
/-- A reference of slice 3 in slot 300 for LMS_REQ DESTROY. -/
def lmsRef : State :=
  setReg { lmsDom with keys := [(300, { KeySlot.empty with st := .active, owner := 3, gen := 7, typ := 0x40, material := zeros 256 ++ leBytes 2 130 })] }
    Reg.LMS_REQ_HANDLE (BitVec.ofNat 32 (3 * 2 ^ 24 + 300 * 2 ^ 10 + 7))
theorem test_hyp_SeamDestroy : handleOk lmsRef 3 (getReg lmsRef Reg.LMS_REQ_HANDLE).toNat = true ∧
    hSlice (getReg lmsRef Reg.LMS_REQ_HANDLE).toNat = 3 ∧ hSlot (getReg lmsRef Reg.LMS_REQ_HANDLE).toNat = 300 ∧
    typSeam (getKey lmsRef 300).typ = true ∧ (after lmsRef .lmsDestroy).lms.destroying = some 300 := by decide
def building : State :=
  span 12917000 { lmsDom with lms := { lmsDom.lms with generating := some 131, pairs := lmsDom.lms.pairs ++ [(131, { spair with st := .building, slice := 3 })] } }
/-- The pair lacks the bottom tree of its next block, and the upkeep has had the ticks of one. -/
def lowPair : State := span 7000 (setPair lmsDom 130 { spair with builtTo := 1 })
theorem test_hyp_BottomTree : servedPair lowPair = some (130, { spair with builtTo := 1 }) ∧ liveHash lowPair ≠ [] ∧
    lowPair.lms.workEnd + treeTicks lowPair ≤ lowPair.tick.count ∧ servedPair lmsDom = none := by decide
theorem test_hyp_CacheRebuilt : let s := setPair (setFlag lmsDom Reg.TIK_STAT_RUN true) 130 { spair with cached := false }
    running s = true ∧ (∀ x ∈ s.lms.pairs, x.1 < 130 → x.2.cached = true ∨ x.2.st = .building) := by decide
theorem test_hyp_SeamUpkeep : building.lms.generating = some 131 ∧ (getPair building 131).isSome = true ∧
    building.lms.genStart + genTicks 1 ≤ building.tick.count ∧ lmsServed building = true ∧ refRoom building 3 = true ∧ (131 : Nat) < 256 ∧
    getPair lmsDom 130 = some spair ∧ captureDue { spair with next := 600, reservedTo := 1 } = true ∧ captureDue spair = false ∧
    ({ spair with builtTo := 1 }.builtTo < spair.next / 1024 + 2) ∧ spair.capturing = false ∧ running allReady = false := by decide
theorem test_seam_upkeep : (getPair (after lowPair (.bottomTreeBuilt 130)) 130).map (·.builtTo) = some 2 ∧
    (getPair (after (setPair lmsDom 130 { spair with next := 600, reservedTo := 1 }) (.reserveCapture 130)) 130).map (·.capturing) = some true ∧
    (getPair (after (setPair lmsDom 130 { spair with capturing := true }) (.reserveProgrammed 130 true)) 130).map (·.reservedTo) = some 4097 ∧
    (getPair (after (setPair lmsDom 130 { spair with capturing := true }) (.reserveProgrammed 130 false)) 130).map (·.failed) = some true ∧
    (getPair (after (setPair (setFlag lmsDom Reg.TIK_STAT_RUN true) 130 { spair with cached := false }) (.cacheRebuilt 130 2)) 130).map (·.cached) = some true ∧
    getPair (after building (.generateDone false)) 131 = none := by decide

/-! ### The entropy block, the SPDM responder, the SMBus target -/

/-- HealthAndSeeding: windows that pass and fail, repetitions, the first seeding before and after its tick, a reseed that is due. -/
theorem test_hyp_Health : 512 ≤ (span 600 begun).tick.count ∧ begun.rng.failTick = none ∧ (span 400 begun).tick.count < 512 ∧
    (∀ x ∈ [(1792, 9), (2304, 9)], aliveOk x = true) ∧ aliveOk (1791, 9) = false ∧ aliveOk (2305, 9) = false ∧
    lockOk (4, 2) = true ∧ lockOk (3, 2) = false ∧ aptOk (831, 0) = true ∧ aptOk (832, 0) = false ∧
    begun.rng.seeded = false ∧ begun.faults.safe = false ∧ (5 : Nat) % 16 ≠ 0 := by decide
theorem test_hyp_Reseed : let s := { span (1024 * 1024) { begun with rng := { Rng.reset with seeded := true } } with tick := { begun.tick with count := 1024 * 1024 } }
    s.rng.seeded = true ∧ s.rng.failTick = none ∧ s.tick.span = false ∧ s.tick.count % 1024 = 0 ∧
    (getReg s Reg.RNG_RESEEDS).toNat + 1 < s.tick.count / 1024 ∧ (getReg (after s .rootReseed) Reg.RNG_RESEEDS).toNat = 1 := by decide
theorem test_hyp_EntropyFails : trising 0 (span 15 (put (ctx 0x01 0 65536 0 1 [] (zeros 16)))).ctxs = true ∧
    (let s := span 600 (put (ctx 0x01 0 65536 0 1 [] (zeros 16)))
     getF (after s (.healthTestWindow 0 [(2000, 4), (100, 4)])) Reg.RNG_FAIL_CELLS = 2 ∧
     getF (after s (.repetitionCountFailure 5)) Reg.RNG_FAIL_CAUSE = 3 ∧ (after s (.repetitionCountFailure 5)).rng.failTick = some 600) := by decide
/-- The kerf of tick 1,551 with every window passed. -/
def seeding : State :=
  { begun with tick := { begun.tick with count := 1552 }, rng := { begun.rng with windows := [(0, 8), (1, 8), (2, 32)], raw := [[], []] } }
theorem test_hyp_FirstSeeding : seeding.tick.span = false ∧ seeding.tick.count = 1552 ∧ seeding.rng.seeded = false ∧
    startupPassed seeding.rng = true ∧ seeding.rng.failTick = none ∧ seeding.faults.safe = false ∧ seeding.boot.held = false ∧
    seeding.rng.services = false := by decide
theorem test_first_seeding : flag (after seeding (.rngFirstSeeding true)) Reg.RNG_STAT_READY = true ∧
    getF (after seeding (.rngFirstSeeding false)) Reg.RNG_FAIL_CAUSE = 5 ∧
    (after (span 1552 begun) (.rngFirstSeeding true)).rng.seeded = false := by decide
/-- RandomReads: a word that is ready, a read that waits, and the one whose time ends. -/
def rngOk (ws : List Word) (wait : List Nat) : State :=
  setFlag (setFlag { begun with rng := { Rng.reset with fifo := ws, waiting := wait, seeded := true, services := true } } Reg.RNG_STAT_ERR false)
    Reg.RNG_STAT_READY true
theorem test_hyp_RandomReads : rngErr (rngOk [7#32] []) = false ∧ rngErr begun = true ∧ (rngOk [7#32] []).rng.fifo = 7#32 :: [] ∧
    (rngOk [7#32] []).rng.waiting = [] ∧ (rngOk [] []).rng.fifo = [] ∧ (rngOk [] [3]).rng.waiting = 3 :: [] ∧
    gateCheck (rngOk [] []) (rngOk [] []).gates.live 3 (regAddr Reg.RNG_DATA) .read = .allow ∧
    gateCheck begun begun.gates.live 57 (regAddr Reg.RNG_DATA) .read = .deny := by decide
theorem test_random : (after (rngOk [7#32] []) (.rngDataRead 3)).out = [.readReply 3 Reg.RNG_DATA 7#32] ∧
    (after (rngOk [] []) (.rngDataRead 3)).rng.waiting = [3] ∧ getF (after (rngOk [] [3]) .rngDataTimeout) Reg.RNG_UNDER_N = 1 ∧
    (after begun (.rngRawRead 3 9#32)).out = [.readReply 3 Reg.RNG_RAW 0#32] := by decide

/-- A device that runs data service, over a link whose negotiation is finished, with session 1 open. -/
def responder (est : Bool) : State :=
  { setFlag begun Reg.TIK_STAT_RUN true with
    link := { Link.reset with version := 0x12, algs := true, transA := [1#8], sessions := [⟨1, est, zeros 48, 0⟩], ideKeys := [(5, zeros 40)] } }
def req (code p1 p2 : Nat) (body : Bytes) : Bytes := leBytes 1 0x12 ++ leBytes 1 code ++ leBytes 1 p1 ++ leBytes 1 p2 ++ body
/-- An IDE_KM request for a stream. -/
def ideReq (op stream : Nat) : Bytes :=
  req 0xFE 0 0 (leBytes 2 3 ++ [2#8] ++ leBytes 2 1 ++ leBytes 2 48 ++ [0#8] ++ leBytes 1 op ++ zeros 2 ++ leBytes 1 stream ++ zeros 43)
/-- SpdmRefuses: a held device, another code, the identity-only states, no negotiation, no data service. -/
theorem test_hyp_SpdmRefuses : ({ begun with boot := { begun.boot with held := true } } : State).boot.held = true ∧ begun.boot.held = false ∧
    byteAt (req 0x83 0 0 []) 1 = 0x83 ∧ byteAt (req 0x83 0 0 []) 1 ≠ 0x81 ∧ identityOnly { begun with faults := { begun.faults with safe := true } } = true ∧
    identityOnly begun = false ∧ begun.link.algs = false ∧ (responder true).link.algs = true ∧ running begun = false ∧
    identityOnly (setFlag (responder true) Reg.TIK_STAT_RUN false) = false ∧ running (setFlag (responder true) Reg.TIK_STAT_RUN false) = false := by decide
theorem test_spdm_refuses : (after begun (.spdmChallenge (req 0x83 0 0 []))).out = [.spdm [0x10#8, 0x7F#8, 0x04#8, 0#8]] ∧
    (after (setFlag (responder true) Reg.TIK_STAT_RUN false) (.heartbeat 1 (req 0xE8 0 0 []))).out = [.spdm [0x12#8, 0x7F#8, 0x42#8, 0#8]] ∧
    (after begun (.getDigests (req 0x82 0 0 []))) = begun := by decide
/-- SpdmIdentifies. -/
theorem test_hyp_SpdmIdentifies : byteAt (req 0x84 0 0 []) 1 = 0x84 ∧ (responder true).link.transA ≠ [] ∧ byteAt (req 0xE1 0 0 []) 0 = 0x12 ∧
    (responder true).link.version ≠ 0 ∧ bitAt (leAt (req 0xE3 0 0 (zeros 4 ++ leBytes 4 0x80 ++ leBytes 4 2)) 8 4) 7 = true ∧
    bitAt (leAt (req 0xE3 0 0 (zeros 4 ++ leBytes 4 0x80 ++ leBytes 4 2)) 12 4) 1 = true ∧ (responder true).boot.held = false ∧
    identityOnly (responder true) = false ∧ running (responder true) = true ∧ reqP1 (req 0x82 0 0 (zeros 4)) % 16 = 0 ∧
    1 ≤ reqP2 (req 0xE0 1 4 []) ∧ reqP2 (req 0xE0 1 4 []) ≤ 4 ∧ reqP1 (req 0xE0 1 4 []) % 2 = 1 ∧ byteAt (req 0xE0 1 4 []) 1 = 0xE0 := by decide
theorem test_hyp_GetCertificate (h : certChain ≠ []) : leAt (req 0x82 0 0 (zeros 4)) 4 2 < certChain.length := by
  rw [show leAt (req 0x82 0 0 (zeros 4)) 4 2 = 0 by decide]; exact List.length_pos_iff.mpr h
theorem test_get_version : (after (responder true) (.getVersion (req 0x84 0 0 []))).out =
    [.spdm [0x10#8, 4#8, 0#8, 0#8, 0#8, 2#8, 0#8, 0x12#8, 0#8, 0x13#8]] ∧ getF (after (responder true) (.getVersion (req 0x84 0 0 []))) Reg.HLK_SPDM_SESSIONS = 1 := by
  decide
/-- SpdmSessions: a free session, an open one whose handshake is not finished, one that is, and requests within it. -/
theorem test_hyp_SpdmSessions : Speaks (responder true) (req 0xE4 0 0 []) 0xE4 ∧ Speaks (responder false) (req 0xE5 0 0 []) 0xE5 ∧
    Speaks (responder true) (req 0xE8 0 0 []) 0xE8 ∧ Speaks (responder true) (req 0xE9 1 0 []) 0xE9 ∧ Speaks (responder true) (req 0xEC 0 0 []) 0xEC ∧
    Speaks (responder true) (ideReq 2 5) 0xFE ∧ InSession (responder true) 1 ⟨1, true, zeros 48, 0⟩ ∧
    findSession (responder false) 1 = some ⟨1, false, zeros 48, 0⟩ ∧ freeSession (responder true) = some 0 ∧
    (∀ t, Config.pkOk 4 t = true ∨ Config.pkOk 4 t = false) := by
  refine ⟨⟨by decide, by decide, by decide, by decide, by decide⟩, ⟨by decide, by decide, by decide, by decide, by decide⟩,
    ⟨by decide, by decide, by decide, by decide, by decide⟩, ⟨by decide, by decide, by decide, by decide, by decide⟩,
    ⟨by decide, by decide, by decide, by decide, by decide⟩, ⟨by decide, by decide, by decide, by decide, by decide⟩,
    ⟨by decide, by decide⟩, by decide, by decide, fun t => ?_⟩
  cases Config.pkOk 4 t <;> simp
/-- A KEY_EXCHANGE whose point is the curve's base point, of a responder whose DRBG's key of no bytes leaves its blocks as
they are: the secret stands. -/
def exchange : Bytes := req 0xE4 0 0 (zeros 36 ++ (ecEncode p384 (ecBase p384)).drop 1)
def drawing : State :=
  { responder true with rng := { (responder true).rng with services := true, drbgs := [(childPosts, ⟨[], List.replicate 16 0xFF#8⟩)] } }
theorem test_hyp_KeyExchange : Speaks drawing exchange 0xE4 ∧ freeSession drawing = some 0 :=
  ⟨⟨by decide, by decide, by decide, by decide, by decide, by decide⟩, by decide⟩
theorem test_hyp_KeyExchange_secret : (ecdhSecret p384 (beBytes 48 (ecScalar p384 ((drawFrom childPosts 88 drawing).1.take 56)))
    ([4#8] ++ sub exchange 40 96)).isSome = true := by decide +kernel
theorem test_hyp_TwoSessions :
    freeSession { responder true with link := { (responder true).link with sessions := [⟨0, true, [], 0⟩, ⟨1, true, [], 0⟩] } } = none := by decide
theorem test_hyp_IdeKm : ∀ op ∈ [2, 4, 5], leAt (ideReq op 5) 4 2 = 3 ∧ byteAt (ideReq op 5) 6 = 2 ∧ leAt (ideReq op 5) 7 2 = 1 ∧ byteAt (ideReq op 5) 11 = 0 ∧
    byteAt ((ideReq op 5).drop 12) 0 = op ∧ byteAt ((ideReq op 5).drop 12) 3 = 5 ∧ streamOk 5 = true ∧ streamOk 128 = false ∧
    (tfind (responder true).link.ideKeys 5).isSome = true ∧ tfind (responder true).link.ideKeys 6 = none := by decide
theorem test_ide : (after (responder true) (.vendorDefinedRequest 1 (ideReq 4 5))).link.secure = [5] ∧
    (after (after (responder true) (.vendorDefinedRequest 1 (ideReq 4 5))) (.vendorDefinedRequest 1 (ideReq 5 5))).link.secure = [] ∧
    (after (responder true) (.vendorDefinedRequest 1 (ideReq 2 255))).link.ideKeys.map (·.1) = [5, 255] ∧
    (after (responder true) (.endSession 1 (req 0xEC 0 0 []))).link.sessions = [] := by decide
/-- SmbusReads. -/
theorem test_hyp_Smbus : begun.thm.main = true ∧ ({ begun with smbAlert := true } : State).smbAlert = true ∧ begun.smbAlert = false ∧
    ({ begun with thm := { begun.thm with main := false } } : State).thm.main = false := by decide
theorem test_smbus : (after { begun with smbAlert := true } .alertResponse).out = [.smbus [0x5A#8]] ∧
    (after { begun with boot := { begun.boot with held := true } } .status).out = [.smbus [0x80#8]] ∧
    (after (setFlag begun Reg.TIK_STAT_RUN true) .status).out = [.smbus [1#8]] := by decide
/-! ### The flash controller and the sill registers -/

/-- FLS_CMD over an offset: the controller is ready, with banks and units as given. -/
def flash (off src : Nat) (nv : Nv) : State :=
  setFlag (setF (setReg { keyed with nv := nv } Reg.FLS_SRC (BitVec.ofNat 32 src)) Reg.FLS_ADDR_OFF off) Reg.FLS_STAT_READY true
/-- Partition B, which is not active. -/
def offB : Nat := 0x08000000
def oneUnit (x : FUnit) : Nv := { Nv.reset with units := [(offB / 32, x)] }
def erasing (op : Nat) : Nv := { Nv.reset with bank1 := ⟨op, 2048, [], true, false, 1, none⟩ }
/-- FlashRequests: requests that start, that wait, and that end with an error. -/
theorem test_hyp_FlashRequests : (flash offB 0x02000000 Nv.reset).faults.safe = false ∧ (flash offB 0x02000000 Nv.reset).faults.flashHalted = false ∧
    flag (flash offB 0x02000000 Nv.reset) Reg.FLS_STAT_READY = true ∧ flsBusy (flash offB 0x02000000 Nv.reset) = false ∧
    flsError (flash offB 0x02000000 Nv.reset) 1 = 0 ∧ flsError (flash offB 0x02000000 Nv.reset) 2 = 0 ∧ flsError (flash offB 0x02000000 Nv.reset) 3 = 0 ∧
    flsError (flash offB 0 (oneUnit (.data (zeros 32)))) 6 = 0 ∧ flsError (flash offB 0 Nv.reset) 1 = 5 ∧ flsError (flash (offB + 32) 0x02000000 Nv.reset) 1 = 4 ∧
    flsError (flash 0 0x02000000 Nv.reset) 3 = 1 ∧ flsError (flash offB 0x02000000 (erasing 3)) 2 = 2 ∧
    flsError (flash offB 0x02000000 (oneUnit .torn)) 2 = 3 ∧ flsError (flash (offB + 65536) 0x02000000 (erasing 2)) 2 = 0 ∧
    (getBank (flash (offB + 65536) 0x02000000 (erasing 2)) (bankOf 2049)).op = 2 ∧
    bankProgramming (flash offB 0x02000000 Nv.reset) (bankOf 2048) = false ∧ (getBank (flash offB 0x02000000 Nv.reset) (bankOf 2048)).op = 0 ∧
    journalTurns (flash offB 0x02000000 Nv.reset) = false := by
  decide
theorem test_flash_requests : getF (after (flash 0 0 Nv.reset) .erase) Reg.FLS_CMD_STAT_ERR = 1 ∧
    (getBlock (after (flash offB 0 Nv.reset) .erase) 2048) = ⟨1, false⟩ ∧ (after (flash offB 0 Nv.reset) .erase).nv.journal.length = 1 ∧
    ((getBank (after (flash offB 0x02000000 Nv.reset) .programPage) 1).units.map (·.1)).length = 8 ∧
    (after (flash (offB + 65536) 0x02000000 (erasing 2)) .programUnit).nv.wait.isSome = true ∧
    (getBank (after (flash offB 0 (oneUnit (.data (zeros 32)))) .zeroUnit) 1).units = [(offB / 32, .zeroed)] ∧
    (after (flash offB 0 Nv.reset) .programUnit).faults.fired.length = 1 := by decide
theorem test_hyp_Erases : eraseBank (flash offB 0 (erasing 2)) 2 = some 1 ∧ eraseBank (flash offB 0 (erasing 3)) 3 = some 1 ∧
    bankProgramming (flash offB 0 (erasing 3)) 1 = false ∧ eraseBank (flash offB 0 Nv.reset) 2 = none ∧ eraseBank (flash offB 0 Nv.reset) 3 = none := by
  decide
theorem test_erases : (getBank (after (flash offB 0 (erasing 2)) .suspend) 1).op = 3 ∧ (getBank (after (flash offB 0 (erasing 3)) .resume) 1).op = 2 ∧
    getF (after (flash offB 0 Nv.reset) .suspend) Reg.FLS_CMD_STAT_ERR = 7 := by decide
/-- A block whose latest record is an OPEN is indeterminate after the scan, with the record's count (R408, R409). -/
theorem test_scan_open : let r : EraseRec := ⟨1, 0, 2048, 7, 0, 0, []⟩
    scanBlock { begun with nv := { Nv.reset with journal := [{ r with mac := eraseMac r }] } } (2048, ⟨7, false⟩) = (2048, ⟨7, true⟩) := by
  simp [scanBlock, lastErase, lastOf, leavesOpen, eraseMac, eraseBytes]
/-- FlashOperationsEnd. -/
def programming : Nv := { Nv.reset with bank1 := ⟨1, 2048, [(offB / 32, .data (zeros 32))], true, false, 0, none⟩ }
def third : Nv := { Nv.reset with bank1 := ⟨2, 2048, [], true, false, 3, none⟩, units := [(offB / 32, .torn)] }
theorem test_hyp_FlashEnds : (getBank (flash offB 0 programming) 1).op = 1 ∧ ((getBank (flash offB 0 programming) 1).units.map (·.1)).Nodup ∧
    (flash offB 0 programming).nv.wait = none ∧ (flash offB 0 programming).nv.silWait = [] ∧ (flash offB 0 programming).nv.silProg = [] ∧
    (getBank (flash offB 0 programming) 1).saved = none ∧ (getBank (flash offB 0 programming) 0).op ≠ 1 ∧ (getBank (flash offB 0 third) 1).op = 2 ∧
    3 ≤ (getBank (flash offB 0 third) 1).attempts ∧ (getBank (flash offB 0 (erasing 2)) 1).attempts < 3 ∧
    flag begun Reg.FLS_STAT_READY = false ∧ flsBusy begun = false := by decide
theorem test_flash_ends : getUnit (after (flash offB 0 programming) (.flashProgramDone 1 true)) (offB / 32) = .data (zeros 32) ∧
    getUnit (after (flash offB 0 third) (.flashEraseDone 1 true)) (offB / 32) = .erased ∧
    (getBlock (after (flash offB 0 third) (.flashEraseDone 1 false)) 2048).indet = true ∧
    (getBank (after (flash offB 0 (erasing 2)) (.flashEraseDone 1 false)) 1).attempts = 2 ∧
    flag (after begun .resetScanDone) Reg.FLS_STAT_READY = true := by decide
/-- SillRegisters: a write that is queued, one that replaces another, one that is dropped, one at the limit; a batch. -/
def sill (nv : Nv) : State := setFlag { keyed with nv := nv } Reg.SIL_STAT_READY true
def full8 : List (Nat × Word) := (List.range 8).map (fun i => (20 + i, 0#32))
theorem test_hyp_Sill : flag (sill Nv.reset) Reg.SIL_STAT_READY = true ∧ silCount (sill Nv.reset) 100 < 1000000 ∧ flag begun Reg.SIL_STAT_READY = false ∧
    (∀ x ∈ (sill Nv.reset).nv.silWait, x.1 ≠ 100) ∧ (∃ x ∈ (sill { Nv.reset with silWait := full8 }).nv.silWait, x.1 = 20) ∧
    8 ≤ (sill { Nv.reset with silWait := full8 }).nv.silWait.length ∧ 1000000 ≤ silCount (sill { Nv.reset with silCnt := [(100, 1000000)] }) 100 ∧
    ({ Nv.reset with silProg := [(100, 7#32)] } : Nv).silProg ≠ [] ∧ ((sill { Nv.reset with silProg := [(100, 7#32)] }).nv.silProg.map (·.1)).Nodup ∧
    (sill Nv.reset).nv.bank0.op ≠ 1 ∧ (sill Nv.reset).faults.flashHalted = false := by decide
theorem test_sill : tget 0#32 (after (sill { Nv.reset with silProg := [(100, 7#32)] }) .sillBatchDone).sill 100 = 7#32 ∧
    (after (sill { Nv.reset with silWait := full8 }) (.sillWrite 20 9#32)).nv.silWait.head? = some (20, 9#32) ∧
    getF (after (sill { Nv.reset with silWait := full8 }) (.sillWrite 100 9#32)) Reg.SIL_DROP_N = 1 ∧
    (after (sill { Nv.reset with silCnt := [(100, 1000000)] }) (.sillWrite 100 9#32)).faults.fired.length = 1 := by decide
/-! ### Cards, the two-party guard, ceremonies, firmware -/

/-- A card in slot A, with a job, its slot's state and kind, and the officer of its session. -/
def carded (job : CardJob) (st kind officer : Nat) (o : Ofc) : State :=
  setF (setF (setF { keyed with ofc := { o with slotA := ⟨true, List.replicate 16 3#8, job, 15⟩ } } (slotFld 0 Reg.OFC_SLOTA_STATE) st)
    (slotFld 0 Reg.OFC_SLOTA_KIND) kind) (slotFld 0 Reg.OFC_SLOTA_OFFICER) officer
theorem test_hyp_Cards : cardsServed keyed = true ∧ (getCard keyed 0).present = false ∧ keyed.boot.held = false ∧
    (getCard (carded .none 3 1 0 Ofc.reset) 0).present = true ∧ (getCard (carded .none 3 1 0 Ofc.reset) 0).job = .none ∧
    (getCard (carded .info 2 0 0 Ofc.reset) 0).job = .info ∧ (carded .info 2 0 0 Ofc.reset).ofc.ceremony = none ∧
    (getCard (carded (.enrol 0) 5 1 0 Ofc.reset) 0).job = .enrol 0 := by decide
theorem test_cards : slotSt (after keyed (.cardInsert 0 true)) 0 = 2 ∧ slotSt (after keyed (.cardInsert 1 false)) 1 = 6 ∧
    slotSt (after (carded .info 2 0 0 Ofc.reset) (.getInfo 0 0x9000 (1#8 :: zeros 20))) 0 = 3 ∧
    getF (after (carded .info 2 0 0 Ofc.reset) (.cardRemove 0)) (slotFld 0 Reg.OFC_SLOTA_ERR) = 7 ∧
    getF (after (carded .info 2 0 0 Ofc.reset) (.cardTimeout 0 false)) (slotFld 0 Reg.OFC_SLOTA_ERR) = 1 := by decide

/-- The last round key, and so each CMAC, under a key of zeros has 16 bytes. -/
theorem cmac_len (d : Bytes) : (cmac (zeros 16) d).length = 16 := by
  have hs : ∀ l, (aesShiftRows l).length = 16 := fun l => by simp [aesShiftRows]
  have hk : ((aesRoundKeys (zeros 16)).tail.getLastD []).length = 16 := by decide
  have hc : aesRoundKeys (zeros 16) ≠ [] := by decide
  have he : ∀ b, (aesEnc (zeros 16) b).length = 16 := fun b => by
    unfold aesEnc
    split
    · rename_i h; exact absurd h hc
    · rename_i k0 ks h; rw [h] at hk; simp only [List.tail_cons] at hk
      simp only [xorB, List.length_zipWith, hs, hk, Nat.min_self]
  simp [cmac, he]
theorem cmac_pad (d : Bytes) : cmac (zeros 16) d = padTo 16 (cmac (zeros 16) d) := by
  simp [padTo, sub, cmac_len, List.take_of_length_le]
theorem other_response (d : Bytes) : ∃ r, cmac (zeros 16) d ≠ padTo 16 r := by
  by_cases h : cmac (zeros 16) d = padTo 16 (zeros 16)
  · exact ⟨List.replicate 16 1#8, by rw [h]; decide⟩
  · exact ⟨zeros 16, h⟩

def officer1 (st : Nat) : Officer := ⟨st, List.replicate 16 3#8, zeros 16, [], []⟩
def officers (st : Nat) : Ofc := { Ofc.reset with officers := [(1, officer1 st)] }
/-- A change with TIK_CTRL in it, that officer 1 has or has not approved. -/
def paced : GuardEntry := ⟨1, 0x003, 0, 0x0900#32, 0, [], [], [], none⟩
def chg (entries : List GuardEntry) (approvals : List Approval) (commit : Option Nat) : Change :=
  { number := 1, entries := entries, digest := zeros 48, staged := 5, expiry := 500, approvals := approvals, commit := commit }
def guarded (ch : Change) (st : Nat) : Ofc := { officers st with change := some ch }
/-- CardsAnswer: the challenge of a LOGIN, right, right from another card, and wrong; and the challenge of an APPROVE. -/
def loginAns (ser : Byte) : State :=
  setCtx (carded (.login 4032 1 (zeros 32) (zeros 8)) 5 1 1 { officers 1 with officers := [(1, { officer1 1 with serial := List.replicate 16 ser })] }) 4032
    (admin 0x8D 0 [])
theorem test_hyp_CardsAnswer : (getCard (loginAns 3) 0).job = .login 4032 1 (zeros 32) (zeros 8) ∧ (getCtx (loginAns 3) 4032).isSome = true ∧
    cmac (getOfficer (loginAns 3) 1).key (zeros 32) = padTo 16 (cmac (zeros 16) (zeros 32)) ∧
    (∃ r, cmac (getOfficer (loginAns 3) 1).key (zeros 32) ≠ padTo 16 r) ∧
    (getCard (loginAns 3) 0).serial = (getOfficer (loginAns 3) 1).serial ∧ (getCard (loginAns 4) 0).serial ≠ (getOfficer (loginAns 4) 1).serial :=
  ⟨by decide, by decide, cmac_pad _, other_response _, by decide, by decide⟩
theorem test_hyp_Attempts : 3 ≤ attempts { loginAns 3 with sill := [(8, 2#32)] } 1 + 1 := by decide
def approveAns (d : Bytes) (ch : Change) : State := setCtx (carded (.approve 4032 d) 5 1 1 (guarded ch 2)) 4032 (admin 0x8D 1 [])
theorem test_hyp_CardsApprove : (getCard (approveAns (zeros 32) (chg [paced] [] none)) 0).job = .approve 4032 (zeros 32) ∧
    (approveAns (zeros 32) (chg [paced] [] none)).ofc.change = some (chg [paced] [] none) ∧ slotOfficer (approveAns (zeros 32) (chg [paced] [] none)) 0 = 1 ∧
    cmac (getOfficer (approveAns (zeros 32) (chg [paced] [] none)) 1).key (zeros 32) = padTo 16 (cmac (zeros 16) (zeros 32)) ∧
    (chg [paced] [] none).digest.take 16 ++ deviceId (approveAns (zeros 32) (chg [paced] [] none)) = zeros 32 ∧
    (chg [paced] [] none).digest.take 16 ++ deviceId (approveAns (zeros 31) (chg [paced] [] none)) ≠ zeros 31 ∧
    approvalReason (approveAns (zeros 32) (chg [paced] [] none)) (chg [paced] [] none) 1 false = 0 ∧
    approvalReason (approveAns (zeros 32) (chg [paced] [] none)) (chg [paced] [⟨1, false, 0⟩] none) 1 false = 10 :=
  ⟨by decide, by decide, by decide, cmac_pad _, by decide, by decide, by decide, by decide⟩

/-- ShareCardsAnswer: reads, a write and its check in a DOMAIN_NEW, reads in a DOMAIN_JOIN, the WRITE_KEY of an enrolment. -/
def cer (kind : Nat) (blocks : List Bytes) : Ceremony :=
  { ctx := none, kind := kind, k := 2, n := 3, dev := 1, l2 := zeros 32, version := 1, coefs := [zeros 32], started := 5, slot := some 0
    blocks := blocks, found := [] }
def reading (job : CardJob) (c : Ceremony) : State := carded job 5 2 0 { Ofc.reset with ceremony := some c }
theorem test_hyp_ShareCards : (reading (.read 0) (cer 0x10 [])).ofc.ceremony = some (cer 0x10 []) ∧ (getCard (reading (.read 2) (cer 0x10 [])) 0).job = .read 2 ∧
    (cer 0x10 []).kind ≠ 0x11 ∧ (getCard (reading (.verify 1) (cer 0x10 [])) 0).job = .verify 1 ∧ (getCard (reading (.write 1) (cer 0x10 [])) 0).job = .write 1 ∧
    (guarded (chg [⟨2, 0, 0, 0#32, 1, [], [], [], none⟩] [] (some 4032)) 0).change = some (chg [⟨2, 0, 0, 0#32, 1, [], [], [], none⟩] [] (some 4032)) := by
  decide
theorem test_share_cards : (after (reading (.read 0) (cer 0x10 [])) (.readBlock 0 0x9000 (zeros 128))).out = [.card 0 [0x80#8, 0x30#8, 1#8, 0#8, 128#8]] ∧
    (getCard (after (reading (.write 1) (cer 0x10 [])) (.writeBlock 0 0x9000)) 0).job = .verify 1 ∧
    ((after (carded (.enrol 0) 5 1 0 (guarded (chg [⟨2, 0, 0, 0#32, 1, [], [], [], none⟩] [] (some 4032)) 0)) (.writeKey 0 0x9000)).ofc.change.map
      (fun c => c.entries.map (·.written))) = some [some true] := by decide
/-- A share block whose CRC matches: 124 bytes of which byte 14H is 1 and byte 16H is 2, and their CRC. -/
def shareBody : Bytes := zeros 20 ++ [1#8, 1#8, 2#8] ++ zeros 101
theorem test_hyp_ShareFound : blockOk (shareBody ++ leBytes 4 (crc32c shareBody).toNat) = true := by decide +kernel

/-- ChangesAreStaged: a source with one entry for TIK_CTRL, one that names an unguarded word, a malformed one, a length out of range. -/
def change1 (off : Nat) (v : Nat) : Bytes :=
  leBytes 4 1 ++ leBytes 4 1 ++ zeros 8 ++ [1#8, 0#8] ++ leBytes 2 (Reg.TIK_CTRL / 0x1000) ++ leBytes 2 (Reg.TIK_CTRL % 0x1000 + off) ++ zeros 2 ++
    leBytes 4 v ++ zeros 4
def staging (src : Bytes) (o : Ofc) : State := setCtx { keyed with ofc := o } 4032 (admin 0x8C 0 src)
theorem test_hyp_Staged : (∀ b ∈ [change1 0 0x0900, change1 0 0x0700, zeros 32, zeros 31], isAdmin (staging b Ofc.reset) 0x8C (admin 0x8C 0 b) = true) ∧
    eLen (admin 0x8C 0 (change1 0 0x0900)).entry = 32 ∧ (parseChange (change1 0 0x0900)).isSome = true ∧ parseChange (zeros 32) = none ∧
    (parseChange (change1 0 0x0900)).map (entriesReason keyed) = some 0 ∧ (parseChange (change1 0 0x0700)).map (entriesReason keyed) = some 4 ∧
    (getSlice keyed 0).logs = [] ∧ (guarded (chg [paced] [] none) 2).change ≠ none ∧ eLen (admin 0x8C 0 (zeros 31)).entry = 31 := by decide
theorem test_staged : (after (staging (change1 0 0x0900) Ofc.reset) (.guardStage 4032)).ofc.change.isSome = true ∧
    getF (after (staging (change1 0 0x0700) Ofc.reset) (.guardStage 4032)) Reg.OFC_ERR_INFO_REASON = 4 ∧
    getF (after (staging (zeros 32) Ofc.reset) (.guardStage 4032)) Reg.OFC_ERR_INFO_REASON = 3 ∧
    getF (after (staging (change1 0 0x0900) (guarded (chg [paced] [] none) 2)) (.guardStage 4032)) Reg.OFC_ERR_INFO_REASON = 2 := by decide

/-- OfficersAct: LOGIN, APPROVE, a remote APPROVE, LOGOUT. -/
def adminSpec (op param : Nat) (spec src : Bytes) : Ctx :=
  { ctx op param 65536 12 0 spec src with slice := 0, queue := adminQ, keyA := none, keyB := none, newSlots := [] }
def acting (param : Nat) (spec src : Bytes) (slot : Nat) (o : Ofc) : State :=
  setCtx (carded .none slot 1 (if slot = 4 then 1 else 0) o) 4032 (adminSpec 0x8D param spec src)
theorem test_hyp_Login : isAdmin (acting 0 (leBytes 4 1) (zeros 113) 3 (officers 1)) 0x8D (adminSpec 0x8D 0 (leBytes 4 1) (zeros 113)) = true ∧
    slotAnswer (acting 0 (leBytes 4 1) (zeros 113) 3 (officers 1)) 0 = 0 ∧ slotAnswer (acting 0 (leBytes 4 1) (zeros 113) 4 (officers 1)) 0 = 9 ∧
    ownJob (acting 0 (leBytes 4 1) (zeros 113) 3 (officers 1)) 0 4032 = false ∧
    (∀ st ∈ [0, 1, 2, 3], (getOfficer (acting 0 (leBytes 4 1) (zeros 113) 3 (officers st)) 1).st = st) ∧
    loginKey (acting 0 (leBytes 4 1) (zeros 113) 3 (officers 1)) (zeros 97) = none := by decide
theorem test_login : getF (after (acting 0 (leBytes 4 1) (zeros 113) 3 (officers 1)) (.login 4032)) Reg.OFC_ERR_INFO_REASON = 3 ∧
    getF (after (acting 0 (leBytes 4 1) (zeros 113) 3 (officers 3)) (.login 4032)) Reg.OFC_ERR_INFO_REASON = 7 ∧
    getF (after (acting 0 (leBytes 4 2) (zeros 113) 3 (officers 1)) (.login 4032)) Reg.OFC_ERR_INFO_REASON = 6 ∧
    getF (after (acting 0 (leBytes 4 1) (zeros 113) 4 (officers 1)) (.login 4032)) Reg.OFC_ERR_INFO_REASON = 9 := by decide
def approving (ch : Change) (param num slot : Nat) (src : Bytes) : State := acting param (leBytes 8 num) src slot (guarded ch 2)
def naming (param : Nat) (src : Bytes) : Ctx := adminSpec 0x8D param (leBytes 8 1) src
theorem test_hyp_Approve : isAdmin (approving (chg [paced] [] none) 1 1 4 []) 0x8D (naming 1 []) = true ∧
    namedChange (approving (chg [paced] [] none) 1 1 4 []) (naming 1 []) = some (chg [paced] [] none) ∧
    namedChange (approving (chg [paced] [] none) 1 2 4 []) (adminSpec 0x8D 1 (leBytes 8 2) []) = none ∧
    slotSt (approving (chg [paced] [] none) 1 1 4 []) 0 = 4 ∧ slotSt (approving (chg [paced] [] none) 1 1 3 []) 0 ≠ 4 ∧
    approvalReason (approving (chg [paced] [] none) 1 1 4 []) (chg [paced] [] none) (slotOfficer (approving (chg [paced] [] none) 1 1 4 []) 0) false = 0 ∧
    approvalReason keyed (chg [paced] [⟨1, false, 0⟩] none) 1 false ≠ 0 := by decide
theorem test_approve : (getCard (after (approving (chg [paced] [] none) 1 1 4 []) (.approve 4032)) 0).job = .approve 4032 (zeros 32) ∧
    getF (after (approving (chg [paced] [] none) 1 2 4 []) (.approve 4032)) Reg.OFC_ERR_INFO_REASON = 1 ∧
    getF (after (approving (chg [paced] [] none) 1 1 3 []) (.approve 4032)) Reg.OFC_ERR_INFO_REASON = 9 ∧
    getF (after (approving (chg [paced] [⟨1, false, 0⟩] none) 1 1 4 []) (.approve 4032)) Reg.OFC_ERR_INFO_REASON = 10 := by decide
/-- A remote approval's message, by officer 1, who has or has not a seam key enrolled; its container is not genuine. -/
def message : Bytes := leBytes 4 1 ++ leBytes 4 1 ++ leBytes 8 1 ++ zeros 80
def remote (seam : Bytes) : State :=
  approving (chg [paced] [] none) 0x201 1 3 (message ++ zeros 3420) |> fun s =>
    setF { s with ofc := { s.ofc with officers := [(1, { officer1 2 with seam := seam })] } } Reg.OFC_CTRL_REMOTE_MAX 1
theorem test_hyp_Remote : isAdmin (remote []) 0x8D (naming 0x201 (message ++ zeros 3420)) = true ∧ messageOk (remote []) (chg [paced] [] none) message = true ∧
    approvalReason (remote []) (chg [paced] [] none) 1 true = 0 ∧ noPurlin (remote [1#8]) = false ∧ (getOfficer (remote [1#8]) 1).seam ≠ [] ∧
    containerOk 2 (getOfficer (remote [1#8]) 1).seam message (zeros 3420) = false := by decide
theorem test_remote : getF (after (remote []) (.remoteApprove 4032)) Reg.OFC_ERR_INFO_REASON = 11 ∧
    getF (after (remote [1#8]) (.remoteApprove 4032)) Reg.OFC_ERR_INFO_REASON = 11 := by decide +kernel
theorem test_logout : slotSt (after (acting 2 [] [] 4 (officers 2)) (.logout 4032)) 0 = 1 ∧
    getF (after (acting 2 [] [] 3 (officers 2)) (.logout 4032)) Reg.OFC_ERR_INFO_REASON = 9 := by decide

/-- ChangesEnd: commits, discards, and what time ends. -/
def chEnd (op num : Nat) (param : Nat) (ch : Change) : State := setCtx (carded .none 4 1 1 (guarded ch 2)) 4032 (adminSpec op param (leBytes 8 num) [])
theorem test_hyp_ChangesEnd : isAdmin (chEnd 0x8E 1 0 (chg [paced] [] none)) 0x8E (adminSpec 0x8E 0 (leBytes 8 1) []) = true ∧
    (∀ e ∈ [paced], e.typ ≠ 2) ∧ (chg [paced] [] (some 4032)).commit ≠ none ∧
    namedChange (chEnd 0x8E 1 0 (chg [paced] [] none)) (adminSpec 0x8E 0 (leBytes 8 1) []) = some (chg [paced] [] none) ∧
    (span 400 keyed).tick.count < (chg [paced] [] none).expiry ∧ (chg [paced] [] none).expiry ≤ (span 500 keyed).tick.count ∧
    slotSt (chEnd 0x8E 1 0 (chg [] [] none)) 0 = 4 ∧ (getCard (chEnd 0x8E 1 0 (chg [] [] none)) 0).used + guardTtl keyed ≤ (span (2 ^ 31) keyed).tick.count ∧
    (span 400 keyed).tick.count < 15 + guardTtl keyed := by decide
theorem test_changes_end : ((after (chEnd 0x8E 1 0 (chg [paced] [] none)) (.guardCommit 4032)).ofc.change.map (·.commit)) = some (some 4032) ∧
    (after (chEnd 0x8E 1 1 (chg [paced] [] none)) (.guardDiscard 4032)).ofc.change = none ∧
    (after (span 500 (chEnd 0x8E 1 0 (chg [paced] [] none))) .changeExpiry).ofc.change = none ∧
    slotSt (after (span (2 ^ 31) (chEnd 0x8E 1 0 (chg [paced] [] none))) .sessionExpiry) 0 = 1 := by decide

/-- CeremoniesRun: one that may begin, and one whose time has ended. -/
def cerem (kind : Nat) : State := { keyed with ofc := { Ofc.reset with ceremony := some { cer kind [] with slot := none } } }
theorem test_hyp_Ceremonies : (∀ k ∈ [0x10, 0x11, 0x12], (cerem k).ofc.ceremony = some { cer k [] with slot := none }) ∧
    getF (cerem 0x10) Reg.OFC_CER_STATE = 0 ∧ (∀ i, i ≤ 1 → ¬ (slotSt (cerem 0x10) i = 3 ∧ slotKind (cerem 0x10) i = 2)) ∧ 1 ≤ (cer 0x10 []).k ∧
    (cer 0x10 []).started + guardTtl (cerem 0x10) ≤ (span (2 ^ 31) (cerem 0x10)).tick.count ∧ (cerem 0x10).tick.count < 5 + guardTtl (cerem 0x10) := by
  decide
theorem test_ceremonies : getF (after (cerem 0x10) .domainNew) Reg.OFC_CER_NEXT = 1 ∧ getF (after (cerem 0x11) .domainJoin) Reg.OFC_CER_NEXT = 0 ∧
    after (cerem 0x12) .domainNew = cerem 0x12 ∧ getF (after (span (2 ^ 31) (cerem 0x12)) .ceremonyTimeout) Reg.OFC_CER_STATE = 5 := by decide

/-- FirmwareAndLifecycle: images that are refused, an activation, a confirmation, the lifecycle's commands. -/
def fw (c : Ctx) (staged trial : Bool) (state : Nat) : State :=
  setF (setFlag (setFlag (setCtx { keyed with fw := { Fw.reset with staged := staged, sv := 3 } } 4032 c) Reg.LCY_STAT_FW_TRIAL trial) Reg.SIL_STAT_READY true)
    Reg.LCY_STAT_STATE state
theorem test_hyp_Firmware : isAdmin (fw (admin 0x8A 0 (zeros 3932)) false false 4) 0x8A (admin 0x8A 0 (zeros 3932)) = true ∧
    eLen (admin 0x8A 0 (zeros 3931)).entry = 3931 ∧ bitAt (sillNext keyed 5) 1 = false ∧
    bitAt (sillNext { keyed with sill := [(5, 2#32)] } 5) 1 = true ∧ frameReason keyed (zeros 3932) = 1 ∧ infillReason keyed 1 (zeros 4188) = 1 ∧
    isAdmin (fw (admin 0x8B 0 []) true false 4) 0x8B (admin 0x8B 0 []) = true ∧ (fw (admin 0x8B 0 []) true false 4).fw.staged = true ∧
    silCount keyed 5 < 1000000 ∧ keyed.nv.silWait = [] ∧ flag (fw (admin 0x8B 1 []) true true 4) Reg.LCY_STAT_FW_TRIAL = true ∧
    isAdmin (fw (admin 0x8F 0 []) true false 7) 0x8F (admin 0x8F 0 []) = true ∧ lcyState (fw (admin 0x8F 2 []) true false lcyTerminated) = lcyTerminated ∧
    tokenReason keyed (zeros 3484) = 1 := by decide
theorem test_firmware : getF (after (fw (admin 0x8A 0 (zeros 3932)) false false 4) (.fwStageFrame 4032 true)) Reg.LCY_STAGE_REASON = 1 ∧
    getF (after (fw (admin 0x8A 0x101 (zeros 4188)) false false 4) (.fwStageInfill 4032 true)) Reg.LCY_STAGE_REASON = 1 ∧
    sillNext (after (fw (admin 0x8B 0 []) true false 4) (.fwActivate 4032)) 5 = 2 ∧
    getF (after (fw (admin 0x8B 0 []) false false 4) (.fwActivate 4032)) Reg.LCY_STAGE_REASON = 4 ∧
    flag (after (fw (admin 0x8B 1 []) true true 4) (.fwActivateConfirm 4032)) Reg.LCY_STAT_FW_TRIAL = false ∧
    getF (after (fw (admin 0x8F 2 (zeros 3484)) true false lcyTerminated) (.lifecycleVendor 4032)) Reg.LCY_STAGE_REASON = 1 ∧
    getF (after (fw (admin 0x8F 2 []) true false 4) (.lifecycleVendor 4032)) Reg.LCY_STAGE_REASON = 8 := by decide
/-! ### Rules stated whole, the block as a whole, words, worked examples -/

/-- MultiplyTakesTheSameTimeForEveryOperand, CarryChainsAndExceptionEntry, InstructionTimesIgnoreValues: post 0 at reset. -/
theorem test_hyp_Multiply : Safety.Inv alu ∧ Issues alu 0 ∧ (∀ e ∈ (getPost alu 0).ready, e.2 ≤ (getPost alu 0).cyc) ∧
    fetchTime (getPost alu 0) 0 (getPost alu 0).pc.toNat = 1 ∧ 1 % 32 ≠ 0 :=
  ⟨⟨by decide, by decide, by decide⟩, ⟨by decide, by decide⟩, by decide, by decide, by decide⟩
theorem test_multiply_times : (getPost (after alu (.mul 0 1 2 3)) 0).cyc = (getPost alu 0).cyc + 1 ∧
    (getPost (after alu (.mul 0 1 2 3)) 0).ready = [(1, (getPost alu 0).cyc + 2)] ∧
    (getPost (after alu (.mac 0 2 3)) 0).acc = 0x000000030000002500000000 - 0x45#96 := by decide
theorem test_hyp_Times : Safety.Inv alu ∧ Issues alu 0 ∧ (getPost alu 0).delay = none ∧ timed alu 0 (.mac 0 2 3) ∧ timed alu 0 (.beq 0 1 2 4) ∧
    timed alu 0 (.tbound 0 3 5 10) ∧ timed alu 0 (.add 0 1 2 3) :=
  ⟨⟨by decide, by decide, by decide⟩, ⟨by decide, by decide⟩, by decide, .inr (.inr (.inr (.inl ⟨2, 3, rfl⟩))),
   .inr (.inl ⟨_, rfl⟩), .inr (.inr (.inr (.inr (.inr (.inr (.inr (.inr (.inr ⟨3, 5, 10, .inr (.inr (.inr ⟨by decide, rfl⟩))⟩)))))))),
   .inl ⟨1, _, rfl⟩⟩
theorem test_chain : let s := post0 (fun x => { x with g := [(2, 0xFFFFFFFF#32), (3, 0#32)], cf := true })
    (getPost (after s (.addc 0 1 2 3 false)) 0).getG 1 = 0#32 ∧ (getPost (after s (.addc 0 1 2 3 false)) 0).cf = true ∧
    (getPost (after s (.addc 0 1 2 3 true)) 0).getG 1 = 0xFFFFFFFF#32 ∧ (getPost (after s (.subb 0 1 3 2 true)) 0).getG 1 = 1#32 ∧
    (getPost (after s (.subb 0 1 3 2 false)) 0).cf = true := by decide

/-- DoorbellValuesOutOfRangeStopTheQueue: tails 16 and 4 (behind the tail 5), heads 16, 2 and 8. -/
theorem test_hyp_OutOfRange : windowOpen (adm live) 0 adminQ = true ∧ (getQueue (adm live) 0 adminQ).st = .enabled ∧ (16#32 : Word).toNat < 2 ^ 16 ∧
    sqSize live ≤ 16 ∧ cqSize live ≤ 16 ∧ ((4 : Int) - live.sqHead) % sqSize live < ((live.sqTail : Int) - live.sqHead) % sqSize live ∧
    ((live.cqTail : Int) - live.cqHead) % cqSize live < ((live.cqTail : Int) - 2) % cqSize live ∧
    ((live.cqTail : Int) - live.cqHead) % cqSize live < ((live.cqTail : Int) - 8) % cqSize live := by decide
theorem test_out_of_range : (getQueue (after (adm live) (.sqTailDoorbell 0 adminQ 4 4#32)) 0 adminQ).cause = 5 ∧
    (getQueue (after (adm live) (.cqHeadDoorbell 0 adminQ 4 8#32)) 0 adminQ).cause = 6 ∧
    getF (after (adm live) (.cqHeadDoorbell 0 adminQ 4 2#32)) Reg.HQ_ERR_INFO_CAUSE = 6 := by decide
/-- FailedQueueAccessesStopTheQueue: its second part has the witness of CompletionEntriesAreWritten. -/
theorem test_failed_accesses : (getQueue (after (adm { live with heldFetch := 2 }) (.entryFetch 0 adminQ .error)) 0 adminQ).cause = 7 ∧
    (getQueue (after outgoing (.completionWrite 0 false)) 0 adminQ).cause = 8 ∧ (after outgoing (.completionWrite 0 false)).compls = [compl 9 1] := by decide
/-- UnassignedPagesReadAsZero: page 000H, for a post. -/
theorem test_hyp_Unassigned : 8 / 0x1000 ∉ assignedPages ∧ begun.boot.held = false ∧ begun.gates.basting = [] ∧
    gateCheck begun begun.gates.live 0 (regAddr 8) .read = .allow ∧ gateCheck begun begun.gates.live 0 (regAddr 8) .write = .allow := by decide

/-- StepRunsTheFrontCommand, EveryStepAnswersAndKeepsTheQueue, EveryStepKeepsTheInvariant: a queue of two commands. -/
def queued : State := { State.reset with pending := [.add 0 1 2 3, .tickStart] }
theorem test_hyp_Step : queued.pending = .add 0 1 2 3 :: [.tickStart] ∧ State.reset.pending = [] ∧ Safety.Inv queued ∧
    step queued = .next (after { queued with pending := [.tickStart] } (.add 0 1 2 3)) :=
  ⟨rfl, rfl, ⟨by decide, by decide, by decide⟩, rfl⟩
theorem test_step_idle : step State.reset = .next State.reset := rfl
/-- DecodeOfEncodeGivesTheInstruction: the boundary values of operands. -/
theorem test_hyp_Encode : (∀ i ∈ [Instr.lw 3 31 31 15 (-2048), .sw 3 31 31 15 2047, .beq 31 31 31 (-32768), .j 0 33554431, .call 0 (-33554432),
    .addi 0 31 31 65535, .trap 0 63, .feat 0 31 63, .tget 0 15 31 15, .rqsub 0 31 31 3 15 15 0 [] ⟨.plain, true⟩, .dmac 0 15 31 31 true true,
    .accwr 0 31 2, .slli 0 31 31 31, .eret 0 15], wellFormed i = true ∧ (encodeWord i).isSome = true) := by decide

/-- R312 to R316: words written from the tables. -/
theorem test_words : decodeWord 7 0x49141008 = some (.lw 7 8 20 1 8) ∧ decodeWord 7 0x0022184A = some (.addc 7 1 2 3 true) ∧
    decodeWord 7 0x8022FFFF = some (.beq 7 1 2 (-1)) ∧ decodeWord 7 0xFC000140 = some (.trap 7 5) ∧ decodeWord 7 0xFFFFFFFF = none := by decide

/-- WellFormed: an ill-formed term for each check, which the check refuses. -/
theorem test_ill_formed : ∀ i ∈ [Instr.queueEnable 128 0, .queueEnable 0 257, .abort 0 0 65536, .cipher 4096, .sqTailDoorbell 0 0 3 0#32,
    .linkTraining 5 1 true, .yield 32, .add 0 32 0 0, .tmov 0 16 0, .accwr 0 0 3, .rqsub 0 0 0 4 0 0 0 [] ⟨.plain, false⟩, .trap 0 64, .lui 0 0 65536,
    .lw 0 0 0 0 2048, .lw 0 0 0 0 (-2049), .beq 0 0 0 32768, .j 0 33554432, .shtChStop 64, .rngDataRead 512, .bastingApply 0 16,
    .faultSourceFire 512 0 511 0 0 0 true none none .other, .faultSourceFire 0 0 511 0 0 2048 true none none .other, .fclPendClear 16 0#32,
    .registerWrite 0 0x400000 0#32, .recheck 0 0x400, .kstReserve 16384, .journalRecordWrite 129, .sillWrite 512 0#32,
    .faultSourceFire 0 0 511 0 0 0 true (some 128) none .other, .faultSourceFire 0 0 511 0 0 0 true none none (.slot 16384),
    .completionTimeout (.ctx 4096), .completionTimeout (.fetch 128 0), .completionTimeout (.channel 64), .completionTimeout (.flush 128),
    .thimbleLoopCheck 0 8 true true 0, .switchSample 0 4 true, .monVdd 9 0 1, .monVdd 0 0 4, .flashProgramDone 2 true, .cardRemove 2,
    .heartbeat 65536 [], .msixUnmask 0 2048], wellFormed i = false := by decide

/-- R40, with the example of 02_tick: X, Y and W are released in ticks 20,016, 20,016 and 20,027. -/
theorem test_release : let x := placeParallel Plan.zero 20000 157 12 0 clNeedle []
    let y := placeParallel x.plan 20003 4 12 0 clNeedle []
    let w := placeParallel { y.plan with f := 20015 } 20010 256 24 0 clNeedle []
    (x.s0, x.owed, x.r) = (20002, 0, 20016) ∧ (y.s0, y.owed, y.r) = (20005, 121, 20016) ∧ w.s0 = 20016 ∧
    (placeParallel ⟨20015, 20015, 0⟩ 20010 256 24 0 clNeedle []).r = 20027 := by decide
/-- R89, with the example of 04_command_reference: owned ticks 5 and 13 modulo 16; the 52nd and the 104th of them. -/
theorem test_purlin_ticks : ownedNth [5, 13] 80002 52 = 80413 ∧ ownedCount [5, 13] 80003 80413 = 52 ∧ ownedNth [5, 13] 80003 104 = 80829 := by decide
/-- R60 (the doorbells of queue 3), R146 (the handle of the example of 06_keys), R456 (4.0 at ×8). -/
theorem test_examples : doorbellAt (setF begun Reg.HQ_CFG_DSTRD 1) 12 0x1030 = some (3, false) ∧ doorbellAt (setF begun Reg.HQ_CFG_DSTRD 1) 12 0x1038 = some (3, true) ∧
    mkHandle 12 560 7 = 0x0C08C007 ∧ slotsAt 3 3 = 256 := by decide
end Sys2Proof.Tests
end

namespace Sys2Proof.Proofs
open Sys2Proof Sys2Proof.Machine

/-! ### Fields that stand -/

/-- A field that shares no bit with any of `fs`. -/
def shuns (fs : List Fld) (g : Fld) : Bool :=
  fs.all (fun f => g.key != f.key || (f.lo + f.width ≤ g.lo || g.lo + g.width ≤ f.lo) && f.lo + f.width ≤ 32)

/-- A word that holds none of `fs`. -/
def shunsKey (fs : List Fld) (k : Nat) : Bool := fs.all (fun f => f.key != k)

theorem apart_of_shuns {fs : List Fld} {f g : Fld} (h : shuns fs g = true) (hf : f ∈ fs) : apart g f := by
  simpa [apart] using List.all_eq_true.mp h f hf

theorem shuns_of_shunsKey {fs : List Fld} {k : Nat} (lo w : Nat) (h : shunsKey fs k = true) : shuns fs ⟨k, lo, w⟩ = true := by
  refine List.all_eq_true.mpr fun f hf => ?_
  have hk := List.all_eq_true.mp h f hf
  simp only [bne_iff_ne, ne_eq] at hk
  simp [Ne.symm hk]

/-- Every field of `fs` reads in `t` as in `s`. -/
def SameFields (fs : List Fld) (s t : State) : Prop := ∀ f ∈ fs, getF t f = getF s f

namespace SameFields
variable {fs : List Fld} {s t u : State}

theorem refl (fs : List Fld) (s : State) : SameFields fs s s := fun _ _ => rfl
theorem trans (h : SameFields fs s t) (k : SameFields fs t u) : SameFields fs s u := fun f hf => (k f hf).trans (h f hf)
theorem mono (h : SameFields fs s t) {gs : List Fld} (hg : gs ⊆ fs := by decide) : SameFields gs s t :=
  fun f hf => h f (hg hf)
theorem of_regs (h : t.regs = s.regs) : SameFields fs s t := fun f _ => by simp only [getF, getReg, h]
theorem setReg (h : SameFields fs s t) {k : Nat} (w : Word) (hk : shunsKey fs k = true) : SameFields fs s (setReg t k w) :=
  fun f hf => (getF_setReg_other t w (by simpa using List.all_eq_true.mp hk f hf)).trans (h f hf)
theorem setF (h : SameFields fs s t) {g : Fld} (v : Nat) (hg : shuns fs g = true) : SameFields fs s (setF t g v) :=
  fun f hf => (getF_setF_apart t v (apart_of_shuns hg hf)).trans (h f hf)
theorem setFlag (h : SameFields fs s t) {g : Fld} (b : Bool) (hg : shuns fs g = true) : SameFields fs s (setFlag t g b) :=
  h.setF _ hg
theorem event (h : SameFields fs s t) {g : Fld} (hg : shuns fs g = true) : SameFields fs s (event t g) := h.setF _ hg
theorem countF (h : SameFields fs s t) {g : Fld} (n : Nat) (hg : shuns fs g = true) : SameFields fs s (countF t g n) := h.setF _ hg
theorem countReg (h : SameFields fs s t) {k : Nat} (n : Nat) (hk : shunsKey fs k = true) : SameFields fs s (countReg t k n) :=
  h.setReg _ hk
theorem orReg (h : SameFields fs s t) {k : Nat} (n : Nat) (hk : shunsKey fs k = true) : SameFields fs s (orReg t k n) :=
  h.setReg _ hk
theorem ite {c : Prop} [Decidable c] (ht : SameFields fs s t) (hu : SameFields fs s u) :
    SameFields fs s (if c then t else u) := by
  split
  · exact ht
  · exact hu
theorem foldl {α : Type} {f : State → α → State} (h : SameFields fs s t) (hf : ∀ x a, SameFields fs x (f x a)) (l : List α) :
    SameFields fs s (l.foldl f t) := by
  induction l generalizing t with
  | nil => exact h
  | cons a l ih => exact ih (h.trans (hf t a))
theorem flag (h : SameFields fs s t) {g : Fld} (hg : g ∈ fs) : flag t g = flag s g := by
  simp only [Machine.flag, h g hg]
end SameFields

end Sys2Proof.Proofs

namespace Sys2Proof.Proofs
open Sys2Proof Sys2Proof.Machine

/-! ### What a firing writes (17_faults R372, R373) -/

/-- Fields that the capture of a first record, or its overflow, writes. -/
def firstFields : List Fld := [Reg.FCL_STAT_OVF, Reg.FCL_EVT_OVF, Reg.FCL_OVF_CNT_N]

/-- Fields that the capture in the ring writes. -/
def ringFields : List Fld := [Reg.FCL_LOST_N, Reg.FCL_EVT_LOST, Reg.FCL_RING_HEAD, Reg.FCL_RING_COUNT]

/-- None of `fs` shares a bit with any of `gs`. -/
def shunsAll (fs gs : List Fld) : Bool := gs.all (shuns fs)

theorem shuns_of_all {fs gs : List Fld} {g : Fld} (h : shunsAll fs gs = true) (hg : g ∈ gs := by decide) :
    shuns fs g = true := List.all_eq_true.mp h g hg

theorem shunsAll_of_subset {fs gs hs : List Fld} (h : shunsAll fs gs = true) (hsub : hs ⊆ gs) : shunsAll fs hs = true :=
  List.all_eq_true.mpr fun g hg => List.all_eq_true.mp h g (hsub hg)

/-- Pages of the units, whose failure registers a firing of their sources writes, from offset 100H on. -/
def unitPages : List Nat := [0x020, 0x021, 0x023, 0x024, 0x040, 0x041]

/-- No field of `fs` is one of a unit's page. -/
def besideUnits (fs : List Fld) : Bool := fs.all (fun f => f.key % 0x1000 < 0x100 || !unitPages.contains (f.key / 0x1000))

theorem captureFirst_same {fs : List Fld} (s : State) (f : Firing) (h : shunsAll fs firstFields = true) :
    SameFields fs s (captureFirst s f) := by
  unfold captureFirst
  split
  · exact .of_regs rfl
  · dsimp only
    have hs : SameFields fs s (if flag s Reg.FCL_STAT_OVF then s else event s Reg.FCL_EVT_OVF) :=
      .ite (.refl _ _) ((SameFields.refl fs s).event (shuns_of_all h))
    have hc := (hs.setFlag (g := Reg.FCL_STAT_OVF) true (shuns_of_all h)).countF (g := Reg.FCL_OVF_CNT_N) 1 (shuns_of_all h)
    exact .ite (hc.trans (.of_regs rfl)) hc

theorem captureRing_same {fs : List Fld} (s : State) (f : Firing) (h : shunsAll fs ringFields = true) :
    SameFields fs s (captureRing s f) := by
  unfold captureRing
  refine .ite ?_ (.refl _ _)
  dsimp only
  generalize hx : ({ s with faults := { s.faults with ring := (f :: s.faults.ring).take 64 } } : State) = x
  have hs : SameFields fs s x := .of_regs (hx ▸ rfl)
  exact ((SameFields.ite ((hs.countF _ (shuns_of_all h)).event (shuns_of_all h)) hs).setF _ (shuns_of_all h)).setF _
    (shuns_of_all h)

theorem captureSlice_same (fs : List Fld) (s : State) (f : Firing) : SameFields fs s (captureSlice s f) := by
  unfold captureSlice
  split
  · exact .refl _ _
  · exact .of_regs rfl

/-- A post's source has its post's number. -/
theorem srcUnit_post (i : Nat) (h : i < 32) : srcUnit (srcPstInteg + i) = i := by
  revert i; decide

theorem shunsKey_unit {fs : List Fld} {k : Nat} (h : besideUnits fs = true) (hk : k / 0x1000 ∈ unitPages)
    (ho : 0x100 ≤ k % 0x1000) : shunsKey fs k = true := by
  refine List.all_eq_true.mpr fun f hf => ?_
  have hf' := List.all_eq_true.mp h f hf
  simp only [bne_iff_ne, ne_eq]
  rintro rfl
  simp [hk, Nat.not_lt.mpr ho] at hf'

theorem shuns_unit {fs : List Fld} {g : Fld} (h : besideUnits fs = true) (hk : g.key / 0x1000 ∈ unitPages)
    (ho : 0x100 ≤ g.key % 0x1000) : shuns fs g = true := shuns_of_shunsKey g.lo g.width (shunsKey_unit h hk ho)

theorem failure_same {fs : List Fld} (s : State) {k n : Nat} {g : Fld} (h : besideUnits fs = true) (hk : k / 0x1000 ∈ unitPages)
    (ho : 0x100 ≤ k % 0x1000) (hg : g.key / 0x1000 ∈ unitPages) (hgo : 0x100 ≤ g.key % 0x1000) :
    SameFields fs s (event (orReg s k n) g) :=
  ((SameFields.refl fs s).orReg n (shunsKey_unit h hk ho)).event (shuns_unit h hg hgo)

theorem blockRecord_same {fs : List Fld} (s : State) (src : Nat) (h : besideUnits fs = true) :
    SameFields fs s (blockRecord s src) := by
  unfold blockRecord
  dsimp only
  iterate 9
    refine .ite (failure_same s h (by decide) (by decide) (by decide) (by decide)) ?_
  split
  case isFalse => exact .refl _ _
  case isTrue hp =>
    simp only [Bool.and_eq_true, decide_eq_true_eq] at hp
    have hu : srcUnit src < 32 := by
      have hsrc : src = srcPstInteg + (src - srcPstInteg) := by omega
      have hi : src - srcPstInteg < 32 := by simp only [srcPstInteg, srcPstKingpost] at *; omega
      rw [hsrc, srcUnit_post _ hi]
      exact hi
    have hkey : (pstFld (srcUnit src) Reg.PST_EVT_INTEGRITY).key = 0x4110C + 0x60 * srcUnit src := rfl
    have hpage : (pstFld (srcUnit src) Reg.PST_EVT_INTEGRITY).key / 0x1000 = 0x41 := by omega
    exact (SameFields.refl fs s).event (shuns_unit h (by rw [hpage]; decide) (by omega))

/-- The indices of the table lie below the collector's 512 pending bits. -/
theorem srcRow_bound {src : Nat} {r : SrcRow} (h : srcRow src = some r) : src < 512 := by
  have hr : ∀ r ∈ srcTable, r.base + r.n ≤ 512 := by decide
  have hp := List.find?_some h
  have := hr r (List.mem_of_find?_eq_some h)
  simp only [Bool.and_eq_true, decide_eq_true_eq] at hp
  omega

/-- Fields that no firing writes, whatever its source. -/
def unfired (fs : List Fld) : Bool :=
  shunsAll fs (Reg.FCL_STAT_PEND :: Reg.FCL_FIRED_N :: Reg.FCL_EVT_FIRED :: firstFields ++ ringFields) && besideUnits fs &&
    fs.all (fun f => f.key % 0x1000 != 0x010 && (f.key < Reg.FCL_PEND || Reg.FCL_PEND + 64 ≤ f.key))

theorem fireLevel_same {fs : List Fld} (s : State) (a : FireArgs) (cycle level : Nat) (h : unfired fs = true) :
    SameFields fs s (fireLevel s a cycle level) := by
  simp only [unfired, Bool.and_eq_true] at h
  obtain ⟨⟨hc, hb⟩, hw⟩ := h
  unfold fireLevel
  split
  · exact .refl _ _
  · rename_i r hr
    have hsrc := srcRow_bound hr
    have hpage : shunsKey fs (r.page * 0x1000 + 0x010) = true := List.all_eq_true.mpr fun f hf => by
      have := List.all_eq_true.mp hw f hf
      simp only [Bool.and_eq_true, bne_iff_ne, ne_eq] at this ⊢
      omega
    have hpend : shunsKey fs (pendKey a.src) = true := List.all_eq_true.mpr fun f hf => by
      have := List.all_eq_true.mp hw f hf
      simp only [Bool.and_eq_true, Bool.or_eq_true, bne_iff_ne, ne_eq, decide_eq_true_eq, pendKey] at this ⊢
      omega
    have hfirst : shunsAll fs firstFields = true := shunsAll_of_subset hc (by decide)
    have hring : shunsAll fs ringFields = true := shunsAll_of_subset hc (by decide)
    dsimp only
    refine SameFields.trans ?_ (.of_regs rfl)
    refine SameFields.trans ?_ (blockRecord_same _ _ hb)
    refine SameFields.trans ?_ (captureSlice_same _ _ _)
    refine SameFields.trans ?_ ((captureFirst_same _ _ hfirst).trans (captureRing_same _ _ hring))
    exact ((((SameFields.refl fs s).orReg _ hpend).setFlag _ (shuns_of_all hc)).orReg _ hpage).countF _ (shuns_of_all hc)
      |>.event (shuns_of_all hc)

theorem fire_same {fs : List Fld} (s : State) (a : FireArgs) (h : unfired fs = true) : SameFields fs s (fire s a) :=
  SameFields.trans (.of_regs rfl) (fireLevel_same (drawBelow 2048 s).2 a _ _ h)

end Sys2Proof.Proofs

namespace Sys2Proof.Proofs
open Sys2Proof Sys2Proof.Machine

/-! ### The collector's record after a firing -/

/-- A firing is the first record where none stands, and touches nothing of the faults' record but its captures. -/
theorem capture_faults (s : State) (f : Firing) :
    let t := captureSlice (captureRing (captureFirst s f) f) f
    t.faults = { s.faults with
      first := some (s.faults.first.getD f), log := t.faults.log, ring := t.faults.ring
      sliceLast := t.faults.sliceLast, sliceCnt := t.faults.sliceCnt, named := t.faults.named } := by
  have hFirst : (captureFirst s f).faults =
      { s.faults with first := some (s.faults.first.getD f), log := (captureFirst s f).faults.log } := by
    unfold captureFirst
    split
    next h => simp [h]
    next g h =>
      have hs : (if flag s Reg.FCL_STAT_OVF = true then s else event s Reg.FCL_EVT_OVF).faults = s.faults := by
        split <;> rfl
      have hg : { s.faults with first := some g } = s.faults := by rw [← h]
      dsimp only
      split <;> simp [hs, h, hg]
  have hRing : ∀ x, (captureRing x f).faults = { x.faults with ring := (captureRing x f).faults.ring } := fun x => by
    unfold captureRing
    split
    · dsimp only
      split <;> rfl
    · rfl
  have hSlice : ∀ x, (captureSlice x f).faults = { x.faults with
      sliceLast := (captureSlice x f).faults.sliceLast, sliceCnt := (captureSlice x f).faults.sliceCnt
      named := (captureSlice x f).faults.named } := fun x => by
    unfold captureSlice
    split <;> rfl
  dsimp only
  rw [hSlice, hRing, hFirst]

theorem fireLevel_faults (s : State) (a : FireArgs) (cycle level : Nat) (h : srcRow a.src ≠ none) :
    let t := fireLevel s a cycle level
    let f := firingOf s a cycle level
    t.faults = { s.faults with
      fired := s.faults.fired ++ [f], safeDue := s.faults.safeDue || level == 6
      first := some (s.faults.first.getD f), log := t.faults.log, ring := t.faults.ring
      sliceLast := t.faults.sliceLast, sliceCnt := t.faults.sliceCnt, named := t.faults.named } := by
  obtain ⟨r, hr⟩ := Option.ne_none_iff_exists'.mp h
  simp only [fireLevel, hr, firingOf_def, (faultOnly_blockRecord _ _).2]
  rw [capture_faults]
  rfl

theorem fire_faults (s : State) (a : FireArgs) (h : srcRow a.src ≠ none) :
    (fire s a).faults.safe = s.faults.safe ∧ (fire s a).faults.flashHalted = s.faults.flashHalted ∧
      (fire s a).faults.first ≠ none := by
  have hf := fireLevel_faults (drawBelow 2048 s).2 a (drawBelow 2048 s).1
    (appliedLevel (drawBelow 2048 s).2 a.src a.slice) h
  change (fire s a).faults = _ at hf
  rw [hf]
  exact ⟨rfl, rfl, Option.some_ne_none _⟩

/-! ### Upkeep of the NV die and of the LMS state -/

/-- Fields that the upkeep of the NV die and of the LMS state leaves as they stand. -/
def watched : List Fld :=
  [Reg.FCL_STAT_SAFE, Reg.HQ_STAT_SAFE, Reg.DDR_STAT_SREF, Reg.RNG_STAT_ERR, Reg.KST_STAT_DOMAIN, Reg.DDR_CTRL_MAXRATE,
   Reg.SIL_STAT_READY, Reg.OFC_STAT_READY, Reg.LCY_CTRL_APPROVED]

/-- Only registers outside `watched`, the NV die with the sill's values, the LMS state, the faults' record and the index of
the next free value differ; the safe state and the halt of the flash controller stand. -/
structure Upkeep (s t : State) : Prop where
  rest : t = { s with regs := t.regs, nv := t.nv, sill := t.sill, lms := t.lms, faults := t.faults, freeCtr := t.freeCtr }
  safe : t.faults.safe = s.faults.safe
  flash : t.faults.flashHalted = s.faults.flashHalted
  fields : SameFields watched s t

namespace Upkeep
variable {s t u : State}

theorem refl (s : State) : Upkeep s s := ⟨rfl, rfl, rfl, .refl _ _⟩
theorem trans (h : Upkeep s t) (k : Upkeep t u) : Upkeep s u :=
  ⟨by rw [k.rest, h.rest], k.safe.trans h.safe, k.flash.trans h.flash, h.fields.trans k.fields⟩
theorem setReg {k : Nat} {w : Word} (h : Upkeep s t) (hk : shunsKey watched k = true) : Upkeep s (setReg t k w) :=
  h.trans ⟨rfl, rfl, rfl, (SameFields.refl _ t).setReg w hk⟩
theorem setF {g : Fld} {v : Nat} (h : Upkeep s t) (hg : shuns watched g = true) : Upkeep s (setF t g v) :=
  h.trans ⟨rfl, rfl, rfl, (SameFields.refl _ t).setF v hg⟩
theorem setFlag {g : Fld} {b : Bool} (h : Upkeep s t) (hg : shuns watched g = true) : Upkeep s (setFlag t g b) := h.setF hg
theorem event {g : Fld} (h : Upkeep s t) (hg : shuns watched g = true) : Upkeep s (event t g) := h.setF hg
theorem countF {g : Fld} {n : Nat} (h : Upkeep s t) (hg : shuns watched g = true) : Upkeep s (countF t g n) := h.setF hg
theorem countReg {k n : Nat} (h : Upkeep s t) (hk : shunsKey watched k = true) : Upkeep s (countReg t k n) := h.setReg hk
/-- Values of the NV die, the sill, the LMS state, and draws of free values. -/
theorem data (h : Upkeep s t) (nv : Nv) (sill : List (Nat × Word)) (lms : Lms) (n : Nat) :
    Upkeep s { t with nv := nv, sill := sill, lms := lms, freeCtr := n } := h.trans ⟨rfl, rfl, rfl, .of_regs rfl⟩
theorem setNv {n : Nv} (h : Upkeep s t) : Upkeep s (setNv t n) := h.data n t.sill t.lms t.freeCtr
theorem setLms {l : Lms} (h : Upkeep s t) : Upkeep s (setLms t l) := h.data t.nv t.sill l t.freeCtr
theorem drawBit (h : Upkeep s t) : Upkeep s (drawBit t).2 := h.data t.nv t.sill t.lms _
theorem fire {a : FireArgs} (h : Upkeep s t) (ha : srcRow a.src ≠ none) : Upkeep s (fire t a) := by
  obtain ⟨_, hrest, -⟩ := fire_spec t a ha
  obtain ⟨hsafe, hflash, -⟩ := fire_faults t a ha
  exact h.trans ⟨by rw [hrest], hsafe, hflash, fire_same t a (by decide)⟩
theorem ite {c : Prop} [Decidable c] (ht : Upkeep s t) (hu : Upkeep s u) : Upkeep s (if c then t else u) := by
  split
  · exact ht
  · exact hu
theorem foldl {α : Type} {f : State → α → State} (h : Upkeep s t) (hf : ∀ x a, Upkeep x (f x a)) (l : List α) :
    Upkeep s (l.foldl f t) := by
  induction l generalizing t with
  | nil => exact h
  | cons a l ih => exact ih (h.trans (hf t a))
end Upkeep

variable (s : State)

/-! #### Blocks, units and banks -/

theorem setUnit_upkeep (u : Nat) (x : FUnit) : Upkeep s (setUnit s u x) := (Upkeep.refl s).setNv
theorem setBlock_upkeep (b : Nat) (x : FBlock) : Upkeep s (setBlock s b x) := (Upkeep.refl s).setNv
theorem setBank_upkeep (b : Nat) (x : FBank) : Upkeep s (setBank s b x) := .ite (Upkeep.refl s).setNv (Upkeep.refl s).setNv
theorem indetSync_upkeep : Upkeep s (indetSync s) := (Upkeep.refl s).setF (by decide)

theorem flashSync_upkeep : Upkeep s (flashSync s) :=
  (((((Upkeep.refl s).setF (by decide)).setF (by decide)).setF (by decide)).setF (by decide)).setF (by decide)
    |>.setF (by decide)

theorem silSync_upkeep : Upkeep s (silSync s) := ((Upkeep.refl s).setF (by decide)).setFlag (by decide)

theorem autoSuspend_upkeep (b : Nat) : Upkeep s (autoSuspend s b) :=
  .ite (((setBank_upkeep s b _).trans (flashSync_upkeep _)).event (by decide)) (.refl s)

/-! #### The erase journal -/

theorem countErase_upkeep (block : Nat) : Upkeep s (countErase s block) := by
  have h2 : ∀ c, Upkeep s (countReg (setBlock s block c) Reg.FLS_ERASE_CNT 1) := fun c =>
    (setBlock_upkeep s block c).countReg (by decide)
  have h3 : ∀ c d, Upkeep s (fireWear (countReg (setBlock s block c) Reg.FLS_ERASE_CNT 1) d) := fun c d =>
    ((h2 c).fire (show srcRow srcFlsWear ≠ none by decide)).event (by decide)
  have h := fun c => Upkeep.ite (c := ((getBlock s block).erases + 1 == 90000) = true) (h3 c 1)
    (.ite (c := ((getBlock s block).erases + 1 == 100000) = true) (h3 c 2) (h2 c))
  exact .ite ((h _).setFlag (by decide)) (h _)

theorem journalRaw_upkeep (typ f block count : Nat) : Upkeep s (journalRaw s typ f block count) := (Upkeep.refl s).setNv

theorem journalTurn_upkeep : Upkeep s (journalTurn s) := by
  unfold journalTurn
  split
  · exact .refl s
  · dsimp only
    exact (((((Upkeep.refl s).foldl (fun x r => journalRaw_upkeep x _ _ _ _) _).trans (countErase_upkeep _ _)).trans
      (journalRaw_upkeep _ _ _ _ _)).setNv).trans (journalRaw_upkeep _ _ _ _ _)

theorem journalPut_upkeep (typ block : Nat) : Upkeep s (journalPut s typ block) :=
  .ite ((journalRaw_upkeep s _ _ _ _).trans (journalTurn_upkeep _)) (journalRaw_upkeep s _ _ _ _)

theorem eraseNow_upkeep (block : Nat) : Upkeep s (eraseNow s block) := by
  have hOpen : Upkeep s (openErase s block) := (countErase_upkeep s block).trans (journalPut_upkeep _ _ _)
  refine hOpen.trans ?_
  have hErase : Upkeep (openErase s block) (eraseUnits (openErase s block) block) := (Upkeep.refl _).setNv
  exact ((hErase.trans (setBlock_upkeep _ _ _)).trans (indetSync_upkeep _)).trans (journalPut_upkeep _ _ _)

/-! #### The sill log and its queue -/

theorem sillRaw_upkeep (reg : Nat) (v : Word) (count : Nat) : Upkeep s (sillRaw s reg v count) := (Upkeep.refl s).setNv

theorem sillTurn_upkeep : Upkeep s (sillTurn s) := by
  unfold sillTurn
  split
  · exact .refl s
  · dsimp only
    exact (((Upkeep.refl s).foldl (fun x r => sillRaw_upkeep x _ _ _) _).setNv).trans (eraseNow_upkeep _ _)

theorem sillPut_upkeep (reg : Nat) (v : Word) (count : Nat) : Upkeep s (sillPut s reg v count) :=
  .ite ((sillRaw_upkeep s _ _ _).trans (sillTurn_upkeep _)) (sillRaw_upkeep s _ _ _)

theorem silDrop_upkeep : Upkeep s (silDrop s) := ((Upkeep.refl s).countF (by decide)).event (by decide)

theorem fireSilLimit_upkeep (n : Nat) : Upkeep s (fireSilLimit s n) :=
  (Upkeep.refl s).fire (show srcRow srcSilLimit ≠ none by decide)

theorem silStart_upkeep : Upkeep s (silStart s) :=
  .ite ((((autoSuspend_upkeep s 0).setNv).trans (silSync_upkeep _)).trans (flashSync_upkeep _)) (silSync_upkeep s)

theorem silStore_upkeep (n : Nat) (v : Word) : Upkeep s (silStore s n v) :=
  .ite (silDrop_upkeep s) <|
  .ite (.ite (silDrop_upkeep s) ((silDrop_upkeep s).setNv.trans (fireSilLimit_upkeep _ n))) <|
  .ite (Upkeep.refl s).setNv <|
  .ite (silDrop_upkeep s) ((Upkeep.refl s).setNv.trans (silStart_upkeep _))

theorem silPersist_upkeep (x : Nat × Word) : Upkeep s (silPersist s x) := by
  unfold silPersist
  dsimp only
  generalize h1 : ({ s with sill := tput (0#32) s.sill x.1 x.2 } : State) = s1
  have hs1 : Upkeep s s1 := h1 ▸ (Upkeep.refl s).data s.nv _ s.lms s.freeCtr
  generalize h2 : sillPut (setNv s1 _) x.1 x.2 _ = s2
  have hs2 : Upkeep s s2 := h2 ▸ hs1.setNv.trans (sillPut_upkeep _ _ _ _)
  generalize h3 : (if (x.1 == 1) = true then event s2 Reg.NDL_EVT_IV_RSV else s2) = s3
  have hs3 : Upkeep s s3 := h3 ▸ .ite (hs2.event (by decide)) hs2
  refine .ite ?_ hs3
  exact (((Upkeep.ite (hs3.setFlag (by decide)) hs3).setFlag (by decide)).event (by decide)).trans (fireSilLimit_upkeep _ _)

theorem sillEnd_upkeep : Upkeep s (sillEnd s) :=
  (Upkeep.ite (.refl s) ((Upkeep.refl s).foldl silPersist_upkeep _)).setNv

/-! #### Programs at a reset, a power loss and the safe state (R410, R413) -/

theorem programsEnd_upkeep : Upkeep s (programsEnd s) := by
  have hfin : ∀ x k, Upkeep x (if ((getBank x k).op == 1) = true then
      (getBank x k).units.foldl (fun s u => setUnit s u.1 u.2) x else x) := fun x k =>
    .ite ((Upkeep.refl x).foldl (fun y u => setUnit_upkeep y _ _) _) (.refl x)
  exact (hfin s 0).trans (hfin _ 1)

theorem programsCut_upkeep : Upkeep s (programsCut s) := by
  have hcut : ∀ x k, Upkeep x (if ((getBank x k).op == 1) = true then (getBank x k).units.foldl (fun s u =>
      let d := drawBit s
      setUnit d.2 u.1 (if d.1 then u.2 else .torn)) x else x) := fun x k =>
    .ite ((Upkeep.refl x).foldl (fun y u => (Upkeep.refl y).drawBit.trans (setUnit_upkeep _ _ _)) _) (.refl x)
  exact (((hcut s 0).trans (hcut _ 1)).foldl (fun y _ => .ite ((Upkeep.refl y).drawBit.trans (silPersist_upkeep _ _))
    (Upkeep.refl y).drawBit) _).setNv

theorem nvReset_upkeep : Upkeep s (nvReset s) := ((programsEnd_upkeep s).trans (sillEnd_upkeep _)).setNv

theorem nvPowerLoss_upkeep : Upkeep s (nvPowerLoss s) := (programsCut_upkeep s).setNv

theorem nvSafe_upkeep : Upkeep s (nvSafe s) :=
  ((((programsEnd_upkeep s).trans (sillEnd_upkeep _)).setNv).trans (silSync_upkeep _)).trans (flashSync_upkeep _)

/-! #### The LMS state (R241, R242) -/

theorem lmsSync_upkeep : Upkeep s (lmsSync s) := by
  unfold lmsSync
  dsimp only
  generalize h2 : setFlag (setFlag s Reg.LMS_STAT_READY _) Reg.LMS_STAT_LOG_OK _ = s2
  have hs2 : Upkeep s s2 := h2 ▸ ((Upkeep.refl s).setFlag (by decide)).setFlag (by decide)
  exact (((Upkeep.ite (hs2.event (by decide)) hs2).setFlag (by decide)).setF (by decide)).setF (by decide)

theorem pushRecord_upkeep (typ set pair serial block : Nat) : Upkeep s (pushRecord s typ set pair serial block) :=
  (Upkeep.refl s).setLms

theorem eraseOldest_upkeep : Upkeep s (eraseOldest s) :=
  (Upkeep.refl s).setLms.foldl (fun x p => by
    split
    · exact pushRecord_upkeep x _ _ _ _ _
    · exact .refl x) _

theorem writeLog_upkeep (typ set pair serial block : Nat) : Upkeep s (writeLog s typ set pair serial block) :=
  (Upkeep.ite (eraseOldest_upkeep s) (.refl s)).trans (pushRecord_upkeep _ _ _ _ _ _)

theorem setPair_upkeep (n : Nat) (p : SeamPair) : Upkeep s (setPair s n p) := (Upkeep.refl s).setLms

theorem reserveProgrammed_upkeep (pair : Nat) (ok : Bool) : Upkeep s (reserveProgrammedEffect pair ok s) := by
  unfold reserveProgrammedEffect
  split
  · exact .refl s
  · exact .ite (.refl s) (.ite (((writeLog_upkeep s _ _ _ _ _).trans (setPair_upkeep _ _ _)).trans (lmsSync_upkeep _))
      (((((setPair_upkeep s _ _).event (by decide)).fire (by decide)).trans (lmsSync_upkeep _))))

theorem lmsBoot_upkeep : Upkeep s (lmsBoot s) :=
  ((Upkeep.ite ((Upkeep.refl s).event (by decide)) (.refl s)).setLms).trans (lmsSync_upkeep _)

end Sys2Proof.Proofs

namespace Sys2Proof.Proofs
open Sys2Proof Sys2Proof.Machine

/-! ### What the flash controller settles before a reset (R404, R410) -/

/-- Besides upkeep, reservation records are written: the key store and its records differ too. -/
structure ClassOne (s t : State) : Prop where
  rest : t = { s with regs := t.regs, nv := t.nv, sill := t.sill, lms := t.lms, faults := t.faults, freeCtr := t.freeCtr,
                      keys := t.keys, records := t.records, reserveDue := t.reserveDue }
  safe : t.faults.safe = s.faults.safe
  flash : t.faults.flashHalted = s.faults.flashHalted
  fields : SameFields watched s t

theorem Upkeep.classOne {s t : State} (h : Upkeep s t) : ClassOne s t := ⟨by rw [h.rest], h.safe, h.flash, h.fields⟩

namespace ClassOne
variable {s t u : State}

theorem trans (h : ClassOne s t) (k : ClassOne t u) : ClassOne s u :=
  ⟨by rw [k.rest, h.rest], k.safe.trans h.safe, k.flash.trans h.flash, h.fields.trans k.fields⟩
theorem foldl {α : Type} {f : State → α → State} (h : ClassOne s t) (hf : ∀ x a, ClassOne x (f x a)) (l : List α) :
    ClassOne s (l.foldl f t) := by
  induction l generalizing t with
  | nil => exact h
  | cons a l ih => exact ih (h.trans (hf t a))
end ClassOne

variable (s : State)

theorem countReservation_upkeep (late : Nat) : Upkeep s (countReservation s late) := by
  have h1 : Upkeep s (countReg s Reg.NDL_RSV_CNT 1) := (Upkeep.refl s).countReg (by decide)
  have h2 := Upkeep.ite (c := late > getF (countReg s Reg.NDL_RSV_CNT 1) Reg.NDL_RSV_LAT_TICKS)
    (h1.setF (g := Reg.NDL_RSV_LAT_TICKS) (v := min late 0xFFFF) (by decide)) h1
  exact .ite (h2.event (by decide)) h2

theorem writeReservation_classOne (slot : Nat) : ClassOne s (writeReservation s slot) := by
  unfold writeReservation
  dsimp only
  refine ClassOne.trans ?_ (countReservation_upkeep _ _).classOne
  exact ⟨rfl, rfl, rfl, .of_regs rfl⟩

theorem classOneEnd_classOne : ClassOne s (classOneEnd s) := by
  unfold classOneEnd
  split
  · exact (Upkeep.refl s).classOne
  · exact ((Upkeep.refl s).classOne.foldl (fun x (r : Nat × Nat) => writeReservation_classOne x r.1) _).trans
      ((Upkeep.refl _).foldl (fun x (p : Nat × SeamPair) => reserveProgrammed_upkeep x p.1 true) _).classOne

/-- Without a reservation that is due, the key store and its records stand. -/
theorem classOneEnd_upkeep (h : s.reserveDue = []) : Upkeep s (classOneEnd s) := by
  simp only [classOneEnd, h, List.foldl_nil]
  exact .ite (.refl s) ((Upkeep.refl s).foldl (fun x (p : Nat × SeamPair) => reserveProgrammed_upkeep x p.1 true) _)

/-! #### The captured anchor -/

theorem adminOk_rest (n : Nat) (b : Bytes) : adminOk s n b = { s with ctxs := (adminOk s n b).ctxs } := by
  unfold adminOk adminEnd
  split <;> rfl

theorem adminOks_rest (b : Bytes) (l : List Nat) :
    l.foldl (fun s n => adminOk s n b) s = { s with ctxs := (l.foldl (fun s n => adminOk s n b) s).ctxs } := by
  induction l generalizing s with
  | nil => rfl
  | cons n l ih => rw [List.foldl_cons, ih, adminOk_rest]

/-- An anchor that was captured, programmed by a controller that runs: it is the latest, and none is pending. -/
theorem anchorProgrammed_vault {a : Anchor} (h : s.vault.pendingAnchor = some a) (hf : s.faults.flashHalted = false) :
    (anchorProgrammedEffect s).vault =
      { s.vault with pendingAnchor := none, anchors := (a :: s.vault.anchors).take 3840, anchorCtxs := [] } := by
  simp only [anchorProgrammedEffect, h, hf, Bool.false_eq_true, if_false, event_vault]
  rw [tombSync, setFlag_vault, adminOks_rest]
  rfl

theorem anchorProgrammed_rest :
    anchorProgrammedEffect s = { s with
      regs := (anchorProgrammedEffect s).regs, ctxs := (anchorProgrammedEffect s).ctxs
      vault := (anchorProgrammedEffect s).vault } := by
  unfold anchorProgrammedEffect
  split
  · rfl
  · split
    · rfl
    · dsimp only
      rw [adminOks_rest]
      rfl

theorem anchorProgrammed_fields : SameFields watched s (anchorProgrammedEffect s) := by
  unfold anchorProgrammedEffect
  split
  · exact .refl _ _
  · refine .ite (.refl _ _) ?_
    dsimp only
    rw [adminOks_rest]
    refine SameFields.event (SameFields.setFlag ?_ _ (by decide)) (by decide)
    exact SameFields.trans (.of_regs rfl) (((SameFields.refl _ _).setReg _ (by decide)).setReg _ (by decide))

end Sys2Proof.Proofs

namespace Sys2Proof.Proofs
open Sys2Proof Sys2Proof.Machine Sys2Proof.Claims
variable (s : State)

/-- The captured anchor is programmed, torn, or lost: registers, contexts and the vault differ, and draws were made. -/
structure Anchored (s t : State) : Prop where
  rest : t = { s with regs := t.regs, ctxs := t.ctxs, vault := t.vault, freeCtr := t.freeCtr }
  fields : SameFields watched s t
  anchors : s.vault.pendingAnchor = none → t.vault.anchors = s.vault.anchors

theorem Anchored.trans {s t u : State} (h : Anchored s t) (k : Anchored t u) (hp : s.vault.pendingAnchor ≠ none) :
    Anchored s u :=
  ⟨by rw [k.rest, h.rest], h.fields.trans k.fields, fun hn => absurd hn hp⟩

theorem anchorProgrammed_anchored : Anchored s (anchorProgrammedEffect s) :=
  ⟨by rw [anchorProgrammed_rest], anchorProgrammed_fields s, fun h => by simp [anchorProgrammedEffect, h]⟩

theorem tornAnchor_anchored : Anchored s (tornAnchor s) := by
  unfold tornAnchor
  split
  · exact ⟨rfl, .refl _ _, fun _ => rfl⟩
  next h => exact ⟨rfl, .of_regs rfl, fun hn => by simp [hn] at h⟩

/-- What a reset or a power loss finds once the NV die has settled. -/
structure Settled (s t : State) : Prop where
  rest : t = { s with regs := t.regs, nv := t.nv, sill := t.sill, lms := t.lms, faults := t.faults, freeCtr := t.freeCtr,
                      keys := t.keys, records := t.records, reserveDue := t.reserveDue, ctxs := t.ctxs, vault := t.vault }
  fields : SameFields watched s t
  store : s.reserveDue = [] → t.keys = s.keys ∧ t.records = s.records
  anchors : s.vault.pendingAnchor = none → t.vault.anchors = s.vault.anchors

theorem Settled.of_steps {s u v t : State} (hc : ClassOne s u) (hd : s.reserveDue = [] → Upkeep s u) (ha : Anchored u v)
    (hn : Upkeep v t) : Settled s t where
  rest := by rw [hn.rest, ha.rest, hc.rest]
  fields := (hc.fields.trans ha.fields).trans hn.fields
  store := fun h => by rw [hn.rest, ha.rest, (hd h).rest]; exact ⟨rfl, rfl⟩
  anchors := fun h => by
    have hu : u.vault = s.vault := (congrArg State.vault hc.rest :)
    rw [hn.rest]
    exact (ha.anchors (hu ▸ h)).trans (congrArg Vault.anchors hu)

theorem reset_settles : Settled s (nvReset (anchorProgrammedEffect (classOneEnd s))) :=
  .of_steps (classOneEnd_classOne s) (classOneEnd_upkeep s) (anchorProgrammed_anchored _) (nvReset_upkeep _)

/-- The anchor that a reset lets complete (R410). -/
theorem reset_anchors {a : Anchor} (h : s.vault.pendingAnchor = some a) :
    (nvReset (anchorProgrammedEffect (classOneEnd s))).vault.anchors =
      if s.faults.flashHalted = true then s.vault.anchors else (a :: s.vault.anchors).take 3840 := by
  have hc := classOneEnd_classOne s
  have hv : (classOneEnd s).vault = s.vault := (congrArg State.vault hc.rest :)
  rw [(nvReset_upkeep _).rest]
  change (anchorProgrammedEffect (classOneEnd s)).vault.anchors = _
  split
  case isTrue hf => simp [anchorProgrammedEffect, hv, h, hc.flash, hf]
  case isFalse hf => rw [anchorProgrammed_vault (a := a) _ (hv ▸ h) (by rw [hc.flash]; simpa using hf), hv]

theorem mayReserve_upkeep (p : Nat × SeamPair) :
    Upkeep s (if (drawBit s).1 then reserveProgrammedEffect p.1 true (drawBit s).2 else (drawBit s).2) :=
  .ite ((Upkeep.refl s).drawBit.trans (reserveProgrammed_upkeep _ _ _)) (Upkeep.refl s).drawBit

theorem mayWrite_classOne (x : Nat × Nat) :
    ClassOne s (if (drawBit s).1 then writeReservation (drawBit s).2 x.1 else (drawBit s).2) := by
  split
  · exact (Upkeep.refl s).drawBit.classOne.trans (writeReservation_classOne _ _)
  · exact (Upkeep.refl s).drawBit.classOne

theorem drawBit_anchored : Anchored s (drawBit s).2 := ⟨rfl, .of_regs rfl, fun _ => rfl⟩

theorem powerLoss_settles : Settled s (nvPowerLoss (classesCut s)) := by
  unfold classesCut
  split
  · exact .of_steps (Upkeep.refl s).classOne (fun _ => .refl s) ⟨rfl, .refl _ _, fun _ => rfl⟩ (nvPowerLoss_upkeep s)
  · dsimp only
    generalize hu : List.foldl _ (List.foldl _ s s.reserveDue) _ = u
    have hc : ClassOne s u := hu ▸ ((Upkeep.refl s).classOne.foldl mayWrite_classOne _).trans
      ((Upkeep.refl _).foldl mayReserve_upkeep _).classOne
    have hd : s.reserveDue = [] → Upkeep s u := fun h => by
      rw [h] at hu
      exact hu ▸ (Upkeep.refl s).foldl mayReserve_upkeep _
    refine .of_steps hc hd ?_ (nvPowerLoss_upkeep _)
    split
    · exact ⟨rfl, .refl _ _, fun _ => rfl⟩
    next hp =>
      have hp' : u.vault.pendingAnchor ≠ none := by simpa using hp
      split
      · exact (drawBit_anchored u).trans (anchorProgrammed_anchored _) hp'
      · have he : Anchored u (drawBit (drawBit u).2).2 := (drawBit_anchored u).trans (drawBit_anchored _) hp'
        split
        · exact he.trans (tornAnchor_anchored _) hp'
        · exact he

/-! ### The reset itself (R28, R377, R410, R441, R462) -/

/-- The state that a reset of the given cause leaves of a settled one. -/
def wiped (cause : Nat) (s : State) : State :=
  setF (lifeShown (setFlag (wipe s) Reg.THM_STAT_READY false)) Reg.HLK_RST_CAUSE cause

theorem resetDie_eq (cause : Nat) : resetDie s cause = wiped cause (nvReset (anchorProgrammedEffect (classOneEnd s))) := rfl

/-- What the loss of main power takes beyond a reset. -/
def unpowered (s : State) : State :=
  { s with thm := { s.thm with main := false }, rails := [], sram := ⟨[], []⟩, smbAlert := false
           boot := { s.boot with rateCap := 4 } }

theorem mainPowerLoss_eq (h : s.thm.main = true) :
    mainPowerLossEffect s = unpowered (wiped 3 (nvPowerLoss (classesCut s))) := by
  simp only [mainPowerLossEffect, h]
  rfl

theorem tget_filter {α : Type} (d : α) (p : Nat × α → Bool) (k : Nat) (h : ∀ v, p (k, v) = false) (m : List (Nat × α)) :
    tget d (m.filter p) k = d := by
  induction m with
  | nil => rfl
  | cons e m ih =>
    obtain ⟨q, v⟩ := e
    rw [List.filter_cons]
    split
    next hp =>
      rw [tget, if_neg, ih]
      rintro rfl
      simp [h] at hp
    · exact ih

/-- A register that no reset keeps reads as its reset value. -/
theorem getReg_wipe {k : Nat} (h : (k == Reg.LCY_FUSE || thmKeys.contains k) = false) : getReg (wipe s) k = regReset k :=
  tget_filter _ _ _ (fun _ => h) s.regs

theorem wiped_not_running (cause : Nat) : running (wiped cause s) = false := by
  have h : SameFields [Reg.TIK_STAT_RUN] (wipe s) (wiped cause s) :=
    (((SameFields.refl _ _).setFlag _ (by decide)).setF _ (by decide)).setF _ (by decide)
  rw [running, h.flag (by decide), flag, getF, getReg_wipe s (by decide)]
  decide

theorem wiped_cause {cause : Nat} (h : cause < 16) : getF (wiped cause s) Reg.HLK_RST_CAUSE = cause := by
  rw [wiped, getF_setF_same _ _ (by decide)]
  exact Nat.mod_eq_of_lt h

end Sys2Proof.Proofs

namespace Sys2Proof.Proofs
open Sys2Proof Sys2Proof.Machine Sys2Proof.Claims
variable (s : State)

/-- A row that resets runs the reset with its cause, and the loss of main power its own. -/
theorem resetRow_cases {i : Instr} {c : Nat} (h : resetRow s i = some c) :
    c < 16 ∧ (i ≠ .mainPowerLoss ∧ exec i s = .next (resetDie s c) ∨
      i = .mainPowerLoss ∧ c = 3 ∧ s.thm.main = true ∧ exec i s = .next (mainPowerLossEffect s)) := by
  cases i with
  | perstN => cases h; exact ⟨by decide, .inl ⟨nofun, rfl⟩⟩
  | crstN => cases h; exact ⟨by decide, .inl ⟨nofun, rfl⟩⟩
  | fclCold v =>
    obtain ⟨⟨hv, hh⟩, hc⟩ := Option.ite_none_right_eq_some.mp h
    cases hc
    have he : fclColdEffect v s = resetDie s 3 := by simp [fclColdEffect, hv, hh]
    exact ⟨by decide, .inl ⟨nofun, congrArg Host.Outcome.next he⟩⟩
  | selfReset =>
    have hm : (match s.boot.selfReset with
      | some t => if t ≤ s.tick.count ∧ s.boot.held = false then some 3 else none
      | none => none) = some c := h
    split at hm
    next t ht =>
      obtain ⟨⟨hv, hh⟩, hc⟩ := Option.ite_none_right_eq_some.mp hm
      cases hc
      have he : selfResetEffect s = resetDie s 3 := by simp [selfResetEffect, ht, hv, hh]
      exact ⟨by decide, .inl ⟨nofun, congrArg Host.Outcome.next he⟩⟩
    next => cases hm
  | mainPowerLoss =>
    obtain ⟨hm, hc⟩ := Option.ite_none_right_eq_some.mp h
    cases hc
    exact ⟨by decide, .inr ⟨rfl, rfl, hm, rfl⟩⟩
  | _ => cases h

/-- The slot table after the key store is zeroised follows from the store alone. -/
theorem zeroiseStore_slotTable {s t : State} (hk : t.keys = s.keys) (ht : t.slotTable = s.slotTable)
    (hb : t.slotBase = s.slotBase) : (zeroiseStore t).slotTable = (zeroiseStore s).slotTable := by
  simp only [zeroiseStore, hk, ht, hb]

namespace Settled
variable {s} {u : State} (h : Settled s u)
include h

theorem slotTable (hd : s.reserveDue = []) : (zeroiseStore u).slotTable = (zeroiseStore s).slotTable :=
  zeroiseStore_slotTable (h.store hd).1 (congrArg State.slotTable h.rest :) (congrArg State.slotBase h.rest :)

theorem records (hd : s.reserveDue = []) : (loseRecords u (fun _ => true)).records = s.records.map (fun r =>
    if r.inVault = true then { r with wrapped := [], mac := [] } else r) := by
  simp [loseRecords, (h.store hd).2]

theorem rateCap : getF u Reg.DDR_CTRL_MAXRATE = getF s Reg.DDR_CTRL_MAXRATE := h.fields _ (by decide)
theorem pending : u.pending = s.pending := (congrArg State.pending h.rest :)
theorem slotBase : u.slotBase = s.slotBase := (congrArg State.slotBase h.rest :)
theorem tombPend : u.tombPend = s.tombPend := (congrArg State.tombPend h.rest :)
theorem gates : u.gates = s.gates := (congrArg State.gates h.rest :)
theorem sram : u.sram = s.sram := (congrArg State.sram h.rest :)
theorem ofc : u.ofc = s.ofc := (congrArg State.ofc h.rest :)
theorem ledger : u.ledger = s.ledger := (congrArg State.ledger h.rest :)
theorem boot : u.boot = s.boot := (congrArg State.boot h.rest :)
theorem thmTime : u.thmTime = s.thmTime := (congrArg State.thmTime h.rest :)
theorem thm : u.thm = s.thm := (congrArg State.thm h.rest :)

end Settled

theorem resetsHoldTheDie : ResetsHoldTheDie := by
  refine ⟨fun s i c h => ?_, fun s v hv => ?_, fun s hm => ?_, fun s hm => ?_⟩
  · obtain ⟨hc, ⟨hi, he⟩ | ⟨hi, rfl, hm, he⟩⟩ := resetRow_cases s h
    · have k := reset_settles s
      simp only [hi, if_false, ne_eq, not_false_eq_true, true_implies]
      have ka := fun a => reset_anchors (a := a) s
      refine ⟨_, he, ?_⟩
      rw [resetDie_eq]
      generalize nvReset _ = u at k ka ⊢
      exact ⟨rfl, rfl, rfl, rfl, rfl, rfl, rfl, rfl, rfl, rfl, rfl, rfl, rfl,
        congrArg (fun g : Gates => { Gates.reset with kept := g.kept }) k.gates, wiped_not_running _ _, wiped_cause _ hc,
        k.pending, k.slotBase, k.tombPend, fun hd => ⟨k.slotTable hd, k.records hd⟩, k.sram, k.rateCap, rfl,
        k.anchors, ka, (congrArg Ofc.stored k.ofc :), rfl, k.ledger, (congrArg Boot.devNo k.boot :), k.thmTime,
        (congrArg Thm.key k.thm :), (congrArg Thm.log k.thm :), (congrArg Thm.main k.thm :)⟩
    · have k := powerLoss_settles s
      simp only [hi, if_true, ne_eq, not_true, false_implies, implies_true, true_and]
      refine ⟨_, hi ▸ he, ?_⟩
      rw [mainPowerLoss_eq s hm]
      generalize nvPowerLoss _ = u at k ⊢
      exact ⟨rfl, rfl, rfl, rfl, rfl, rfl, rfl, rfl, rfl, rfl, rfl, rfl, rfl,
        congrArg (fun g : Gates => { Gates.reset with kept := g.kept }) k.gates, wiped_not_running _ 3, wiped_cause _ hc,
        k.pending, k.slotBase, k.tombPend, fun hd => ⟨k.slotTable hd, k.records hd⟩, rfl, rfl, rfl,
        k.anchors, (congrArg Ofc.stored k.ofc :), rfl, k.ledger, (congrArg Boot.devNo k.boot :), k.thmTime,
        (congrArg Thm.key k.thm :), (congrArg Thm.log k.thm :), rfl⟩
  · have he : fclColdEffect v s = s := by simp [fclColdEffect, hv]
    exact congrArg Host.Outcome.next he
  · have he : (if s.thm.main then s else { s with thm := { s.thm with main := true } }) =
        { s with thm := { s.thm with main := true } } := by simp [hm]
    exact congrArg Host.Outcome.next he
  · have he : (if s.thm.main then s else { s with thm := { s.thm with main := true } }) = s := by simp [hm]
    exact congrArg Host.Outcome.next he

end Sys2Proof.Proofs

namespace Sys2Proof.Proofs
open Sys2Proof Sys2Proof.Machine Sys2Proof.Claims
variable (s : State)

/-! ### Generations at a boot (R148) -/

/-- Writing a function's values under the keys of a list. -/
theorem tget_foldl_tput {α : Type} [DecidableEq α] (d : α) (g : Nat → α) (k : Nat) (l : List Nat) (m : List (Nat × α)) :
    tget d (l.foldl (fun t n => tput d t n (g n)) m) k = if k ∈ l then g k else tget d m k := by
  induction l generalizing m with
  | nil => simp
  | cons n l ih =>
    rw [List.foldl_cons, ih]
    by_cases hk : k = n
    · subst hk; simp
    · simp [hk, tget_tput_other d m (g n) hk]

theorem tget_of_not_key {α : Type} (d : α) (k : Nat) (m : List (Nat × α)) (h : k ∉ m.map (·.1)) : tget d m k = d := by
  induction m with
  | nil => rfl
  | cons e m ih =>
    simp only [List.map_cons, List.mem_cons, not_or] at h
    rw [tget, if_neg (Ne.symm h.1), ih h.2]

/-- A slot that no stored key holds resumes 16 places on in the cycle; one that a record holds keeps its generation. -/
theorem freshGen_bootGens (n : Nat) : freshGen (bootGens s) n =
    if heldByRecord s n = true then freshGen s n else bootGen (freshGen s n) := by
  unfold bootGens
  dsimp only [freshGen]
  rw [tget_foldl_tput]
  split
  · rfl
  next hn =>
    simp only [List.mem_eraseDups, List.mem_append, List.mem_flatMap, not_or, not_exists, not_and] at hn
    obtain ⟨ht, hr⟩ := hn
    have hheld : heldByRecord s n = false := by
      refine List.any_eq_false.mpr fun r hrec => ?_
      simp only [Bool.and_eq_true, decide_eq_true_eq, not_and]
      intro hlo hhi
      exact hr r hrec (List.mem_map.mpr ⟨n - r.slot, List.mem_range.mpr (by omega), by omega⟩)
    rw [hheld, tget_of_not_key _ _ _ ht]
    rfl

/-! ### Reset release (R437, R441) -/

/-- A power-up's keys are drawn where none stand, and what stands is kept. -/
theorem drawSram_sram : (s.sram.scramble ≠ [] → (drawSram s).sram = s.sram) ∧
    (s.sram.scramble = [] → (drawSram s).sram.scramble.length = 8 ∧ (drawSram s).sram.bind.length = 16) := by
  constructor <;> intro h
  · simp [drawSram, h]
  · simp [drawSram, h, drawBytes]

theorem drawSram_rest : drawSram s = { s with sram := (drawSram s).sram, freeCtr := (drawSram s).freeCtr } := by
  unfold drawSram
  split <;> rfl

/-- The slots that hold a card show it. -/
def shownCards (s : State) : State :=
  [0, 1].foldl (fun s i => if (getCard s i).present then setSlotSt s i stInserted else s) s

/-- What a release shows between the keys of the power-up and the self-tests. -/
def shown (s : State) : State := shownCards (setFlag (capSlots (bypassSync (bootLife (railsReady s)))) Reg.GTE_STAT_READY true)

theorem shownCards_fields {fs : List Fld} (h : shunsAll fs [slotFld 0 Reg.OFC_SLOTA_STATE, slotFld 1 Reg.OFC_SLOTA_STATE] = true) :
    SameFields fs s (shownCards s) := by
  have step : ∀ x i, slotFld i Reg.OFC_SLOTA_STATE ∈ [slotFld 0 Reg.OFC_SLOTA_STATE, slotFld 1 Reg.OFC_SLOTA_STATE] →
      SameFields fs x (if (getCard x i).present then setSlotSt x i stInserted else x) := fun x i hi =>
    .ite ((SameFields.refl fs x).setF _ (shuns_of_all h hi)) (.refl _ _)
  exact (step s 0 (by decide)).trans (step _ 1 (by decide))

theorem shownCards_rest : shownCards s = { s with regs := (shownCards s).regs } := by
  simp only [shownCards, List.foldl_cons, List.foldl_nil]
  split <;> split <;> rfl

theorem bootLife_fields {fs : List Fld} (h : shunsAll fs [Reg.LCY_STAT_STATE, Reg.LCY_EVT_STATE_CHANGE] = true) :
    SameFields fs s (bootLife s) := by
  have hl : SameFields fs s (lifeShown s) := (SameFields.refl _ _).setF _ (shuns_of_all h)
  exact .ite ((hl.setF _ (shuns_of_all h)).event (shuns_of_all h)) hl

theorem bootLife_rest : bootLife s = { s with regs := (bootLife s).regs } := by
  unfold bootLife
  dsimp only
  split <;> rfl

theorem capSlots_rest : capSlots s = { s with regs := (capSlots s).regs } := by
  unfold capSlots
  split <;> rfl

theorem shown_rest : shown s = { s with regs := (shown s).regs, rails := (shown s).rails } := by
  unfold shown
  rw [shownCards_rest, capSlots_rest, bypassSync, bootLife_rest]
  rfl

theorem shown_ready : flag (shown s) Reg.GTE_STAT_READY = true :=
  ((shownCards_fields _ (fs := [Reg.GTE_STAT_READY]) (by decide)).flag (by decide)).trans
    (flag_setFlag_same _ true (by decide) (by decide))

theorem shown_rails : getF (shown s) Reg.MON_STAT_RAIL_OK = 0x1FF := by
  have h1 : SameFields [Reg.MON_STAT_RAIL_OK] (setF s Reg.MON_STAT_RAIL_OK 0x1FF) (railsReady s) :=
    (((SameFields.refl _ _).setFlag _ (by decide)).setFlag _ (by decide)).trans (.of_regs rfl)
  have h2 := (h1.trans (bootLife_fields _ (by decide))).setFlag (g := Reg.OFC_STAT_BYPASS)
    (lcyState (bootLife (railsReady s)) == lcyFactory || lcyState (bootLife (railsReady s)) == lcyBlank) (by decide)
  have h3 : SameFields [Reg.MON_STAT_RAIL_OK] (bypassSync (bootLife (railsReady s)))
      (capSlots (bypassSync (bootLife (railsReady s)))) := .ite (.refl _ _) ((SameFields.refl _ _).setF _ (by decide))
  have h := ((h2.trans h3).setFlag (g := Reg.GTE_STAT_READY) true (by decide)).trans (shownCards_fields _ (by decide))
  exact (h _ (by decide)).trans (getF_setF_same s _ (by decide))

theorem postFailures_spec (m : Nat) :
    postFailures s m = { s with
      regs := (postFailures s m).regs
      boot := { s.boot with dead := s.boot.dead || decide (m % 16 ≠ 0) }
      faults := { s.faults with safeDue := s.faults.safeDue || decide (m % 16 ≠ 0) } } ∧
    SameFields [Reg.GTE_STAT_READY, Reg.MON_STAT_RAIL_OK] s (postFailures s m) := by
  have h2 : SameFields [Reg.GTE_STAT_READY, Reg.MON_STAT_RAIL_OK] s (setFlag (setFlag (setFlag s Reg.LCY_POST_ROM (bitAt m 0))
      Reg.LCY_POST_FUSE (bitAt m 1)) Reg.LCY_POST_PUF (bitAt m 2)) :=
    (((SameFields.refl _ _).setFlag _ (by decide)).setFlag _ (by decide)).setFlag _ (by decide)
  unfold postFailures
  by_cases hm : m % 16 = 0
  · simp only [hm, beq_self_eq_true, if_true, ne_eq, not_true, decide_false, Bool.or_false]
    exact ⟨rfl, h2⟩
  · simp only [hm, beq_iff_eq, if_false, ne_eq, not_false_eq_true, decide_true, Bool.or_true]
    exact ⟨rfl, h2⟩

end Sys2Proof.Proofs

namespace Sys2Proof.Proofs
open Sys2Proof Sys2Proof.Machine Sys2Proof.Claims
variable (s : State)

/-- A release of the die, as it leaves the generations' state `g`. -/
def released (m : Nat) (g : State) : State := postFailures (shown (drawSram g)) m

theorem released_rest (m : Nat) : released m s = { s with
    regs := (released m s).regs, rails := (released m s).rails, sram := (drawSram s).sram, freeCtr := (drawSram s).freeCtr
    boot := { s.boot with dead := s.boot.dead || decide (m % 16 ≠ 0) }
    faults := { s.faults with safeDue := s.faults.safeDue || decide (m % 16 ≠ 0) } } := by
  have hd := drawSram_rest s
  have hs := shown_rest (drawSram s)
  have hp := (postFailures_spec (shown (drawSram s)) m).1
  unfold released
  generalize drawSram s = d at *
  generalize shown d = v at *
  rw [hp, hs, hd]

theorem released_ready (m : Nat) : flag (released m s) Reg.GTE_STAT_READY = true :=
  ((postFailures_spec _ m).2.flag (by decide)).trans (shown_ready _)

theorem released_rails (m : Nat) : getF (released m s) Reg.MON_STAT_RAIL_OK = 0x1FF :=
  ((postFailures_spec _ m).2 _ (by decide)).trans (shown_rails _)

/-- The die as reset release finds it, no longer held. -/
def unheld (s : State) : State := { s with boot := { s.boot with held := false, begun := true } }

theorem resetRelease_eq (m : Nat) (hm : s.thm.main = true) (h : s.boot.begun = false ∨ s.boot.held = true) :
    resetReleaseEffect m s = released m (bootGens (unheld s)) := by
  have hc : (!s.thm.main || (s.boot.begun && !s.boot.held)) = false := by
    rcases h with h | h <;> simp [hm, h]
  simp only [resetReleaseEffect, hc]
  rfl

theorem resetRelease_idle (m : Nat) (h : s.thm.main = false ∨ (s.boot.begun = true ∧ s.boot.held = false)) :
    resetReleaseEffect m s = s := by
  have hc : (!s.thm.main || (s.boot.begun && !s.boot.held)) = true := by
    rcases h with h | ⟨h, k⟩ <;> simp [*]
  simp only [resetReleaseEffect, hc, if_true]

theorem resetRelease_starts (m : Nat) (hm : s.thm.main = true) (h : s.boot.begun = false ∨ s.boot.held = true) :
    ∃ t, exec (.resetRelease m) s = .next t ∧ t.boot.begun = true ∧ t.boot.held = false ∧
      t.boot.dead = (s.boot.dead || decide (m % 16 ≠ 0)) ∧ t.faults.safeDue = (s.faults.safeDue || decide (m % 16 ≠ 0)) ∧
      flag t Reg.GTE_STAT_READY = true ∧ getF t Reg.MON_STAT_RAIL_OK = 0x1FF ∧ t.tick = s.tick ∧ t.mem = s.mem ∧
      (∀ n, freshGen t n = if heldByRecord s n = true then freshGen s n else bootGen (freshGen s n)) ∧
      (s.sram.scramble ≠ [] → t.sram = s.sram) ∧
      (s.sram.scramble = [] → t.sram.scramble.length = 8 ∧ t.sram.bind.length = 16) := by
  refine ⟨_, congrArg Host.Outcome.next (resetRelease_eq s m hm h), ?_⟩
  have hgen := freshGen_bootGens (unheld s)
  obtain ⟨hkept, hnew⟩ := drawSram_sram (bootGens (unheld s))
  have ht := released_rest (bootGens (unheld s)) m
  have hready := released_ready (bootGens (unheld s)) m
  have hrails := released_rails (bootGens (unheld s)) m
  generalize released m (bootGens (unheld s)) = t at *
  have hsram : t.sram = (drawSram (bootGens (unheld s))).sram := (congrArg State.sram ht :)
  refine ⟨(congrArg (·.boot.begun) ht :), (congrArg (·.boot.held) ht :), (congrArg (·.boot.dead) ht :),
    (congrArg (·.faults.safeDue) ht :), hready, hrails, (congrArg State.tick ht :), (congrArg State.mem ht :), fun n => ?_,
    fun hs => hsram.trans (hkept hs), fun hs => hsram ▸ hnew hs⟩
  have hfresh : freshGen t n = freshGen (bootGens (unheld s)) n := by rw [ht]; rfl
  exact hfresh.trans (hgen n)

/-! ### RUN and the stalled start-up (R443) -/

theorem runStart_runs (hb : booting s = true) (h : ∀ b ∈ runConds s, b = true) : ∃ t, exec .runStart s = .next t ∧
    flag t Reg.TIK_STAT_RUN = true ∧ getF t Reg.LCY_STAT_STAGE = 3 ∧
    getReg t Reg.LCY_BOOT_TIME = BitVec.ofNat 32 s.tick.count ∧ t = { s with regs := t.regs } := by
  have hall : (runConds s).all id = true := List.all_eq_true.mpr h
  have he : tryRun s = setReg (setF (setFlag s Reg.TIK_STAT_RUN true) Reg.LCY_STAT_STAGE 3) Reg.LCY_BOOT_TIME
      (BitVec.ofNat 32 s.tick.count) := by simp only [tryRun, hb, hall, Bool.and_self, if_true]
  refine ⟨_, congrArg Host.Outcome.next he, ?_, ?_, getReg_setReg_same _ _ _, rfl⟩
  · have hkeep := ((SameFields.refl [Reg.TIK_STAT_RUN] (setFlag s Reg.TIK_STAT_RUN true)).setF (g := Reg.LCY_STAT_STAGE) 3
      (by decide)).setReg (k := Reg.LCY_BOOT_TIME) (BitVec.ofNat 32 s.tick.count) (by decide)
    exact (hkeep.flag (by decide)).trans (flag_setFlag_same s true (by decide) (by decide))
  · rw [getF_setReg_other _ _ (by decide), getF_setF_same _ _ (by decide)]
    rfl

theorem bootStalled_stalls (k : Nat) (hb : booting s = true) (ht : 2 ^ 19 ≤ s.tick.count) (hk : (runConds s)[k]? = some false)
    (hlt : ∀ j, j < k → (runConds s)[j]? = some true) : exec .runStart s = .next s ∧ ∃ t, exec .bootStalled s = .next t ∧
      flag t Reg.LCY_STAT_STALLED = true ∧ getF t Reg.LCY_POST_WAIT = k + 1 ∧ t = { s with regs := t.regs } := by
  obtain ⟨hlen, hval⟩ := List.getElem?_eq_some_iff.mp hk
  have hall : (runConds s).all id = false := List.all_eq_false.mpr ⟨_, List.getElem_mem hlen, by simp [hval]⟩
  have hfirst : (runConds s).findIdx (fun b => !b) = k := by
    refine (List.findIdx_eq hlen).mpr ⟨by simp [hval], fun j hj => ?_⟩
    obtain ⟨_, hj'⟩ := List.getElem?_eq_some_iff.mp (hlt j hj)
    simp [hj']
  have hrun : tryRun s = s := by simp only [tryRun, hall, Bool.and_false, Bool.false_eq_true, if_false]
  have hstall : (if (runConds s).all id then s else tryStall s) =
      setF (setFlag s Reg.LCY_STAT_STALLED true) Reg.LCY_POST_WAIT (k + 1) := by
    simp only [hall, tryStall, hb, hfirst, ht, decide_true, Bool.and_self, Bool.false_eq_true, if_false, if_true]
  refine ⟨congrArg Host.Outcome.next hrun, _, congrArg Host.Outcome.next hstall, ?_, ?_, rfl⟩
  · exact (flag_setF_apart _ _ (apart_of_shuns (fs := [Reg.LCY_STAT_STALLED]) (by decide) (by decide))).trans
      (flag_setFlag_same s true (by decide) (by decide))
  · have h17 : (runConds s).length = 17 := rfl
    rw [getF_setF_same _ _ (by decide)]
    exact Nat.mod_eq_of_lt (show k + 1 < 32 by omega)

/-! ### The sill log is read (R411, R441) -/

@[simp] theorem setNv_nv (n : Nv) : (setNv s n).nv = n := rfl

/-- The writes that the sill's queue holds. -/
def sillQueue (s : State) : List (Nat × Word) := s.nv.silWait ++ s.nv.silProg

theorem lmsSync_rest : lmsSync s = { s with regs := (lmsSync s).regs } := by
  unfold lmsSync
  dsimp only
  split <;> rfl

theorem lmsBoot_rest : lmsBoot s = { s with regs := (lmsBoot s).regs, lms := (lmsBoot s).lms } ∧
    (lmsBoot s).lms.booted = true := by
  unfold lmsBoot
  dsimp only
  rw [lmsSync_rest]
  constructor
  · split <;> rfl
  · dsimp only [setLms]
    split <;> rfl

theorem fire_rest (a : FireArgs) (h : srcRow a.src ≠ none) :
    fire s a = { s with regs := (fire s a).regs, faults := (fire s a).faults, freeCtr := (fire s a).freeCtr } :=
  (fire_spec s a h).choose_spec.1

theorem autoSuspend_rest (b : Nat) : (autoSuspend s b).sill = s.sill ∧ (autoSuspend s b).nv.silWait = s.nv.silWait ∧
    (autoSuspend s b).nv.silProg = s.nv.silProg := by
  unfold autoSuspend setBank
  dsimp only
  split
  · split <;> exact ⟨rfl, rfl, rfl⟩
  · exact ⟨rfl, rfl, rfl⟩

/-- A batch that starts moves what waits; nothing is lost, and no register takes a value yet. -/
theorem silStart_queue : (silStart s).sill = s.sill ∧ ∀ x ∈ sillQueue s, x ∈ sillQueue (silStart s) := by
  obtain ⟨hsill, hwait, -⟩ := autoSuspend_rest s 0
  unfold silStart
  dsimp only
  generalize autoSuspend s 0 = u at *
  split
  next h =>
    simp only [Bool.and_eq_true, List.isEmpty_iff] at h
    refine ⟨hsill, fun x hx => ?_⟩
    have hx' : x ∈ s.nv.silWait := by simpa [sillQueue, h.1.1.1] using hx
    change x ∈ [] ++ u.nv.silWait
    rwa [hwait]
  · exact ⟨rfl, fun x hx => hx⟩

/-- A write from an owner gives no register its value, and displaces no other register's write. -/
theorem silStore_queue (n : Nat) (v : Word) : (silStore s n v).sill = s.sill ∧
    ∀ x ∈ sillQueue s, x.1 ≠ n → x ∈ sillQueue (silStore s n v) := by
  unfold silStore
  dsimp only
  split
  · exact ⟨rfl, fun x hx _ => hx⟩
  split
  · split
    · exact ⟨rfl, fun x hx _ => hx⟩
    · rw [fireSilLimit, fire_rest _ _ (show srcRow srcSilLimit ≠ none by decide)]
      exact ⟨rfl, fun x hx _ => hx⟩
  split
  · refine ⟨rfl, fun x hx hn => ?_⟩
    simp only [sillQueue, setNv_nv, List.mem_append, List.mem_map] at hx ⊢
    exact hx.imp (fun h => ⟨x, h, by simp [hn]⟩) id
  split
  · exact ⟨rfl, fun x hx _ => hx⟩
  · generalize hu : setNv s _ = u
    obtain ⟨hsill, hq⟩ := silStart_queue u
    refine ⟨hsill.trans (hu ▸ rfl), fun x hx _ => hq x ?_⟩
    rw [← hu]
    simp only [sillQueue, setNv_nv, List.mem_append] at hx ⊢
    exact hx.imp .inl id

/-- A write that is taken waits or is programmed. -/
theorem silStore_takes (n : Nat) (v : Word) (hr : flag s Reg.SIL_STAT_READY = true) (hw : s.nv.silWait = [])
    (hc : silCount s n < silLimit) : (n, v) ∈ sillQueue (silStore s n v) := by
  have hc' : ¬ silCount s n ≥ silLimit := by omega
  simp only [silStore, hr, hw, hc', Bool.not_true, Bool.false_eq_true, if_false, List.any_nil, List.length_nil]
  refine (silStart_queue _).2 _ ?_
  simp [sillQueue]

end Sys2Proof.Proofs

namespace Sys2Proof.Proofs
open Sys2Proof Sys2Proof.Machine Sys2Proof.Claims
variable (s : State)

/-- The device's identity key number is shown. -/
def shownIkid (s : State) : State :=
  (List.range 8).foldl (fun s k => setReg s (Reg.LCY_IKID + 4 * k) (s.boot.ikid.getD k 0#32)) s

theorem shownIkid_rest : shownIkid s = { s with regs := (shownIkid s).regs } := by
  have h : ∀ (l : List Nat) (x : State), l.foldl (fun s k => setReg s (Reg.LCY_IKID + 4 * k) (s.boot.ikid.getD k 0#32)) x =
      { x with regs := (l.foldl (fun s k => setReg s (Reg.LCY_IKID + 4 * k) (s.boot.ikid.getD k 0#32)) x).regs } := by
    intro l
    induction l with
    | nil => exact fun x => rfl
    | cons k l ih => exact fun x => (ih _).trans rfl
  exact h _ s

theorem shownIkid_fields : SameFields watched s (shownIkid s) := by
  have h : ∀ (l : List Nat), (∀ k ∈ l, k < 8) → ∀ x, SameFields watched x
      (l.foldl (fun s k => setReg s (Reg.LCY_IKID + 4 * k) (s.boot.ikid.getD k 0#32)) x) := by
    intro l
    induction l with
    | nil => exact fun _ x => .refl _ x
    | cons k l ih =>
      intro hl x
      have hk : ∀ k < 8, shunsKey watched (Reg.LCY_IKID + 4 * k) = true := by decide
      exact ((SameFields.refl _ x).setReg _ (hk k (hl k (by simp)))).trans (ih (fun j hj => hl j (by simp [hj])) _)
  exact h _ (fun k hk => List.mem_range.mp hk) s

/-- The officers' records are read, and the page says so. -/
theorem readOfficers_spec : readOfficers s = { s with regs := (readOfficers s).regs, ofc := (readOfficers s).ofc } ∧
    flag (readOfficers s) Reg.OFC_STAT_READY = true ∧
    SameFields [Reg.SIL_STAT_READY, Reg.LCY_CTRL_APPROVED] s (readOfficers s) := by
  refine ⟨rfl, flag_setFlag_same _ true (by decide) (by decide), ?_⟩
  exact (SameFields.trans (.of_regs rfl) ((SameFields.refl _ _).setF _ (by decide))).setFlag _ (by decide)

/-- The registers that the log has given their values count the boot. -/
def bootCounted (r : State) : State :=
  let s1 := setFlag r Reg.SIL_STAT_READY true
  let s2 := setFlag s1 Reg.SIL_STAT_LIMIT (silLimited s1 != 0)
  silStore s2 0 (BitVec.ofNat 32 (sillVal s2 0 + 1))

/-- Approved mode as register 10 has it. -/
def modeShown (s : State) : State := setFlag s Reg.LCY_CTRL_APPROVED (!bitAt (sillVal s 10) 0)

/-- A boot that found the device TAMPERED stores that. -/
def tamperStored (s : State) : State :=
  if lcyState s == lcyTampered && (lifeOf (getReg s Reg.LCY_FUSE) (tget 0#32 s.sill 6)).1 == 4 then
    silStore s 6 (lifeSill lcyTampered) else s

theorem sillLogRead_eq (hb : s.boot.begun = true) (hh : s.boot.held = false) (hd : s.boot.dead = false)
    (hn : flag s Reg.SIL_STAT_READY = false) :
    sillLogReadEffect s = lmsBoot (readOfficers (shownIkid (tamperStored (modeShown (bootCounted (sillRead s)))))) := by
  simp only [sillLogReadEffect, hb, hh, hd, hn, Bool.not_true, Bool.or_false, Bool.false_eq_true, if_false]
  rfl

theorem bootCounted_spec (r : State) (hw : r.nv.silWait = []) (hc : silCount r 0 < 1000000) :
    flag (bootCounted r) Reg.SIL_STAT_READY = true ∧ (bootCounted r).sill = r.sill ∧
      (0, BitVec.ofNat 32 (sillVal r 0 + 1)) ∈ sillQueue (bootCounted r) := by
  unfold bootCounted
  dsimp only
  generalize h2 : setFlag (setFlag r Reg.SIL_STAT_READY true) Reg.SIL_STAT_LIMIT _ = s2
  have hready : flag s2 Reg.SIL_STAT_READY = true := by
    rw [← h2, flag_setFlag_apart _ _ (apart_of_shuns (fs := [Reg.SIL_STAT_READY]) (by decide) (by decide))]
    exact flag_setFlag_same _ true (by decide) (by decide)
  have hnv : s2.nv = r.nv := h2 ▸ rfl
  have hsill : s2.sill = r.sill := h2 ▸ rfl
  have hval : sillVal s2 0 = sillVal r 0 := by rw [sillVal, sillVal, hsill]
  rw [hval]
  exact ⟨((silStore_upkeep s2 _ _).fields.flag (by decide)).trans hready, (silStore_queue s2 _ _).1.trans hsill,
    silStore_takes s2 _ _ hready (hnv ▸ hw) (by rw [silCount, hnv]; exact hc)⟩

theorem modeShown_spec : flag (modeShown s) Reg.LCY_CTRL_APPROVED = !bitAt (sillVal s 10) 0 ∧
    flag (modeShown s) Reg.SIL_STAT_READY = flag s Reg.SIL_STAT_READY ∧
    modeShown s = { s with regs := (modeShown s).regs } :=
  ⟨flag_setFlag_same _ _ (by decide) (by decide),
    flag_setFlag_apart _ _ (apart_of_shuns (fs := [Reg.SIL_STAT_READY]) (by decide) (by decide)), rfl⟩

theorem tamperStored_spec : SameFields watched s (tamperStored s) ∧ (tamperStored s).sill = s.sill ∧
    ∀ x ∈ sillQueue s, x.1 ≠ 6 → x ∈ sillQueue (tamperStored s) := by
  unfold tamperStored
  split
  · exact ⟨(silStore_upkeep _ _ _).fields, silStore_queue _ _ _⟩
  · exact ⟨.refl _ _, rfl, fun x hx _ => hx⟩

/-- Once the queue holds the boot count, the rest of the log's reading keeps it there. -/
theorem sillLogRead_reads (hb : s.boot.begun = true) (hh : s.boot.held = false) (hd : s.boot.dead = false)
    (hn : flag s Reg.SIL_STAT_READY = false) (hw : (sillRead s).nv.silWait = []) (hc : silCount (sillRead s) 0 < 1000000) :
    let r := sillRead s
    ∃ t, exec .sillLogRead s = .next t ∧ flag t Reg.SIL_STAT_READY = true ∧ flag t Reg.OFC_STAT_READY = true ∧
      flag t Reg.LCY_CTRL_APPROVED = !bitAt (sillVal r 10) 0 ∧
      (0, BitVec.ofNat 32 (sillVal r 0 + 1)) ∈ t.nv.silWait ++ t.nv.silProg ∧ t.sill = r.sill ∧ t.lms.booted = true := by
  intro r
  refine ⟨_, congrArg Host.Outcome.next (sillLogRead_eq s hb hh hd hn), ?_⟩
  change _ ∧ _ ∧ _ ∧ _ ∈ sillQueue _ ∧ _
  obtain ⟨hready3, hsill3, hqueue3⟩ := bootCounted_spec r hw hc
  change flag (lmsBoot (readOfficers (shownIkid (tamperStored (modeShown (bootCounted r)))))) _ = _ ∧ _
  generalize bootCounted r = s3 at *
  obtain ⟨hmode4, hready4, hrest4⟩ := modeShown_spec s3
  have hval3 : sillVal s3 10 = sillVal r 10 := by rw [sillVal, sillVal, hsill3]
  generalize modeShown s3 = s4 at *
  obtain ⟨hkeep5, hsill5, hqueue5⟩ := tamperStored_spec s4
  generalize tamperStored s4 = s5 at *
  have hkeep6 := shownIkid_fields s5
  have hrest6 := shownIkid_rest s5
  generalize shownIkid s5 = s6 at *
  obtain ⟨hrest7, hofc7, hkeep7⟩ := readOfficers_spec s6
  generalize readOfficers s6 = s7 at *
  obtain ⟨hrest8, hboot8⟩ := lmsBoot_rest s7
  have hkeep8 := (lmsBoot_upkeep s7).fields
  generalize lmsBoot s7 = t at *
  have ht : t = { s5 with regs := t.regs, ofc := t.ofc, lms := t.lms } := by rw [hrest8, hrest7, hrest6]
  refine ⟨?_, ?_, ?_, ?_, ?_, hboot8⟩
  · rw [hkeep8.flag (by decide), hkeep7.flag (by decide), hkeep6.flag (by decide), hkeep5.flag (by decide), hready4, hready3]
  · rw [hkeep8.flag (by decide), hofc7]
  · rw [hkeep8.flag (by decide), hkeep7.flag (by decide), hkeep6.flag (by decide), hkeep5.flag (by decide), hmode4, hval3]
  · rw [ht]
    exact hqueue5 _ (hrest4 ▸ hqueue3) (by simp)
  · rw [ht]
    exact hsill5.trans ((congrArg State.sill hrest4 :).trans hsill3)

theorem startUpToRun : StartUpToRun :=
  ⟨resetRelease_starts, fun s m h => congrArg Host.Outcome.next (resetRelease_idle s m h),
   fun s hb hh hd hn hw hc => sillLogRead_reads s hb hh hd hn hw hc, runStart_runs, bootStalled_stalls⟩

/-- Settles O20: a reset is its settled NV die under the wipe, and the start-up's rows one by one. -/
theorem resetsAndStartUp : Obligations.ResetsAndStartUp := ⟨resetsHoldTheDie, startUpToRun⟩

end Sys2Proof.Proofs

namespace Sys2Proof.Proofs
open Sys2Proof Sys2Proof.Machine Sys2Proof.Claims
variable (s : State)

/-! ### What a firing leaves in the collector's words (17_faults R372–R376) -/

/-- A word as a field. -/
def wordFld (k : Nat) : Fld := ⟨k, 0, 32⟩

theorem getReg_of_same {s t : State} {k : Nat} (h : SameFields [wordFld k] s t) : getReg t k = getReg s k := by
  have hk := h (wordFld k) (by simp)
  have hw : ∀ w : Word, getBits w 0 32 = w.toNat := fun w => by
    simp only [getBits, Nat.shiftRight_zero]
    exact Nat.mod_eq_of_lt w.isLt
  exact BitVec.eq_of_toNat_eq (by simpa only [getF, wordFld, hw] using hk)

theorem shuns_of_key_ne {f g : Fld} (h : g.key ≠ f.key) : shuns [f] g = true := by simp [shuns, h]

theorem shunsKey_of_ne {f : Fld} {k : Nat} (h : f.key ≠ k) : shunsKey [f] k = true := by simp [shunsKey, h]

theorem orReg_bit {k i : Nat} (hi : i < 32) : (getReg (orReg s k (2 ^ i)) k).getLsbD i = true := by
  simp only [orReg, getReg_setReg_same, BitVec.getLsbD_or, BitVec.getLsbD_ofNat, hi, decide_true, Nat.testBit_two_pow_self,
    Bool.and_self, Bool.or_true]

/-- The state of a firing after its pending bit, its page's bit and its count. -/
def counted (s : State) (src : Nat) (r : SrcRow) : State :=
  event (countF (orReg (setPending s src) (r.page * 0x1000 + 0x010) (2 ^ r.bit)) Reg.FCL_FIRED_N 1) Reg.FCL_EVT_FIRED

/-- After that come the captures and the unit's own registers. -/
theorem fireLevel_same_counted {fs : List Fld} (a : FireArgs) (cycle level : Nat) {r : SrcRow} (hr : srcRow a.src = some r)
    (hc : shunsAll fs ringFields = true) (hb : besideUnits fs = true) :
    SameFields fs (captureFirst (counted s a.src r) (firingOf s a cycle level)) (fireLevel s a cycle level) := by
  simp only [fireLevel, hr, firingOf_def]
  refine SameFields.trans ?_ (.of_regs rfl)
  refine SameFields.trans ?_ (blockRecord_same _ _ hb)
  exact (captureRing_same _ _ hc).trans (captureSlice_same _ _ _)

theorem fireLevel_after_count {fs : List Fld} (a : FireArgs) (cycle level : Nat) {r : SrcRow} (hr : srcRow a.src = some r)
    (hc : shunsAll fs (firstFields ++ ringFields) = true) (hb : besideUnits fs = true) :
    SameFields fs (counted s a.src r) (fireLevel s a cycle level) :=
  (captureFirst_same _ _ (shunsAll_of_subset hc (List.subset_append_left _ _))).trans
    (fireLevel_same_counted s a cycle level hr (shunsAll_of_subset hc (List.subset_append_right _ _)) hb)

/-- The pages of the table: their summary words are neither the collector's own words nor a unit's failure register. -/
theorem srcTable_pages : ∀ r ∈ srcTable, r.bit < 32 ∧
    shunsAll [wordFld (r.page * 0x1000 + 0x010)] (Reg.FCL_FIRED_N :: Reg.FCL_EVT_FIRED :: firstFields ++ ringFields) = true ∧
    besideUnits [wordFld (r.page * 0x1000 + 0x010)] = true ∧ r.page * 0x1000 + 0x010 ≠ Reg.FCL_STAT_PEND.key ∧
    r.page * 0x1000 + 0x010 ≠ Reg.FCL_FIRED_N.key := by decide

theorem fireLevel_pending (a : FireArgs) (cycle level : Nat) (h : srcRow a.src ≠ none) :
    srcPending (fireLevel s a cycle level) a.src = true := by
  obtain ⟨r, hr⟩ := Option.ne_none_iff_exists'.mp h
  have hsrc := srcRow_bound hr
  have hkey : pendKey a.src = 0x2140 + 4 * (a.src / 32) := rfl
  have hne : ∀ g : Fld, g.key < 0x2140 → shuns [wordFld (pendKey a.src)] g = true := fun g hg =>
    shuns_of_key_ne (show g.key ≠ pendKey a.src by omega)
  have hcap : shunsAll [wordFld (pendKey a.src)] (firstFields ++ ringFields) = true := List.all_eq_true.mpr fun g hg =>
    hne g (by revert g; decide)
  have hunits : besideUnits [wordFld (pendKey a.src)] = true := by
    have hp : pendKey a.src / 0x1000 = 2 := by omega
    simp [besideUnits, wordFld, hp, unitPages]
  have hpage : shunsKey [wordFld (pendKey a.src)] (r.page * 0x1000 + 0x010) = true :=
    shunsKey_of_ne (show pendKey a.src ≠ r.page * 0x1000 + 0x010 by omega)
  have hkeep : SameFields [wordFld (pendKey a.src)] (orReg s (pendKey a.src) (2 ^ (a.src % 32))) (fireLevel s a cycle level) :=
    ((((SameFields.refl _ _).setFlag true (hne Reg.FCL_STAT_PEND (by decide))).orReg _ hpage).countF 1
      (hne Reg.FCL_FIRED_N (by decide))).event (hne Reg.FCL_EVT_FIRED (by decide)) |>.trans
      (fireLevel_after_count s a cycle level hr hcap hunits)
  rw [srcPending, getReg_of_same hkeep]
  exact orReg_bit s (Nat.mod_lt _ (by decide))

theorem fireLevel_page (a : FireArgs) (cycle level : Nat) {r : SrcRow} (hr : srcRow a.src = some r) :
    (getReg (fireLevel s a cycle level) (r.page * 0x1000 + 0x010)).getLsbD r.bit = true := by
  obtain ⟨hbit, hcap, hunits, -⟩ := srcTable_pages r (List.mem_of_find?_eq_some hr)
  have hcap' : shunsAll [wordFld (r.page * 0x1000 + 0x010)] (firstFields ++ ringFields) = true :=
    shunsAll_of_subset hcap (by decide)
  have hkeep : SameFields [wordFld (r.page * 0x1000 + 0x010)]
      (orReg (setPending s a.src) (r.page * 0x1000 + 0x010) (2 ^ r.bit)) (fireLevel s a cycle level) :=
    ((SameFields.refl _ _).countF 1 (shuns_of_all hcap (by simp))).event (shuns_of_all hcap (by simp)) |>.trans
      (fireLevel_after_count s a cycle level hr hcap' hunits)
  rw [getReg_of_same hkeep]
  exact orReg_bit _ hbit

theorem fireLevel_stat (a : FireArgs) (cycle level : Nat) {r : SrcRow} (hr : srcRow a.src = some r) :
    flag (fireLevel s a cycle level) Reg.FCL_STAT_PEND = true ∧ flag (fireLevel s a cycle level) Reg.FCL_EVT_FIRED = true := by
  obtain ⟨-, -, -, hpage, -⟩ := srcTable_pages r (List.mem_of_find?_eq_some hr)
  have hpend : SameFields [Reg.FCL_STAT_PEND] (setPending s a.src) (counted s a.src r) :=
    (((SameFields.refl _ _).orReg _ (shunsKey_of_ne hpage.symm)).countF 1 (by decide)).event (by decide)
  have hafter := fireLevel_after_count (fs := [Reg.FCL_STAT_PEND, Reg.FCL_EVT_FIRED]) s a cycle level hr (by decide) (by decide)
  exact ⟨((hafter.flag (by decide)).trans (hpend.flag (by decide))).trans (flag_setFlag_same _ true (by decide) (by decide)),
    (hafter.flag (by decide)).trans (flag_setFlag_same _ true (by decide) (by decide))⟩

theorem fireLevel_count (a : FireArgs) (cycle level : Nat) {r : SrcRow} (hr : srcRow a.src = some r) :
    getF (fireLevel s a cycle level) Reg.FCL_FIRED_N = min (getF s Reg.FCL_FIRED_N + 1) 0xFFFFFFFF := by
  obtain ⟨-, -, -, -, hpage⟩ := srcTable_pages r (List.mem_of_find?_eq_some hr)
  have hsrc := srcRow_bound hr
  have hkey : pendKey a.src = 0x2140 + 4 * (a.src / 32) := rfl
  have hbefore : SameFields [Reg.FCL_FIRED_N] s (orReg (setPending s a.src) (r.page * 0x1000 + 0x010) (2 ^ r.bit)) :=
    (((SameFields.refl _ s).orReg _ (shunsKey_of_ne (show (0x2114 : Nat) ≠ pendKey a.src by omega))).setFlag _
      (by decide)).orReg _ (shunsKey_of_ne hpage.symm)
  have hafter := (SameFields.refl [Reg.FCL_FIRED_N] (countF (orReg (setPending s a.src) (r.page * 0x1000 + 0x010) (2 ^ r.bit))
    Reg.FCL_FIRED_N 1)).event (g := Reg.FCL_EVT_FIRED) (by decide) |>.trans
    (fireLevel_after_count s a cycle level hr (by decide) (by decide))
  rw [hafter _ (by decide), countF, getF_setF_same _ _ (by decide), hbefore _ (by decide)]
  exact Nat.mod_eq_of_lt (Nat.lt_of_le_of_lt (Nat.min_le_right _ _) (by decide))

theorem captureFirst_overflow (f : Firing) (h : s.faults.first ≠ none) :
    flag (captureFirst s f) Reg.FCL_STAT_OVF = true := by
  unfold captureFirst
  split
  next hn => exact absurd hn h
  next =>
    dsimp only
    generalize (if flag s Reg.FCL_STAT_OVF then s else event s Reg.FCL_EVT_OVF) = s1
    have ho : flag (countF (setFlag s1 Reg.FCL_STAT_OVF true) Reg.FCL_OVF_CNT_N 1) Reg.FCL_STAT_OVF = true :=
      (((SameFields.refl [Reg.FCL_STAT_OVF] _).countF 1 (by decide)).flag (by decide)).trans
        (flag_setFlag_same _ true (by decide) (by decide))
    split <;> exact ho

/-- A record stands already: the firing shows as an overflow. -/
theorem fireLevel_overflow (a : FireArgs) (cycle level : Nat) (h : srcRow a.src ≠ none) (hf : s.faults.first ≠ none) :
    flag (fireLevel s a cycle level) Reg.FCL_STAT_OVF = true := by
  obtain ⟨r, hr⟩ := Option.ne_none_iff_exists'.mp h
  have hafter := fireLevel_same_counted (fs := [Reg.FCL_STAT_OVF]) s a cycle level hr (by decide) (by decide)
  exact (hafter.flag (by decide)).trans (captureFirst_overflow (counted s a.src r) _ hf)

end Sys2Proof.Proofs

namespace Sys2Proof.Proofs
open Sys2Proof Sys2Proof.Machine Sys2Proof.Claims
variable (s : State)

/-! ### FAULT_SOURCE_FIRE (17_faults R367, R372–R376) -/

/-- A source of the table fires, at the level that applies. -/
theorem fireAt_fires (a : FireArgs) (cycle : Nat) {r : SrcRow} (hr : srcRow a.src = some r) :
    let t := fireAt s a cycle
    let f := firingOf s a cycle (appliedLevel s a.src a.slice)
    t.faults.fired = s.faults.fired ++ [f] ∧ srcPending t a.src = true ∧
      (getReg t (r.page * 0x1000 + 0x010)).getLsbD r.bit = true ∧ flag t Reg.FCL_STAT_PEND = true ∧
      getF t Reg.FCL_FIRED_N = min (getF s Reg.FCL_FIRED_N + 1) 0xFFFFFFFF ∧ flag t Reg.FCL_EVT_FIRED = true ∧
      t.faults.first = (match s.faults.first with
        | none => some f
        | some g => some g) ∧
      (s.faults.first ≠ none → flag t Reg.FCL_STAT_OVF = true) ∧
      t.faults.safeDue = (s.faults.safeDue || appliedLevel s a.src a.slice == 6) ∧
      t = { s with regs := t.regs, faults := t.faults } := by
  have hn : srcRow a.src ≠ none := by simp [hr]
  obtain ⟨hrest, hfired, hdue, -⟩ := fireLevel_spec s a cycle (appliedLevel s a.src a.slice) hn
  obtain ⟨hpend, hevt⟩ := fireLevel_stat s a cycle (appliedLevel s a.src a.slice) hr
  refine ⟨hfired, fireLevel_pending s a cycle _ hn, fireLevel_page s a cycle _ hr, hpend, fireLevel_count s a cycle _ hr, hevt,
    ?_, fireLevel_overflow s a cycle _ hn, hdue, hrest⟩
  have hfirst : (fireAt s a cycle).faults.first = _ := congrArg Faults.first (fireLevel_faults s a cycle _ hn)
  rw [hfirst]
  cases s.faults.first <;> rfl

/-- What a cause does at once, for a source that names neither a slot nor a condition of its own. -/
theorem causeEffect_plain {src : Nat} (slice : Option Nat) (addr detail : Nat) (h1 : src ≠ srcFlsInteg) (h2 : src ≠ srcSilInteg)
    (h3 : src ≠ srcVltInteg) (h4 : src ≠ srcRngHealth) : causeEffect s src slice addr detail .other = s := by
  simp [causeEffect, h1, h2, h3, h4]

theorem fireSource_reserved {src : Nat} (acc init addr detail cycle : Nat) (imp : Bool) (slice ctx : Option Nat)
    (h : srcRow src = none) : faultSourceFireEffect src acc init addr detail cycle imp slice ctx .other s = s := by
  have hne : ∀ n, srcRow n ≠ none → src ≠ n := fun n hn he => hn (he ▸ h)
  have hc := causeEffect_plain s slice addr detail (hne srcFlsInteg (by decide)) (hne srcSilInteg (by decide))
    (hne srcVltInteg (by decide)) (hne srcRngHealth (by decide))
  simp only [faultSourceFireEffect, hc, causeFires, if_true, fireAt, fireLevel, h]

/-! #### A health failure (R258, R265) -/

theorem replyRng_rest (init : Nat) (w : Word) : replyRng s init w =
    { s with out := (replyRng s init w).out, rng := (replyRng s init w).rng, posts := (replyRng s init w).posts } := by
  unfold replyRng chanAnswered
  dsimp only
  split <;> split <;> rfl

theorem answerWaiting_rest : answerWaiting s =
    { s with out := (answerWaiting s).out, rng := (answerWaiting s).rng, posts := (answerWaiting s).posts } := by
  have h : ∀ (l : List Nat) (x : State), l.foldl (fun s i => replyRng s i 0#32) x =
      { x with out := (l.foldl (fun s i => replyRng s i 0#32) x).out, rng := (l.foldl (fun s i => replyRng s i 0#32) x).rng
               posts := (l.foldl (fun s i => replyRng s i 0#32) x).posts } := by
    intro l
    induction l with
    | nil => exact fun x => rfl
    | cons i l ih =>
      intro x
      rw [List.foldl_cons, ih, replyRng_rest]
  unfold answerWaiting
  dsimp only
  rw [h]
  rfl

theorem entropyCut_rest (n : Nat) (c : Ctx) : entropyCut s n c = { s with ctxs := (entropyCut s n c).ctxs } := by
  unfold entropyCut
  dsimp only
  split <;> split <;> rfl

theorem entropyCuts_rest (l : List (Nat × Ctx)) : l.foldl (fun s c => entropyCut s c.1 c.2) s =
    { s with ctxs := (l.foldl (fun s c => entropyCut s c.1 c.2) s).ctxs } := by
  induction l generalizing s with
  | nil => rfl
  | cons c l ih => rw [List.foldl_cons, ih, entropyCut_rest]

/-- The fields of RNG_STAT that a health failure shows. -/
def rngStat : List Fld := [Reg.RNG_STAT_ERR, Reg.RNG_STAT_FAILED, Reg.RNG_STAT_READY]

theorem healthFailed_spec (cells cause : Nat) (h : s.rng.failTick = none) :
    let t := healthFailed s cells cause
    t.rng.failTick = some s.tick.count ∧ flag t Reg.RNG_STAT_ERR = true ∧ flag t Reg.RNG_STAT_FAILED = true ∧
      flag t Reg.RNG_STAT_READY = false ∧ t.rng.fifo = [] ∧ t.rng.waiting = [] := by
  simp only [healthFailed, h, Option.isSome_none, Bool.false_eq_true, if_false]
  rw [entropyCuts_rest]
  generalize hu : answerWaiting s = u
  have hfifo : u.rng.fifo = [] := hu ▸ rfl
  have hwait : u.rng.waiting = [] := hu ▸ rfl
  generalize h2 : setFlag (setFlag (setFlag u Reg.RNG_STAT_ERR true) Reg.RNG_STAT_FAILED true) Reg.RNG_STAT_READY false = s2
  have hrng : s2.rng = u.rng := h2 ▸ rfl
  have herr : flag s2 Reg.RNG_STAT_ERR = true := h2 ▸
    ((((SameFields.refl [Reg.RNG_STAT_ERR] _).setFlag true (by decide)).setFlag false (by decide)).flag (by decide)).trans
      (flag_setFlag_same u true (by decide) (by decide))
  have hfail : flag s2 Reg.RNG_STAT_FAILED = true := h2 ▸
    (((SameFields.refl [Reg.RNG_STAT_FAILED] _).setFlag false (by decide)).flag (by decide)).trans
      (flag_setFlag_same _ true (by decide) (by decide))
  have hready : flag s2 Reg.RNG_STAT_READY = false := h2 ▸ flag_setFlag_same _ false (by decide) (by decide)
  generalize h4 : event _ Reg.RNG_EVT_FAIL = s4
  have hrng4 : s4.rng = u.rng := h4 ▸ hrng
  have hkeep : SameFields rngStat s2 s4 := h4 ▸ (((((SameFields.refl _ _).setF _ (by decide)).setF _ (by decide)).setF _
    (by decide)).setReg _ (by decide)).event (by decide)
  exact ⟨rfl, (hkeep.flag (by decide)).trans herr, (hkeep.flag (by decide)).trans hfail, (hkeep.flag (by decide)).trans hready,
    hrng4 ▸ hfifo, hrng4 ▸ hwait⟩

theorem causeEffect_health (slice : Option Nat) (addr detail : Nat) :
    causeEffect s srcRngHealth slice addr detail .other = healthFailed s 0 5 := by
  simp [causeEffect, srcRngHealth, srcVltInteg]

theorem fireSource_health (acc init addr detail cycle : Nat) (imp : Bool) (slice ctx : Option Nat)
    (h : s.rng.failTick = none) :
    let t := faultSourceFireEffect srcRngHealth acc init addr detail cycle imp slice ctx .other s
    t.rng.failTick = some s.tick.count ∧ flag t Reg.RNG_STAT_ERR = true ∧ flag t Reg.RNG_STAT_FAILED = true ∧
      flag t Reg.RNG_STAT_READY = false ∧ t.rng.fifo = [] ∧ t.rng.waiting = [] ∧ srcPending t srcRngHealth = true := by
  simp only [faultSourceFireEffect, causeEffect_health, causeFires, if_true]
  have hspec := healthFailed_spec s 0 5 h
  generalize healthFailed s 0 5 = u at *
  obtain ⟨htick, herr, hfail, hready, hfifo, hwait⟩ := hspec
  generalize ha : FireArgs.mk srcRngHealth _ _ _ _ _ _ _ _ = a
  have hsrc : a.src = srcRngHealth := ha ▸ rfl
  have hn : srcRow a.src ≠ none := hsrc ▸ (by decide)
  have hrng : (fireAt u a cycle).rng = u.rng := (congrArg State.rng (fireLevel_spec u a cycle _ hn).1 :)
  have hkeep : SameFields rngStat u (fireAt u a cycle) := fireLevel_same u a cycle _ (by decide)
  have hpend := fireLevel_pending u a cycle (appliedLevel u a.src a.slice) hn
  rw [hrng]
  exact ⟨htick, (hkeep.flag (by decide)).trans herr, (hkeep.flag (by decide)).trans hfail,
    (hkeep.flag (by decide)).trans hready, hfifo, hwait, hsrc ▸ hpend⟩

/-! #### A failed vault check (R207, R513) -/

theorem clearChain_rest (chain : Nat) : clearChain s chain =
    { s with records := (clearChain s chain).records, vault := (clearChain s chain).vault } := by
  unfold clearChain
  dsimp only
  split <;> rfl

theorem integrityMark_spec (chain level : Nat) (ue : Bool) (addr : Nat) (h : (getChain s chain).st ≠ .none) :
    let t := integrityMark s chain level ue addr
    t.faults = s.faults ∧ t.tick = s.tick ∧
      getChain t chain = { getChain s chain with st := .failed, reload := none, rebase := none } ∧
      getF t Reg.VLT_FAULT_INFO_LEVEL = level % 8 := by
  unfold integrityMark
  dsimp only
  generalize h4 : event _ Reg.VLT_EVT_INTEGRITY = s4
  have hrest : s4 = { s with regs := s4.regs } := h4 ▸ rfl
  have hchain : getChain s4 chain = getChain s chain := by rw [hrest]; rfl
  have hlevel : getF s4 Reg.VLT_FAULT_INFO_LEVEL = level % 8 := by
    rw [← h4]
    refine (((((SameFields.refl [Reg.VLT_FAULT_INFO_LEVEL] _).setF _ (by decide)).setF _ (by decide)).event (by decide)) _
      (by decide)).trans ?_
    exact getF_setF_same _ _ (by decide)
  rw [hchain, if_neg (by simpa using h)]
  have hclear := clearChain_rest s4 chain
  generalize clearChain s4 chain = u at *
  have hkeep : SameFields [Reg.VLT_FAULT_INFO_LEVEL] s4 (tombSync (setChain u chain
      { getChain s chain with st := .failed, reload := none, rebase := none })) :=
    (SameFields.of_regs (congrArg State.regs hclear :)).setFlag _ (by decide)
  refine ⟨?_, ?_, getChain_setChain_same _ _ _, (hkeep _ (by decide)).trans hlevel⟩
  · exact (congrArg State.faults hclear :).trans (congrArg State.faults hrest :)
  · exact (congrArg State.tick hclear :).trans (congrArg State.tick hrest :)

theorem causeEffect_vault {n : Nat} (slice : Option Nat) (addr detail : Nat)
    (h : chainOfPanel s (addr * 16 ^ (detail % 8)) = some n) :
    causeEffect s srcVltInteg slice addr detail .other = integrityMark s n (detail % 8) false addr := by
  simp [causeEffect, h]

theorem fireSource_vault {n : Nat} (acc init addr detail cycle : Nat) (imp : Bool) (slice ctx : Option Nat)
    (h : chainOfPanel s (addr * 16 ^ (detail % 8)) = some n) (hst : (getChain s n).st ≠ .none) :
    let t := faultSourceFireEffect srcVltInteg acc init addr detail cycle imp slice ctx .other s
    ∃ f, t.faults.fired = s.faults.fired ++ [f] ∧ f.src = srcVltInteg ∧ f.status = some 0x0303 ∧
      getChain t n = { getChain s n with st := .failed, reload := none, rebase := none } ∧
      getF t Reg.VLT_FAULT_INFO_LEVEL = detail % 8 := by
  simp only [faultSourceFireEffect, causeEffect_vault s slice addr detail h, causeFires, if_true, beq_self_eq_true]
  have hspec := integrityMark_spec s n (detail % 8) false addr hst
  generalize integrityMark s n (detail % 8) false addr = u at *
  obtain ⟨hfaults, -, hchain, hlevel⟩ := hspec
  generalize ha : FireArgs.mk srcVltInteg _ _ _ _ _ _ _ _ = a
  have hsrc : a.src = srcVltInteg ∧ a.status = some 0x0303 := ha ▸ ⟨rfl, rfl⟩
  have hn : srcRow a.src ≠ none := hsrc.1 ▸ (by decide)
  obtain ⟨hrest, hfired, -⟩ := fireLevel_spec u a cycle (appliedLevel u a.src a.slice) hn
  have hvault : (fireAt u a cycle).vault = u.vault := (congrArg State.vault hrest :)
  have hkeep : SameFields [Reg.VLT_FAULT_INFO_LEVEL] u (fireAt u a cycle) := fireLevel_same u a cycle _ (by decide)
  refine ⟨_, hfired.trans (by rw [hfaults]), hsrc.1, hsrc.2, ?_, ?_⟩
  · rw [getChain, hvault]
    exact hchain
  · rw [hkeep _ (by decide), hlevel, Nat.mod_mod]

/-! #### A failed key slot (R158) -/

theorem setKey_keys (n : Nat) {k : KeySlot} (h : k ≠ KeySlot.empty) : (setKey s n k).keys = tinsert n k s.keys := if_neg h

theorem getKey_setKey_same (n : Nat) {k : KeySlot} (h : k ≠ KeySlot.empty) : getKey (setKey s n k) n = k := by
  simp only [getKey, setKey_keys s n h, tfind_tinsert_same]

theorem tfind_setKey_other {n m : Nat} {k : KeySlot} (h : k ≠ KeySlot.empty) (hm : m ≠ n) :
    tfind (setKey s n k).keys m = tfind s.keys m := by
  rw [setKey_keys s n h, tfind_tinsert_other _ _ hm]

/-- A key whose check failed, before and after it ends. -/
def failedKey (k : KeySlot) : KeySlot := { k with failed := true }
def endedKey (s : State) (k : KeySlot) : KeySlot :=
  { failedKey k with st := .retired, changed := s.ctxOrder, changedTick := s.tick.count }

theorem failedKey_ne (k : KeySlot) : failedKey k ≠ KeySlot.empty := fun h => nomatch (congrArg KeySlot.failed h :)

theorem endedKey_ne (k : KeySlot) : endedKey s k ≠ KeySlot.empty := fun h => nomatch (congrArg KeySlot.failed h :)

/-- The store after the key at `a` failed. -/
def keyFailed (s : State) (a : Nat) : State := setKey (setKey s a (failedKey (getKey s a))) a (endedKey s (getKey s a))

theorem keyFailed_other {a m : Nat} (hm : m ≠ a) : tfind (keyFailed s a).keys m = tfind s.keys m :=
  (tfind_setKey_other _ (endedKey_ne s _) hm).trans (tfind_setKey_other s (failedKey_ne _) hm)

theorem retireFailed_eq {n a : Nat} (ha : (getKey s n).extOf.getD n = a)
    (h : (getKey s a).st = .active ∨ (getKey s a).st = .spent) :
    retireFailed s n = event (setF (setF (keyFailed s a) Reg.KST_FAULT_INFO_SLOT n) Reg.KST_FAULT_INFO_SLICE
      (getKey s n).owner) Reg.KST_EVT_INTEGRITY := by
  have hl : ((getKey s a).st == .active || (getKey s a).st == .spent) = true := by
    rcases h with h | h <;> simp [h]
  have hend : endKey (setKey s a (failedKey (getKey s a))) a .retired = keyFailed s a := by
    rw [endKey, getKey_setKey_same s a (failedKey_ne _)]
    rfl
  simp only [retireFailed, ha, hl, if_true]
  rw [← hend]
  rfl

/-- The key of a slot whose check failed is RETIRED as failed, and no other key changes. -/
theorem retireFailed_spec {n a : Nat} (ha : (getKey s n).extOf.getD n = a)
    (h : (getKey s a).st = .active ∨ (getKey s a).st = .spent) :
    (retireFailed s n).keys = (keyFailed s a).keys ∧
      getF (retireFailed s n) Reg.KST_FAULT_INFO_SLOT = n % 2 ^ Reg.KST_FAULT_INFO_SLOT.width ∧
      retireFailed s n = { s with regs := (retireFailed s n).regs, keys := (retireFailed s n).keys } := by
  rw [retireFailed_eq s ha h]
  have hrest : keyFailed s a = { s with keys := (keyFailed s a).keys } := rfl
  generalize keyFailed s a = u at *
  refine ⟨rfl, ?_, by rw [hrest]; rfl⟩
  exact ((((SameFields.refl [Reg.KST_FAULT_INFO_SLOT] _).setF _ (by decide)).event (by decide)) _ (by decide)).trans
    (getF_setF_same _ _ (by decide))

theorem getKey_of_keys {t : State} {n : Nat} {k : KeySlot} (h : tfind t.keys n = some k) : getKey t n = k := by
  simp only [getKey, h]

theorem fireSource_key (n acc init addr detail cycle : Nat) (imp : Bool) (slice ctx : Option Nat) {a : Nat}
    (ha : (getKey s n).extOf.getD n = a) (h : (getKey s a).st = .active ∨ (getKey s a).st = .spent) :
    let t := faultSourceFireEffect srcKstInteg acc init addr detail cycle imp slice ctx (.slot n) s
    ∃ f, (getKey t a).st = .retired ∧ (getKey t a).failed = true ∧ (∀ m, m ≠ a → tfind t.keys m = tfind s.keys m) ∧
        getF t Reg.KST_FAULT_INFO_SLOT = n % 2 ^ Reg.KST_FAULT_INFO_SLOT.width ∧
        t.faults.fired = s.faults.fired ++ [f] ∧ f.slice = some (getKey s n).owner ∧
        t = { s with regs := t.regs, faults := t.faults, keys := t.keys } := by
  obtain ⟨hkeys, hslot, hret⟩ := retireFailed_spec s ha h
  have hcause : causeEffect s srcKstInteg slice addr detail (.slot n) = retireFailed s n := rfl
  simp only [faultSourceFireEffect, hcause, causeFires, causeSlice, if_true]
  generalize retireFailed s n = u at *
  generalize harg : FireArgs.mk srcKstInteg _ _ _ _ _ _ _ _ = arg
  have hsrc : arg.src = srcKstInteg ∧ arg.slice = some (getKey s n).owner := harg ▸ ⟨rfl, rfl⟩
  obtain ⟨hrest, hfired, -⟩ := fireLevel_spec u arg cycle (appliedLevel u arg.src arg.slice) (hsrc.1 ▸ by decide)
  have hkeep : SameFields [Reg.KST_FAULT_INFO_SLOT] u (fireAt u arg cycle) := fireLevel_same u arg cycle _ (by decide)
  have hk : (fireAt u arg cycle).keys = (keyFailed s a).keys := (congrArg State.keys hrest :).trans hkeys
  have hget : getKey (fireAt u arg cycle) a = endedKey s (getKey s a) := by
    refine getKey_of_keys ?_
    rw [hk, keyFailed, setKey_keys _ _ (endedKey_ne s _), tfind_tinsert_same]
  have hfaults : u.faults = s.faults := (congrArg State.faults hret :)
  change fireAt u arg cycle = _ at hrest
  change (fireAt u arg cycle).faults.fired = _ at hfired
  generalize fireAt u arg cycle = t at *
  refine ⟨_, by rw [hget]; rfl, by rw [hget]; rfl, fun m hm => ?_, (hkeep _ (by decide)).trans hslot,
    hfired.trans (by rw [hfaults]), hsrc.2, by rw [hrest, hret]⟩
  rw [hk, keyFailed_other s hm]

theorem sourcesFire : SourcesFire := by
  intro s src acc init addr detail cycle imp slice ctx
  refine ⟨fun h => congrArg Host.Outcome.next (fireSource_reserved s acc init addr detail cycle imp slice ctx h),
    fun r hr hf hs hv hh => ?_, ?_, ?_, ?_⟩
  · have he : faultSourceFireEffect src acc init addr detail cycle imp slice ctx .other s =
        fireAt s ⟨src, slice, ctx, none, acc, init, addr, detail, imp⟩ cycle := by
      simp [faultSourceFireEffect, causeEffect_plain s slice addr detail hf hs hv hh, causeFires, causeSlice, hv]
    exact ⟨_, congrArg Host.Outcome.next he, fireAt_fires s ⟨src, slice, ctx, none, acc, init, addr, detail, imp⟩ cycle hr⟩
  · rintro rfl h
    exact ⟨_, rfl, fireSource_health s acc init addr detail cycle imp slice ctx h⟩
  · rintro n rfl h hst
    obtain ⟨f, hf⟩ := fireSource_vault s acc init addr detail cycle imp slice ctx h hst
    exact ⟨_, f, rfl, hf⟩
  · rintro n rfl
    intro a h
    obtain ⟨f, hf⟩ := fireSource_key s n acc init addr detail cycle imp slice ctx (a := a) rfl h
    exact ⟨_, f, rfl, hf⟩

/-! ### The collector's own rows (R372, R377, R379) -/

theorem fclSelf_agrees : ∃ t, exec (.fclSelf true) s = .next t ∧ fires s t srcFclSelf 0 ∧ t.faults.safeDue = true ∧
    srcPending t srcFclSelf = true ∧ t = { s with regs := t.regs, faults := t.faults, freeCtr := t.freeCtr } := by
  have hn : srcRow (FireArgs.plain srcFclSelf none).src ≠ none := by decide
  obtain ⟨cycle, hrest, hfired, -⟩ := fire_spec s (FireArgs.plain srcFclSelf none) hn
  have hpend : srcPending (fire s (FireArgs.plain srcFclSelf none)) srcFclSelf = true :=
    fireLevel_pending (drawBelow 2048 s).2 (FireArgs.plain srcFclSelf none) _ _ hn
  have he : fclSelfEffect true s = setFaults (fire s (FireArgs.plain srcFclSelf none))
      { (fire s (FireArgs.plain srcFclSelf none)).faults with safeDue := true } := rfl
  refine ⟨_, congrArg Host.Outcome.next he, ?_⟩
  generalize fire s (FireArgs.plain srcFclSelf none) = u at *
  exact ⟨⟨_, hfired, rfl, rfl, rfl⟩, rfl, hpend, by rw [hrest]; rfl⟩

theorem fclPendClear_clears (n : Nat) (v : Word) (hn : n < 16) (hs : s.faults.safe = false) :
    ∃ t, exec (.fclPendClear n v) s = .next t ∧
    (∀ src, src ∈ t.faults.clears ↔ src ∈ s.faults.clears ∨
      (src / 32 = n ∧ v.getLsbD (src % 32) = true ∧ srcPending s src = true)) ∧
    t = { s with faults := { s.faults with clears := t.faults.clears } } := by
  have he : fclPendClearEffect n v s = setFaults s { s.faults with
      clears := s.faults.clears ++ (clearedSources s n v).filter (fun c => !s.faults.clears.contains c) } := by
    simp [fclPendClearEffect, hs, Nat.not_le.mpr hn]
  refine ⟨_, congrArg Host.Outcome.next he, fun src => ?_, rfl⟩
  have hnew : src ∈ clearedSources s n v ↔ src / 32 = n ∧ v.getLsbD (src % 32) = true ∧ srcPending s src = true := by
    simp only [clearedSources, List.mem_filter, List.mem_map, List.mem_range, Bool.and_eq_true]
    refine and_congr_left fun _ => ⟨?_, fun h => ⟨src % 32, Nat.mod_lt _ (by decide), by omega⟩⟩
    rintro ⟨i, hi, rfl⟩
    omega
  change src ∈ _ ++ _ ↔ _
  rw [← hnew, List.mem_append, List.mem_filter]
  by_cases hc : src ∈ s.faults.clears <;> simp [hc]

theorem collectorRows : CollectorRows := by
  refine ⟨fclSelf_agrees, fun s => ⟨_, rfl, flag_setFlag_same _ false (by decide) (by decide), rfl⟩,
    fun s n v hn hs => fclPendClear_clears s n v hn hs, fun s v hv hs => ?_⟩
  have he : fclRearmEffect v s = rearm s := by simp [fclRearmEffect, hv, hs]
  exact ⟨_, congrArg Host.Outcome.next he, flag_setFlag_same _ false (by decide) (by decide), rfl⟩

end Sys2Proof.Proofs

namespace Sys2Proof.Proofs
open Sys2Proof Sys2Proof.Machine Sys2Proof.Claims
variable (s : State)

/-- A relation that every step of a fold keeps holds across the fold. -/
theorem foldl_rel {α : Type} {R : State → State → Prop} (hrefl : ∀ x, R x x) (htrans : ∀ {x y z}, R x y → R y z → R x z)
    {f : State → α → State} (hf : ∀ x a, R x (f x a)) (l : List α) (s : State) : R s (l.foldl f s) := by
  induction l generalizing s with
  | nil => exact hrefl s
  | cons a l ih => exact htrans (hf s a) (ih _)

/-! ### What the host queue block sends on entry to the safe state (R82) -/

/-- Host writes and messages leave the device: besides them, only slices with their logs, queues, pending vectors and
registers outside `watched` differ. -/
structure Sent (s t : State) : Prop where
  rest : t = { s with regs := t.regs, out := t.out, slices := t.slices, queues := t.queues, msixPba := t.msixPba }
  fields : SameFields watched s t

namespace Sent
variable {s t u : State}

theorem refl (s : State) : Sent s s := ⟨rfl, .refl _ _⟩
theorem trans (h : Sent s t) (k : Sent t u) : Sent s u := ⟨by rw [k.rest, h.rest], h.fields.trans k.fields⟩
theorem of_rest (h : t = { s with out := t.out, slices := t.slices, queues := t.queues, msixPba := t.msixPba }) : Sent s t :=
  ⟨by rw [h], .of_regs (congrArg State.regs h :)⟩
theorem foldl {α : Type} {f : State → α → State} (h : Sent s t) (hf : ∀ x a, Sent x (f x a)) (l : List α) :
    Sent s (l.foldl f t) := h.trans (foldl_rel Sent.refl Sent.trans hf l t)
end Sent

theorem logWrite_sent (slice l : Nat) (pas : Option Nat) (addr len : Nat) : Sent s (logWrite s slice l pas addr len) := by
  unfold logWrite
  dsimp only
  split
  · exact .refl s
  · refine Sent.foldl ?_ (fun x g => ?_) _
    · exact .of_rest rfl
    · exact .of_rest rfl

theorem sendHost_sent (slice : Nat) (pas : Option Nat) (addr : Nat) (b : Bytes) : Sent s (sendHost s slice pas addr b) :=
  Sent.foldl (.of_rest rfl) (fun x l => logWrite_sent x slice l pas addr _) _

theorem raiseMsix_sent (slice vec : Nat) : Sent s (raiseMsix s slice vec) := by
  unfold raiseMsix
  split
  · exact .of_rest rfl
  · exact .of_rest rfl

theorem setQueue_sent (slice queue : Nat) (q : Queue) : Sent s (setQueue s slice queue q) := .of_rest rfl

theorem writeOwed_sent (x : State × List (Nat × Nat)) (e : Completion) : Sent x.1 (writeOwed x e).1 := by
  unfold writeOwed
  dsimp only
  split
  · exact .refl _
  split
  · exact ⟨rfl, (SameFields.refl _ _).countReg _ (by decide)⟩
  · exact (sendHost_sent _ _ _ _ _).trans (setQueue_sent _ _ _ _)

theorem writeAllOwed_sent (l : List Completion) (x : State × List (Nat × Nat)) : Sent x.1 (l.foldl writeOwed x).1 := by
  induction l generalizing x with
  | nil => exact .refl _
  | cons e l ih => exact (writeOwed_sent x e).trans (ih _)

/-- Everything owed is written, and its messages are sent. -/
def owedSent (s : State) : State :=
  ((owedAll s).foldl writeOwed (s, [])).2.foldl (fun s v => raiseMsix s v.1 v.2) ((owedAll s).foldl writeOwed (s, [])).1

theorem owedSent_sent : Sent s (owedSent s) := by
  have h : Sent s ((owedAll s).foldl writeOwed (s, [])).1 := writeAllOwed_sent (owedAll s) (s, [])
  unfold owedSent
  generalize (owedAll s).foldl writeOwed (s, []) = r at *
  exact h.foldl (fun x (v : Nat × Nat) => raiseMsix_sent x v.1 v.2) _

/-- No command, entry or plan is left, and every listed queue is held. -/
def emptied (s : State) : State :=
  { s with
    compls := [], fetched := [], ctxs := [], ghosts := [], plans := [], ctrlUse := [], compEnd := []
    queues := s.queues.map (fun q => (q.1, { q.2 with st := .held, heldFetch := 0, staged := none })) }

/-- The queues of a list are held. -/
def holdAll (s : State) (l : List (Nat × Nat)) : State :=
  l.foldl (fun s k => setQueue s k.1 k.2 { getQueue s k.1 k.2 with st := .held }) s

theorem holdAll_rest (l : List (Nat × Nat)) : holdAll s l = { s with queues := (holdAll s l).queues } := by
  induction l generalizing s with
  | nil => rfl
  | cons k l ih =>
    rw [holdAll, List.foldl_cons]
    exact (ih _).trans rfl

/-- A queue that is written as held leaves no queue that is not. -/
theorem holdAll_held (l : List (Nat × Nat)) (h : s.queues.all (fun e => e.2.st == .held) = true) :
    (holdAll s l).queues.all (fun e => e.2.st == .held) = true := by
  induction l generalizing s with
  | nil => exact h
  | cons k l ih => exact ih _ (all_tput h rfl)

/-- The queues that a slice's layout or the admin pair gives. -/
def heldPairs (s : State) : List (Nat × Nat) :=
  s.slices.flatMap (fun x => (List.range x.2.cfg.pairs).map (fun q => (x.1, q))) ++ [(0, adminQ)]

theorem safeQueues_eq : safeQueues s = event (setFlag (holdAll (emptied (owedSent s)) (heldPairs (emptied (owedSent s))))
    Reg.HQ_STAT_SAFE true) Reg.HQ_EVT_SAFE_DONE := rfl

/-- What stands after the host queue block has stopped. -/
theorem safeQueues_spec :
    let t := safeQueues s
    (∃ sl pba out, t = { s with
      regs := t.regs, out := out, slices := sl, queues := t.queues, msixPba := pba
      compls := [], fetched := [], ctxs := [], ghosts := [], plans := [], ctrlUse := [], compEnd := [] }) ∧
    (∀ e ∈ t.queues, e.2.st = .held) ∧ flag t Reg.HQ_STAT_SAFE = true ∧ SameFields [Reg.FCL_STAT_SAFE] s t := by
  rw [safeQueues_eq]
  obtain ⟨hrest, hfields⟩ := owedSent_sent s
  generalize owedSent s = u at *
  have hr := holdAll_rest (emptied u) (heldPairs (emptied u))
  have hh := holdAll_held (emptied u) (heldPairs (emptied u))
    (by simp [emptied])
  generalize holdAll (emptied u) (heldPairs (emptied u)) = v at *
  refine ⟨⟨u.slices, u.msixPba, u.out, ?_⟩, ?_, ?_, ?_⟩
  · rw [hr, hrest]
    rfl
  · exact fun e he => by simpa using List.all_eq_true.mp hh e he
  · exact (((SameFields.refl [Reg.HQ_STAT_SAFE] _).event (by decide)).flag (by decide)).trans
      (flag_setFlag_same _ true (by decide) (by decide))
  · have h1 : SameFields [Reg.FCL_STAT_SAFE] s v := hfields.mono.trans (.of_regs (congrArg State.regs hr :))
    exact (h1.setFlag _ (by decide)).event (by decide)

/-! ### Zeroisation (R26, R190, R266) -/

/-- The key store, the SRAM and the vault are zeroised. -/
def storesLost (s : State) : State :=
  setFlag (loseVault (zeroiseSram { zeroiseStore s with
    records := s.records.filter (fun r => !doomed (getKey s r.slot)) })) Reg.KST_STAT_DOMAIN false

/-- The entropy block's states are cleared. -/
def rngLost (s : State) : State :=
  let s1 := answerWaiting s
  let s2 := childSync (maskSync { s1 with rng := { s1.rng with
    seeded := false, masks := false, maskSeeds := [], services := false, children := [], drbgs := [], wanting := [], fifo := []
    words := [], chanReads := [], raw := [], root := ⟨[], []⟩ } })
  setFlag (setFlag s2 Reg.RNG_STAT_READY false) Reg.RNG_STAT_ERR true

theorem safeZeroise_eq : safeZeroise s = rngLost (storesLost s) := rfl

theorem tombSync_rest : tombSync s = { s with regs := (tombSync s).regs } := rfl

theorem maskSync_rest : maskSync s = { s with regs := (maskSync s).regs } := by
  unfold maskSync
  dsimp only
  split <;> split <;> split <;> rfl

end Sys2Proof.Proofs

namespace Sys2Proof.Proofs
open Sys2Proof Sys2Proof.Machine Sys2Proof.Claims
variable (s : State)

theorem tfind_mem {α : Type} {m : List (Nat × α)} {k : Nat} {v : α} (h : tfind m k = some v) : (k, v) ∈ m := by
  induction m with
  | nil => cases h
  | cons e m ih =>
    obtain ⟨q, w⟩ := e
    rw [tfind] at h
    split at h
    next hq => cases h; simp [hq]
    next => exact List.mem_cons_of_mem _ (ih h)

/-- An emptied key: only its generation is left. -/
def blank (k : KeySlot) : Prop := k = { KeySlot.empty with gen := k.gen }

theorem getKey_blank (h : ∀ e ∈ s.keys, blank e.2) (n : Nat) : blank (getKey s n) := by
  unfold getKey
  split
  next k hk => exact h _ (tfind_mem hk)
  next => exact rfl

theorem zeroiseStore_blank : ∀ e ∈ (zeroiseStore s).keys, blank e.2 := by
  intro e he
  obtain ⟨x, -, rfl⟩ := List.mem_map.mp he
  exact rfl

/-- The flags of the safe state. -/
def safeFlags : List Fld := [Reg.FCL_STAT_SAFE, Reg.HQ_STAT_SAFE]

theorem loseVault_spec :
    let t := loseVault s
    t = { s with regs := t.regs, records := t.records, vault := t.vault } ∧
    t.vault.buckets = [] ∧ t.vault.tree = ⟨[], [], [], [], []⟩ ∧ flag t Reg.DDR_STAT_SREF = true ∧ SameFields safeFlags s t := by
  unfold loseVault
  dsimp only
  generalize hu : setVault (loseRecords s fun _ => true) _ = u
  have hrest : u = { s with records := u.records, vault := u.vault } := hu ▸ rfl
  have hb : u.vault.buckets = [] := hu ▸ rfl
  have ht : u.vault.tree = ⟨[], [], [], [], []⟩ := hu ▸ rfl
  have hsync : SameFields (Reg.DDR_STAT_SREF :: safeFlags) (setFlag u Reg.DDR_STAT_SREF true)
      (tombSync (setFlag u Reg.DDR_STAT_SREF true)) := (SameFields.refl _ _).setFlag _ (by decide)
  refine ⟨?_, hb, ht, (hsync.flag (by decide)).trans (flag_setFlag_same _ true (by decide) (by decide)), ?_⟩
  · rw [tombSync_rest, hrest]
    rfl
  · exact ((SameFields.of_regs (congrArg State.regs hrest :)).setFlag _ (by decide)).trans hsync.mono

theorem storesLost_spec :
    let t := storesLost s
    (∃ fr tb, t = { s with
      regs := t.regs, keys := (zeroiseStore s).keys, slotTable := tb, freed := fr, records := t.records
      recordDue := [], reserveDue := [], vault := t.vault, sram := ⟨[], []⟩, mem := [], tags := [] }) ∧
    t.vault.buckets = [] ∧ t.vault.tree = ⟨[], [], [], [], []⟩ ∧ flag t Reg.DDR_STAT_SREF = true ∧
    flag t Reg.KST_STAT_DOMAIN = false ∧ SameFields safeFlags s t := by
  unfold storesLost
  dsimp only
  generalize hz : zeroiseSram _ = z
  have hrest : z = { s with
      keys := (zeroiseStore s).keys, slotTable := (zeroiseStore s).slotTable, freed := (zeroiseStore s).freed
      records := z.records, recordDue := [], reserveDue := [], sram := ⟨[], []⟩, mem := [], tags := [] } := hz ▸ rfl
  obtain ⟨hlose, hb, ht, hsref, hkeep⟩ := loseVault_spec z
  generalize loseVault z = v at *
  refine ⟨⟨(zeroiseStore s).freed, (zeroiseStore s).slotTable, ?_⟩, hb, ht, ?_, flag_setFlag_same _ false (by decide) (by decide), ?_⟩
  · rw [hlose, hrest]
    rfl
  · exact (((SameFields.refl [Reg.DDR_STAT_SREF] v).setFlag _ (by decide)).flag (by decide)).trans hsref
  · exact ((SameFields.of_regs (congrArg State.regs hrest :)).trans hkeep).setFlag _ (by decide)

/-- The entropy block's states, cleared. -/
def rngCleared (r : Rng) : Rng :=
  { r with
    seeded := false, masks := false, maskSeeds := [], services := false, children := [], drbgs := [], wanting := [], fifo := []
    words := [], chanReads := [], raw := [], root := ⟨[], []⟩ }

/-- A mask flag follows the masks; only it and its event are written. -/
theorem maskPut_same {fs : List Fld} {f e : Fld} (hf : shuns fs f = true) (he : shuns fs e = true) :
    SameFields fs s (if flag s f && !s.rng.masks then event (setFlag s f s.rng.masks) e else setFlag s f s.rng.masks) :=
  .ite (((SameFields.refl fs s).setFlag _ hf).event he) ((SameFields.refl fs s).setFlag _ hf)

theorem maskSync_same {fs : List Fld} (h : shunsAll fs [Reg.NDL_STAT_MASK_OK, Reg.NDL_EVT_MASK_LOST, Reg.LDU_STAT_MASK_OK,
    Reg.LDU_EVT_MASK_LOST, Reg.PUR_STAT_MASK_OK, Reg.PUR_EVT_MASK_LOST] = true) : SameFields fs s (maskSync s) :=
  ((maskPut_same s (shuns_of_all h) (shuns_of_all h)).trans (maskPut_same _ (shuns_of_all h) (shuns_of_all h))).trans
    (maskPut_same _ (shuns_of_all h) (shuns_of_all h))

theorem rngLost_spec :
    let t := rngLost s
    (∃ out ps, t = { s with regs := t.regs, out := out, posts := ps, rng := t.rng }) ∧
    t.rng = rngCleared (answerWaiting s).rng ∧ flag t Reg.RNG_STAT_ERR = true ∧
    SameFields (Reg.DDR_STAT_SREF :: Reg.KST_STAT_DOMAIN :: safeFlags) s t := by
  unfold rngLost
  dsimp only
  have hrest := answerWaiting_rest s
  generalize answerWaiting s = u at *
  generalize hv : ({ u with rng := _ } : State) = v
  have hv' : v = { u with rng := rngCleared u.rng } := hv ▸ rfl
  have hm := maskSync_rest v
  have hk : SameFields (Reg.DDR_STAT_SREF :: Reg.KST_STAT_DOMAIN :: safeFlags) v (maskSync v) := maskSync_same v (by decide)
  generalize maskSync v = w at *
  refine ⟨⟨u.out, u.posts, ?_⟩, ?_, flag_setFlag_same _ true (by decide) (by decide), ?_⟩
  · rw [childSync, hm, hv', hrest]
    rfl
  · exact (congrArg State.rng hm :).trans (congrArg State.rng hv' :)
  · have h0 : SameFields (Reg.DDR_STAT_SREF :: Reg.KST_STAT_DOMAIN :: safeFlags) s v :=
      .of_regs ((congrArg State.regs hv' :).trans (congrArg State.regs hrest :))
    exact (((h0.trans hk).setF _ (by decide)).setFlag _ (by decide)).setFlag _ (by decide)

/-! ### Everything else stops (R378) -/

/-- The flags that entry to the safe state has set by the time the blocks stop. -/
def stopFlags : List Fld := [Reg.FCL_STAT_SAFE, Reg.HQ_STAT_SAFE, Reg.DDR_STAT_SREF, Reg.RNG_STAT_ERR, Reg.KST_STAT_DOMAIN]

theorem safeStop_spec :
    let t := safeStop s
    t = { s with regs := t.regs, tick := t.tick, slices := t.slices, posts := t.posts } ∧ (∀ p ∈ t.posts, p.2.run = false) ∧
    SameFields stopFlags s t := by
  refine ⟨rfl, fun p hp => ?_, ?_⟩
  · obtain ⟨x, -, rfl⟩ := List.mem_map.mp hp
    rfl
  · exact (SameFields.trans (.of_regs rfl) ((SameFields.refl _ _).setFlag _ (by decide))).setFlag _ (by decide)

/-- Only the officers' state and registers outside `stopFlags` differ. -/
structure OfcOnly (s t : State) : Prop where
  rest : t = { s with regs := t.regs, ofc := t.ofc }
  fields : SameFields stopFlags s t

theorem OfcOnly.trans {s t u : State} (h : OfcOnly s t) (k : OfcOnly t u) : OfcOnly s u :=
  ⟨by rw [k.rest, h.rest], h.fields.trans k.fields⟩

theorem setF_ofcOnly {f : Fld} (v : Nat) (h : shuns stopFlags f = true) : OfcOnly s (setF s f v) :=
  ⟨rfl, (SameFields.refl _ _).setF v h⟩

theorem setReg_ofcOnly {k : Nat} (w : Word) (h : shunsKey stopFlags k = true) : OfcOnly s (setReg s k w) :=
  ⟨rfl, (SameFields.refl _ _).setReg w h⟩

/-- OFC_STAT, the words of the staged change and TIK_STAT follow the change. -/
theorem shownChange_ofcOnly (a b : Bool) (w1 w2 w3 w4 : Word) :
    OfcOnly s (setFlag (setReg (setReg (setReg (setReg (setFlag s Reg.OFC_STAT_STAGED a) Reg.OFC_GUARD w1) Reg.OFC_CHG_LO w2)
      Reg.OFC_CHG_HI w3) Reg.OFC_CHG_EXP w4) Reg.TIK_STAT_STAGED b) :=
  (((((setF_ofcOnly s _ (by decide)).trans (setReg_ofcOnly _ _ (by decide))).trans (setReg_ofcOnly _ _ (by decide))).trans
    (setReg_ofcOnly _ _ (by decide))).trans (setReg_ofcOnly _ _ (by decide))).trans (setF_ofcOnly _ _ (by decide))

theorem guardSync_ofcOnly : OfcOnly s (guardSync s) := by
  unfold guardSync
  split
  · exact shownChange_ofcOnly s _ _ _ _ _ _
  · exact shownChange_ofcOnly s _ _ _ _ _ _

theorem setOfc_ofcOnly (o : Ofc) : OfcOnly s (setOfc s o) := ⟨rfl, .of_regs rfl⟩

theorem setChange_ofcOnly (c : Option Change) : OfcOnly s (setChange s c) := (setOfc_ofcOnly s _).trans (guardSync_ofcOnly _)

theorem setCard_ofcOnly (i : Nat) (x : CardSlot) : OfcOnly s (setCard s i x) := by
  unfold setCard
  split
  · exact setOfc_ofcOnly s _
  · exact setOfc_ofcOnly s _

/-- Without a context, a failing admin command leaves its error alone. -/
theorem ofcFail_ofcOnly (n reason : Nat) (h : s.ctxs = []) : OfcOnly s (ofcFail s n reason) := by
  have he : ∀ x : State, x.ctxs = [] → ∀ r, adminEnd x n r = x := fun x hx r => by simp [adminEnd, getCtx, hx, tfind]
  unfold ofcFail
  dsimp only
  rw [he (ofcError _ _ _) h]
  exact (setF_ofcOnly s _ (by decide)).trans (setF_ofcOnly _ _ (by decide))

theorem guardDrop_ofcOnly (reason : Nat) (h : s.ctxs = []) : OfcOnly s (guardDrop s reason) := by
  unfold guardDrop
  split
  · exact ⟨rfl, .refl _ _⟩
  · have hc := setChange_ofcOnly s none
    dsimp only
    split
    · exact hc.trans (ofcFail_ofcOnly _ _ _ ((congrArg State.ctxs hc.rest :).trans h))
    · exact hc

theorem slotFld_shuns (i : Nat) (hi : i < 2) : shuns stopFlags (slotFld i Reg.OFC_SLOTA_OFFICER) = true ∧
    shuns stopFlags (slotFld i Reg.OFC_SLOTA_KIND) = true ∧ shuns stopFlags (slotFld i Reg.OFC_SLOTA_STATE) = true := by
  revert i; decide

theorem endSession_ofcOnly (i : Nat) (hi : i < 2) : OfcOnly s (endSession s i) := by
  unfold endSession
  split
  · exact ⟨rfl, .refl _ _⟩
  · have h1 := setF_ofcOnly s 0 (slotFld_shuns i hi).1
    dsimp only
    split
    · exact h1
    · exact h1.trans (setChange_ofcOnly _ _)

theorem deactivateCard_ofcOnly (i : Nat) (hi : i < 2) : OfcOnly s (deactivateCard s i) :=
  (((endSession_ofcOnly s i hi).trans (setCard_ofcOnly _ _ _)).trans (setF_ofcOnly _ _ (slotFld_shuns i hi).2.1)).trans
    (setF_ofcOnly _ _ (slotFld_shuns i hi).2.2)

theorem ofcSafe_ofcOnly (h : s.ctxs = []) : OfcOnly s (ofcSafe s) := by
  have h1 : OfcOnly s (setCer (guardDrop s 16) none) :=
    ((guardDrop_ofcOnly s 16 h).trans (setOfc_ofcOnly _ _)).trans ⟨rfl, (SameFields.refl _ _).setFlag _ (by decide)⟩
  unfold ofcSafe
  dsimp only
  generalize setCer (guardDrop s 16) none = u at *
  have h2 : OfcOnly s (if getF u Reg.OFC_CER_STATE == 0 then u else setF u Reg.OFC_CER_STATE 5) := by
    split
    · exact h1
    · exact h1.trans (setF_ofcOnly _ _ (by decide))
  exact (h2.trans (deactivateCard_ofcOnly _ 0 (by decide))).trans (deactivateCard_ofcOnly _ 1 (by decide))

theorem linkForget_spec :
    let t := linkForget s
    t = { s with regs := t.regs, link := t.link } ∧ t.link.sessions = [] ∧ t.link.secure = [] ∧ t.link.ideKeys = [] ∧
    SameFields stopFlags s t := by
  refine ⟨rfl, rfl, rfl, rfl, ?_⟩
  exact ((SameFields.trans (.of_regs rfl) ((SameFields.refl _ _).setFlag _ (by decide))).setF _ (by decide)).setF _ (by decide)

end Sys2Proof.Proofs

namespace Sys2Proof.Proofs
open Sys2Proof Sys2Proof.Machine Sys2Proof.Claims
variable (s : State)

/-! ### Entry to the safe state (R378) -/

/-- The collector has entered the safe state; every other block still has to. -/
def safeMarked (s : State) : State :=
  setFlag { s with faults := { s.faults with safe := true, safeDue := false } } Reg.FCL_STAT_SAFE true

/-- The queues have stopped and everything secret is zeroised. -/
def safeCleared (s : State) : State := safeZeroise (safeQueues (classOneEnd (safeMarked s)))

theorem enterSafe_eq (h : s.faults.safe = false) : enterSafe s = linkForget (ofcSafe (nvSafe (safeStop (safeCleared s)))) := by
  simp only [enterSafe, h]
  rfl

/-- What entry to the safe state clears and holds; the parts that the blocks stopped last leave as they are. -/
structure Cleared (s t : State) : Prop where
  safe : t.faults.safe = true
  stop : ∀ f ∈ stopFlags, flag t f = (f != Reg.KST_STAT_DOMAIN)
  ctxs : t.ctxs = []
  fetched : t.fetched = []
  compls : t.compls = []
  plans : t.plans = []
  queues : ∀ e ∈ t.queues, e.2.st = .held
  keys : ∀ e ∈ t.keys, blank e.2
  tombPend : t.tombPend = s.tombPend
  mem : t.mem = []
  tags : t.tags = []
  sram : t.sram = ⟨[], []⟩
  buckets : t.vault.buckets = []
  tree : t.vault.tree = ⟨[], [], [], [], []⟩
  rng : ∃ r, t.rng = rngCleared r

theorem safeMarked_flag : flag (safeMarked s) Reg.FCL_STAT_SAFE = true := flag_setFlag_same _ true (by decide) (by decide)

theorem safeCleared_cleared : Cleared s (safeCleared s) := by
  have hmark := safeMarked_flag s
  have hmarked : (safeMarked s).tombPend = s.tombPend ∧ (safeMarked s).faults.safe = true := ⟨rfl, rfl⟩
  unfold safeCleared
  rw [safeZeroise_eq]
  generalize safeMarked s = m at *
  have hend := classOneEnd_classOne m
  generalize classOneEnd m = u at *
  obtain ⟨⟨sl, pba, out, hqueues⟩, hheld, hhq, hfcl⟩ := safeQueues_spec u
  generalize safeQueues u = q at *
  obtain ⟨⟨fr, tb, hstores⟩, hbuckets, htree, hsref, hdom, hkeep⟩ := storesLost_spec q
  have hblank := zeroiseStore_blank q
  generalize storesLost q = z at *
  obtain ⟨⟨out', ps, hrest⟩, hrng, herr, hsame⟩ := rngLost_spec z
  generalize rngLost z = t at *
  generalize zeroiseStore q = k at *
  have hvault : t.vault = z.vault := (congrArg State.vault hrest :)
  have hqu : t.queues = q.queues := (congrArg State.queues hrest :).trans (congrArg State.queues hstores :)
  have hkeys : t.keys = k.keys := (congrArg State.keys hrest :).trans (congrArg State.keys hstores :)
  have hfaults : t.faults = u.faults :=
    ((congrArg State.faults hrest :).trans (congrArg State.faults hstores :)).trans (congrArg State.faults hqueues :)
  have htomb : t.tombPend = m.tombPend :=
    (((congrArg State.tombPend hrest :).trans (congrArg State.tombPend hstores :)).trans
      (congrArg State.tombPend hqueues :)).trans (congrArg State.tombPend hend.rest :)
  have hflags : flag t Reg.FCL_STAT_SAFE = true ∧ flag t Reg.HQ_STAT_SAFE = true ∧ flag t Reg.DDR_STAT_SREF = true ∧
      flag t Reg.RNG_STAT_ERR = true ∧ flag t Reg.KST_STAT_DOMAIN = false := by
    refine ⟨?_, ?_, (hsame.flag (by decide)).trans hsref, herr, (hsame.flag (by decide)).trans hdom⟩
    · rw [hsame.flag (by decide), hkeep.flag (by decide), hfcl.flag (by decide), hend.fields.flag (by decide), hmark]
    · rw [hsame.flag (by decide), hkeep.flag (by decide), hhq]
  exact {
    safe := by rw [hfaults, hend.safe, hmarked.2]
    stop := by
      obtain ⟨h1, h2, h3, h4, h5⟩ := hflags
      simpa [stopFlags, h1, h2, h3, h4, h5] using by decide
    ctxs := by rw [hrest, hstores, hqueues]
    fetched := by rw [hrest, hstores, hqueues]
    compls := by rw [hrest, hstores, hqueues]
    plans := by rw [hrest, hstores, hqueues]
    queues := hqu ▸ hheld
    keys := hkeys ▸ hblank
    tombPend := htomb.trans hmarked.1
    mem := by rw [hrest, hstores]
    tags := by rw [hrest, hstores]
    sram := by rw [hrest, hstores]
    buckets := by rw [hvault, hbuckets]
    tree := by rw [hvault, htree]
    rng := ⟨_, hrng⟩ }

/-- The blocks that stop last leave everything cleared. -/
theorem Cleared.stopped {s t u : State} (h : Cleared s t)
    (hrest : u = { t with
      regs := u.regs, tick := u.tick, slices := u.slices, posts := u.posts, nv := u.nv, sill := u.sill, lms := u.lms
      faults := u.faults, freeCtr := u.freeCtr, ofc := u.ofc, link := u.link })
    (hsafe : u.faults.safe = t.faults.safe) (hfields : SameFields stopFlags t u) : Cleared s u where
  safe := hsafe.trans h.safe
  stop := fun f hf => (hfields.flag hf).trans (h.stop f hf)
  ctxs := (congrArg State.ctxs hrest :).trans h.ctxs
  fetched := (congrArg State.fetched hrest :).trans h.fetched
  compls := (congrArg State.compls hrest :).trans h.compls
  plans := (congrArg State.plans hrest :).trans h.plans
  queues := (congrArg State.queues hrest :) ▸ h.queues
  keys := (congrArg State.keys hrest :) ▸ h.keys
  tombPend := (congrArg State.tombPend hrest :).trans h.tombPend
  mem := (congrArg State.mem hrest :).trans h.mem
  tags := (congrArg State.tags hrest :).trans h.tags
  sram := (congrArg State.sram hrest :).trans h.sram
  buckets := (congrArg (·.vault.buckets) hrest :).trans h.buckets
  tree := (congrArg (·.vault.tree) hrest :).trans h.tree
  rng := (congrArg State.rng hrest :) ▸ h.rng

theorem enterSafe_cleared (h : s.faults.safe = false) :
    Cleared s (enterSafe s) ∧ (∀ p ∈ (enterSafe s).posts, p.2.run = false) ∧ (enterSafe s).link.sessions = [] ∧
      (enterSafe s).link.secure = [] ∧ (enterSafe s).link.ideKeys = [] := by
  rw [enterSafe_eq s h]
  have hc := safeCleared_cleared s
  generalize safeCleared s = c at *
  obtain ⟨hstop, hposts, hsame1⟩ := safeStop_spec c
  generalize safeStop c = p at *
  have hp : Cleared s p := hc.stopped (by rw [hstop]) (congrArg (·.faults.safe) hstop :) hsame1
  have hnv := nvSafe_upkeep p
  generalize nvSafe p = n at *
  have hn : Cleared s n := hp.stopped (by rw [hnv.rest]) hnv.safe hnv.fields.mono
  have hofc := ofcSafe_ofcOnly n hn.ctxs
  generalize ofcSafe n = o at *
  have ho : Cleared s o := hn.stopped (by rw [hofc.rest]) (congrArg (·.faults.safe) hofc.rest :) hofc.fields
  obtain ⟨hlink, hsess, hsec, hide, hsame2⟩ := linkForget_spec o
  generalize linkForget o = t at *
  have hpo : t.posts = p.posts := by rw [hlink, hofc.rest, hnv.rest]
  exact ⟨ho.stopped (by rw [hlink]) (congrArg (·.faults.safe) hlink :) hsame2, hpo ▸ hposts, hsess, hsec, hide⟩

theorem safeStateIsEntered : SafeStateIsEntered := by
  refine fun s => ⟨fun h => ?_, fun hh hd hs => ?_, fun hh hd hs => ?_⟩
  · have he : (if s.boot.held then s else safeIfDue s) = s := by
      rcases h with h | h <;> simp [safeIfDue, h]
    exact congrArg Host.Outcome.next he
  · have he : (if s.boot.held then s else safeIfDue s) = { s with faults := { s.faults with safeDue := false } } := by
      simp [safeIfDue, enterSafe, hh, hd, hs]
    exact congrArg Host.Outcome.next he
  · have he : (if s.boot.held then s else safeIfDue s) = enterSafe s := by simp [safeIfDue, hh, hd]
    obtain ⟨hc, hposts, hsess, hsec, hide⟩ := enterSafe_cleared s hs
    refine ⟨_, congrArg Host.Outcome.next he, ?_⟩
    generalize enterSafe s = t at *
    obtain ⟨r, hr⟩ := hc.rng
    rw [hr]
    exact ⟨hc.safe, hc.stop _ (by decide), hc.stop _ (by decide), hc.ctxs, hc.fetched, hc.compls, hc.plans, hc.queues,
      getKey_blank t hc.keys, hc.tombPend, hc.mem, hc.tags, hc.sram, hc.buckets, hc.tree, hc.stop _ (by decide), rfl, rfl, rfl,
      rfl, rfl, rfl, hc.stop _ (by decide), hc.stop _ (by decide), hposts, hsess, hsec, hide⟩

/-- Settles O39: what a firing writes, the collector's rows one by one, and entry to the safe state block after block. -/
theorem faultsAndSafeState : Obligations.FaultsAndSafeState := ⟨sourcesFire, collectorRows, safeStateIsEntered⟩

end Sys2Proof.Proofs
